-- ==== Sys2Proof/Word.lean ====
section
/-!
DEFINITION. Words and bytes (R8), and the plainest arithmetic on them.
-/

namespace Sys2Proof

/-- A word is 32 bits (R8). -/
abbrev Word := BitVec 32

/-- A byte. -/
abbrev Byte := BitVec 8

/-- A byte from a number, keeping its low 8 bits. -/
def byteOf (n : Nat) : Byte := BitVec.ofNat 8 n

/-- A word from a number, keeping its low 32 bits. -/
def wordOf (n : Nat) : Word := BitVec.ofNat 32 n

/-- Bits hi to lo of a number. -/
def natBits (n hi lo : Nat) : Nat := n / 2 ^ lo % 2 ^ (hi + 1 - lo)

/-- One bit of a number. -/
def natBit (n i : Nat) : Bool := n / 2 ^ i % 2 == 1

/-- 1 for true. -/
def b2n (b : Bool) : Nat := if b then 1 else 0

end Sys2Proof
end

