-- ==== Sys2Proof/Syntax.lean ====
section
/-!
DEFINITION. The commands of the KN640: one constructor per row of spec/opcode_table.json, with the operands
the row's rule names, and the header records that some of them carry. A firmware command carries the channel
its message stands in; the message itself is read from there.
-/

namespace Sys2Proof

/-- A train frame header (R48): the fields of its 32 bytes, reserved ones included. CORR is signed, in units
of 2^-16 ns; DIR is true for direction Y. -/
structure Hdr where
  ftype  : Nat
  prio   : Nat
  grp    : Bool
  all    : Bool
  conf   : Bool
  rsv1   : Nat
  inaug  : Nat
  key    : Nat
  rsv4   : Nat
  src    : Nat
  rsv6   : Nat
  dst    : Nat
  seq    : Nat
  stall  : Nat
  cycle  : Nat
  len    : Nat
  adm  : Nat
  rsv20  : Nat
  dirY   : Bool
  hops   : Nat
  poison : Bool
  held   : Bool
  rsvM   : Nat
  corr   : Int
deriving DecidableEq, Repr

/-- A stream frame header (R420). -/
structure SHdr where
  ch    : Nat
  type  : Nat
  rsv   : Nat
  len   : Nat
  seq   : Nat
  param : Nat
deriving DecidableEq, Repr

/-- Whether the barrier frames of an interval pass their CRC: towards the field side and towards the logic side (R253). -/
structure LinkCrc where
  toField : Bool
  toLogic : Bool
deriving DecidableEq, Repr

/-- A channel as the field island senses it: whether its switch was in current limit in the time that the rule asks of (R262, R264). -/
structure SwitchObs where
  ch      : Nat
  limited : Bool
deriving DecidableEq, Repr

/-- A serial line as its receiver decides it: the port, and for how many ns RX[n] has decided high at every bit centre (R237,
R247). -/
structure LineObs where
  port : Nat
  high : Nat
deriving DecidableEq, Repr

/-- A group supply as the field island samples it: its voltage in mV, and for how many ns it has been on this side of each
threshold that it has crossed (R268). -/
structure SupplyObs where
  mv   : Nat
  held : Nat
deriving DecidableEq, Repr

/-- What the MACsec engine finds of a received frame (R324): association number, packet number, and whether the ICV holds. -/
structure MacTag where
  an    : Nat
  pn    : Nat
  icvOk : Bool
deriving DecidableEq, Repr

/-- Who reads a lock in one fabric cycle: the host port, and other masters by their IDs (R22, R370, R371). -/
structure LockReaders where
  host   : Bool
  others : List Nat
deriving DecidableEq, Repr

/-- A write to a lock: the master that writes, and the value (R22, R370). -/
structure LockWriter where
  id  : Nat
  val : Word
deriving DecidableEq, Repr

/-- Where a firmware command stands: a manger channel, or a yard session by its place (R320, R384). -/
inductive Via where
  | manger (n : Nat)
  | yard (k : Nat)
deriving DecidableEq, Repr

/-- The commands, in the order of the table. -/
inductive Instr where
  /-- VIN_LOGIC_RISE (R26). -/
  | vinLogicRise (mv : Nat)
  /-- SUPPLY_RESET (R473). -/
  | supplyReset (mv : Nat) (torn : Bool)
  /-- PIN_RESET (R478). -/
  | pinReset (torn : Bool)
  /-- RESET_RELEASE (R26). -/
  | resetRelease (mv : Nat) (bootRecovery : Bool) (ownPresent : Bool) (pinA : Bool) (pinB : Bool) (recipeSig : Bool)
  /-- WATCHDOG_EXPIRY (R479). -/
  | watchdogExpiry
  /-- DIE_TEMPERATURE_SAMPLE (R480). -/
  | dieTemperatureSample (t : Int)
  /-- HOST_RESET (R380). -/
  | hostReset
  /-- BRACED_ENTRY (R475). -/
  | bracedEntry (mv : Nat)
  /-- BRACED_EXIT (R26). -/
  | bracedExit (mv : Nat) (low : Nat)
  /-- SUPPLY_THRESHOLD (R473). -/
  | supplyThreshold (mv : Nat)
  /-- SUPPLY_RETURNED (R473). -/
  | supplyReturned (mv : Nat)
  /-- BOOT_IMAGE_VERIFIED (R300). -/
  | bootImageVerified (ok : Bool) (recipeSig : Bool)
  /-- STARTUP_BEGIN (R485). -/
  | startupBegin (katOk : Bool)
  /-- BYPASS_RELEASE (R36). -/
  | bypassRelease (pcsOk : Bool)
  /-- STARTUP_DONE (R487). -/
  | startupDone (sigActive : Bool) (sigOther : Bool)
  /-- BARN_WAKE (R489). -/
  | barnWake (src : Nat) (idx : Nat)
  /-- WAKE_DONE (R490). -/
  | wakeDone (hashOk : Bool)
  /-- PRESENCE_CHANGE (R34). -/
  | presenceChange (endB : Bool) (level : Bool)
  /-- LANE_STATUS_CHANGE (R39). -/
  | laneStatusChange (endB : Bool) (signal : Bool) (lock : Bool) (hiBer : Bool)
  /-- HELLO_CHUNK_SEND (R38). -/
  | helloChunkSend (endB : Bool)
  /-- HELLO_CHUNK_RECEIVE (R38). -/
  | helloChunkReceive (endB : Bool) (idx : Nat) (val : Nat)
  /-- LINE_LINK_TIMEOUT (R43). -/
  | lineLinkTimeout (endB : Bool)
  /-- FRAME_HEADER (R58). -/
  | frameHeader (endB : Bool) (hdr : Hdr)
  /-- OPEN_FRAME_BADGE (R73). -/
  | openFrameBadge (endB : Bool) (badge : Nat)
  /-- FRAME_TAIL (R61). -/
  | frameTail (endB : Bool) (body : List Byte) (tag : BitVec 128) (fcs : BitVec 32) (errBlock : Bool) (badBlock : Bool)
  /-- PASS_BUFFER_RELEASE (R60). -/
  | passBufferRelease (endB : Bool)
  /-- FRAME_LAUNCH (R169). -/
  | frameLaunch
  /-- FRAME_COPY_LAUNCH (R172). -/
  | frameCopyLaunch (endB : Bool)
  /-- CYCLIC_LAUNCH (R182). -/
  | cyclicLaunch (entry : Nat)
  /-- EARLY_FRAME_HOLD_EXPIRY (R101). -/
  | earlyFrameHoldExpiry
  /-- OPEN_ENTRY_RELEASE (R70). -/
  | openEntryRelease (badge : Nat)
  /-- PAIR_SETTLEMENT (R79). -/
  | pairSettlement
  /-- BASIC_CYCLE_BOUNDARY (R162). -/
  | basicCycleBoundary
  /-- COLD_START_LISTEN_END (R92). -/
  | coldStartListenEnd
  /-- CLAIM_SEND (R92). -/
  | claimSend
  /-- CLAIM_WIN (R93). -/
  | claimWin
  /-- CLAIM_WAIT_TIMEOUT (R92). -/
  | claimWaitTimeout
  /-- BEACON_SEND (R104). -/
  | beaconSend
  /-- NL_REDRAW (R104). -/
  | nlRedraw
  /-- BEACON_SIGNED (R104). -/
  | beaconSigned
  /-- BEACON_RECEIVE (R105). -/
  | beaconReceive (sigOk : Bool)
  /-- LEAD_CERT_RECEIVE (R105). -/
  | leadCertReceive
  /-- LEAD_VERIFIED (R105). -/
  | leadVerified (chainOk : Bool) (sigOk : Bool)
  /-- QUOTE_SIGNED (R105). -/
  | quoteSigned
  /-- ADM_CERT_RECEIVE (R106). -/
  | admCertReceive
  /-- ADM_QUOTE_RECEIVE (R106). -/
  | admQuoteReceive (chainOk : Bool) (sigOk : Bool)
  /-- GRANT_BUILT (R105). -/
  | grantBuilt (badge : Nat)
  /-- ADM_GRANT_RECEIVE (R105). -/
  | admGrantReceive (sigOk : Bool)
  /-- GRANT_UNWRAPPED (R105). -/
  | grantUnwrapped (ok : Bool)
  /-- GRANT_TIMEOUT (R106). -/
  | grantTimeout
  /-- ADM_DONE_RECEIVE (R96). -/
  | admDoneReceive
  /-- PRESENT_RECEIVE (R108). -/
  | presentReceive (sigOk : Bool)
  /-- LEAD_STATUS_SEND (R94). -/
  | leadStatusSend
  /-- LEAD_STATUS_RECEIVE (R109). -/
  | leadStatusReceive
  /-- POSITION_RECEIVE (R96). -/
  | positionReceive
  /-- CENSUS_SEND (R96). -/
  | censusSend
  /-- CENSUS_RECEIVE (R97). -/
  | censusReceive
  /-- POSITION_REPLY_SEND (R97). -/
  | positionReplySend
  /-- CENSUS_CLOSE (R98). -/
  | censusClose
  /-- NUMBERING_SEND (R100). -/
  | numberingSend
  /-- NUMBERING_RECEIVE (R100). -/
  | numberingReceive
  /-- GRACE_PERIOD_END (R100). -/
  | gracePeriodEnd
  /-- BACKUP_TAKEOVER (R109). -/
  | backupTakeover
  /-- LEAD_LOSS_TIMEOUT (R109). -/
  | leadLossTimeout
  /-- DISSOLVE_RECEIVE (R110). -/
  | dissolveReceive
  /-- HANDOVER_SEND (R111). -/
  | handoverSend
  /-- HANDOVER_RECEIVE (R111). -/
  | handoverReceive
  /-- STATE_CHUNK_RECEIVE (R113). -/
  | stateChunkReceive
  /-- STATE_COMMIT_RECEIVE (R113). -/
  | stateCommitReceive
  /-- STATE_ACK_RECEIVE (R113). -/
  | stateAckReceive
  /-- STATE_COPY_TIMEOUT (R113). -/
  | stateCopyTimeout
  /-- STATE_COPY_RETRY (R113). -/
  | stateCopyRetry
  /-- REFERENCE_SEND (R125). -/
  | referenceSend
  /-- SHADOW_SEND (R127). -/
  | shadowSend
  /-- HOLDOVER_ENTRY (R123). -/
  | holdoverEntry
  /-- WHOLE_SECOND_MARK (R134). -/
  | wholeSecondMark
  /-- REFCLK_FAULT (R137). -/
  | refclkFault
  /-- STAMP_SELF_CHECK (R137). -/
  | stampSelfCheck (diff : Int)
  /-- TETHER_CHANGE (R139). -/
  | tetherChange (level : Bool)
  /-- MASTER_CLAIM (R140). -/
  | masterClaim
  /-- TETHER_FAULT_BEGIN (R143). -/
  | tetherFaultBegin
  /-- DELAY_SEND (R146). -/
  | delaySend
  /-- PTP_MESSAGE_RECEIVE (R151). -/
  | ptpMessageReceive (off : Int) (locked : Bool)
  /-- PTP_RELAY (R154). -/
  | ptpRelay
  /-- EB_LIMIT_CROSSING (R170). -/
  | ebLimitCrossing
  /-- CYCLIC_OCCURRENCE_CHECK (R177). -/
  | cyclicOccurrenceCheck (entry : Nat)
  /-- IMAGE_COPY_COMPLETE (R182). -/
  | imageCopyComplete (entry : Nat)
  /-- CYCLE_MARK_FIRE (R185). -/
  | cycleMarkFire (mark : Nat)
  /-- OUTPUT_APPLY_STROBE (R277). -/
  | outputApplyStrobe
  /-- SENTENCE_FRAMED (R193). -/
  | sentenceFramed (slot : Nat)
  /-- SENTENCE_CLASSIFY (R202). -/
  | sentenceClassify
  /-- SENTENCE_FRAME_UNPACK (R210). -/
  | sentenceFrameUnpack
  /-- RESEQ_HOLD_EXPIRY (R210). -/
  | reseqHoldExpiry (adm : Nat) (stream : Nat)
  /-- MERGE_RELEASE (R218). -/
  | mergeRelease (slot : Nat)
  /-- LISTENER_EMIT (R216). -/
  | listenerEmit (slot : Nat)
  /-- BULK_RECEIVE (R56). -/
  | bulkReceive
  /-- GROUP_MAP (R206). -/
  | groupMap
  /-- START_EDGE (R232). -/
  | startEdge (port : Nat) (samples : List Bool)
  /-- CHARACTER_COMPLETE (R236). -/
  | characterComplete (port : Nat) (body : List (List Bool)) (stopBit : List Bool)
  /-- LINE_STUCK_TIMEOUT (R237). -/
  | lineStuckTimeout (port : Nat)
  /-- LINE_RESUMED (R237). -/
  | lineResumed (port : LineObs)
  /-- FIFO_ITEM_TRANSFER (R242). -/
  | fifoItemTransfer (port : Nat)
  /-- RX_TIMEOUT_FLUSH (R242). -/
  | rxTimeoutFlush (port : Nat)
  /-- TX_CHARACTER_END (R243). -/
  | txCharacterEnd (port : Nat)
  /-- DE_TAIL_END (R243). -/
  | deTailEnd (port : Nat)
  /-- ECHO_MUTE_END (R244). -/
  | echoMuteEnd (port : Nat)
  /-- BARRIER_FRAME_SEND (R253). -/
  | barrierFrameSend
  /-- BARRIER_FRAME_RECEIVE (R253). -/
  | barrierFrameReceive (crc : LinkCrc)
  /-- BARRIER_LINK_TIMEOUT (R253). -/
  | barrierLinkTimeout
  /-- HEARTBEAT_CONFIRM (R254). -/
  | heartbeatConfirm
  /-- HEARTBEAT_MISSING (R254). -/
  | heartbeatMissing
  /-- HB_TIMEOUT (R255). -/
  | hbTimeout
  /-- INPUT_TRANSITION_ACCEPT (R258). -/
  | inputTransitionAccept (ch : Nat)
  /-- EDGE_REPORT_RECEIVE (R259). -/
  | edgeReportReceive
  /-- CURRENT_LIMIT_TIMEOUT (R262). -/
  | currentLimitTimeout (ch : Nat) (since : Option Nat)
  /-- SHORT_RETRY (R262). -/
  | shortRetry (ch : Nat)
  /-- RETRY_COUNT_RESET (R262). -/
  | retryCountReset (ch : SwitchObs)
  /-- OVERLOAD_SHED (R263). -/
  | overloadShed (g : Nat) (mod : Bool)
  /-- READBACK_FAULT (R264). -/
  | readbackFault (ch : SwitchObs)
  /-- READBACK_FAULT_END (R264). -/
  | readbackFaultEnd (ch : Nat)
  /-- OPEN_LOAD_TEST_START (R266). -/
  | openLoadTestStart (ch : Nat)
  /-- OPEN_LOAD_TEST_END (R266). -/
  | openLoadTestEnd (ch : Nat) (high : Bool)
  /-- GROUP_SUPPLY_CROSSING (R268). -/
  | groupSupplyCrossing (g : Nat) (v : SupplyObs)
  /-- GROUP_AUTO_RESTORE (R269). -/
  | groupAutoRestore (g : Nat)
  /-- FIELD_DIE_TEMP (R287). -/
  | fieldDieTemp (t : Int)
  /-- LEASE_EXPIRY (R273). -/
  | leaseExpiry (g : Nat)
  /-- TIMED_APPLY_DUE (R278). -/
  | timedApplyDue
  /-- ENTROPY_HEALTH_CHANGE (R291). -/
  | entropyHealthChange (ok : Bool)
  /-- KEY_LIFE_EXPIRY (R312). -/
  | keyLifeExpiry
  /-- REKEY_BLOCK_WRAPPED (R313). -/
  | rekeyBlockWrapped
  /-- REKEY (R313). -/
  | rekey
  /-- REKEY_UNWRAPPED (R313). -/
  | rekeyUnwrapped
  /-- REKEY_ACK (R313). -/
  | rekeyAck
  /-- REKEY_RESEND_TIMEOUT (R313). -/
  | rekeyResendTimeout (adm : Nat)
  /-- KEY_SWITCH (R314). -/
  | keySwitch
  /-- OLD_KEY_ERASE (R314). -/
  | oldKeyErase
  /-- CHALLENGE_LOCKOUT_END (R318). -/
  | challengeLockoutEnd
  /-- MACSEC_SAK_INSTALL (R324). -/
  | macsecSakInstall
  /-- YARD_LINK_CHANGE (R331). -/
  | yardLinkChange (up : Bool)
  /-- YARD_MODULE_PIN_CHANGE (R511). -/
  | yardModulePinChange (modAbs : Bool) (los : Bool)
  /-- YARD_FRAME_START (R336). -/
  | yardFrameStart (hdr : List Byte) (len : Nat)
  /-- YARD_FRAME_TAIL (R332). -/
  | yardFrameTail (rest : List Byte) (fcsOk : Bool) (icvOk : MacTag)
  /-- YARD_FRAME_TRANSMIT (R338). -/
  | yardFrameTransmit
  /-- YARD_IP_SERVICE (R340). -/
  | yardIpService
  /-- DATAGRAM_SEND (R342). -/
  | datagramSend (ep : Nat)
  /-- DATAGRAM_RECEIVE (R343). -/
  | datagramReceive (sub : Nat)
  /-- DATAGRAM_PAIR_FORGET (R343). -/
  | datagramPairForget (sub : Nat) (src : Nat) (ep : Nat)
  /-- YARD_SESSION_DATAGRAM (R347). -/
  | yardSessionDatagram
  /-- YARD_SESSION_TIMEOUT (R346). -/
  | yardSessionTimeout (k : Nat)
  /-- SNAPSHOT_REQ (R350). -/
  | snapshotReq
  /-- SNAPSHOT_FREEZE (R350). -/
  | snapshotFreeze
  /-- STATUS (R357). -/
  | status
  /-- UNKNOWN_OPCODE (R356). -/
  | unknownOpcode (op : Nat) (addr : Nat)
  /-- HOST_TRANSACTION_ABORT (R358). -/
  | hostTransactionAbort
  /-- REGISTER_WRITE (R11). -/
  | registerWrite (newTxn : Bool) (addr : Nat) (w : Word)
  /-- IN_MSG_WRITE (R365). -/
  | inMsgWrite (newTxn : Bool) (ch : Nat) (off : Nat) (w : Word)
  /-- IN_COMMIT (R365). -/
  | inCommit (newTxn : Bool) (ch : Nat)
  /-- OUT_COMMIT_READ (R366). -/
  | outCommitRead (newTxn : Bool) (ch : Nat) (last : Bool)
  /-- OUTBOUND_HELD_DELIVER (R366). -/
  | outboundHeldDeliver (ch : Nat)
  /-- DROP_COUNT_READ (R364). -/
  | dropCountRead (newTxn : Bool) (ch : Nat) (last : Bool)
  /-- LOCK_READ (R370). -/
  | lockRead (newTxn : Bool) (n : Nat) (readers : LockReaders) (last : Bool)
  /-- LOCK_WRITE (R370). -/
  | lockWrite (newTxn : Bool) (n : Nat) (w : LockWriter)
  /-- HOST_BELL_CLEAR (R368). -/
  | hostBellClear (newTxn : Bool) (w : Word)
  /-- FW_BELL_SET (R369). -/
  | fwBellSet (newTxn : Bool) (w : Word)
  /-- FW_BELL_TAKE (R369). -/
  | fwBellTake (n : Nat)
  /-- EVENT_PEND_CLEAR (R372). -/
  | eventPendClear (newTxn : Bool) (k : Nat) (w : Word)
  /-- BUS_ERR_CLR (R372). -/
  | busErrClr (newTxn : Bool)
  /-- BERR_CLEAR (R377). -/
  | berrClear (newTxn : Bool) (w : Word)
  /-- OVERFLOW_READ (R377). -/
  | overflowRead (newTxn : Bool) (last : Bool)
  /-- SOFT_RST (R361). -/
  | softRst (newTxn : Bool) (w : Word)
  /-- HAYLOFT_WINDOW_ACCESS (R362). -/
  | hayloftWindowAccess (newTxn : Bool) (off : Nat) (wr : Option Word)
  /-- REMOTE_REGISTER_READ (R375). -/
  | remoteRegisterRead (newTxn : Bool) (k : Nat) (off : Nat) (cnt : Nat)
  /-- PROXY_IN_COMMIT (R374). -/
  | proxyInCommit (newTxn : Bool) (k : Nat) (c : Nat)
  /-- PROXY_OUT_COMMIT_READ (R374). -/
  | proxyOutCommitRead (newTxn : Bool) (k : Nat) (c : Nat) (last : Bool)
  /-- MSG_COMMIT (R430). -/
  | msgCommit
  /-- MSG_COMMIT_REORDER_EXPIRY (R430). -/
  | msgCommitReorderExpiry
  /-- MSG_ACCEPT (R374). -/
  | msgAccept
  /-- MSG_STATUS (R374). -/
  | msgStatus
  /-- MSG_REPLY (R374). -/
  | msgReply
  /-- PROXY_NO_ANSWER (R374). -/
  | proxyNoAnswer (k : Nat) (c : Nat)
  /-- READ_REQ (R431). -/
  | readReq
  /-- READ_DATA (R375). -/
  | readData
  /-- READ_STATUS (R431). -/
  | readStatus
  /-- REMOTE_READ_TIMEOUT (R431). -/
  | remoteReadTimeout
  /-- REMOTE_READ_DATA_DISCARD (R375). -/
  | remoteReadDataDiscard
  /-- BULK_STATUS (R406). -/
  | bulkStatus
  /-- PARCEL_TRANSFER_TIMEOUT (R406). -/
  | parcelTransferTimeout (xid : Nat)
  /-- STREAM_CLOCK_CHANGE (R417). -/
  | streamClockChange (inward : Bool) (present : Bool)
  /-- STREAM_ALIGNED (R417). -/
  | streamAligned (inward : Bool)
  /-- STREAM_RESTART (R417). -/
  | streamRestart (inward : Bool)
  /-- STREAM_FRAMING_ERROR (R416). -/
  | streamFramingError
  /-- CREDIT_TRANSITION (R418). -/
  | creditTransition
  /-- CREDIT_TIMEOUT (R419). -/
  | creditTimeout
  /-- STREAM_FRAME_SEND (R426). -/
  | streamFrameSend
  /-- STREAM_SUBMIT (R421). -/
  | streamSubmit (f : SHdr) (payload : List Byte) (crcOk : Bool)
  /-- STREAM_HOST_IN (R423). -/
  | streamHostIn (f : SHdr) (payload : List Byte) (crcOk : Bool)
  /-- STREAM_YARD_IN (R421). -/
  | streamYardIn (f : SHdr) (payload : List Byte) (crcOk : Bool)
  /-- DMA_WRITE (R421). -/
  | dmaWrite (f : SHdr) (payload : List Byte) (crcOk : Bool)
  /-- DMA_READ (R421). -/
  | dmaRead (f : SHdr) (payload : List Byte) (crcOk : Bool)
  /-- STREAM_MESSAGE_IN (R424). -/
  | streamMessageIn (f : SHdr) (payload : List Byte) (crcOk : Bool)
  /-- STREAM_SESSION_TIMEOUT (R424). -/
  | streamSessionTimeout
  /-- EVENT_STREAM_FRAME_CLOSE (R445). -/
  | eventStreamFrameClose
  /-- EVENT_FRAME_RECEIVE (R446). -/
  | eventFrameReceive
  /-- RECORDER_TAKE (R451). -/
  | recorderTake
  /-- HAYLOFT_WRITE_BACK (R457). -/
  | hayloftWriteBack
  /-- SCRUB_READ (R459). -/
  | scrubRead (found : Nat)
  /-- SCRUB_OVERDUE (R459). -/
  | scrubOverdue
  /-- FLASH_OPERATION_DONE (R466). -/
  | flashOperationDone (ok : Bool)
  /-- RESERVE_SECTOR_ERASE (R486). -/
  | reserveSectorErase
  /-- UNKNOWN_COMMAND_CODE (R4). -/
  | unknownCommandCode (via : Via)
  /-- DEVICE_ID (R396). -/
  | deviceId (via : Via)
  /-- DEVICE_STATUS (R396). -/
  | deviceStatus (via : Via)
  /-- SESSION_OPEN (R392). -/
  | sessionOpen (via : Via)
  /-- SESSION_CLOSE (R392). -/
  | sessionClose (via : Via)
  /-- OPERATOR_CHALLENGE (R318). -/
  | operatorChallenge (via : Via)
  /-- OPERATOR_RESPONSE (R318). -/
  | operatorResponse (via : Via)
  /-- START (R26). -/
  | start (via : Via)
  /-- STOP (R26). -/
  | stop (via : Via)
  /-- BARN (R488). -/
  | barn (via : Via)
  /-- TEST (R26). -/
  | test (via : Via)
  /-- RESET (R396). -/
  | reset (via : Via)
  /-- RECIPE_ACTIVATE (R410). -/
  | recipeActivate (via : Via)
  /-- TRAIN_STATUS (R397). -/
  | trainStatus (via : Via)
  /-- ROSTER_READ (R397). -/
  | rosterRead (via : Via)
  /-- SOURCE_READ (R85). -/
  | sourceRead (via : Via)
  /-- COUPLER_STATUS (R397). -/
  | couplerStatus (via : Via)
  /-- ADMISSION_RETRY (R397). -/
  | admissionRetry (via : Via)
  /-- GROUP_CHANGE (R205). -/
  | groupChange (via : Via)
  /-- GROUP_READ (R397). -/
  | groupRead (via : Via)
  /-- TIME_READ (R398). -/
  | timeRead (via : Via)
  /-- TIME_STATUS (R160). -/
  | timeStatus (via : Via)
  /-- PLAN_READ (R398). -/
  | planRead (via : Via)
  /-- IMAGE_DIRECTORY (R180). -/
  | imageDirectory (via : Via)
  /-- MARK_SET (R184). -/
  | markSet (via : Via)
  /-- BINDING_SET (R184). -/
  | bindingSet (via : Via)
  /-- COUPLING_READ (R398). -/
  | couplingRead (via : Via)
  /-- TALKER_SET (R191). -/
  | talkerSet (via : Via)
  /-- LISTENER_SET (R214). -/
  | listenerSet (via : Via)
  /-- RULE_REPLACE (R203). -/
  | ruleReplace (via : Via)
  /-- SUBMIT (R195). -/
  | submit (via : Via)
  /-- FETCH (R216). -/
  | fetch (via : Via)
  /-- DIRECT_SEND (R211). -/
  | directSend (via : Via)
  /-- REPLAY (R222). -/
  | replay (via : Via)
  /-- SENTENCE_COUNTERS (R399). -/
  | sentenceCounters (via : Via)
  /-- PORT_SET (R248). -/
  | portSet (via : Via)
  /-- PORT_STATUS (R401). -/
  | portStatus (via : Via)
  /-- RAW_READ (R401). -/
  | rawRead (via : Via)
  /-- FIELD_MODULE_SET (R281). -/
  | fieldModuleSet (via : Via)
  /-- FIELD_GROUP_SET (R282). -/
  | fieldGroupSet (via : Via)
  /-- FIELD_CHANNEL_SET (R283). -/
  | fieldChannelSet (via : Via)
  /-- FIELD_RULE_SET (R284). -/
  | fieldRuleSet (via : Via)
  /-- FIELD_STATUS (R286). -/
  | fieldStatus (via : Via)
  /-- TAKE (R271). -/
  | take (via : Via)
  /-- RELEASE (R274). -/
  | release (via : Via)
  /-- FIELD_OUTPUT (R272). -/
  | fieldOutput (via : Via)
  /-- TIMED_APPLY (R278). -/
  | timedApply (via : Via)
  /-- FAULT_CLEAR (R267). -/
  | faultClear (via : Via)
  /-- REARM (R269). -/
  | rearm (via : Via)
  /-- QUOTE (R304). -/
  | quote (via : Via)
  /-- CERT_READ (R403). -/
  | certRead (via : Via)
  /-- OWN_CHALLENGE (R297). -/
  | ownChallenge (via : Via)
  /-- TAKE_OWNERSHIP (R297). -/
  | takeOwnership (via : Via)
  /-- ENVELOPE (R305). -/
  | envelope (via : Via)
  /-- ROTATE (R312). -/
  | rotate (via : Via)
  /-- ROLLBACK_COMMIT (R301). -/
  | rollbackCommit (via : Via)
  /-- OWNER_TRANSFER (R298). -/
  | ownerTransfer (via : Via)
  /-- ZEROISE (R323). -/
  | zeroise (via : Via)
  /-- SERVICE_CHALLENGE (R321). -/
  | serviceChallenge (via : Via)
  /-- SERVICE_TOKEN (R321). -/
  | serviceToken (via : Via)
  /-- YARD_SET (R352). -/
  | yardSet (via : Via)
  /-- STEER_SET (R334). -/
  | steerSet (via : Via)
  /-- ENDPOINT_SET (R345). -/
  | endpointSet (via : Via)
  /-- YARD_STATUS (R404). -/
  | yardStatus (via : Via)
  /-- SNAPSHOT (R349). -/
  | snapshot (via : Via)
  /-- TRAIN_SNAPSHOT (R350). -/
  | trainSnapshot (via : Via)
  /-- SEGMENT_SEND (R339). -/
  | segmentSend (via : Via)
  /-- SNAPSHOT_SEND (R406). -/
  | snapshotSend (via : Via)
  /-- STREAM_STATUS (R435). -/
  | streamStatus (via : Via)
  /-- STREAM_SET (R434). -/
  | streamSet (via : Via)
  /-- RECORDER_READ (R404). -/
  | recorderRead (via : Via)
  /-- ROUTE_SET (R442). -/
  | routeSet (via : Via)
  /-- COUNTER_CLEAR (R404). -/
  | counterClear (via : Via)
  /-- PARCEL_ALLOC (R390). -/
  | parcelAlloc (via : Via)
  /-- PARCEL_FREE (R404). -/
  | parcelFree (via : Via)
  /-- HAYLOFT_STATUS (R467). -/
  | hayloftStatus (via : Via)
  /-- SLOT_WRITE (R405). -/
  | slotWrite (via : Via)
  /-- SLOT_INFO (R404). -/
  | slotInfo (via : Via)
  /-- PARCEL_PUSH (R406). -/
  | parcelPush (via : Via)
  /-- DIAG_READ (R404). -/
  | diagRead (via : Via)
  /-- LOOPBACK (R404). -/
  | loopback (via : Via)
  /-- LANE_PRBS (R404). -/
  | lanePrbs (via : Via)
  /-- HOST_RESET_RELEASE (R478). -/
  | hostResetRelease
  /-- OWN_PRESENT_RELEASE (R297). -/
  | ownPresentRelease
  /-- INPUT_LEVEL_CHANGE (R258). -/
  | inputLevelChange (ch : Nat) (level : Bool)
  /-- IDLE_GAP_SENTENCE_END (R194). -/
  | idleGapSentenceEnd (slot : Nat)
  /-- MKA_PEER_LOST (R353). -/
  | mkaPeerLost
  /-- PTP_SERVO_LOCK_LOSS (R151). -/
  | ptpServoLockLoss
  /-- STREAM_FRAME_END (R424). -/
  | streamFrameEnd
  /-- HOST_RSA_OPERATION_DONE (R327). -/
  | hostRsaOperationDone (priv : Bool) (ok : Bool)
  /-- BARN_ENTRY_DONE (R488). -/
  | barnEntryDone
deriving DecidableEq, Repr

end Sys2Proof
end

