-- ==== Sys2Proof/WellFormed.lean ====
section
/-!
DEFINITION. Which commands are well formed: every operand inside the width or the range the manual gives it.
A meaning is total all the same: on an operand outside its range it leaves the state as it is.
-/

namespace Sys2Proof

/-- Every field of a train frame header fits its width (R48). -/
def Hdr.wf (h : Hdr) : Bool :=
  decide (h.ftype < 256) && decide (h.prio < 8) && decide (h.rsv1 < 4) && decide (h.inaug < 4096)
    && decide (h.key < 16) && decide (h.rsv4 < 4) && decide (h.src < 16384) && decide (h.rsv6 < 4)
    && decide (h.dst < 16384) && decide (h.seq < 2 ^ 48) && decide (h.stall < 256) && decide (h.cycle < 256)
    && decide (h.len < 65536) && decide (h.adm < 65536) && decide (h.rsv20 < 2 ^ 32)
    && decide (h.hops < 128) && decide (h.rsvM < 64) && decide (-(2 ^ 47) ≤ h.corr) && decide (h.corr < 2 ^ 47)

/-- Every field of a stream frame header fits its width (R420). -/
def SHdr.wf (f : SHdr) : Bool :=
  decide (f.ch < 64) && decide (f.type < 16) && decide (f.rsv < 128) && decide (f.len < 32768)
    && decide (f.seq < 65536) && decide (f.param < 65536)

/-- A channel 0 to 15 (R364) or one of the four yard sessions (R346). -/
def Via.wf : Via → Bool
  | .manger n => decide (n < 16)
  | .yard k => decide (k < 4)

/-- A command whose operands all lie in their ranges. -/
def Instr.wf : Instr → Bool
  | .vinLogicRise mv => decide (mv < 65536)
  | .supplyReset mv _ => decide (mv < 65536)
  | .pinReset _ => true
  | .resetRelease mv _ _ _ _ _ => decide (mv < 65536)
  | .watchdogExpiry => true
  | .dieTemperatureSample t => decide (-32768 ≤ t ∧ t < 32768)
  | .hostReset => true
  | .bracedEntry mv => decide (mv < 65536)
  | .bracedExit mv low => decide (mv < 65536) && decide (low < 65536)
  | .supplyThreshold mv => decide (mv < 65536)
  | .supplyReturned mv => decide (mv < 65536)
  | .bootImageVerified _ _ => true
  | .startupBegin _ => true
  | .bypassRelease _ => true
  | .startupDone _ _ => true
  | .barnWake src idx => decide (src < 5) && decide (idx < 32)
  | .wakeDone _ => true
  | .presenceChange _ _ => true
  | .laneStatusChange _ _ _ _ => true
  | .helloChunkSend _ => true
  | .helloChunkReceive _ idx val => decide (idx < 256) && decide (val < 65536)
  | .lineLinkTimeout _ => true
  | .frameHeader _ hdr => hdr.wf
  | .openFrameBadge _ badge => decide (badge < 2 ^ 64)
  | .frameTail _ body _ _ _ _ => decide (body.length ≤ 4096)
  | .passBufferRelease _ => true
  | .frameLaunch => true
  | .frameCopyLaunch _ => true
  | .cyclicLaunch entry => decide (entry < 8192)
  | .earlyFrameHoldExpiry => true
  | .openEntryRelease badge => decide (badge < 2 ^ 64)
  | .pairSettlement => true
  | .basicCycleBoundary => true
  | .coldStartListenEnd => true
  | .claimSend => true
  | .claimWin => true
  | .claimWaitTimeout => true
  | .beaconSend => true
  | .nlRedraw => true
  | .beaconSigned => true
  | .beaconReceive _ => true
  | .leadCertReceive => true
  | .leadVerified _ _ => true
  | .quoteSigned => true
  | .admCertReceive => true
  | .admQuoteReceive _ _ => true
  | .grantBuilt badge => decide (badge < 2 ^ 64)
  | .admGrantReceive _ => true
  | .grantUnwrapped _ => true
  | .grantTimeout => true
  | .admDoneReceive => true
  | .presentReceive _ => true
  | .leadStatusSend => true
  | .leadStatusReceive => true
  | .positionReceive => true
  | .censusSend => true
  | .censusReceive => true
  | .positionReplySend => true
  | .censusClose => true
  | .numberingSend => true
  | .numberingReceive => true
  | .gracePeriodEnd => true
  | .backupTakeover => true
  | .leadLossTimeout => true
  | .dissolveReceive => true
  | .handoverSend => true
  | .handoverReceive => true
  | .stateChunkReceive => true
  | .stateCommitReceive => true
  | .stateAckReceive => true
  | .stateCopyTimeout => true
  | .stateCopyRetry => true
  | .referenceSend => true
  | .shadowSend => true
  | .holdoverEntry => true
  | .wholeSecondMark => true
  | .refclkFault => true
  | .stampSelfCheck _ => true
  | .tetherChange _ => true
  | .masterClaim => true
  | .tetherFaultBegin => true
  | .delaySend => true
  | .ptpMessageReceive _ _ => true
  | .ptpRelay => true
  | .ebLimitCrossing => true
  | .cyclicOccurrenceCheck entry => decide (entry < 8192)
  | .imageCopyComplete entry => decide (entry < 8192)
  | .cycleMarkFire mark => decide (mark < 16)
  | .outputApplyStrobe => true
  | .sentenceFramed slot => decide (slot < 64)
  | .sentenceClassify => true
  | .sentenceFrameUnpack => true
  | .reseqHoldExpiry adm stream => decide (adm < 65536) && decide (stream < 65536)
  | .mergeRelease slot => decide (slot < 64)
  | .listenerEmit slot => decide (slot < 64)
  | .bulkReceive => true
  | .groupMap => true
  | .startEdge port samples => decide (port < 16) && decide (samples.length ≤ 16)
  | .characterComplete port body stopBit => decide (port < 16) && decide (body.length ≤ 10) && body.all (fun b => decide (b.length ≤ 16)) && decide (stopBit.length ≤ 16)
  | .lineStuckTimeout port => decide (port < 16)
  | .lineResumed port => decide (port.port < 16)
  | .fifoItemTransfer port => decide (port < 16)
  | .rxTimeoutFlush port => decide (port < 16)
  | .txCharacterEnd port => decide (port < 16)
  | .deTailEnd port => decide (port < 16)
  | .echoMuteEnd port => decide (port < 16)
  | .barrierFrameSend => true
  | .barrierFrameReceive _ => true
  | .barrierLinkTimeout => true
  | .heartbeatConfirm => true
  | .heartbeatMissing => true
  | .hbTimeout => true
  | .inputTransitionAccept ch => decide (ch < 32)
  | .edgeReportReceive => true
  | .currentLimitTimeout ch _ => decide (ch < 32)
  | .shortRetry ch => decide (ch < 32)
  | .retryCountReset x => decide (x.ch < 32)
  | .overloadShed g _ => decide (g < 4)
  | .readbackFault x => decide (x.ch < 32)
  | .readbackFaultEnd ch => decide (ch < 32)
  | .openLoadTestStart ch => decide (ch < 32)
  | .openLoadTestEnd ch _ => decide (ch < 32)
  | .groupSupplyCrossing g v => decide (g < 4) && decide (v.mv < 65536)
  | .groupAutoRestore g => decide (g < 4)
  | .fieldDieTemp t => decide (-32768 ≤ t ∧ t < 32768)
  | .leaseExpiry g => decide (g < 4)
  | .timedApplyDue => true
  | .entropyHealthChange _ => true
  | .keyLifeExpiry => true
  | .rekeyBlockWrapped => true
  | .rekey => true
  | .rekeyUnwrapped => true
  | .rekeyAck => true
  | .rekeyResendTimeout adm => decide (adm < 65536)
  | .keySwitch => true
  | .oldKeyErase => true
  | .challengeLockoutEnd => true
  | .macsecSakInstall => true
  | .yardLinkChange _ => true
  | .yardModulePinChange _ _ => true
  | .yardFrameStart _ len => decide (len < 65536)
  | .yardFrameTail _ _ m => decide (m.an < 4)
  | .yardFrameTransmit => true
  | .yardIpService => true
  | .datagramSend ep => decide (ep < 32)
  | .datagramReceive sub => decide (sub < 8)
  | .datagramPairForget sub src ep => decide (sub < 8) && decide (src < 16384) && decide (ep < 32)
  | .yardSessionDatagram => true
  | .yardSessionTimeout k => decide (k < 4)
  | .snapshotReq => true
  | .snapshotFreeze => true
  | .status => true
  | .unknownOpcode op addr => decide (op < 256) && decide (addr < 2 ^ 24)
  | .hostTransactionAbort => true
  | .registerWrite _ addr _ => decide (addr < 2 ^ 24)
  | .inMsgWrite _ ch off _ => decide (ch < 16) && decide (off < 16)
  | .inCommit _ ch => decide (ch < 16)
  | .outCommitRead _ ch _ => decide (ch < 16)
  | .outboundHeldDeliver ch => decide (ch < 16)
  | .dropCountRead _ ch _ => decide (ch < 16)
  | .lockRead _ n readers _ => decide (n < 32) && readers.others.all (fun m => decide (m < 32))
  | .lockWrite _ n w => decide (n < 32) && decide (w.id < 32)
  | .hostBellClear _ _ => true
  | .fwBellSet _ _ => true
  | .fwBellTake n => decide (n < 32)
  | .eventPendClear _ k _ => decide (k < 4)
  | .busErrClr _ => true
  | .berrClear _ _ => true
  | .overflowRead _ _ => true
  | .softRst _ _ => true
  | .hayloftWindowAccess _ off _ => decide (off < 2 ^ 23)
  | .remoteRegisterRead _ k off cnt => decide (k < 64) && decide (off < 2 ^ 16) && decide (cnt ≤ 16)
  | .proxyInCommit _ k c => decide (k < 64) && decide (c < 4)
  | .proxyOutCommitRead _ k c _ => decide (k < 64) && decide (c < 4)
  | .msgCommit => true
  | .msgCommitReorderExpiry => true
  | .msgAccept => true
  | .msgStatus => true
  | .msgReply => true
  | .proxyNoAnswer k c => decide (k < 64) && decide (c < 4)
  | .readReq => true
  | .readData => true
  | .readStatus => true
  | .remoteReadTimeout => true
  | .remoteReadDataDiscard => true
  | .bulkStatus => true
  | .parcelTransferTimeout xid => decide (xid < 2 ^ 32)
  | .streamClockChange _ _ => true
  | .streamAligned _ => true
  | .streamRestart _ => true
  | .streamFramingError => true
  | .creditTransition => true
  | .creditTimeout => true
  | .streamFrameSend => true
  | .streamSubmit f payload _ => f.wf && decide (payload.length ≤ 16384)
  | .streamHostIn f payload _ => f.wf && decide (payload.length ≤ 16384)
  | .streamYardIn f payload _ => f.wf && decide (payload.length ≤ 16384)
  | .dmaWrite f payload _ => f.wf && decide (payload.length ≤ 16384)
  | .dmaRead f payload _ => f.wf && decide (payload.length ≤ 16384)
  | .streamMessageIn f payload _ => f.wf && decide (payload.length ≤ 16384)
  | .streamSessionTimeout => true
  | .eventStreamFrameClose => true
  | .eventFrameReceive => true
  | .recorderTake => true
  | .hayloftWriteBack => true
  | .scrubRead found => decide (found < 3)
  | .scrubOverdue => true
  | .flashOperationDone _ => true
  | .reserveSectorErase => true
  | .unknownCommandCode via => via.wf
  | .deviceId via => via.wf
  | .deviceStatus via => via.wf
  | .sessionOpen via => via.wf
  | .sessionClose via => via.wf
  | .operatorChallenge via => via.wf
  | .operatorResponse via => via.wf
  | .start via => via.wf
  | .stop via => via.wf
  | .barn via => via.wf
  | .test via => via.wf
  | .reset via => via.wf
  | .recipeActivate via => via.wf
  | .trainStatus via => via.wf
  | .rosterRead via => via.wf
  | .sourceRead via => via.wf
  | .couplerStatus via => via.wf
  | .admissionRetry via => via.wf
  | .groupChange via => via.wf
  | .groupRead via => via.wf
  | .timeRead via => via.wf
  | .timeStatus via => via.wf
  | .planRead via => via.wf
  | .imageDirectory via => via.wf
  | .markSet via => via.wf
  | .bindingSet via => via.wf
  | .couplingRead via => via.wf
  | .talkerSet via => via.wf
  | .listenerSet via => via.wf
  | .ruleReplace via => via.wf
  | .submit via => via.wf
  | .fetch via => via.wf
  | .directSend via => via.wf
  | .replay via => via.wf
  | .sentenceCounters via => via.wf
  | .portSet via => via.wf
  | .portStatus via => via.wf
  | .rawRead via => via.wf
  | .fieldModuleSet via => via.wf
  | .fieldGroupSet via => via.wf
  | .fieldChannelSet via => via.wf
  | .fieldRuleSet via => via.wf
  | .fieldStatus via => via.wf
  | .take via => via.wf
  | .release via => via.wf
  | .fieldOutput via => via.wf
  | .timedApply via => via.wf
  | .faultClear via => via.wf
  | .rearm via => via.wf
  | .quote via => via.wf
  | .certRead via => via.wf
  | .ownChallenge via => via.wf
  | .takeOwnership via => via.wf
  | .envelope via => via.wf
  | .rotate via => via.wf
  | .rollbackCommit via => via.wf
  | .ownerTransfer via => via.wf
  | .zeroise via => via.wf
  | .serviceChallenge via => via.wf
  | .serviceToken via => via.wf
  | .yardSet via => via.wf
  | .steerSet via => via.wf
  | .endpointSet via => via.wf
  | .yardStatus via => via.wf
  | .snapshot via => via.wf
  | .trainSnapshot via => via.wf
  | .segmentSend via => via.wf
  | .snapshotSend via => via.wf
  | .streamStatus via => via.wf
  | .streamSet via => via.wf
  | .recorderRead via => via.wf
  | .routeSet via => via.wf
  | .counterClear via => via.wf
  | .parcelAlloc via => via.wf
  | .parcelFree via => via.wf
  | .hayloftStatus via => via.wf
  | .slotWrite via => via.wf
  | .slotInfo via => via.wf
  | .parcelPush via => via.wf
  | .diagRead via => via.wf
  | .loopback via => via.wf
  | .lanePrbs via => via.wf
  | .hostResetRelease => true
  | .ownPresentRelease => true
  | .inputLevelChange ch _ => decide (ch < 32)
  | .idleGapSentenceEnd slot => decide (slot < 64)
  | .mkaPeerLost => true
  | .ptpServoLockLoss => true
  | .streamFrameEnd => true
  | .hostRsaOperationDone _ _ => true
  | .barnEntryDone => true

end Sys2Proof
end

