-- ==== Sys2Proof/Config.lean ====
section
/-!
DEFINITION. What the manual leaves open: free values, which no proof can see, and functions that the manual
takes from standards without defining them. Nothing here has a body but what the manual itself computes from such a function.
-/

namespace Sys2Proof.Config

/-- A free value: the n-th value that the manual leaves open and that the model takes (log 2). Used for nonces,
keys and every unspecified result. -/
opaque freeValue : Nat → BitVec 512

/-- SHA-256 over a byte string (R167, R296, R303 and others cite the standard; log 8). -/
opaque sha256 : List Byte → BitVec 256

/-- The identity a public key in DER form stands for, its badge: the first 64 bits of its SHA-256 (R293). -/
def badgeOf (der : List Byte) : BitVec 64 := (sha256 der).extractLsb' 192 64

/-- The RSA signature by an identity key over a byte string (R304; log 8). -/
opaque signOwn : Nat → List Byte → List Byte
/-- The MAC, keyed from the fuse key, that seals the owner enrolment record (R296; log 8). -/
opaque fuseMac : Nat → List Byte → BitVec 128

/-- RSA-OAEP of a key block to the identity key of a badge: block as a big-endian number, badge (R310; log 8). -/
opaque wrapKey : Nat → Nat → List Byte

/-- The block that OAEP with an identity key unwraps, as a big-endian number (R310; log 8). -/
opaque unwrapKey : Nat → List Byte → Nat

/-- Lead-car state image: a chunk by version and index, and the number of chunks less 1; R112 names the items and
gives no layout (log 16). -/
opaque stateChunk : Nat → Nat → List Byte
opaque stateTotal : Nat → BitVec 7

/-- What a committed image holds (R112, R114; log 16): 0 = epoch, 1 = census counter, 2 = ceiling of ADMITs,
3 = train time of the last key rotation, 4 and 5 = NL and the NL before it. -/
opaque imageItem : List Byte → Nat → Nat

/-- The listener groups in a committed image: number, then badge and slot of each member (R112; log 16). -/
opaque imageGroups : List Byte → List (Nat × List (Nat × Nat))

/-- The part of a certificate's public key (R294; log 8). -/
opaque certKey : List Byte → List Byte

/-- Residence time of a forwarded frame in units of 2^-16 ns, as the lane island measures it (R59; log 2). -/
opaque residence : Nat → BitVec 48

/-- The bytes of a history block header and of every byte of the history region whose layout the manual does
not give, by address and free-value count (R221; log 2). -/
opaque historyByte : Nat → Nat → Byte

/-- CLASS.PRIO of a frame type for which the manual states none: CONTROL, BULK and DELAY (R54; log 2). -/
opaque prioOf : Nat → BitVec 3

/-- Which service core sends the firmware's messages: 0x10 plus this (R22, R384; log 2). -/
opaque fwCore : BitVec 2

/-- What an inbound BULK transfer is for, by the source's ADMIT and the transfer identifier; the manual does not say how a
receiver learns it (R56; log 20). Even: a parcel at that half of the number; odd: a replay for the listener slot in it. -/
opaque bulkTarget : Nat → Nat → Nat

/-- Which check the profile of another car's talker has, by talker and sequence: its record does not say (R209, R219; log 20). -/
opaque farCheck : Nat → Nat → Nat

/-- The fused delay of a field channel's comparator, in ns: what a module's own calibration gives (R258; log 22). -/
opaque cmpDelay : Nat → BitVec 8

/-- The size in bits of the RSA key that a certificate carries, 0 for a key of another kind (R294, R297; log 8). -/
opaque keyBits : List Byte → Nat

/-- What a SECRETS block decrypts to under an identity key with the label of R308: 65 bytes, `none` when it does not
(R308; log 8). -/
opaque secretPlain : Nat → List Byte → Option (BitVec 520)

/-- The GCM tag under a train key: key, nonce, additional data, text (R46, R51, R316; log 8). -/
opaque gcmTag : Nat → List Byte → List Byte → List Byte → BitVec 128

/-- GCM's counter-mode transform of a text, its own inverse: key, nonce, text (R316; log 8). -/
opaque gcmCrypt : Nat → List Byte → List Byte → List Byte

/-- Whether a device certificate's signature verifies against its issuer, as the lead checks it (R106, R294; log 8). -/
opaque certVerifies : List Byte → Bool

/-- TRANSIT_T and LEAD_LOSS_T of the car with a badge, as its own recipe gives them; the manual gives no message that brings
them to the other cars, and they count while it leads (R86; log 35). -/
opaque leadTransit : Nat → BitVec 8
opaque leadLoss : Nat → BitVec 8

/-- The admitted cars in a committed image: badge, ADMIT, COLD_RANK, certificate hash, POS_X, POS_Y, byte 19 and the two
neighbour badges of its last POSITION (R112; log 16). -/
opaque imageCars : List Byte → List (Nat × Nat × Nat × Nat × Nat × Nat × Nat × Nat × Nat)

/-- The pairs (key epoch, ADMIT) issued, in a committed image (R107, R112; log 16). -/
opaque imageIssued : List Byte → List (Nat × Nat)

end Sys2Proof.Config
end

