-- ==== Sys2Proof/Machine/Types.lean ====
section
/-!
DEFINITION. The kinds of thing the KN640's state is made of: enumerations for the device, role, time,
coupler and stream states, and records for the parts that recur (a stamp, a source entry, a manger
channel, a field channel, a sentence). Every enumeration lists exactly the codes the manual lists.
-/

namespace Sys2Proof.Machine

open Sys2Proof

/-- Device states (R25). BRACED is an overlay and is a flag of its own. -/
inductive Dev where
  | off | reset | boot | startup | stopped | integrating | running | recovery | test | barn
deriving DecidableEq, Repr

/-- STATE code of the host register 0x010 (R361); OFF and RESET have none. -/
def Dev.code : Dev → Nat
  | .off => 0 | .reset => 0 | .boot => 2 | .startup => 3 | .stopped => 4 | .integrating => 5
  | .running => 6 | .recovery => 7 | .test => 8 | .barn => 9

/-- Base roles (R30); `none` outside STOPPED, INTEGRATING and RUNNING. -/
inductive Role where
  | none | guest | member | backup | lead
deriving DecidableEq, Repr

/-- ROLE code of R361. -/
def Role.code : Role → Nat
  | .none => 0 | .guest => 1 | .member => 2 | .backup => 3 | .lead => 4

/-- Time states (R123, codes of R160). -/
inductive TState where
  | free | tracking | locked | holdover | master
deriving DecidableEq, Repr

def TState.code : TState → Nat
  | .free => 0 | .tracking => 1 | .locked => 2 | .holdover => 3 | .master => 4

/-- DC_STATE of a drive car (R149, codes of R160). -/
inductive DcState where
  | notDrive | acquiring | dcLocked | noStall
deriving DecidableEq, Repr

def DcState.code : DcState → Nat
  | .notDrive => 0 | .acquiring => 1 | .dcLocked => 2 | .noStall => 3

/-- PLANT field of R160. -/
inductive PlantSt where
  | none | acquiring | locked | holdover
deriving DecidableEq, Repr

def PlantSt.code : PlantSt → Nat
  | .none => 0 | .acquiring => 1 | .locked => 2 | .holdover => 3

/-- Coupler end states (R39, codes of R40). -/
inductive EndState where
  | down | locked | up | loopback
deriving DecidableEq, Repr

def EndState.code : EndState → Nat
  | .down => 0 | .locked => 1 | .up => 2 | .loopback => 3

/-- Stream direction states (R417, codes of R435). -/
inductive LinkSt where
  | down | training | up
deriving DecidableEq, Repr

def LinkSt.code : LinkSt → Nat
  | .down => 0 | .training => 1 | .up => 2

/-- Level of a bypass output (R25, R35). -/
inductive PinLevel where
  | hiZ | low | high
deriving DecidableEq, Repr

/-- Why the device last entered RESET, in the order of R481. -/
inductive Cause where
  | supply | porst | thermal | watchdog | command | recoveryExit
  | unlisted (code : Nat)   -- a reset for which R492 lists no code (R490): the code is a free value
deriving DecidableEq, Repr

def Cause.code : Cause → Nat
  | .supply => 1 | .porst => 2 | .thermal => 3 | .watchdog => 4 | .command => 5 | .recoveryExit => 6 | .unlisted n => n % 256

/-- Session privilege (R317, codes of R361 PRIV). -/
inductive Priv where
  | observe | operate | service
deriving DecidableEq, Repr

def Priv.code : Priv → Nat
  | .observe => 0 | .operate => 1 | .service => 2

/-- A STAMP32 with its time epoch and SYNC flag (R121). -/
structure Stamp where
  s32  : Nat
  ep   : Nat
  sync : Bool
deriving DecidableEq, Repr

def Stamp.zero : Stamp := { s32 := 0, ep := 0, sync := false }

/-- Forwarding decision of R58 for a frame that is arriving. -/
inductive Decision where
  | pending    -- an open frame whose badge has not arrived (R73)
  | ended      -- order 1
  | returned   -- order 2
  | hopLimit   -- order 3
  | badLen     -- order 4
  | poisonedIn -- order 5
  | repeated   -- order 6
  | forwarded  -- order 7
deriving DecidableEq, Repr

/-- A frame arriving on a coupler end, between its header and its tail. -/
structure RxFrame where
  hdr   : Hdr
  badge : Option Nat
  rxAt  : Nat        -- C at the start delimiter
  tl    : Int        -- train time there, 2^-16 ns
  stamp : Stamp
  dec   : Decision
  full  : Bool       -- no source entry was free (R71): it is not delivered
  inBuf : Bool       -- the copy waits in the pass buffer (R60)
deriving DecidableEq, Repr

/-- The protection of a copy that leaves (R46, R316): a frame of this car, sealed under a key as it goes out, or a
forwarded one, whose tag goes on as it came. -/
inductive Seal where
  | own (key : Nat)
  | carried (tag : BitVec 128)
deriving DecidableEq, Repr

/-- A copy leaving a coupler end. `payload` is the clear payload of a frame of this car, and what stood between header
and tag of a forwarded one. `bad` = it ends with an error block (R61). -/
structure WireFrame where
  hdr     : Hdr
  payload : List Byte
  prot    : Seal
  bad     : Bool
  at_     : Nat       -- C at which it began to wait or to leave
deriving DecidableEq, Repr

/-- Per-direction state of a source entry (R69). The maps are the sets of marked SEQs. -/
structure DirMap where
  valid : Bool
  top   : Nat
  acc   : List Nat
  fwd   : List Nat
deriving DecidableEq, Repr

/-- Path state of a source (R80). `missing true` is MISSING(Y). -/
inductive Path where
  | unpaired | paired | missing (y : Bool)
deriving DecidableEq, Repr

/-- A SEQ accepted and not yet settled (R79). -/
structure PendSeq where
  seq    : Nat
  y      : Bool   -- direction of the first copy: true = Y
  at_    : Nat    -- train time of its tail check
  paired : Bool
deriving DecidableEq, Repr

/-- One source entry (R69, R85). `id` is the ADMIT, or the badge of an open entry. -/
structure SrcEntry where
  open_  : Bool
  id     : Nat
  badge  : Nat
  key    : Nat
  x      : DirMap
  y      : DirMap
  path   : Path
  missX  : Nat
  missY  : Nat
  pend   : List PendSeq
  acc    : Nat
  dup    : Nat
  stale  : Nat
  singleX : Nat
  singleY : Nat
  seen   : Nat    -- C at its last frame
deriving DecidableEq, Repr

/-- What follows the launch of a local frame. -/
inductive TxTag where
  | plain
  | bulk (xid : Nat)              -- one frame of an outbound BULK transfer
  | reply (ch : Nat)              -- MSG_REPLY: the outbound slot clears (R374)
  | accept (ch : Nat)             -- MSG_ACCEPT, which a reply may stand for (R374)
  | readReq (reqId : Nat)         -- READ_REQ: the timeout runs from the launch (R431)
  | rekey (adm : Nat)             -- REKEY: the resend time runs from the launch (R313)
  | posSent                       -- unsolicited POSITION (R95)
  | commit                        -- STATE_COMMIT: the reply time runs from the launch (R113)
  | admQuote                      -- ADM_QUOTE: the wait for the grant runs from the launch (R106)
  | dissolve                      -- DISSOLVE of a merge: the lead leaves its role (R110)
deriving DecidableEq, Repr

/-- A local frame waiting for a stall (R169 to R173). -/
structure TxFrame where
  ftype   : Nat
  prio    : Nat
  grp     : Bool
  all     : Bool
  dst     : Nat
  open_   : Bool
  tag     : TxTag
  payload : List Byte
  at_     : Nat := 0      -- train time at which it began to wait
  epoch   : Option Nat := none  -- INAUG of its commit, when it travels with that one (R376)
deriving DecidableEq, Repr

/-- A committed frame whose copy at one end still waits (R172). -/
structure TxCopy where
  endB    : Bool
  hdr     : Hdr
  payload : List Byte
  occEnd  : Nat       -- E of the occurrence, in 0.1 ns
deriving DecidableEq, Repr

/-- A frame delivered to the firmware (R77), waiting for the row that acts on it. -/
structure RxMsg where
  hdr     : Hdr
  endB    : Bool      -- end of arrival
  stamp   : Stamp
  at_     : Nat       -- train time at the start delimiter
  payload : List Byte
deriving DecidableEq, Repr

/-- An inbound BULK transfer (R56): the pieces that have arrived, by offset and length; a replay keeps their bytes.
`bad` = it was refused (R406). -/
structure BulkIn where
  src   : Nat
  xid   : Nat
  total : Nat
  got   : List (Nat × Nat)
  data  : List (Nat × List Byte)
  bad   : Bool
deriving DecidableEq, Repr

/-- What an outbound BULK transfer serves (R406). -/
inductive XferKind where
  | push
  | snapshot (seq : Nat)     -- SNAP_SEQ of the bank that is sent (R404)
  | replay (id : Nat)
deriving DecidableEq, Repr

/-- One entry of a NUMBERING (R90). `role` is the role byte of R90. -/
structure NumEntry where
  badge : Nat
  adm : Nat
  role  : Nat
  prev  : Nat
deriving DecidableEq, Repr

/-- A census the lead has opened (R96). -/
structure Census where
  cid     : Nat
  cause   : Nat
  since   : Nat             -- train time of its opening, and then of its close
  sentAt  : Option Nat      -- train time of its launch; none before it
  folded  : List Nat        -- ADMITs of members whose unsolicited POSITION was folded in
  replies : List (Nat × Nat × Nat × Nat) -- ADMIT, POS_X, POS_Y, byte 19 (ends and presence)
  closed  : Bool
deriving DecidableEq, Repr

/-- What the lead knows of an admitted car (R112). -/
structure RosterCar where
  badge : Nat
  adm : Nat
  rank  : Nat     -- COLD_RANK
  cert  : Nat     -- SHA-256 of its device certificate
  posX  : Nat
  posY  : Nat
  ends_ : Nat     -- byte 19 of its last POSITION: ends, presence, ORIENT
  nbrA  : Nat     -- neighbour badges of its last POSITION
  nbrB  : Nat
  omits : Nat     -- consecutive NUMBERINGs that left it out (R102)
deriving DecidableEq, Repr

/-- A guest whose admission is in hand at the lead (R105, R106). -/
structure GuestReq where
  badge     : Nat
  cert      : List Byte   -- from its ADM_CERT
  ok        : Bool        -- the checks of R106 passed
  nl        : Nat         -- NL that its quote answered
  adm       : Nat         -- 0 until one is taken
  quoteHash : Nat
  granted   : Bool        -- ADM_GRANT sent
  done      : Bool        -- ADM_DONE accepted
deriving DecidableEq, Repr

/-- Where a guest stands in admission (R105). -/
inductive GuestStep where
  | idle            -- waits for a BEACON
  | haveBeacon      -- step 1
  | verifying       -- step 2
  | signing         -- step 3
  | sending         -- step 4, until ADM_QUOTE is launched
  | asked (at_ : Nat) -- step 4 done at that train time
  | unwrapping      -- step 7
  | done            -- step 8: keys held, waits for a NUMBERING
  | failed          -- waits for the next NL
deriving DecidableEq, Repr

/-- Cold-start phases (R92). -/
inductive Cold where
  | off | listening (since : Nat) | claiming (first : Nat) | waiting (badge since : Nat)
deriving DecidableEq, Repr

/-- A BEACON as a guest or lead keeps it: the sender's badge and the whole payload (R90). -/
structure Beacon where
  badge : Nat
  raw   : List Byte
deriving DecidableEq, Repr

/-- A bank of the lead-car state at BACKUP 1: version and chunks by index (R113). -/
structure Bank where
  version : Nat
  chunks  : List (Nat × List Byte)
deriving DecidableEq, Repr

/-- The master's view of one SHADOW rank (R135); offsets in 2^-16 ns. -/
structure ShadowSt where
  hist  : List Int
  good  : Nat
  missed : Nat
  usedNow : Bool
deriving DecidableEq, Repr

/-- A REFERENCE the master has launched and the copies that came back (R126, R137). -/
structure RefLaunch where
  seq  : Nat
  at_  : Nat
  retX : Option Int
  retY : Option Int
deriving DecidableEq, Repr

/-- A DELAY request the master has stamped (R147); times in 2^-16 ns. -/
structure DelayReq where
  adm : Nat
  reqId : Nat
  t2x   : Option Int
  t2y   : Option Int
  first : Nat
deriving DecidableEq, Repr

/-- A pending exchange of a drive car (R148): request, its T1 in 2^-16 ns and the basic cycle it was sent in. -/
structure DelayOut where
  reqId : Nat
  t1    : Int
  cycle : Nat
  answered : Bool
deriving DecidableEq, Repr

/-- One exchange of a drive car (R148): for each route, by the request's direction, the offset and the link delay that it
gave, in 2^-16 ns. -/
structure DriveEx where
  reqId : Nat
  x     : Option (Int × Int)
  y     : Option (Int × Int)
deriving DecidableEq, Repr

/-- A PTP master heard in an Announce (R150): its port identity, its rank in the BMCA (lower is better) and the C until
which it counts. -/
structure PtpMaster where
  port   : Nat
  rank   : Nat
  until_ : Nat
deriving DecidableEq, Repr

/-- A CYCLIC image that is being copied into FILL (R182). -/
structure ImageIn where
  data   : List Byte
  stamp  : Stamp
  cycle  : Nat
  adm  : Nat
  pubSeq : Nat
deriving DecidableEq, Repr

/-- An I/O image with its control block (R180, R181). -/
structure Image where
  entry     : Nat
  out       : Bool
  flips     : Nat
  ready     : Nat
  fill      : Nat
  pend      : Nat
  stale     : Bool
  absent    : Bool
  never     : Bool
  hostBuf   : Nat
  hostValid : Bool
  stamp     : Stamp
  cycle     : Nat
  adm     : Nat
  pubSeq    : Nat
  len       : Nat
  frozen    : Bool
  copying   : Option ImageIn
  pendIn    : Option ImageIn -- the frame in PEND
  got       : List Nat       -- starts (ns) of the latest occurrences delivered (R177)
  checked   : Option Nat     -- start of the last occurrence checked (R177)
deriving DecidableEq, Repr

/-- What a field strobe starts: an APPLY of a cycle mark or a timed apply. -/
inductive StrobeFor where
  | mark (m : Nat)
  | timed (slot : Nat)
deriving DecidableEq, Repr

/-- A field change whose strobe the lane island has issued (R19, R186, R277, R278). -/
structure Strobe where
  for_  : StrobeFor
  at_   : Nat      -- train time of the pin change
  mask  : Nat
  vals  : Nat
deriving DecidableEq, Repr

/-- A sentence with its record header (R212). -/
structure Sentence where
  slot     : Nat        -- local talker slot, or 64 for one that came over the train
  talker   : Nat        -- system talker ID (R190)
  stamp    : Stamp
  endStamp : Option Stamp
  noise    : Bool
  addr     : Bool
  checked  : Bool
  yard     : Bool
  late     : Bool
  replay   : Bool
  gap      : Bool
  tseq     : Nat
  cls      : Nat
  sup      : Bool
  hist     : Bool
  rule     : Nat
  key      : List Byte
  body     : List Byte
  arrived  : Nat
deriving DecidableEq, Repr

/-- A rule with its decimation count and token bucket (R201, R202). -/
structure RuleSt where
  rec_   : List Word
  dec    : Nat
  tokens : Nat        -- micro-tokens: one sentence takes 1,000,000
  filled : Nat        -- C of the last refill
deriving DecidableEq, Repr

/-- A listener queue with its merge stage (R215, R218). -/
structure LQueue where
  q        : List Sentence
  held     : List Sentence
  emitting : Option Sentence
deriving DecidableEq, Repr

/-- One listener group at the lead (R205): members are (badge, slot). -/
structure Group where
  num     : Nat
  members : List (Nat × Nat)
deriving DecidableEq, Repr

/-- A car's map of one group (R206). -/
structure GMap where
  num    : Nat
  mask   : Nat
  mapped : Bool
  remote : Bool
deriving DecidableEq, Repr

/-- Resequencing state of one (ADMIT, STREAM) pair (R210): held frames with GSEQ, arrival and records. -/
structure ReseqPair where
  adm  : Nat
  stream : Nat
  next   : Nat
  held   : List (Nat × Nat × List Sentence)
deriving DecidableEq, Repr

/-- A 64 KiB history block (R221). -/
structure HBlock where
  time     : Nat
  ep       : Nat
  seq      : Nat
  unsynced : Bool
  recs     : List Sentence
deriving DecidableEq, Repr

/-- A replay in progress (R222, R400). `far` is the badge of the listener's car when it is another. -/
structure Replay where
  rid       : Nat
  listener  : Nat
  far       : Option Nat
  recs      : List Sentence
  count     : Nat
  truncated : Bool
  via       : Via
  session   : Nat
deriving DecidableEq, Repr

/-- A received character: its 16-bit slot (R238), the stamp of its start bit (R246), and whether an idle gap of the
talker profile followed it (R194). -/
structure RxChar where
  slot  : Nat
  stamp : Stamp
  gap   : Bool
deriving DecidableEq, Repr

/-- A block of a serial receive ring (R242). An item is its list of characters. -/
structure RingBlock where
  bseq  : Nat
  place : Nat       -- its place in the ring
  items : List (List RxChar)
  tmo   : Bool
deriving DecidableEq, Repr

/-- Receiver phase of a serial port (R232, R237, R247). -/
inductive RxPhase where
  | hunting | character | breakHold | stuck | waitIdle
deriving DecidableEq, Repr

/-- Transmitter phase of a serial port (R243). -/
inductive TxPhase where
  | idle | character | tail
deriving DecidableEq, Repr

/-- Cause of LATCHED (R264, R287). -/
inductive LatchCause where
  | retries | readbackLow
deriving DecidableEq, Repr

/-- Owner of a field group (R270). -/
inductive Owner where
  | none | host (badge session : Nat) | firmware
deriving DecidableEq, Repr

/-- An edge report on its way to the logic side (R259): the stamped instant in ns of C. -/
structure EdgeRep where
  ch      : Nat
  level   : Bool
  at_     : Nat
  overrun : Bool
  starting : Bool
deriving DecidableEq, Repr

/-- A pending timed apply (R278). -/
structure Timed where
  slot  : Nat
  g     : Nat
  gen   : Nat
  mask  : Nat
  vals  : Nat
  at_   : Nat
  ep    : Nat
deriving DecidableEq, Repr

/-- A train key in the gate island (R311). -/
structure KeySlot where
  epoch : Nat
  key   : Nat
deriving DecidableEq, Repr

/-- One REKEY block of a rotation (R313). -/
structure RekeyBlk where
  adm   : Nat
  guest   : Bool
  wrapped : Bool
  acked   : Bool
  sentAt  : Option Nat
  resent  : Nat
deriving DecidableEq, Repr

/-- A rotation at the lead (R312, R313). -/
structure Rotation where
  rid     : Nat
  next    : Nat
  key     : Nat
  switchM : Nat
  blocks  : List RekeyBlk
deriving DecidableEq, Repr

/-- A next key installed at this car (R313). -/
structure Installed where
  rid     : Nat
  epoch   : Nat
  switchM : Nat
  key     : Nat
deriving DecidableEq, Repr

/-- What an own SECRETS entry decrypts to: the CKN and the CAK (R289, R308). -/
structure MacCak where
  ckn : List Byte
  cak : Nat
deriving DecidableEq, Repr

/-- A secure association of the yard port's MACsec channel (R289, R324): its number, its SAK, and the next packet number of a
transmit channel or the next expected one of a receive channel. -/
structure MacSa where
  an  : Nat
  key : Nat
  pn  : Nat
deriving DecidableEq, Repr

/-- What an RSA unit does or is asked for (R327): the private unit opens key blocks and signs, the public one wraps and verifies. -/
inductive RsaUse where
  | idle | grantOpen | rekeyOpen | signQuote | signBeacon | hostPriv | rekeyWrap | grantWrap | hostPub
deriving DecidableEq, Repr

/-- The owner enrolment record (R296). -/
structure Enrol where
  cert   : List Byte
  hash   : Nat
  cosign : Bool
  envSeq : Nat
  floor  : Nat
  sealMac : Nat         -- its MAC
deriving DecidableEq, Repr

/-- A challenge nonce a session holds (R318, R321). -/
structure Chal where
  session : Nat
  nonce   : Nat
  until_  : Nat
deriving DecidableEq, Repr

/-- Where a firmware command came from, with what its sender holds (R320, R386). `rcode` is the code its reply
carries: its own, or that of the envelope around it. `badge` names the car whose session sent it. -/
structure Ctx where
  via     : Via
  session : Nat
  priv    : Priv
  scope   : Nat
  config  : Bool     -- the command stands in an accepted envelope
  badge   : Nat
  tag     : Nat
  rcode   : Nat
  words   : List Word
  copy    : Option (List Byte) := none   -- the input parcel as the envelope's hash check read it (R305, R389)
deriving DecidableEq, Repr

/-- An outbound BULK transfer: its destination by badge and system address, the command it serves, and the replayed records in it. -/
structure BulkOut where
  xid     : Nat
  badge   : Nat
  dst     : Nat
  kind    : XferKind
  ctx     : Ctx
  started : Nat
  recs    : Nat
  len     : Nat
deriving DecidableEq, Repr

/-- A command in the ordered queue of the barrier link, with the firmware command it answers (R253, R267, R269, R271, R272). -/
inductive BarrierCmd where
  | take (c : Ctx) (g exp : Nat) (force : Bool)
  | release (c : Ctx) (g gen : Nat)
  | output (c : Ctx) (g gen mask vals : Nat)
  | clear (c : Ctx) (g gen mask : Nat)
  | rearm (c : Ctx) (g gen : Nat)
deriving DecidableEq, Repr

/-- What a command needs of its sender (R317, R319). -/
inductive Need where
  | observe | operate | config | service | serviceTest | proof
deriving DecidableEq, Repr

/-- A host command that waits for an RSA operation (R327): what happens when it completes. -/
inductive RsaJob where
  | quote | operResponse | takeOwnership | transfer | envelope | serviceToken | recipeActivate | slotWrite
deriving DecidableEq, Repr

/-- A command in progress whose reply comes later. -/
structure Job where
  ctx   : Ctx
  job   : RsaJob
  data  : List Byte     -- the input parcel, copied when the command was taken (R389)
deriving DecidableEq, Repr

/-- A yard frame being received. -/
structure YRx where
  queue   : Nat
  claimed : Nat
  stamp   : Stamp
  tagged  : Bool
  tci     : Nat
  hdr     : List Byte
  len     : Nat
deriving DecidableEq, Repr

/-- A yard frame handed over by the MAC: the descriptor fields of R337, how many descriptors it fills, and the bytes
without the stripped tag and the FCS. -/
structure YFrame where
  queue  : Nat
  used   : Nat
  stamp  : Stamp
  tagged : Bool
  tci    : Nat
  bytes  : List Byte
  first  : Nat           -- its first descriptor in the ring
  seen   : List Nat      -- subscriptions that have taken it (R343)
deriving DecidableEq, Repr

/-- A frame waiting in a yard transmit queue (R338, R152). With `udp` the bytes are the payload of a UDP
datagram to that address and port; without it they are a whole frame from its destination address on. -/
structure YTx where
  queue   : Nat
  udp     : Option (Nat × Nat)
  sport   : Nat
  hop     : Nat           -- TTL or hop limit, 0 = that of the yard port record
  bytes   : List Byte
  timed   : Option Nat    -- two-step request: the 16-bit identifier
  tsub    : Nat           -- T_sub of the descriptor (R153)
  relayed : Option Nat    -- PTP relay: train time of the ingress stamp (R154)
deriving DecidableEq, Repr

/-- What a descriptor reports after a timed message left as one step (R153). -/
structure YSent where
  queue   : Nat
  bytes   : List Byte     -- from the destination address on, with the tag and padding, without the FCS
  oneStep : Bool
  corr    : Int           -- what was added into correctionField, 2^-16 ns
deriving DecidableEq, Repr

/-- State of a yard endpoint (R341, R342). -/
structure EpSt where
  pack  : List Sentence
  first : Nat
  dseq  : Nat
  runs  : Nat
deriving DecidableEq, Repr

/-- A tracked (SRC, ENDPOINT) pair of a subscription (R343). -/
structure DPair where
  src   : Nat
  ep    : Nat
  run   : Nat
  next  : Nat
  heard : Nat
deriving DecidableEq, Repr

/-- A yard session (R346, R347). -/
structure YSess where
  id    : Nat
  addr  : Nat
  port  : Nat
  mseq  : Nat
  reply : List Word
  heard : Nat
  priv  : Priv
  scope : Nat
  operKey : Nat
  inbox : Option (List Word)
deriving DecidableEq, Repr

/-- A segmented send in progress (R339). -/
structure SegSend where
  ctx   : Ctx
  mss   : Nat
  queue : Nat
  hdr   : List Byte     -- Ethernet, IP and UDP headers
  left  : List Byte
  sent  : Nat
  ipId  : Nat
deriving DecidableEq, Repr

/-- An outbound firmware message that waits for its slot (R366). -/
structure OutMsg where
  words   : List Word
  session : Nat
  sender  : Nat
deriving DecidableEq, Repr

/-- A word whose read has a side effect (R12, R367). -/
inductive RcWord where
  | outCommit (ch : Nat)
  | proxyOut (k c : Nat)
  | lock (n : Nat)
  | drop (ch : Nat)
  | overflow
deriving DecidableEq, Repr

/-- A read whose side effect is held provisionally, with the value its address phase took (R367). -/
structure Prov where
  reg : RcWord
  val : Nat
deriving DecidableEq, Repr

/-- States of a remote channel proxy (R374). -/
inductive ProxySt where
  | idle | sent | accepted | replied
deriving DecidableEq, Repr

/-- A message that the firmware has taken from a channel (a yard session k counts as channel 16 + k), its TAG and CODE, and its reply with
the session it goes to, once made, while an earlier message of the channel has none (R387). -/
structure OutEnt where
  ch   : Nat
  tag  : Nat
  code : Nat
  done : Option (List Word × Nat)
deriving DecidableEq, Repr

/-- A proxy of channel 12 + c of window k (R374). -/
structure Proxy where
  k       : Nat
  c       : Nat
  st      : ProxySt
  inMsg   : List Word
  outMsg  : List Word
  session : Nat
  reqId   : Nat
  at_     : Nat
  far     : Nat
deriving DecidableEq, Repr

/-- The remote read buffer (R375). -/
inductive RdBuf where
  | idle
  | waiting (k off n reqId : Nat) (at_ : Option Nat) (far : Nat)   -- at_: train time of the launch of READ_REQ
  | data (k off n : Nat) (words : List Word) (at_ : Nat)
  | timedOut (k off n : Nat)
deriving DecidableEq, Repr

/-- Outcome of a host transaction, for the status byte (R357). -/
structure TxnStat where
  bus     : Bool
  kind    : Nat
  retry   : Bool
  partial_ : Bool
deriving DecidableEq, Repr

def TxnStat.clear : TxnStat := { bus := false, kind := 0, retry := false, partial_ := false }

/-- A parcel reservation (R390). -/
structure Parcel where
  addr    : Nat
  len     : Nat
  session : Nat
deriving DecidableEq, Repr

/-- A stream frame (R420). -/
structure SFrame where
  ch      : Nat
  seq     : Nat
  param   : Nat
  payload : List Byte
deriving DecidableEq, Repr

/-- A MSG_COMMIT that arrived ahead of its turn (R430). -/
structure HeldCommit where
  origin : Nat     -- ADMIT of the origin car
  sys    : Nat
  reqId  : Nat
  at_    : Nat
  session : Nat
  priv   : Nat
  win    : Nat
  words  : List Word
deriving DecidableEq, Repr

/-- Who sent the message now in a remote channel 12 to 15 (R374). -/
structure RemoteOrg where
  ch      : Nat
  origin  : Nat
  badge   : Nat
  reqId   : Nat
  session : Nat
deriving DecidableEq, Repr

/-- An event record (R438, R440). -/
structure Event where
  sysSrc : Nat
  code   : Nat
  data   : Nat
  data2  : Nat
  remote : Bool
  stamp  : Stamp
deriving DecidableEq, Repr

/-- Where an event record goes on the train (R442): to every car, to car 0, or to the car that TRAIN_DEST named as it was routed. -/
inductive EvDst where
  | all
  | car0
  | car (badge : Nat)
deriving DecidableEq, Repr

/-- A recorder record (R448), with W3 split into CODE and REPEAT. -/
structure Rec where
  seq    : Nat
  kind   : Nat
  remote : Bool
  source : Nat
  code   : Nat
  rep    : Nat
  data   : Nat
  touch  : Nat
  data2  : Nat
deriving DecidableEq, Repr

/-- A collector entry (R451): an event with its repeat count, a LOST record, or a record that waits its turn
behind earlier entries (a clock mark or a RESUME). -/
inductive ColEntry where
  | event (e : Event) (rep : Nat)
  | lost (src n : Nat)
  | mark (r : Rec)
deriving DecidableEq, Repr

/-- A damaged hayloft codeword (R455, R456). -/
inductive Damage where
  | one | two | poisoned
deriving DecidableEq, Repr

/-- A flash program or erase in progress (R466). -/
structure FlashOp where
  erase   : Bool
  addr    : Nat
  retried : Bool
  started : Bool            -- 0: it waits for the end of BRACED (R466)
  slot    : Nat             -- slot being written, 4 = journal or reserve sector
  words   : List Word
  ctx     : Option Ctx
deriving DecidableEq, Repr

/-- A flash slot: what it holds and whether it verifies (R405, SLOT_INFO). -/
structure Slot where
  valid : Bool
  words : List Word
deriving DecidableEq, Repr

/-- A pending train snapshot (R350). -/
structure SnapReq where
  ts    : Nat
  sid   : Nat
  clear : Bool
  ctx   : Option Ctx
deriving DecidableEq, Repr

/-- Stages of BARN (R488 to R490). -/
inductive BarnStage where
  | awake | entering | asleep | waking
deriving DecidableEq, Repr

end Sys2Proof.Machine
end

