-- ==== Sys2Proof/Machine/State.lean ====
section
/-!
DEFINITION. The state of the KN640: every register, queue, counter, mode and pin the manual gives it, as
plain data in one record per part, the queue of the commands that are waiting, and the state right after
RESET. A docstring names the rules of spec/ that give the field; INVENTORY.md lists each field's reset value.
-/

namespace Sys2Proof.Machine

open Sys2Proof

/-- Why the block stops. -/
inductive Fault where
  /-- Raised by VIN_LOGIC_RISE, SUPPLY_RESET, RESET_RELEASE, BRACED_ENTRY, BRACED_EXIT, SUPPLY_THRESHOLD and SUPPLY_RETURNED (Power.withVin)
  when VIN_LOGIC passes the absolute rating of R493, where the manual states no behaviour of any output (R494). Safe: the model stops
  where the manual says nothing. -/
  | outsideRatings
deriving DecidableEq, Repr

/-- Why a command has no meaning. -/
inductive Refusal where
  /-- Raised by an arm of exec whose command has no meaning yet. Safe: no claim about it can be proved. -/
  | notModelled (mnemonic : String)
deriving DecidableEq, Repr


/-- One coupler end (R33 to R40, R60). -/
structure CplEnd where
  /-- 1: level of CPL_PRESENT_x. R34 -/
  pin : Bool
  /-- 1: filtered presence. R34 -/
  present : Bool
  /-- 4 states. R39, R40 -/
  st : EndState
  /-- 1: signal detect. R39 -/
  signal : Bool
  /-- 1: block lock. R39 -/
  lock : Bool
  /-- 1: hi_ber. R39 -/
  hiBer : Bool
  /-- 64: accepted neighbour badge. R38 -/
  nbr : Option Nat
  /-- 64: previous badge. R39 -/
  prev : Option Nat
  /-- 8: flags of the last complete hello. R37 -/
  nbrFlags : Nat
  /-- 8: train number of the last complete hello. R37 -/
  nbrTrain : Nat
  /-- chunks of the hello being received: index, value. R38 -/
  helloCur : List (Nat × Nat)
  /-- the last complete hello. R38 -/
  helloLast : Option (List (Nat × Nat))
  /-- 3: next hello chunk to send. R38 -/
  txChunk : Nat
  /-- C at which the next hello chunk may go. R38 -/
  helloAt : Nat
  /-- the hello block last sent: D1, D2, D3. R37 -/
  lastHello : Option (Nat × Nat × Nat)
  /-- frame arriving on this end. R58 -/
  rx : Option RxFrame
  /-- copy last started out of this end. R58, R61 -/
  tx : Option WireFrame
  /-- C at which that copy ends. R60 -/
  busyUntil : Nat
  /-- 1: that copy is a local frame or was released from the pass buffer. R60 -/
  localTx : Bool
  /-- pass buffer of the direction leaving here, oldest first. R60 -/
  buf : List WireFrame
  /-- train time at which the end left UP. R43 -/
  leftUp : Option Nat
  /-- C since when signal detect is absent. R489 -/
  absentAt : Option Nat
  /-- 1: a PRBS check runs. R404 -/
  prbs : Bool
deriving DecidableEq, Repr

/-- CplEnd when the device has left RESET. -/
def CplEnd.reset : CplEnd where
  pin := false
  present := false
  st := .down
  signal := false
  lock := false
  hiBer := false
  nbr := none
  prev := none
  nbrFlags := 0
  nbrTrain := 0
  helloCur := []
  helloLast := none
  txChunk := 0
  helloAt := 0
  lastHello := none
  rx := none
  tx := none
  busyUntil := 0
  localTx := false
  buf := []
  leftUp := none
  absentAt := none
  prbs := false

/-- Framing front end of one talker slot (R193, R194). -/
structure Framer where
  /-- bytes of the sentence being framed. R193 -/
  bytes : List Byte
  /-- 1: inside a sentence. R193, R194 -/
  active : Bool
  /-- 1: an idle gap has passed (IDLE-GAP, LENGTH-PREFIXED). R194 -/
  armed : Bool
  /-- 1: a character had NOISE. R193, R212 -/
  noise : Bool
  /-- 1: an address character began it. R194, R212 -/
  addr : Bool
  /-- 1: STX-ETX, the BCC byte is due. R194 -/
  bcc : Bool
  /-- stamp of the first byte. R196 -/
  stamp : Stamp
  /-- stamp of the last byte. R196 -/
  endStamp : Stamp
deriving DecidableEq, Repr

/-- Framer when the device has left RESET. -/
def Framer.reset : Framer where
  bytes := []
  active := false
  armed := false
  noise := false
  addr := false
  bcc := false
  stamp := Stamp.zero
  endStamp := Stamp.zero

/-- One serial port (R227 to R251). -/
structure PortSt where
  /-- 6 x 32: the port record. R248 -/
  rec_ : List Word
  /-- the setting the receiver has adopted. R245 -/
  rxSet : List Word
  /-- the setting the transmitter has adopted. R245 -/
  txSet : List Word
  /-- 1: RX_PENDING. R245, R401 -/
  rxPend : Bool
  /-- 1: TX_PENDING. R245, R401 -/
  txPend : Bool
  /-- 5 phases. R232, R237, R247 -/
  phase : RxPhase
  /-- stamp of the start edge of the character in progress. R246 -/
  edge : Option Stamp
  /-- C of that edge. R237, R246 -/
  edgeAt : Nat
  /-- 1: the samples of its start bit disagreed. R231, R236 -/
  noisy : Bool
  /-- level at which RX[n] was last decided. R227, R232, R237, R483 -/
  rx : Bool
  /-- 1: MUTED. R235 -/
  muted : Bool
  /-- C since when the line is low. R237 -/
  stuckAt : Nat
  /-- C at which it was last seen low, or at which the island was clocked. R237, R247 -/
  lowAt : Nat
  /-- 64 slots of 16 bits with their start-bit stamps, oldest first. R238, R246 -/
  fifo : List RxChar
  /-- 1: fill at or above FIFO_LEVEL. R241 -/
  lvlHit : Bool
  /-- closed blocks, oldest first. R242 -/
  ring : List RingBlock
  /-- block being filled. R242 -/
  cur : Option RingBlock
  /-- characters of the oldest blocks that are framed already. R242 -/
  framed : Nat
  /-- 16: next BSEQ. R242 -/
  bseq : Nat
  /-- 1: no block is free. R242 -/
  stalled : Bool
  /-- place in the ring of the next block. R242 -/
  place : Nat
  /-- character that completed in this island clock cycle while the FIFO held 64 slots. R239, R240 -/
  late : Option RxChar
  /-- 64 characters of up to 9 bits. R243 -/
  txFifo : List Nat
  /-- 3 phases. R243 -/
  txPhase : TxPhase
  /-- character in the transmit shifter. R234, R243 -/
  txCh : Option Nat
  /-- C of its start bit, or of the end of the last stop bit. R243 -/
  txAt : Nat
  /-- C of the last release of DE[n]. R243, R244 -/
  deOff : Nat
  /-- 1: DE[n] asserted. R243, R483 -/
  de : Bool
  /-- 1: receiver muted by ECHO_MUTE. R244 -/
  echo : Bool
  /-- 1: ENABLE was cleared while a shifter was busy. R245 -/
  closing : Bool
  /-- C of the end of the last character. R242, R194 -/
  lastEnd : Nat
deriving DecidableEq, Repr

/-- PortSt when the device has left RESET. -/
def PortSt.reset : PortSt where
  rec_ := List.replicate 6 0
  rxSet := List.replicate 6 0
  txSet := List.replicate 6 0
  rxPend := false
  txPend := false
  phase := .hunting
  edge := none
  edgeAt := 0
  noisy := false
  rx := true
  muted := false
  stuckAt := 0
  lowAt := 0
  fifo := []
  lvlHit := false
  ring := []
  cur := none
  framed := 0
  bseq := 0
  stalled := false
  place := 0
  late := none
  txFifo := []
  txPhase := .idle
  txCh := none
  txAt := 0
  deOff := 0
  de := false
  echo := false
  closing := false
  lastEnd := 0

/-- One field channel (R256 to R268, R286). -/
structure Chan where
  /-- 1: accepted level. R258, R286 -/
  level : Bool
  /-- 1: a level has been accepted since the input last became INVALID. R258, R260 -/
  known : Bool
  /-- last accepted level, kept across INVALID. R260 -/
  lastLevel : Bool
  /-- 1: lastLevel holds an accepted level. R260 -/
  hadLevel : Bool
  /-- level of the present run of samples. R258 -/
  runLevel : Bool
  /-- C of its first sample. R258 -/
  runStart : Nat
  /-- 1: DRIVE. R262, R286 -/
  drive : Bool
  /-- 3: row of R279 that decides the switch, 0 until one has. R279, R286 -/
  row : Nat
  /-- level kept by HOLD. R279 -/
  hold : Bool
  /-- LATCHED and its cause. R264, R267, R286 -/
  latched : Option LatchCause
  /-- 1: off after SHORT, retry pending. R262, R286 -/
  short : Bool
  /-- 1: THERMAL. R262, R286 -/
  thermal : Bool
  /-- 1: BACKFEED. R264, R286 -/
  backfeed : Bool
  /-- 1: READBACK_LOW. R264, R286 -/
  rbLow : Bool
  /-- 1: OPEN_LOAD. R266, R286 -/
  openLoad : Bool
  /-- 1: SHED. R263, R286 -/
  shed : Bool
  /-- 4: retry count. R262, R286 -/
  retry : Nat
  /-- C since when DRIVE stands as it is. R262, R266 -/
  onSince : Nat
  /-- C of the last SHORT. R262 -/
  offAt : Nat
  /-- 1: OVERRUN. R259, R286 -/
  overrun : Bool
  /-- C since when the mismatch timer runs anew. R264, R268 -/
  cmpFrom : Nat
  /-- 1: open-load test in progress. R266 -/
  testing : Bool
  /-- C at which it started. R266 -/
  testAt : Nat
  /-- C at which the last open-load test ended. R266 -/
  testOver : Nat
  /-- the owner's request as last applied. R272, R286 -/
  ownReq : Bool
deriving DecidableEq, Repr

/-- Chan when the device has left RESET. -/
def Chan.reset : Chan where
  level := false
  known := false
  lastLevel := false
  hadLevel := false
  runLevel := false
  runStart := 0
  drive := false
  row := 0
  hold := false
  latched := none
  short := false
  thermal := false
  backfeed := false
  rbLow := false
  openLoad := false
  shed := false
  retry := 0
  onSince := 0
  offAt := 0
  overrun := false
  cmpFrom := 0
  testing := false
  testAt := 0
  testOver := 0
  ownReq := false

/-- One field group (R268 to R274, R286). -/
structure FGroup where
  /-- 16: GEN. R271, R286 -/
  gen : Nat
  /-- owner. R270, R271 -/
  owner : Owner
  /-- 16: LEASE left in basic cycles. R273, R286 -/
  lease : Nat
  /-- 1: WARN. R268, R286 -/
  warn : Bool
  /-- 1: SUPPRESS. R268, R286 -/
  suppress : Bool
  /-- 1: UNDERVOLT. R268, R286 -/
  uv : Bool
  /-- 1: OVERVOLT. R268, R286 -/
  ov : Bool
  /-- 1: supply below the undervoltage threshold. R260 -/
  under : Bool
  /-- mV: VFIELD_G. R268, R286 -/
  vfield : Nat
  /-- C since when the supply is above 15.5 V again. R268 -/
  above : Option Nat
  /-- C since when the supply is back in range. R269 -/
  inRange : Option Nat
  /-- C of the last shed for the group's sum. R263 -/
  shedAt : Option Nat
deriving DecidableEq, Repr

/-- FGroup when the device has left RESET. -/
def FGroup.reset : FGroup where
  gen := 0
  owner := .none
  lease := 0
  warn := false
  suppress := false
  uv := false
  ov := false
  under := false
  vfield := 0
  above := none
  inRange := none
  shedAt := none

/-- One manger channel (R364, R366). -/
structure Manger where
  /-- 16 x 32: IN_MSG. R361, R364 -/
  inMsg : List Word
  /-- 1: IN_FULL. R364 -/
  inFull : Bool
  /-- 8: IN_SENDER. R364 -/
  inSender : Nat
  /-- 16: IN_SESSION. R364 -/
  inSession : Nat
  /-- 2: privilege carried with the message. R320 -/
  inPriv : Priv
  /-- 16: IN_DROP. R364 -/
  inDrop : Nat
  /-- 16: OUT_DROP. R364 -/
  outDrop : Nat
  /-- 16 x 32: OUT_MSG. R361, R364 -/
  outMsg : List Word
  /-- 1: OUT_FULL. R364 -/
  outFull : Bool
  /-- 8: OUT_SENDER. R364 -/
  outSender : Nat
  /-- 16: OUT_SESSION. R364 -/
  outSession : Nat
  /-- outbound messages that wait, at most 64. R366 -/
  held : List OutMsg
deriving DecidableEq, Repr

/-- Manger when the device has left RESET. -/
def Manger.reset : Manger where
  inMsg := List.replicate 16 0
  inFull := false
  inSender := 0
  inSession := 0
  inPriv := .observe
  inDrop := 0
  outDrop := 0
  outMsg := List.replicate 16 0
  outFull := false
  outSender := 0
  outSession := 0
  held := []

/-- An entry of the bridge error log (R377). -/
structure ErrEnt where
  /-- 1: VALID. R377 -/
  valid : Bool
  /-- 24: address. R377 -/
  addr : Nat
  /-- 8: master ID. R377 -/
  master : Nat
  /-- 8: status code. R377 -/
  status : Nat
  /-- 14: far car. R377 -/
  remote : Nat
  /-- stamp. R377 -/
  stamp : Stamp
deriving DecidableEq, Repr

/-- ErrEnt when the device has left RESET. -/
def ErrEnt.reset : ErrEnt where
  valid := false
  addr := 0
  master := 0
  status := 0
  remote := 0
  stamp := Stamp.zero

/-- Device state, resets, pins, supply and BARN (R25 to R27, R470 to R492). -/
structure Sys where
  /-- 10 states. R25, R26 -/
  dev : Dev
  /-- 1. R25, R473 -/
  braced : Bool
  /-- 64 (C). R492 -/
  bracedAt : Nat
  /-- mV. R475, R492 -/
  vinLow : Nat
  /-- mV. R473, R404 DIAG_READ -/
  vin : Nat
  /-- mV: extreme of that excursion. R473, R492 -/
  supplyExt : Nat
  /-- 64: C of a RESET whose firmware reset has still to follow. R396 -/
  resetAt : Option Nat
  /-- 1: AUTO_START waits for the end of BRACED. R487; R27 -/
  autoHeld : Bool
  /-- 2: SUPPLY code standing, 0 none. R473 -/
  supplyOut : Nat
  /-- 6 causes. R481 -/
  cause : Cause
  /-- channel list. R379: inbound slots full at the reset -/
  slotsFull : List Nat
  /-- 0.1 degC: THERMAL shutdown to be raised at STARTUP. R480, R492 -/
  pendThermal : Option Int
  /-- 0.1 degC. R480, R404 -/
  dieTemp : Int
  /-- 0.1 degC. R287, R404 -/
  fieldTemp : Int
  /-- 1. R480 -/
  thermalWarn : Bool
  /-- 1. R480 -/
  thermalHold : Bool
  /-- 1: OWN_PRESENT_N low since reset release. R297, R478 -/
  ownLow : Bool
  /-- 1: a ceremony has taken place since reset. R297 -/
  ceremony : Bool
  /-- 1: HOST_RST_N low. R478 -/
  hostRst : Bool
  /-- 1: PORST_N low. R478 -/
  porst : Bool
  /-- pin. R25, R35 -/
  bypassA : PinLevel
  /-- pin. R25, R35 -/
  bypassB : PinLevel
  /-- 1: slot A was refused in this boot. R300 -/
  triedA : Bool
  /-- firmware slot running, true = B. R300 -/
  running : Option Bool
  /-- 7. R299: ARB of the running image -/
  fwArb : Nat
  /-- 1. R299 -/
  fwCosigned : Bool
  /-- 32. R3, R361 0x004 -/
  fwVersion : Nat
  /-- 256. R303 -/
  fwMeas : Nat
  /-- 8. R361 BOOT_CODE -/
  bootCode : Nat
  /-- 1. R292 -/
  katFail : Bool
  /-- 1: BYPASS released in this STARTUP. R485 -/
  recipeDone : Bool
  /-- 64. R293, R361 -/
  badge : Nat
  /-- 48. R333 -/
  mac : Nat
  /-- stages. R488 to R490 -/
  barn : BarnStage
  /-- 64: C at which BARN was entered. R488, R492 -/
  barnIn : Nat
  /-- 64 (C). R489, R492 -/
  barnAt : Nat
  /-- 32 ms. R489 -/
  wakeTimer : Nat
  /-- 5: sources latched. R489, R492 -/
  wakeSrc : Nat
  /-- 5: lowest port or channel. R492 -/
  wakeIdx : Option Nat
deriving DecidableEq, Repr

/-- Sys when the device has left RESET. -/
def Sys.reset : Sys where
  dev := .boot
  braced := false
  bracedAt := 0
  vinLow := 3300
  vin := 3300
  supplyExt := 0
  resetAt := none
  autoHeld := false
  supplyOut := 0
  cause := .supply
  slotsFull := []
  pendThermal := none
  dieTemp := 250
  fieldTemp := 250
  thermalWarn := false
  thermalHold := false
  ownLow := false
  ceremony := false
  hostRst := false
  porst := false
  bypassA := .low
  bypassB := .low
  triedA := false
  running := none
  fwArb := 0
  fwCosigned := false
  fwVersion := 0
  fwMeas := 0
  bootCode := 0
  katFail := false
  recipeDone := false
  badge := 0
  mac := 0
  barn := .awake
  barnIn := 0
  barnAt := 0
  wakeTimer := 0
  wakeSrc := 0
  wakeIdx := none

/-- Coupler ends (R33 to R45). -/
structure Ends where
  /-- end A: every field below CplEnd.reset. R34, R38, R39 -/
  a : CplEnd
  /-- end B. R34, R38, R39 -/
  b : CplEnd
  /-- 1. R45, R361 ORIENT -/
  orient : Bool
  /-- 1: ORIENT was learnt from an INAUGURATION frame. R45 -/
  orientSet : Bool
deriving DecidableEq, Repr

/-- Ends when the device has left RESET. -/
def Ends.reset : Ends where
  a := CplEnd.reset
  b := CplEnd.reset
  orient := true
  orientSet := false

/-- Lane island: source table, SEQ series, waiting and delivered frames (R48 to R85, R169 to R177). -/
structure Lane where
  /-- 96 keyed and 32 open entries. R69, R70 -/
  src : List SrcEntry
  /-- 48. R50 -/
  seq : Nat
  /-- 48. R52, R105 -/
  openSeq : Nat
  /-- waiting local frames. R169 to R173 -/
  txq : List TxFrame
  /-- committed frames waiting at one end. R172 -/
  copies : List TxCopy
  /-- delivered frames. R31, R77 -/
  rxq : List RxMsg
  /-- held frames of epoch E + 1: train time, end, frame, payload. R101 -/
  early : List (Nat × Bool × RxFrame × List Byte)
  /-- copies at end B that passed their tail check while a copy of the same frame is at its tail at end A. R76 -/
  tailB : List (RxFrame × List Byte)
  /-- 1. R170 -/
  silenced : Bool
  /-- start of the occurrence the lists below belong to, 0.1 ns. R171, R173 -/
  occ : Nat
  /-- classes blocked at end A in that occurrence. R171 -/
  blockedA : List Nat
  /-- classes blocked at end B. R171 -/
  blockedB : List Nat
  /-- classes counted DEFERRED in that occurrence. R173 -/
  deferred : List Nat
  /-- last occurrence counted SILENCED. R170 -/
  silencedOcc : Nat
  /-- occurrence whose CYCLIC frame has been sent. R163 -/
  cyclicOcc : Option Nat
  /-- inbound BULK transfers. R56 -/
  bulkIn : List BulkIn
  /-- outbound transfers, at most 4 plus replays. R406, R222 -/
  bulkOut : List BulkOut
  /-- 32. R56, R404 -/
  nextXfer : Nat
deriving DecidableEq, Repr

/-- Lane when the device has left RESET. -/
def Lane.reset : Lane where
  src := []
  seq := 0
  openSeq := 0
  txq := []
  copies := []
  rxq := []
  early := []
  tailB := []
  silenced := false
  occ := 0
  blockedA := []
  blockedB := []
  deferred := []
  silencedOcc := 0
  cyclicOcc := none
  bulkIn := []
  bulkOut := []
  nextXfer := 1

/-- Inauguration and admission (R86 to R117, R520). -/
structure Inaug where
  /-- 3. R30, R361 ROLE -/
  role : Role
  /-- 2. R361 RANK -/
  rank : Nat
  /-- 1. R361 DRIVE -/
  drive : Bool
  /-- 6. R48, R361 SYS_ADDR -/
  car : Option Nat
  /-- 8. R361 SYS_ADDR -/
  train : Nat
  /-- 16. R51, R397 -/
  adm : Nat
  /-- 12. R361 INAUG -/
  epoch : Nat
  /-- 14. R58: address before the latest adoption -/
  adoptSys : Nat
  /-- 8. R311 -/
  prevTrain : Nat
  /-- train time. R100, R101 -/
  graceUntil : Option Nat
  /-- up to 64 entries. R90, R98 -/
  numbering : List NumEntry
  /-- the previous numbering. R101 -/
  prevNumbers : List NumEntry
  /-- consecutive NUMBERINGs that omit the car. R102 -/
  omitted : Nat
  /-- 64. R397 -/
  leadBadge : Nat
  /-- 16. R313 -/
  leadAdmit : Nat
  /-- phases. R92 -/
  cold : Cold
  /-- 1. R92 -/
  claimSigned : Bool
  /-- train time of the last claim. R92 -/
  claimSent : Option Nat
  /-- badges. R92 -/
  discredited : List Nat
  /-- steps. R105 -/
  guest : GuestStep
  /-- the BEACON the guest answers. R105 -/
  beacon : Option Beacon
  /-- DER. R105 -/
  leadCert : List Byte
  /-- 256. R90, R105 -/
  quoteHash : Nat
  /-- 8. R106 -/
  failCode : Nat
  /-- 1. R397 ADMISSION_RETRY -/
  retryAsked : Bool
  /-- bytes 0 to 153 of the quote being signed. R105; R304 -/
  quoteDue : List Byte
  /-- key block being unwrapped. R105 -/
  block : List Byte
  /-- hashes of signed contents verified, with the verdict. R89 -/
  verified : List (Nat × Bool)
  /-- 256 each: NLs answered by PRESENT. R108 -/
  presentNl : List Nat
  /-- unsolicited POSITIONs, oldest first: cause and train time. R95 -/
  posDue : List (Nat × Nat)
  /-- CENSUS_ID, first copy's train time, POS_X, POS_Y. R97 -/
  heard : Option (Nat × Nat × Nat × Nat)
  /-- CENSUS_ID last answered. R97 -/
  replied : Nat
  /-- train time of the last LEAD_STATUS accepted. R109 -/
  heardLead : Nat
  /-- ADMIT of BACKUP 1 to 3. R90 -/
  backups : List Nat
deriving DecidableEq, Repr

/-- Inaug when the device has left RESET. -/
def Inaug.reset : Inaug where
  role := .none
  rank := 0
  drive := false
  car := none
  train := 0
  adm := 0
  epoch := 0
  adoptSys := 0
  prevTrain := 0
  graceUntil := none
  numbering := []
  prevNumbers := []
  omitted := 0
  leadBadge := 0
  leadAdmit := 0
  cold := .off
  claimSigned := false
  claimSent := none
  discredited := []
  guest := .idle
  beacon := none
  leadCert := []
  quoteHash := 0
  failCode := 0
  retryAsked := false
  quoteDue := []
  block := []
  verified := []
  presentNl := []
  posDue := []
  heard := none
  replied := 0
  heardLead := 0
  backups := [0, 0, 0]

/-- Inauguration: what the lead and BACKUP 1 hold (R96 to R114). -/
structure LeadSt where
  /-- 256. R104 -/
  nl : Nat
  /-- 256. R104 -/
  nlPrev : Nat
  /-- train time of the last draw. R104 -/
  nlAt : Nat
  /-- 256. R110 -/
  echo : Nat
  /-- the signed BEACON being sent. R104 -/
  beaconNow : List Byte
  /-- the BEACON being signed. R104 -/
  beaconNext : List Byte
  /-- the last signed BEACON of the previous NL. R104 -/
  beaconPrev : List Byte
  /-- 12: inauguration epoch that a takeover sets. R114 -/
  nextEpoch : Option Nat
  /-- 1: an NL draw waits for entropy. R291 -/
  nlDue : Bool
  /-- train time of the last copy that failed. R113 -/
  copyTry : Nat
  /-- train time of the last BEACON. R104 -/
  beaconAt : Option Nat
  /-- last acceptable foreign BEACON. R110 -/
  foreign : Option Beacon
  /-- badge and train of the winner of a merge. R110 -/
  winner : Option (Nat × Nat)
  /-- . R96 -/
  census : Option Census
  /-- cause of a census kept for later. R96 -/
  keptCause : Option Nat
  /-- 32. R96, R112 -/
  censusCtr : Nat
  /-- entries and cause to send. R98 -/
  numberingDue : Option (List NumEntry × Nat)
  /-- train time of the last LEAD_STATUS sent. R94 -/
  statusAt : Option Nat
  /-- 32: version in LEAD_STATUS. R90 -/
  stateVer : Nat
  /-- . R112 -/
  roster : List RosterCar
  /-- 16. R107 -/
  nextAdmit : Nat
  /-- 16: committed ceiling. R107, R112 -/
  ceiling : Nat
  /-- 16: ceiling in the copy under way. R107 -/
  ceilingAsked : Nat
  /-- key epoch, ADMIT. R107, R112 -/
  issued : List (Nat × Nat)
  /-- . R105 -/
  guests : List GuestReq
  /-- badge, train time of the last ADMISSION event. R106 -/
  refused : List (Nat × Nat)
  /-- badges seen stopped. R108, R116 -/
  present : List Nat
  /-- 32: VERSION of the lead's image. R113 -/
  version : Nat
  /-- train time of the STATE_COMMIT in flight. R113 -/
  copyAt : Option Nat
  /-- consecutive failures. R113 -/
  copyFails : Nat
  /-- 1: BACKUP 1 has a committed copy. R113 -/
  committed : Bool
  /-- bank ACTIVE. R113 -/
  active : Option Bank
  /-- bank BUILD. R113 -/
  build : Option Bank
  /-- badge of the line handover target. R111 -/
  handTarget : Option Nat
  /-- train time since when HANDOVER waits. R111; R171 -/
  handSince : Option Nat
  /-- train time since when the DISSOLVE of a takeover without a copy waits. R109; R171 -/
  dissolveSince : Option Nat
  /-- 1: a key epoch generated by this lead is current. R114 -/
  rekeyedSelf : Bool
deriving DecidableEq, Repr

/-- LeadSt when the device has left RESET. -/
def LeadSt.reset : LeadSt where
  nl := 0
  nlPrev := 0
  nlAt := 0
  echo := 0
  beaconNow := []
  beaconNext := []
  beaconPrev := []
  nextEpoch := none
  nlDue := false
  copyTry := 0
  beaconAt := none
  foreign := none
  winner := none
  census := none
  keptCause := none
  censusCtr := 0
  numberingDue := none
  statusAt := none
  stateVer := 0
  roster := []
  nextAdmit := 1
  ceiling := 0
  ceilingAsked := 0
  issued := []
  guests := []
  refused := []
  present := []
  version := 0
  copyAt := none
  copyFails := 0
  committed := false
  active := none
  build := none
  handTarget := none
  handSince := none
  dissolveSince := none
  rekeyedSelf := true

/-- The train time counter and its servo (R118 to R160). -/
structure Clock where
  /-- 64. R118 -/
  c : Nat
  /-- signed 32, 2^-40. R119, R160 -/
  rate : Int
  /-- signed 64 with 16 fractional bits. R119, R160 -/
  offset : Int
  /-- 64. R119 -/
  cA : Nat
  /-- F, 2^-40. R131 -/
  freq : Int
  /-- 8. R160, R361 -/
  tepoch : Nat
  /-- 5 states. R123, R160 -/
  st : TState
  /-- 1: no reference used since FREE was entered. R131 -/
  fresh : Bool
  /-- 4: consecutive good references. R123 -/
  good : Nat
  /-- 2^-16 ns. R129, R160 -/
  theta : Int
  /-- 2^-16 ns: the last θ or O. R129, R148, R160 THETA -/
  lastTheta : Int
  /-- 2^-40: phase term of RATE. R124, R131 -/
  phase : Int
  /-- C of the last used reference. R124 -/
  usedAt : Nat
  /-- 64: whole seconds of train time passed. R134 -/
  sec : Nat
  /-- 1. R131, R160 -/
  slewing : Bool
  /-- epochs with a SYNC stamp since reset. R132 -/
  syncEpochs : List Nat
deriving DecidableEq, Repr

/-- Clock when the device has left RESET. -/
def Clock.reset : Clock where
  c := 0
  rate := 0
  offset := 0
  cA := 0
  freq := 0
  tepoch := 0
  st := .free
  fresh := true
  good := 0
  theta := 0
  lastTheta := 0
  phase := 0
  usedAt := 0
  sec := 0
  slewing := false
  syncEpochs := []

/-- References, shadows and the ring self check (R124 to R138). -/
structure RefSt where
  /-- 64. R160 -/
  mbadge : Nat
  /-- 8. R160 -/
  mrole : Nat
  /-- 16. R158 -/
  madmit : Nat
  /-- 64: sender of the last REFERENCE used without a tag check. R65 -/
  uBadge : Nat
  /-- 8: its MROLE. R65 -/
  uRole : Nat
  /-- 1: a reference was used in this basic cycle. R130 -/
  usedNow : Bool
  /-- 1: and in the previous one. R130, R42 -/
  usedPrev : Bool
  /-- basic cycles without the current master. R130 -/
  masterQuiet : Nat
  /-- consecutive missed cycles. R123, R158 -/
  missRun : Nat
  /-- h of the last used copy. R124 -/
  hops : Nat
  /-- 0.1 ns. R124 -/
  ltol : Nat
  /-- 3. R160 FIT -/
  fit : Nat
  /-- 3. R136 -/
  localFit : Nat
  /-- 3: the master's own FIT bits. R135 -/
  myFit : Nat
  /-- 1: CLOSED of the last used reference. R42 -/
  closed : Bool
  /-- 8. R128, R160 -/
  nlX : Nat
  /-- 8. R128, R160 -/
  nlY : Nat
  /-- 0.1 ns. R128, R160 -/
  lsumX : Nat
  /-- 0.1 ns. R128, R160 -/
  lsumY : Nat
  /-- 0.1 ns. R128 -/
  ltolX : Nat
  /-- 0.1 ns. R128 -/
  ltolY : Nat
  /-- per rank. R135 -/
  shadows : List ShadowSt
  /-- launched REFERENCEs. R126, R137 -/
  refs : List RefLaunch
  /-- ring self-check values, 2^-16 ns. R137 -/
  eps : List Int
  /-- history of F: C and F. R137 -/
  freqs : List (Nat × Int)
  /-- self-check code and passes still needed. R137 -/
  barred : List (Nat × Nat)
  /-- basic cycle, plus 1, in which no REFERENCE can follow. R125 -/
  skipped : Nat
  /-- start of the occurrence used for a SHADOW. R127 -/
  shadowAt : Option Nat
  /-- basic cycle in which a REFERENCE with ABDICATE named this car. R138 -/
  takeNext : Option Nat
  /-- SELF_CHECK code of an abdication under way. R138 -/
  abdicate : Option Nat
deriving DecidableEq, Repr

/-- RefSt when the device has left RESET. -/
def RefSt.reset : RefSt where
  mbadge := 0
  mrole := 255
  madmit := 0
  uBadge := 0
  uRole := 255
  usedNow := false
  usedPrev := false
  masterQuiet := 0
  missRun := 0
  hops := 0
  ltol := 0
  fit := 0
  localFit := 0
  myFit := 0
  closed := false
  nlX := 0
  nlY := 0
  lsumX := 0
  lsumY := 0
  ltolX := 0
  ltolY := 0
  shadows := List.replicate 3 ⟨[], 0, 0, false⟩
  refs := []
  eps := []
  freqs := []
  barred := []
  skipped := 0
  shadowAt := none
  takeNext := none
  abdicate := none

/-- Tether and drive-car or plant exchange (R139 to R154). -/
structure TethSt where
  /-- pin TETHER, 1 = released. R139 -/
  tetherPin : Bool
  /-- filtered TETHER level as TLEVEL reads. R139, R160 TLEVEL -/
  tether : Bool
  /-- 1: this car holds TETHER low. R139 -/
  tdrive : Bool
  /-- consecutive basic cycles seen released. R140 -/
  released : Nat
  /-- basic cycles since eligibility. R143 -/
  eligible : Nat
  /-- basic cycles held low with no reference used. R143 -/
  lowRun : Nat
  /-- 1. R143, R160 TFAULT -/
  tfault : Bool
  /-- consecutive cycles with references during a fault. R143 -/
  refRun : Nat
  /-- basic cycles in HOLDOVER. R140 -/
  holdCycles : Nat
  /-- 2. R149, R160 -/
  dc : DcState
  /-- last 32 exchanges. R148 -/
  exch : List DriveEx
  /-- exchanges with the current master. R149 -/
  exchN : Nat
  /-- 32. R146 -/
  reqId : Nat
  /-- requests without a response. R148, R159 -/
  delayOut : List DelayOut
  /-- requests stamped by the master. R147 -/
  delayIn : List DelayReq
  /-- newest request of each drive car that a REFERENCE has answered: ADMIT, REQ_ID. R147 -/
  answered : List (Nat × Nat)
  /-- 2. R160 PLANT -/
  plant : PlantSt
  /-- start of the occurrence used for a DELAY. R146 -/
  delayAt : Option Nat
  /-- signed 32 ns. R160 PLANT_OFFSET -/
  plantOff : Option Int
  /-- signed 32, 2^-40: RATE at the start of the basic cycle. R151 -/
  cycRate : Int
  /-- masters heard in Announce messages. R150 -/
  ptpMasters : List PtpMaster
  /-- C at which the PTP servo lost lock. R151 -/
  plantAt : Nat
  /-- 16: sequence of the last Delay_Req. R150 -/
  ptpSeq : Nat
  /-- port identity and sequence of the two-step Sync that a Follow_Up completes. R150 -/
  ptpSync : Option (Nat × Nat)
  /-- 32. R126, R151 -/
  mbound : Nat
  /-- 16. R126 UTC_OFFSET -/
  utc : Int
  /-- transmit stamp queue, at most 32. R152 -/
  tsq : List (Nat × Nat)
  /-- sys address of the master, when numbered. R146 -/
  master : Option Nat
deriving DecidableEq, Repr

/-- TethSt when the device has left RESET. -/
def TethSt.reset : TethSt where
  tetherPin := true
  tether := false
  tdrive := false
  released := 0
  eligible := 0
  lowRun := 0
  tfault := false
  refRun := 0
  holdCycles := 0
  dc := .notDrive
  exch := []
  exchN := 0
  reqId := 0
  delayOut := []
  delayIn := []
  answered := []
  plant := .none
  delayAt := none
  plantOff := some 0
  cycRate := 0
  ptpMasters := []
  plantAt := 0
  ptpSeq := 0
  ptpSync := none
  mbound := 0xFFFFFFFF
  utc := 0
  tsq := []
  master := none

/-- Stall plan, I/O images, cycle marks (R161 to R188). -/
structure PlanSt where
  /-- 4 words. R164 -/
  hdr : List Word
  /-- 8 words each, up to 8,192. R165 -/
  entries : List (List Word)
  /-- one per OWNED CYCLIC entry. R180, R181 -/
  images : List Image
  /-- 16 records of 2 words. R184 -/
  marks : List (List Word)
  /-- up to 1,024. R184 -/
  binds : List Word
  /-- 64: basic cycle whose boundary duties have been carried out. R162 -/
  cycle : Nat
  /-- the train times that the last forward step went from and to. R162 -/
  skip : Option (Nat × Nat)
  /-- train time when marks began to fire. R186 -/
  markSince : Nat
  /-- field output image and SYNC as they changed: train time, image, SYNC. R186 -/
  imgLog : List (Nat × Nat × Bool)
  /-- per mark: basic cycle of its last firing, plus 1. R185 -/
  fired : List Nat
  /-- C at which marks last acted on images. R183 -/
  markC : Nat
  /-- the images as they stood before the marks of that C. R183 -/
  markPre : List Image
  /-- those marks: GROUPS, FREEZE, FLIP, oldest first. R183 -/
  markActs : List (Nat × Bool × Bool)
  /-- . R19, R277 -/
  strobes : List Strobe
  /-- 1: a plan refused differs from the lead's. R168 -/
  mapped : Bool
deriving DecidableEq, Repr

/-- PlanSt when the device has left RESET. -/
def PlanSt.reset : PlanSt where
  hdr := []
  entries := []
  images := []
  marks := List.replicate 16 [0, 0]
  binds := []
  cycle := 0
  skip := none
  markSince := 0
  imgLog := []
  fired := List.replicate 16 0
  markC := 0
  markPre := []
  markActs := []
  strobes := []
  mapped := false

/-- Sentence multiplexer (R189 to R226). -/
structure Sent where
  /-- 64 records of 12 words. R191 -/
  talkers : List (List Word)
  /-- records waiting for the next sentence start. R395 -/
  talkNext : List (Option (List Word))
  /-- 64 framing front ends. R193, R194 -/
  framers : List Framer
  /-- 64 x 32. R213 -/
  tseq : List Nat
  /-- engine input queue, 1,024. R204 -/
  inq : List Sentence
  /-- 2,048 rules, the written ones listed. R200, R201 -/
  rules : List (Nat × RuleSt)
  /-- 64 records of 2 words. R214 -/
  listeners : List (List Word)
  /-- 64 queues and merge stages. R215, R218 -/
  queues : List LQueue
  /-- 256 groups at the lead. R205 -/
  groups : List Group
  /-- 256 maps. R206 -/
  gmaps : List GMap
  /-- per stream, 2,048 sentences and 256 KiB in all. R208 -/
  sendq : List (Nat × List Sentence)
  /-- GSEQ per stream. R209 -/
  gseq : List (Nat × Nat)
  /-- 512 pairs. R210 -/
  reseq : List ReseqPair
  /-- 64 KiB blocks, oldest first. R221 -/
  history : List HBlock
  /-- block sequence. R221 -/
  histSeq : Nat
  /-- at most 4. R222, R399 -/
  replays : List Replay
  /-- 32. R399 -/
  nextReplay : Nat
  /-- characters a serial listener has still to hand to its transmitter. R216 -/
  serialOut : List (Nat × List Nat)
  /-- replayed records from other cars that wait for a listener's queue. R222 -/
  replayIn : List (Nat × List Sentence)
  /-- listener and bytes of the emission last begun. R216, R219 -/
  lastOut : Option (Nat × List Byte)
deriving DecidableEq, Repr

/-- Sent when the device has left RESET. -/
def Sent.reset : Sent where
  talkers := List.replicate 64 (List.replicate 12 0)
  talkNext := List.replicate 64 none
  framers := List.replicate 64 Framer.reset
  tseq := List.replicate 64 0
  inq := []
  rules := []
  listeners := List.replicate 64 [0, 0]
  queues := List.replicate 64 ⟨[], [], none⟩
  groups := []
  gmaps := []
  sendq := []
  gseq := []
  reseq := []
  history := []
  histSeq := 0
  replays := []
  nextReplay := 1
  serialOut := []
  replayIn := []
  lastOut := none

/-- Field section (R252 to R288). -/
structure FieldSt where
  /-- 32. R281 -/
  module : Word
  /-- 4 x 32. R282 -/
  groupRec : List Word
  /-- 32 records of 2 words. R283 -/
  chanRec : List (List Word)
  /-- 32 x 32. R284 -/
  ruleRec : List Word
  /-- 32 channels. R258 to R267, R286 -/
  ch : List Chan
  /-- 4 groups. R268 to R273, R286 -/
  grp : List FGroup
  /-- 32: field output image. R272, R286 REQ -/
  image : Nat
  /-- 1. R255, R286 -/
  hbLost : Bool
  /-- 4: consecutive valid STATE frames. R255 -/
  stateRun : Nat
  /-- C of the last valid STATE frame. R255 -/
  lastState : Nat
  /-- 1. R253 -/
  linkError : Bool
  /-- C of the last valid field frame. R253 -/
  lastField : Nat
  /-- C of the last health confirmation. R254 -/
  confirmAt : Nat
  /-- 1: STATE frames are stopped. R254 -/
  stateStop : Bool
  /-- 0 to 9: frames since the last STATE frame. R253 -/
  txIdx : Nat
  /-- 0 to 9: frames since the last status frame. R253 -/
  rxIdx : Nat
  /-- commands for the field side. R253, R272 -/
  cmds : List BarrierCmd
  /-- field side's reports, at most 256. R259 -/
  edges : List EdgeRep
  /-- reports at the logic side. R259 -/
  arrived : List EdgeRep
  /-- at most 4. R278 -/
  timed : List Timed
  /-- status of the 32 channels as the logic side last received it. R253, R286 -/
  kept : List Chan
  /-- status of the 4 groups as the logic side last received it. R253, R286 -/
  keptGrp : List FGroup
  /-- 1: HB_LOST as the logic side last received it. R253, R286 -/
  keptHb : Bool
  /-- C of the last shed for the module's sum. R263 -/
  modShed : Option Nat
  /-- C of the last basic-cycle boundary at which leases counted. R273 -/
  leaseAt : Option Nat
  /-- sensed current of the 32 channels in mA, 11 bits each, as the logic side last received it. R253, R286 -/
  keptCur : Nat
  /-- 1: RUNNING has been entered since START, so the firmware takes unowned groups. R275 -/
  fwOn : Bool
  /-- 1: INVALID from LINK_ERROR. R253 -/
  linkInvalid : Bool
  /-- 1: field die above 125 degC. R287 -/
  fieldHot : Bool
deriving DecidableEq, Repr

/-- FieldSt when the device has left RESET. -/
def FieldSt.reset : FieldSt where
  module := 0
  groupRec := List.replicate 4 0
  chanRec := List.replicate 32 [0, 0]
  ruleRec := List.replicate 32 0
  ch := List.replicate 32 Chan.reset
  grp := List.replicate 4 FGroup.reset
  image := 0
  hbLost := false
  stateRun := 0
  lastState := 0
  linkError := false
  lastField := 0
  confirmAt := 0
  stateStop := false
  txIdx := 0
  rxIdx := 0
  cmds := []
  edges := []
  arrived := []
  timed := []
  kept := List.replicate 32 Chan.reset
  keptGrp := List.replicate 4 FGroup.reset
  keptHb := false
  modShed := none
  leaseAt := none
  keptCur := 0
  fwOn := false
  linkInvalid := false
  fieldHot := false

/-- Keys, ownership, privilege and gate island (R289 to R329). -/
structure Sec where
  /-- at most 2 train keys. R311 -/
  keys : List KeySlot
  /-- 4: current key epoch. R361 KEY -/
  cur : Nat
  /-- rotation pending at the lead. R312 -/
  rot : Option Rotation
  /-- 1: a rotation waits for the erasure. R312 -/
  rotWait : Bool
  /-- 32: ROTATION_ID. R313 -/
  rotCtr : Nat
  /-- next key installed. R313 -/
  inst : Option Installed
  /-- REKEYs to be unwrapped, at most 16, in order. R313, R327 -/
  unwrap : List Installed
  /-- epoch to be erased. R314 -/
  oldKey : Option Nat
  /-- SWITCH_MATRIX of the last switch. R314 -/
  switchM : Option Nat
  /-- train time of the last switch. R312, R314 -/
  switchAt : Nat
  /-- k of the takeover the next rotation follows. R311 -/
  takeRank : Nat
  /-- 1. R291 -/
  entropyOk : Bool
  /-- owner enrolment record (flash). R296 -/
  enrol : Option Enrol
  /-- 1: its MAC failed at the last reset release. R296 -/
  enrolBad : Bool
  /-- 256: fuse key. R289 -/
  fuseKey : Nat
  /-- private identity key, in flash under the fuse key. R289, R293 -/
  idKey : Nat
  /-- public identity key, DER SubjectPublicKeyInfo. R293 -/
  identity : List Byte
  /-- 7: fuse count. R301 -/
  arb : Nat
  /-- 1: debug port open. R322 -/
  debug : Bool
  /-- key hash and YARD flag, at most 16. R308 -/
  operators : List (Nat × Bool)
  /-- CKN and CAK held for MACsec. R289, R308 -/
  cak : Option MacCak
  /-- 1: a SAK is installed. R324 -/
  sak : Bool
  /-- 1: controlled port open. R324 -/
  macOpen : Bool
  /-- 0 = GCM-AES-256, 1 = GCM-AES-XPN-256. R324 -/
  macXpn : Bool
  /-- confidentiality offset: 0, 30 or 50 bytes. R324 -/
  macOffset : Nat
  /-- replay window, 0 to 2^30 frames. R324 -/
  macWindow : Nat
  /-- transmit channel's SAs, newest first, at most 2. R289, R324 -/
  txSas : List MacSa
  /-- receive channel's SAs, newest first, at most 2. R289, R324 -/
  rxSas : List MacSa
  /-- operator nonces. R318 -/
  operChal : List Chal
  /-- ownership nonce and the C until it is valid. R297 -/
  ownChal : Option (Nat × Nat)
  /-- service nonces. R321 -/
  svcChal : List Chal
  /-- C of recent challenge failures. R318 -/
  fails : List Nat
  /-- C until challenges are refused. R318 -/
  lockout : Option Nat
  /-- public unit queue. R326, R327 -/
  rsaPub : List Job
  /-- private unit queue. R326, R327 -/
  rsaPriv : List Job
  /-- what the private unit does. R326, R327 -/
  runPriv : RsaUse
  /-- what the public unit does. R326, R327 -/
  runPub : RsaUse
  /-- grants to be wrapped that came before the next REKEY block. R327 -/
  wrapAhead : Nat
  /-- CA store. R294 -/
  certs : List (List Byte)
  /-- device certificate. R294 -/
  devCert : List Byte
deriving DecidableEq, Repr

/-- Sec when the device has left RESET. -/
def Sec.reset : Sec where
  keys := []
  cur := 0
  rot := none
  rotWait := false
  rotCtr := 0
  inst := none
  unwrap := []
  oldKey := none
  switchM := none
  switchAt := 0
  takeRank := 0
  entropyOk := true
  enrol := none
  enrolBad := false
  fuseKey := 0
  idKey := 0
  identity := []
  arb := 0
  debug := false
  operators := []
  cak := none
  sak := false
  macOpen := false
  macXpn := false
  macOffset := 0
  macWindow := 0
  txSas := []
  rxSas := []
  operChal := []
  ownChal := none
  svcChal := []
  fails := []
  lockout := none
  rsaPub := []
  rsaPriv := []
  runPriv := .idle
  runPub := .idle
  wrapAhead := 0
  certs := List.replicate 8 []
  devCert := []

/-- Yard port (R330 to R354). -/
structure YardSt where
  /-- 28 words. R352 -/
  record : List Word
  /-- 512. R333, R352 -/
  hash : List Word
  /-- 64 rules. R334 -/
  steer : List (List Word)
  /-- 32 endpoints. R345 -/
  eps : List (List Word)
  /-- 8 subscriptions. R345 -/
  subs : List (List Word)
  /-- 1. R331 -/
  link : Bool
  /-- 1: block lock or auto-negotiation. R331 -/
  pcs : Bool
  /-- 1: module absent. R331 -/
  modAbs : Bool
  /-- 1: LOS asserted. R331 -/
  los : Bool
  /-- C of the last pin change. R331 -/
  quietAt : Nat
  /-- pin YARD_TX_DISABLE. R331 -/
  txDisable : PinLevel
  /-- the descriptor that the MAC fills next in each ring; the descriptors stand in the hayloft. R336, R337 -/
  rings : List Nat
  /-- frame being received. R332 -/
  rx : Option YRx
  /-- frames handed to the firmware. R337 -/
  inbox : List YFrame
  /-- transmit queues. R338 -/
  txq : List YTx
  /-- the frame last started. R338, R153 -/
  lastTx : Option YSent
  /-- packing, DSEQ, RUN. R341, R342 -/
  epSt : List EpSt
  /-- 64 pairs. R343 -/
  pairs : List (List DPair)
  /-- at most 4. R346 -/
  sess : List YSess
  /-- 64 entries per family: address, MAC, C until. R340 -/
  arp : List (Nat × Nat × Nat)
  /-- learned IPv6 router. R340 -/
  router6 : Option Nat
  /-- C of echo replies in the last second. R340 -/
  echoes : List Nat
  /-- segmented send. R339 -/
  seg : Option SegSend
  /-- segmented sends that wait for it. R339 -/
  segQ : List SegSend
deriving DecidableEq, Repr

/-- YardSt when the device has left RESET. -/
def YardSt.reset : YardSt where
  record := List.replicate 28 0
  hash := List.replicate 16 0
  steer := List.replicate 64 [0, 0]
  eps := List.replicate 32 (List.replicate 6 0)
  subs := List.replicate 8 (List.replicate 6 0)
  link := false
  pcs := false
  modAbs := true
  los := true
  quietAt := 0
  txDisable := .high
  rings := List.replicate 8 0
  rx := none
  inbox := []
  txq := []
  lastTx := none
  epSt := List.replicate 32 ⟨[], 0, 0, 0⟩
  pairs := List.replicate 8 []
  sess := []
  arp := []
  router6 := none
  echoes := []
  seg := none
  segQ := []

/-- Host control port (R355 to R383). -/
structure HostSt where
  /-- 16 channels. R364 -/
  mang : List Manger
  /-- messages taken and not yet answered, in take order, with the replies that wait for an earlier one. R387 -/
  order : List OutEnt
  /-- 32. R368 -/
  hostBell : Nat
  /-- 32. R368 -/
  hostBellMask : Nat
  /-- 32. R368 -/
  fwBell : Nat
  /-- 32. R368 FW_BELL_MASK, "fw" -/
  fwBellMask : Nat
  /-- 6. R372 -/
  irqEn : Nat
  /-- 1. R372 -/
  busErr : Bool
  /-- 128. R372 -/
  evPend : Nat
  /-- 128. R372 -/
  evMask : Nat
  /-- 32 owners, 0 = free. R370 -/
  locks : List Nat
  /-- 24. R361 BUS_ERR_ADDR -/
  errAddr : Nat
  /-- 2. R361 BUS_ERR_KIND -/
  errKind : Nat
  /-- status of the previous transaction. R357 -/
  prevTxn : TxnStat
  /-- outcome of the present one. R357, R359 -/
  txn : TxnStat
  /-- last word or status byte driven to the host. R355, R357 -/
  out : Word
  /-- words of the last remote burst driven to the host. R375 -/
  burst : List Word
  /-- 24: address of the next word of the transaction in progress. R355 -/
  nextAddr : Option Nat
  /-- 1. R361 SESSION_FENCE -/
  fence : Bool
  /-- 16. R361 HOST_SESSION -/
  session : Nat
  /-- 2. R361 PRIV -/
  priv : Priv
  /-- sessions that a host reset ended, whose late replies are cleared. R380 -/
  dead : List Nat
  /-- 3: SERVICE scope. R321 -/
  scope : Nat
  /-- 256: operator key hash of the session. R318 -/
  operKey : Nat
  /-- 4: notify channel. R366 -/
  notify : Nat
  /-- 4. R361 HAYLOFT_PAGE -/
  page : Nat
  /-- 4: page of the present transaction. R362 -/
  pageNow : Nat
  /-- side effects held provisionally. R367 -/
  prov : List Prov
  /-- 64 x 4 proxies, those not IDLE listed. R374 -/
  proxies : List Proxy
  /-- remote read buffer. R375 -/
  rdBuf : RdBuf
  /-- 8 entries. R377 -/
  errLog : List ErrEnt
  /-- 8. R377 -/
  overflow : Nat
deriving DecidableEq, Repr

/-- HostSt when the device has left RESET. -/
def HostSt.reset : HostSt where
  mang := List.replicate 16 Manger.reset
  order := []
  hostBell := 0
  hostBellMask := 0
  fwBell := 0
  fwBellMask := 0
  irqEn := 0
  busErr := false
  evPend := 0
  evMask := 0
  locks := List.replicate 32 0
  errAddr := 0
  errKind := 0
  prevTxn := TxnStat.clear
  txn := TxnStat.clear
  out := 0
  burst := []
  nextAddr := none
  fence := false
  session := 0
  priv := .observe
  dead := []
  scope := 0
  operKey := 0
  notify := 0
  page := 0
  pageNow := 0
  prov := []
  proxies := []
  rdBuf := .idle
  errLog := List.replicate 8 ErrEnt.reset
  overflow := 0

/-- Firmware command interface (R384 to R414). -/
structure CmdSt where
  /-- 16: last session number given. R392 -/
  sessCtr : Nat
  /-- reservations. R390 -/
  parcels : List Parcel
  /-- serialised commands waiting, at most 8. R393 -/
  waiting : List Ctx
  /-- serialised command executing. R393 -/
  busy : Option Ctx
  /-- GROUP_CHANGE waiting for its copy. R397 -/
  commitWait : Option Ctx
  /-- commands held under BRACED. R27 -/
  held : List Ctx
  /-- 4: manger channel from which the last message was taken. R387 -/
  lastCh : Nat
  /-- the command of an accepted envelope, which executes next. R305 -/
  ready : Option Ctx
  /-- STOP waiting for the boundary, and the basic cycle in which it came. R26, R396 -/
  stopping : Option (Ctx × Nat)
deriving DecidableEq, Repr

/-- CmdSt when the device has left RESET. -/
def CmdSt.reset : CmdSt where
  sessCtr := 0
  parcels := []
  waiting := []
  busy := none
  commitWait := none
  held := []
  lastCh := 15
  ready := none
  stopping := none

/-- Stream port (R415 to R437). -/
structure StreamSt where
  /-- 4 words. R434 -/
  cfg : List Word
  /-- record waiting for the end of a frame. R434 -/
  cfgNext : Option (List Word)
  /-- 2. R435 SO_STATE -/
  so : LinkSt
  /-- 2. R435 SI_STATE -/
  si : LinkSt
  /-- 1: the clock of SI is present, for 1 µs. R417 -/
  siClk : Bool
  /-- bytes of the frame last sent on SO. R420 -/
  lastFrame : List Byte
  /-- C since when SI is not UP. R424 -/
  siDownAt : Nat
  /-- 6. R435 CREDITS -/
  credits : Nat
  /-- credits returned on SI_CRD since SI restarted, a transition each. R418, R419 -/
  crdOut : Nat
  /-- C of the last counted credit transition, 0.1 ns. R418 -/
  crdAt : Option Nat
  /-- C since when no credit is held with a frame waiting. R419 -/
  starved : Option Nat
  /-- next SEQ per inbound channel. R420 -/
  rxSeq : List (Nat × Nat)
  /-- next SEQ per outbound channel. R420 -/
  txSeq : List (Nat × Nat)
  /-- waiting outbound frames, 64 and 64 KiB per channel. R426 -/
  queue : List SFrame
  /-- STATUS frames waiting, at most 16. R425 -/
  status : List SFrame
  /-- frame being sent. R426 -/
  cur : Option SFrame
  /-- 256-byte units of it not yet started. R418 -/
  curLeft : Nat
  /-- next sentence channel. R426 -/
  robin : Nat
  /-- 16. R435 SESSION -/
  session : Nat
  /-- 2. R421, R317 -/
  priv : Priv
  /-- 3. R321 -/
  scope : Nat
  /-- 256. R318 -/
  operKey : Nat
  /-- event records of the frame being filled. R421, R445 -/
  evFrame : List Event
  /-- their ESEQs. R445 -/
  evSeqs : List Nat
  /-- C of its first record. R445 -/
  evFirst : Nat
deriving DecidableEq, Repr

/-- StreamSt when the device has left RESET. -/
def StreamSt.reset : StreamSt where
  cfg := List.replicate 4 0
  cfgNext := none
  so := .down
  si := .down
  siClk := false
  lastFrame := []
  siDownAt := 0
  credits := 0
  crdOut := 0
  crdAt := none
  starved := none
  rxSeq := []
  txSeq := []
  queue := []
  status := []
  cur := none
  curLeft := 0
  robin := 32
  session := 0
  priv := .observe
  scope := 0
  operKey := 0
  evFrame := []
  evSeqs := []
  evFirst := 0

/-- Bridge (R428 to R432). -/
structure BridgeSt where
  /-- 16. R428 -/
  reqId : Nat
  /-- next REQ_ID per origin. R430 -/
  expect : List (Nat × Nat)
  /-- early MSG_COMMITs. R430 -/
  held : List HeldCommit
  /-- origins of the messages in channels 12 to 15. R374 -/
  origin : List RemoteOrg
deriving DecidableEq, Repr

/-- BridgeSt when the device has left RESET. -/
def BridgeSt.reset : BridgeSt where
  reqId := 0
  expect := []
  held := []
  origin := []

/-- Events and recorder (R438 to R454, R519). -/
structure EvSt where
  /-- 128 x 32. R442, R444 -/
  routes : List Word
  /-- 32. R446 -/
  remote : Word
  /-- 3: TRAIN_PRIO. R444 -/
  prio : Nat
  /-- 64: TRAIN_DEST. R444 -/
  dest : Nat
  /-- 32. R445 -/
  eseq : Nat
  /-- at most 256: destination, event, ESEQ, and train time from which it waits. R446 -/
  trainQ : List (EvDst × Event × Nat × Nat)
  /-- events of the present lane clock cycle, by local source. R443 -/
  arrived : List Event
  /-- events of BOOT: source, code, data, data2. R439 -/
  bootPend : List (Nat × Nat × Nat × Nat)
  /-- first-in-cycle limits: key and period. R519 -/
  firsts : List (Nat × Nat)
  /-- at most 256 events and LOST records; clock marks and RESUMEs wait in their place. R451 -/
  collector : List ColEntry
  /-- newest record. R449 -/
  newest : Option Rec
  /-- 64: next SEQ. R447 -/
  recSeq : Nat
  /-- records of this RESUME series. R447 -/
  recCount : Nat
  /-- events lost since the collector filled. R451 -/
  lostN : Nat
  /-- 21. R451 -/
  lostSrc : Nat
  /-- corrections of the present second: region, second, count. R468 -/
  corrSec : List (Nat × Nat × Nat)
deriving DecidableEq, Repr

/-- EvSt when the device has left RESET. -/
def EvSt.reset : EvSt where
  routes := List.replicate 128 0x00400000
  remote := 0
  prio := 0
  dest := 0
  eseq := 0
  trainQ := []
  arrived := []
  bootPend := []
  firsts := []
  collector := []
  newest := none
  recSeq := 0
  recCount := 0
  lostN := 0
  lostSrc := 0
  corrSec := []

/-- Hayloft memory (R455 to R463, R467). -/
structure LoftSt where
  /-- 128 MiB, addressed by byte. R455, R463 -/
  mem : List Host.Cell
  /-- damaged codewords by number. R455, R456 -/
  damage : List (Nat × Damage)
  /-- codewords to be written back. R457 -/
  writeBack : List Nat
  /-- MiB. R461 -/
  fq : Nat
  /-- MiB. R461 -/
  hist : Nat
  /-- MiB. R461 -/
  recr : Nat
  /-- MiB. R461 -/
  img : Nat
  /-- hours. R459 -/
  scrubH : Nat
  /-- 1. R467 DEFAULT -/
  dflt : Bool
  /-- 23: codeword number. R459, R467 -/
  scrubPos : Nat
  /-- C of the start of the pass. R459 -/
  scrubAt : Nat
  /-- 1: SCRUB 0x02 raised in this pass. R459 -/
  overdue : Bool
  /-- 32. R467 -/
  passes : Nat
  /-- 27. R467 -/
  lastUe : Nat
deriving DecidableEq, Repr

/-- LoftSt when the device has left RESET. -/
def LoftSt.reset : LoftSt where
  mem := []
  damage := []
  writeBack := []
  fq := 8
  hist := 64
  recr := 8
  img := 8
  scrubH := 24
  dflt := true
  scrubPos := 0
  scrubAt := 0
  overdue := false
  passes := 0
  lastUe := 0

/-- Flash (R464 to R466). -/
structure FlashSt where
  /-- firmware A, B, recipe A, B. R464 -/
  slots : List Slot
  /-- 1: ACTIVE_SLOT is B. R411 -/
  activeB : Bool
  /-- 32. R466 -/
  bootCount : Nat
  /-- program or erase in progress. R466 -/
  op : Option FlashOp
  /-- 1: an erased sector is in reserve. R486 -/
  reserve : Bool
  /-- 0 to 1024: entries in the sector of the persistent counters that is being filled. R465 -/
  journal : Nat
  /-- 1: an entry was cut short. R465 -/
  torn : Bool
deriving DecidableEq, Repr

/-- FlashSt when the device has left RESET. -/
def FlashSt.reset : FlashSt where
  slots := List.replicate 4 ⟨false, []⟩
  activeB := false
  bootCount := 0
  op := none
  reserve := true
  journal := 0
  torn := false

/-- Counter snapshot (R349 to R351, R412). -/
structure SnapSt where
  /-- the bank, header first. R351 -/
  bank : List Word
  /-- 32. R351 -/
  seq : Nat
  /-- pending train snapshot. R350, R377 -/
  pend : Option SnapReq
deriving DecidableEq, Repr

/-- SnapSt when the device has left RESET. -/
def SnapSt.reset : SnapSt where
  bank := []
  seq := 0
  pend := none

/-- The loaded recipe (R303, R407 to R411). -/
structure Recipe where
  /-- 1. R396 -/
  loaded : Bool
  /-- 1. R396 -/
  slotB : Bool
  /-- 32. R306 -/
  rseq : Nat
  /-- 256. R303 -/
  meas : Nat
  /-- 21 words. R408 -/
  train : List Word
  /-- at most 128 entries of 5 words. R409 -/
  delays : List (List Word)
  /-- . R309 -/
  policy : List Word
deriving DecidableEq, Repr

/-- Recipe when the device has left RESET. -/
def Recipe.reset : Recipe where
  loaded := false
  slotB := false
  rseq := 0
  meas := 0
  train := List.replicate 21 0
  delays := []
  policy := []

/-- Counters, in the row order of their tables (R412). -/
structure Ctrs where
  /-- 19 x 32. R66, R84 -/
  endA : List Nat
  /-- 19 x 32. R66, R84 -/
  endB : List Nat
  /-- 9 x 32. R117 -/
  inaug : List Nat
  /-- 13 x 32. R159 -/
  time : List Nat
  /-- 11 x 32. R188 -/
  stall : List Nat
  /-- 64 x 6 x 32. R225 -/
  talk : List Nat
  /-- 2,048 x 3 x 32. R225 -/
  rule : List Nat
  /-- 5 x 32. R225 -/
  sent : List Nat
  /-- 64 x 9 x 32. R225 -/
  lstn : List Nat
  /-- 16 x 12 x 32. R251 -/
  serial : List Nat
  /-- 32 x 9 x 32. R288 -/
  chan : List Nat
  /-- 4 x 5 x 32. R288 -/
  grp : List Nat
  /-- 2 x 32. R288 -/
  fmod : List Nat
  /-- 10 x 32. R329 -/
  sec : List Nat
  /-- 17 x 32. R354 -/
  yard : List Nat
  /-- 7 x 32. R383 -/
  host : List Nat
  /-- 3 x 32. R413 -/
  cmd : List Nat
  /-- 15 x 32. R437 -/
  strm : List Nat
  /-- 10 x 32. R454 -/
  ev : List Nat
  /-- 6 x 2 and 4 x 32. R469 -/
  loft : List Nat
deriving DecidableEq, Repr

/-- Ctrs when the device has left RESET. -/
def Ctrs.reset : Ctrs where
  endA := List.replicate 19 0
  endB := List.replicate 19 0
  inaug := List.replicate 9 0
  time := List.replicate 13 0
  stall := List.replicate 11 0
  talk := List.replicate 384 0
  rule := List.replicate 6144 0
  sent := List.replicate 5 0
  lstn := List.replicate 576 0
  serial := List.replicate 192 0
  chan := List.replicate 288 0
  grp := List.replicate 20 0
  fmod := List.replicate 2 0
  sec := List.replicate 10 0
  yard := List.replicate 17 0
  host := List.replicate 7 0
  cmd := List.replicate 3 0
  strm := List.replicate 15 0
  ev := List.replicate 10 0
  loft := List.replicate 16 0

/-- The whole device, the model's free-value counter and the queue of waiting commands. -/
structure State where
  /-- Device state, resets, pins, supply and BARN (R25 to R27, R470 to R492). -/
  sys : Sys
  /-- Coupler ends (R33 to R45). -/
  ends : Ends
  /-- Lane island: source table, SEQ series, waiting and delivered frames (R48 to R85, R169 to R177). -/
  lane : Lane
  /-- Inauguration and admission (R86 to R117, R520). -/
  inaug : Inaug
  /-- Inauguration: what the lead and BACKUP 1 hold (R96 to R114). -/
  ldr : LeadSt
  /-- The train time counter and its servo (R118 to R160). -/
  clk : Clock
  /-- References, shadows and the ring self check (R124 to R138). -/
  ref : RefSt
  /-- Tether and drive-car or plant exchange (R139 to R154). -/
  teth : TethSt
  /-- Stall plan, I/O images, cycle marks (R161 to R188). -/
  plan : PlanSt
  /-- Sentence multiplexer (R189 to R226). -/
  sent : Sent
  /-- Field section (R252 to R288). -/
  fld : FieldSt
  /-- Keys, ownership, privilege and gate island (R289 to R329). -/
  sec : Sec
  /-- Yard port (R330 to R354). -/
  yard : YardSt
  /-- Host control port (R355 to R383). -/
  host : HostSt
  /-- Firmware command interface (R384 to R414). -/
  cmd : CmdSt
  /-- Stream port (R415 to R437). -/
  strm : StreamSt
  /-- Bridge (R428 to R432). -/
  brg : BridgeSt
  /-- Events and recorder (R438 to R454, R519). -/
  ev : EvSt
  /-- Hayloft memory (R455 to R463, R467). -/
  loft : LoftSt
  /-- Flash (R464 to R466). -/
  flash : FlashSt
  /-- Counter snapshot (R349 to R351, R412). -/
  snap : SnapSt
  /-- The loaded recipe (R303, R407 to R411). -/
  rcp : Recipe
  /-- Counters, in the row order of their tables (R412). -/
  ctr : Ctrs
  /-- 16 serial ports (R227). -/
  ports : List PortSt
  /-- The MODEL's own field: how many free values have been taken (log 2). -/
  free : Nat
  /-- Commands that wait, first in first out. -/
  pending : List Instr
deriving DecidableEq, Repr

/-- The device right after a power-up reset, as it enters BOOT, with no command waiting (R10, R26; log 6). -/
def State.reset : State where
  sys := Sys.reset
  ends := Ends.reset
  lane := Lane.reset
  inaug := Inaug.reset
  ldr := LeadSt.reset
  clk := Clock.reset
  ref := RefSt.reset
  teth := TethSt.reset
  plan := PlanSt.reset
  sent := Sent.reset
  fld := FieldSt.reset
  sec := Sec.reset
  yard := YardSt.reset
  host := HostSt.reset
  cmd := CmdSt.reset
  strm := StreamSt.reset
  brg := BridgeSt.reset
  ev := EvSt.reset
  loft := LoftSt.reset
  flash := FlashSt.reset
  snap := SnapSt.reset
  rcp := Recipe.reset
  ctr := Ctrs.reset
  ports := List.replicate 16 PortSt.reset
  free := 0
  pending := []

/-- Change `sys` and nothing else. -/
def State.onSys (s : State) (f : Sys → Sys) : State := { s with sys := f s.sys }

/-- Change `ends` and nothing else. -/
def State.onEnds (s : State) (f : Ends → Ends) : State := { s with ends := f s.ends }

/-- Change `lane` and nothing else. -/
def State.onLane (s : State) (f : Lane → Lane) : State := { s with lane := f s.lane }

/-- Change `inaug` and nothing else. -/
def State.onInaug (s : State) (f : Inaug → Inaug) : State := { s with inaug := f s.inaug }

/-- Change `ldr` and nothing else. -/
def State.onLdr (s : State) (f : LeadSt → LeadSt) : State := { s with ldr := f s.ldr }

/-- Change `clk` and nothing else. -/
def State.onClk (s : State) (f : Clock → Clock) : State := { s with clk := f s.clk }

/-- Change `ref` and nothing else. -/
def State.onRef (s : State) (f : RefSt → RefSt) : State := { s with ref := f s.ref }

/-- Change `teth` and nothing else. -/
def State.onTeth (s : State) (f : TethSt → TethSt) : State := { s with teth := f s.teth }

/-- Change `plan` and nothing else. -/
def State.onPlan (s : State) (f : PlanSt → PlanSt) : State := { s with plan := f s.plan }

/-- Change `sent` and nothing else. -/
def State.onSent (s : State) (f : Sent → Sent) : State := { s with sent := f s.sent }

/-- Change `fld` and nothing else. -/
def State.onFld (s : State) (f : FieldSt → FieldSt) : State := { s with fld := f s.fld }

/-- Change `sec` and nothing else. -/
def State.onSec (s : State) (f : Sec → Sec) : State := { s with sec := f s.sec }

/-- Change `yard` and nothing else. -/
def State.onYard (s : State) (f : YardSt → YardSt) : State := { s with yard := f s.yard }

/-- Change `host` and nothing else. -/
def State.onHost (s : State) (f : HostSt → HostSt) : State := { s with host := f s.host }

/-- Change `cmd` and nothing else. -/
def State.onCmd (s : State) (f : CmdSt → CmdSt) : State := { s with cmd := f s.cmd }

/-- Change `strm` and nothing else. -/
def State.onStrm (s : State) (f : StreamSt → StreamSt) : State := { s with strm := f s.strm }

/-- Change `brg` and nothing else. -/
def State.onBrg (s : State) (f : BridgeSt → BridgeSt) : State := { s with brg := f s.brg }

/-- Change `ev` and nothing else. -/
def State.onEv (s : State) (f : EvSt → EvSt) : State := { s with ev := f s.ev }

/-- Change `loft` and nothing else. -/
def State.onLoft (s : State) (f : LoftSt → LoftSt) : State := { s with loft := f s.loft }

/-- Change `flash` and nothing else. -/
def State.onFlash (s : State) (f : FlashSt → FlashSt) : State := { s with flash := f s.flash }

/-- Change `snap` and nothing else. -/
def State.onSnap (s : State) (f : SnapSt → SnapSt) : State := { s with snap := f s.snap }

/-- Change `rcp` and nothing else. -/
def State.onRcp (s : State) (f : Recipe → Recipe) : State := { s with rcp := f s.rcp }

/-- Change `ctr` and nothing else. -/
def State.onCtr (s : State) (f : Ctrs → Ctrs) : State := { s with ctr := f s.ctr }

/-- Change `ports` and nothing else. -/
def State.onPorts (s : State) (f : List PortSt → List PortSt) : State := { s with ports := f s.ports }

end Sys2Proof.Machine
end

