-- ==== Sys2Proof/Machine/Operands.lean ====
section
/-!
DEFINITION. How operands and records are read: bit fields of record words, big- and little-endian fields of
payloads, the train frame header, the parameters of the TRAIN section and the entries of the stall plan.
-/

namespace Sys2Proof.Machine

open Sys2Proof

/-- Field hi:lo of word i of a record (R7). A word that is absent reads 0. -/
def bits (ws : List Word) (i hi lo : Nat) : Nat := natBits (ws.getD i 0).toNat hi lo

/-- Bit b of word i of a record. -/
def bit (ws : List Word) (i b : Nat) : Bool := natBit (ws.getD i 0).toNat b

/-- Word i of a record as a number. -/
def wd (ws : List Word) (i : Nat) : Nat := (ws.getD i 0).toNat

/-- The 64-bit value in words i and i + 1, low word first. -/
def wd64 (ws : List Word) (i : Nat) : Nat := wd ws i + 2 ^ 32 * wd ws (i + 1)

/-- n bytes at off, most significant first. -/
def be (p : List Byte) (off n : Nat) : Nat :=
  ((p.drop off).take n).foldl (fun a b => 256 * a + b.toNat) 0

/-- n bytes at off, least significant first. -/
def le (p : List Byte) (off n : Nat) : Nat :=
  ((p.drop off).take n).foldr (fun b a => b.toNat + 256 * a) 0

/-- A number as n bytes, most significant first. -/
def beBytes : Nat → Nat → List Byte
  | 0, _ => []
  | n + 1, v => byteOf (v / 256 ^ n) :: beBytes n v

/-- A number as n bytes, least significant first. -/
def leBytes : Nat → Nat → List Byte
  | 0, _ => []
  | n + 1, v => byteOf v :: leBytes n (v / 256)

/-- Words as bytes, little-endian (R9). -/
def wordBytes (ws : List Word) : List Byte := ws.flatMap fun w => leBytes 4 w.toNat

/-- Bytes as words, little-endian; a short last word is filled with zeros (R9). -/
def bytesWords : List Byte → List Word
  | a :: b :: c :: d :: r => wordOf (a.toNat + 256 * b.toNat + 65536 * c.toNat + 16777216 * d.toNat) :: bytesWords r
  | [a, b, c] => [wordOf (a.toNat + 256 * b.toNat + 65536 * c.toNat)]
  | [a, b] => [wordOf (a.toNat + 256 * b.toNat)]
  | [a] => [wordOf a.toNat]
  | [] => []

/-- Signed reading of the low w bits. -/
def sx (w n : Nat) : Int := if natBit n (w - 1) then (n % 2 ^ w : Nat) - (2 ^ w : Nat) else (n % 2 ^ w : Nat)

/-- The w-bit two's complement of an integer. -/
def tc (w : Nat) (i : Int) : Nat := (i % (2 ^ w : Nat)).toNat

/-- Pad with zeros to n bytes. -/
def padTo (n : Nat) (p : List Byte) : List Byte := p ++ List.replicate (n - p.length) 0

/-- n rounded up to a multiple of m. -/
def roundUp (n m : Nat) : Nat := (n + m - 1) / m * m

/-- Every byte of a range is zero. -/
def zeros (p : List Byte) (off n : Nat) : Bool := ((p.drop off).take n).all (· == 0)

/-- The 32 header bytes (R48), big-endian. -/
def encodeHdr (h : Hdr) : List Byte :=
  [byteOf h.ftype,
   byteOf (h.prio * 32 + b2n h.grp * 16 + b2n h.all * 8 + b2n h.conf * 4 + h.rsv1)]
  ++ beBytes 2 (h.inaug * 16 + h.key) ++ beBytes 2 (h.rsv4 * 16384 + h.src)
  ++ beBytes 2 (h.rsv6 * 16384 + h.dst) ++ beBytes 6 h.seq ++ [byteOf h.stall, byteOf h.cycle]
  ++ beBytes 2 h.len ++ beBytes 2 h.adm ++ beBytes 4 h.rsv20
  ++ [byteOf (b2n h.dirY * 128 + h.hops), byteOf (b2n h.poison * 128 + b2n h.held * 64 + h.rsvM)]
  ++ beBytes 6 (tc 48 h.corr)

/-- The header that 32 bytes spell (R48). -/
def decodeHdr (p : List Byte) : Hdr where
  ftype := be p 0 1
  prio := natBits (be p 1 1) 7 5
  grp := natBit (be p 1 1) 4
  all := natBit (be p 1 1) 3
  conf := natBit (be p 1 1) 2
  rsv1 := natBits (be p 1 1) 1 0
  inaug := natBits (be p 2 2) 15 4
  key := natBits (be p 2 2) 3 0
  rsv4 := natBits (be p 4 2) 15 14
  src := natBits (be p 4 2) 13 0
  rsv6 := natBits (be p 6 2) 15 14
  dst := natBits (be p 6 2) 13 0
  seq := be p 8 6
  stall := be p 14 1
  cycle := be p 15 1
  len := be p 16 2
  adm := be p 18 2
  rsv20 := be p 20 4
  dirY := natBit (be p 24 1) 7
  hops := natBits (be p 24 1) 6 0
  poison := natBit (be p 25 1) 7
  held := natBit (be p 25 1) 6
  rsvM := natBits (be p 25 1) 5 0
  corr := sx 48 (be p 26 6)

/-- Wire time F(n) of a frame with LEN n, in 0.1 ns (R166). -/
def wireTime (n : Nat) : Nat := (60 + max n 12) * 8

/-! Frame types (R54). -/
def ftReference : Nat := 1
def ftShadow : Nat := 2
def ftCyclic : Nat := 3
def ftSentence : Nat := 4
def ftEvent : Nat := 5
def ftControl : Nat := 6
def ftAdmission : Nat := 7
def ftInauguration : Nat := 8
def ftDelay : Nat := 9
def ftHost : Nat := 10
def ftBulk : Nat := 11

/-! The TRAIN section (R408). -/
def pTrain (s : State) : Nat := bits s.rcp.train 0 31 24
def pLine (s : State) : Bool := bit s.rcp.train 0 23
def pAutoStart (s : State) : Bool := bit s.rcp.train 0 22
def pTetherFitted (s : State) : Bool := bit s.rcp.train 0 21
def pPlantPtp (s : State) : Bool := bit s.rcp.train 0 20
def pColdRank (s : State) : Nat := bits s.rcp.train 0 19 17
def pGrace (s : State) : Nat := bits s.rcp.train 0 16 14
/-- PTP_TRANSPORT: 0 = Annex C, 1 = Annex D, 2 = Annex E. -/
def pPtpTransport (s : State) : Nat := bits s.rcp.train 0 13 12
/-- PTP_DELAY is P2P. -/
def pPtpPeer (s : State) : Bool := bit s.rcp.train 0 11
def pPtpDomain (s : State) : Nat := bits s.rcp.train 0 10 4
def pNdrive (s : State) : Nat := bits s.rcp.train 0 3 0
/-- This car leads. -/
def isLead (s : State) : Bool := s.inaug.role == .lead
/-- LEAD_LOSS_T in ns: this car's own while it leads, else the lead's, within the range of R86 (log 35). -/
def pLeadLoss (s : State) : Nat :=
  (if isLead s then bits s.rcp.train 1 31 24 else 1 + (Config.leadLoss s.inaug.leadBadge).toNat % 100) * 1000000
/-- TRANSIT_T in ns: this car's own while it leads, else the lead's, within the range of R86 (log 35). -/
def pTransit (s : State) : Nat :=
  (if isLead s then bits s.rcp.train 1 23 16 else 120 + (Config.leadTransit s.inaug.leadBadge).toNat % 21) * 1000
/-- PAIR_H in ns. -/
def pPairH (s : State) : Nat := bits s.rcp.train 1 15 0 * 1000
def pLinkDefault (s : State) : Nat := bits s.rcp.train 2 31 16
def pLinkTol (s : State) : Nat := bits s.rcp.train 2 15 8
def pNoPresence (s : State) (endB : Bool) : Bool := bit s.rcp.train 2 (b2n endB)
def pSlewPpm (s : State) : Nat := bits s.rcp.train 3 31 22
def pDriftPpm (s : State) : Nat := bits s.rcp.train 3 21 13
/-- KEY_LIFE in ns. -/
def pKeyLife (s : State) : Nat := bits s.rcp.train 3 12 8 * 3600000000000
/-- REKEY_DELAY in ns. -/
def pRekeyDelay (s : State) : Nat := bits s.rcp.train 4 31 16 * 1000000
/-- DRIVE_LIST, its first NDRIVE badges. -/
def pDriveList (s : State) : List Nat := (List.range (min 8 (pNdrive s))).map fun i => wd64 s.rcp.train (5 + 2 * i)

/-! The stall plan (R164, R165). -/
def planLoaded (s : State) : Bool := !s.plan.hdr.isEmpty
def planNbcLog (s : State) : Nat := bits s.plan.hdr 0 23 16
def planNbc (s : State) : Nat := 2 ^ planNbcLog s
def planGuard (s : State) : Nat := bits s.plan.hdr 0 15 8
def planBcLen (s : State) : Nat := bits s.plan.hdr 1 31 16
def planId (s : State) : Nat := wd s.plan.hdr 2
/-- The basic cycle P in ns (R161). -/
def cycleP (s : State) : Nat := planBcLen s * 100
def enStall (e : List Word) : Nat := bits e 0 31 25
def enFirst (e : List Word) : Nat := bits e 0 24 19
def enRepeat (e : List Word) : Nat := bits e 0 18 16
def enType (e : List Word) : Nat := bits e 0 15 13
def enKind (e : List Word) : Nat := bits e 0 12 10
def enConf (e : List Word) : Bool := bit e 0 9
def enStart (e : List Word) : Nat := bits e 1 31 16
def enLength (e : List Word) : Nat := bits e 1 15 0
def enOwner (e : List Word) : Nat := wd64 e 2
def enImgLen (e : List Word) : Nat := bits e 4 31 16
def enDest (e : List Word) : Nat := bits e 4 15 14
def enGroup (e : List Word) : Nat := bits e 4 7 0

def tyReference : Nat := 0
def tyShadow : Nat := 1
def tyOwned : Nat := 2
def tyShared : Nat := 3
def tyGuest : Nat := 4
def tyExpress : Nat := 5

/-- The entry applies to basic cycle c. -/
def enApplies (e : List Word) (c : Nat) : Bool := c % 2 ^ enRepeat e == enFirst e

/-- An OWNED CYCLIC entry. -/
def enCyclic (e : List Word) : Bool := enType e == tyOwned && enKind e == 0

/-- An OWNED DELAY entry. -/
def enDelay (e : List Word) : Bool := enType e == tyOwned && enKind e == 1

/-- The entry of a stall in a basic cycle, with its index. -/
def planFind (s : State) (stall cycle : Nat) : Option (List Word × Nat) :=
  s.plan.entries.zipIdx.find? fun x => enStall x.1 == stall && enApplies x.1 cycle

/-- The badge of end B or A's own record. -/
def endOf (s : State) (endB : Bool) : CplEnd := if endB then s.ends.b else s.ends.a

/-- The end counts as coupled (R34). -/
def coupled (s : State) (endB : Bool) : Bool := pNoPresence s endB || (endOf s endB).present

/-- Own 14-bit system address; 0 while the car has no number (R361). -/
def sysAddr (s : State) : Nat :=
  match s.inaug.car with
  | some n => s.inaug.train * 64 + n
  | none => 0

/-- The NUMBERING entry that carries a car number. -/
def numbered (s : State) (n : Nat) : Option NumEntry := s.inaug.numbering[n]?

/-- The car number of a badge in the adopted numbering. -/
def carOfBadge (s : State) (b : Nat) : Option Nat :=
  (s.inaug.numbering.zipIdx.find? fun x => x.1.badge == b).map (·.2)

/-- The car number of an ADMIT in the adopted numbering. -/
def carOfAdmit (s : State) (a : Nat) : Option Nat :=
  (s.inaug.numbering.zipIdx.find? fun x => x.1.adm == a).map (·.2)

/-- The base roles that make an admitted car (R30). -/
def admitted (s : State) : Bool :=
  match s.inaug.role with
  | .member => true
  | .backup => true
  | .lead => true
  | .none => false
  | .guest => false

/-- SRC of the frames the car sends, and of its own copies that come back (R48, R58, R105): its address, or car field 63
of its train while it has no number; DEDUCED for the frames of a granted guest (log 36). -/
def srcField (s : State) : Nat :=
  match s.inaug.car with
  | some n => s.inaug.train * 64 + n
  | none =>
    (if admitted s then s.inaug.train else match s.inaug.beacon with | some b => be b.raw 13 1 | none => pTrain s) * 64 + 63

/-- INTEGRATING or RUNNING. -/
def onTrain (s : State) : Bool := s.sys.dev == .integrating || s.sys.dev == .running

/-- The firmware runs (R25): STARTUP, STOPPED, INTEGRATING, RUNNING, TEST. -/
def fwRuns (s : State) : Bool :=
  match s.sys.dev with
  | .startup => true
  | .stopped => true
  | .integrating => true
  | .running => true
  | .test => true
  | .off => false
  | .reset => false
  | .boot => false
  | .recovery => false
  | .barn => false

end Sys2Proof.Machine
end

