-- ==== Sys2Proof/Machine/Flags.lean ====
section
/-!
DEFINITION. What is computed from the state and read as a status: train time and stamps, the error bound EB,
the ring, the check bytes and CRC-32, the hayloft regions, the interrupt causes and the status words.
-/

namespace Sys2Proof.Machine

open Sys2Proof

/-! Train time (R119, R121). -/

/-- T in units of 2^-16 ns at an instant c of the counter C (R119). -/
def timeFxAt (s : State) (c : Nat) : Int :=
  (c : Int) * 65536 + s.clk.offset + (((c : Int) - (s.clk.cA : Int)) * s.clk.rate * 65536) / 2 ^ 40

/-- T in units of 2^-16 ns now. -/
def timeFx (s : State) : Int := timeFxAt s s.clk.c

/-- Train time in whole ns, 64 bits. -/
def timeAt (s : State) (c : Nat) : Nat := tc 64 (timeFxAt s c / 65536)

/-- Train time now. -/
def trainTime (s : State) : Nat := timeAt s s.clk.c

/-- The SYNC flag (R121). -/
def synced (s : State) : Bool :=
  match s.clk.st with
  | .locked => true
  | .holdover => true
  | .master => true
  | .free => false
  | .tracking => false

/-- The stamp of an instant of C (R121). -/
def stampAt (s : State) (c : Nat) : Stamp := { s32 := timeAt s c % 2 ^ 32, ep := s.clk.tepoch, sync := synced s }

/-- The stamp of this instant. -/
def stampNow (s : State) : Stamp := stampAt s s.clk.c

/-- A STAMP32 extended to train time by a reading F (R122). -/
def extend (F s32 : Nat) : Int :=
  let d : Int := ((s32 : Int) - (F : Int)) % 2 ^ 32
  (F : Int) + (if 2 ^ 31 ≤ d then d - 2 ^ 32 else d)

/-- Time epochs compare modulo 256 in a window of 127 (R133): a is newer than b. -/
def epochNewer (a b : Nat) : Bool :=
  let d := (a + 256 - b % 256) % 256
  decide (1 ≤ d) && decide (d ≤ 127)

/-- The basic-cycle number of a train time (R161). -/
def cycleOf (s : State) (t : Nat) : Nat := t / cycleP s % planNbc s

/-- MATRIX of a train time (R161). -/
def matrixOf (s : State) (t : Nat) : Nat := t / (planNbc s * cycleP s) % 2 ^ 32

/-- The period that limits an event to its first occurrence (R519). -/
def limitPeriod (s : State) : Nat :=
  if planLoaded s then trainTime s / cycleP s else trainTime s / 1000000

/-! The error bound (R124). -/

/-- What the phase term has not yet removed of the last measured offset, in 2^-16 ns (R124). -/
def thetaLeft (s : State) : Int :=
  match s.clk.st with
  | .holdover => s.clk.theta
  | .free => s.clk.theta
  | .tracking => s.clk.theta - ((s.clk.c : Int) - (s.clk.usedAt : Int)) * s.clk.phase * 65536 / 2 ^ 40
  | .locked => s.clk.theta - ((s.clk.c : Int) - (s.clk.usedAt : Int)) * s.clk.phase * 65536 / 2 ^ 40
  | .master => s.clk.theta

/-- DRIFT_PPM × max(0, A − P), in 10^-7 × 2^-16 ns. -/
def driftTerm (s : State) : Nat := pDriftPpm s * (s.clk.c - s.clk.usedAt - cycleP s) * 65536

/-- EB in whole ns, rounded up; `none` is unbounded (R124; log 10). -/
def errBound (s : State) : Option Nat :=
  let unit := 65536 * 10000000
  match s.clk.st with
  | .master => some 0
  | .free => none
  | .tracking => none
  | .locked =>
    if s.teth.dc == .dcLocked then some ((4 * unit + driftTerm s + unit - 1) / unit)
    else some (((1 + s.ref.hops) * unit + s.ref.ltol * (unit / 10)
      + max (20 * unit) ((thetaLeft s).natAbs * 10000000) + driftTerm s + unit - 1) / unit)
  | .holdover =>
    some (((1 + s.ref.hops) * unit + s.ref.ltol * (unit / 10)
      + max (20 * unit) ((thetaLeft s).natAbs * 10000000) + driftTerm s + unit - 1) / unit)

/-- EB as R160 reports it; a larger EB is not capped, the reply word takes its low 32 bits (DESIGN CHOICE, log 42). -/
def errBoundWord (s : State) : Nat := (errBound s).getD 0xFFFFFFFF

/-- EB is within GUARD × 50 ns, so the car may insert outside GUEST stalls (R170). -/
def withinDeadline (s : State) : Bool :=
  match errBound s with
  | some e => decide (e ≤ planGuard s * 50)
  | none => false

/-! The ring (R42). -/

/-- Both copies of the master's newest REFERENCE launched at least TRANSIT_T ago came back (R42). -/
def masterClosed (s : State) : Bool :=
  match (s.ref.refs.reverse.find? fun r => decide (r.at_ + pTransit s ≤ trainTime s)) with
  | some r => r.retX.isSome && r.retY.isSome
  | none => false

/-- RING_CLOSED (R42). -/
def ringClosed (s : State) : Bool :=
  !pLine s && s.ends.a.st == .up && s.ends.b.st == .up &&
    (if s.clk.st == .master then masterClosed s
     else s.ref.closed && (s.ref.usedNow || s.ref.usedPrev))

/-- Topology code of TRAIN_STATUS (R397). -/
def topology (s : State) : Nat := if pLine s then 2 else if ringClosed s then 0 else 1

/-- The end that direction X leaves through (R44, R45). -/
def endOfDir (s : State) (dirY : Bool) : Bool := if dirY then !s.ends.orient else s.ends.orient

/-! Check values. -/

/-- One bit of CRC-32 (IEEE 802.3, reflected; log 9). -/
def crcBit (c : BitVec 32) : BitVec 32 := if c.getLsbD 0 then (c >>> 1) ^^^ 0xEDB88320#32 else c >>> 1

/-- One byte of CRC-32. -/
def crcByte (c : BitVec 32) (b : Byte) : BitVec 32 :=
  crcBit (crcBit (crcBit (crcBit (crcBit (crcBit (crcBit (crcBit (c ^^^ b.setWidth 32))))))))

/-- CRC-32 of IEEE 802.3 (R46, R199, R420; log 9). -/
def crc32 (p : List Byte) : BitVec 32 := (p.foldl crcByte 0xFFFFFFFF#32) ^^^ 0xFFFFFFFF#32

/-! Protection of a train frame (R46, R51, R52, R316). -/

/-- The open key, 32 bytes of 0x00 (R52). -/
def openKey : Nat := 0

/-- The GCM nonce: ADMIT, SEQ, 0x0000_0000 (R51). -/
def nonceOf (h : Hdr) : List Byte := beBytes 2 h.adm ++ beBytes 6 h.seq ++ beBytes 4 0

/-- Header bytes 0 to 23 (R46). -/
def headFixed (h : Hdr) : List Byte := (encodeHdr h).take 24

/-- The payload as the wire carries it, and back: enciphered with CLASS.CONF (R316). -/
def confText (key : Nat) (h : Hdr) (p : List Byte) : List Byte :=
  if h.conf then Config.gcmCrypt key (nonceOf h) p else p

/-- The GCM tag over header bytes 0 to 23 and the payload as the wire carries it (R316). -/
def tagOf (key : Nat) (h : Hdr) (wire : List Byte) : BitVec 128 :=
  if h.conf then Config.gcmTag key (nonceOf h) (headFixed h) wire
  else Config.gcmTag key (nonceOf h) (headFixed h ++ wire) []

/-- The FCS over header, payload, pad and tag: `body` is what stands between header and tag (R46). -/
def fcsOf (h : Hdr) (body : List Byte) (tag : BitVec 128) : BitVec 32 :=
  crc32 (encodeHdr h ++ body ++ beBytes 16 tag.toNat)

/-- The pad of a payload: zeros up to 12 bytes (R46). -/
def padBody (p : List Byte) : List Byte := padTo 12 p

/-- The payload that stands on the wire in a copy that leaves, and its tag (R316): a frame of this car is sealed here, a
forwarded one goes on as it came. -/
def wireBody (w : WireFrame) : List Byte × BitVec 128 :=
  match w.prot with
  | .own key => let p := confText key w.hdr w.payload; (padBody p, tagOf key w.hdr p)
  | .carried tag => (w.payload, tag)

/-- The bytes of a copy on the wire after its start character: preamble, start delimiter, header, payload, pad, tag and FCS
(R46, R59). A copy that is cut off with an error block ends before its FCS is complete (R61). -/
def wireBytes (w : WireFrame) : List Byte :=
  let b := wireBody w
  List.replicate 6 0x55 ++ [0xD5] ++ encodeHdr w.hdr ++ b.1 ++ beBytes 16 b.2.toNat
    ++ leBytes 4 (fcsOf w.hdr b.1 b.2).toNat

/-- XOR of bytes (R194). -/
def xorBytes (p : List Byte) : Byte := p.foldl (· ^^^ ·) 0

/-! Hayloft regions (R461). -/

def mib : Nat := 1048576

/-- Size of a region in bytes. -/
def regionSize (s : State) (r : Nat) : Nat :=
  match r with
  | 0 => 16 * mib
  | 1 => s.loft.fq * mib
  | 2 => s.loft.hist * mib
  | 3 => s.loft.recr * mib
  | 4 => s.loft.img * mib
  | _ => (128 - 16 - s.loft.fq - s.loft.hist - s.loft.recr - s.loft.img) * mib

/-- First byte of a region. -/
def regionBase (s : State) : Nat → Nat
  | 0 => 0
  | r + 1 => regionBase s r + regionSize s r

/-- Region of a hayloft byte. -/
def regionOf (s : State) (a : Nat) : Nat :=
  if a < regionBase s 1 then 0 else if a < regionBase s 2 then 1 else if a < regionBase s 3 then 2
  else if a < regionBase s 4 then 3 else if a < regionBase s 5 then 4 else 5

/-- The hayloft holds 128 MiB (R455). -/
def loftSize : Nat := 128 * mib

/-! Interrupts and bells (R368, R372). -/

/-- Bit n of OUT_FULL_MAP or IN_FULL_MAP, as a number. -/
def mapBits (l : List Manger) (f : Manger → Bool) : Nat :=
  (l.zipIdx.map fun x => b2n (f x.1) * 2 ^ x.2).sum

def outFullMap (s : State) : Nat := mapBits s.host.mang (·.outFull)
def inFullMap (s : State) : Nat := mapBits s.host.mang (·.inFull)

/-- REMOTE_PEND as one number: bit 4k + c (R368). -/
def remotePend (s : State) : Nat :=
  (s.host.proxies.filter (·.st == .replied)).foldl (fun n p => n ||| 2 ^ (4 * p.k + p.c)) 0

/-- IRQ_CAUSE (R372). -/
def irqCause (s : State) : Nat :=
  b2n (outFullMap s != 0) * 32 + b2n (remotePend s != 0) * 16 + b2n s.host.busErr * 8
    + b2n (s.host.errLog.any (·.valid)) * 4 + b2n (s.host.evPend &&& s.host.evMask != 0) * 2
    + b2n (s.host.hostBell &&& s.host.hostBellMask != 0)

/-- HOST_IRQ_N is pulled low (R372). -/
def irqAsserted (s : State) : Bool := irqCause s &&& s.host.irqEn != 0

/-! Status words (R361). -/

/-- Host register 0x010. -/
def regState (s : State) : Nat :=
  (if s.sys.dev == .boot then 0 else s.sys.dev.code) * 2 ^ 28 + b2n s.sys.braced * 2 ^ 27
    + s.inaug.role.code * 2 ^ 24 + s.inaug.rank % 4 * 2 ^ 22 + b2n s.inaug.drive * 2 ^ 21
    + b2n s.ends.orient * 2 ^ 20 + sysAddr s % 16384

/-- Host register 0x014. -/
def regEpochs (s : State) : Nat := s.inaug.epoch % 4096 * 65536 + s.sec.cur % 16 * 256 + s.clk.tepoch % 256

/-- Host register 0x018. -/
def regSession (s : State) : Nat := s.host.priv.code * 65536 + s.host.session % 65536

end Sys2Proof.Machine
end

