-- ==== Sys2Proof/Machine/Ops.lean ====
section
/-!
DEFINITION. The operations the meanings share: counters, free values, the bytes of the hayloft, the stream
queues, the recorder, and raising an event with all its routes. The device has no exception entry: an error is
a counter, an event or a reply, and each is one of these operations.
-/

namespace Sys2Proof.Machine

open Sys2Proof

/-- What a command answers. -/
abbrev Out := Host.Outcome State Fault Refusal

/-- Do f when a condition holds; otherwise nothing. -/
def when' (c : Bool) (f : State → State) (s : State) : State := if c then f s else s

/-- Do f for each member of a list, in order. -/
def each {α : Type} (l : List α) (f : α → State → State) (s : State) : State := l.foldl (fun t a => f a t) s

/-! Counters (R66): 32 bits, saturating. -/

/-- A counter raised by n. -/
def satAdd (n x : Nat) : Nat := min (x + n) 0xFFFFFFFF

/-- Counter i of a block raised by n. -/
def bumpBy (i n : Nat) (l : List Nat) : List Nat := l.modify i (satAdd n)

/-- Counter i of a block raised by 1. -/
def bump (i : Nat) (l : List Nat) : List Nat := bumpBy i 1 l

def cntEnd (endB : Bool) (i : Nat) (s : State) : State :=
  s.onCtr fun c => if endB then { c with endB := bump i c.endB } else { c with endA := bump i c.endA }
def cntInaug (i : Nat) (s : State) : State := s.onCtr fun c => { c with inaug := bump i c.inaug }
def cntTime (i : Nat) (s : State) : State := s.onCtr fun c => { c with time := bump i c.time }
def cntStall (i : Nat) (s : State) : State := s.onCtr fun c => { c with stall := bump i c.stall }
def cntTalk (slot i : Nat) (s : State) : State := s.onCtr fun c => { c with talk := bump (6 * slot + i) c.talk }
def cntRule (r i : Nat) (s : State) : State := s.onCtr fun c => { c with rule := bump (3 * r + i) c.rule }
def cntSent (i n : Nat) (s : State) : State := s.onCtr fun c => { c with sent := bumpBy i n c.sent }
def cntLstn (slot i : Nat) (s : State) : State := s.onCtr fun c => { c with lstn := bump (9 * slot + i) c.lstn }
def cntSerial (p i : Nat) (s : State) : State := s.onCtr fun c => { c with serial := bump (12 * p + i) c.serial }
def cntChan (ch i : Nat) (s : State) : State := s.onCtr fun c => { c with chan := bump (9 * ch + i) c.chan }
def cntGrp (g i : Nat) (s : State) : State := s.onCtr fun c => { c with grp := bump (5 * g + i) c.grp }
def cntFmod (i : Nat) (s : State) : State := s.onCtr fun c => { c with fmod := bump i c.fmod }
def cntSec (i : Nat) (s : State) : State := s.onCtr fun c => { c with sec := bump i c.sec }
def cntYardBy (i n : Nat) (s : State) : State := s.onCtr fun c => { c with yard := bumpBy i n c.yard }
def cntYard (i : Nat) (s : State) : State := cntYardBy i 1 s
def cntHost (i : Nat) (s : State) : State := s.onCtr fun c => { c with host := bump i c.host }
def cntCmd (i : Nat) (s : State) : State := s.onCtr fun c => { c with cmd := bump i c.cmd }
def cntStrmBy (i n : Nat) (s : State) : State := s.onCtr fun c => { c with strm := bumpBy i n c.strm }
def cntStrm (i : Nat) (s : State) : State := cntStrmBy i 1 s
def cntEvBy (i n : Nat) (s : State) : State := s.onCtr fun c => { c with ev := bumpBy i n c.ev }
def cntEv (i : Nat) (s : State) : State := cntEvBy i 1 s
def cntLoft (i : Nat) (s : State) : State := s.onCtr fun c => { c with loft := bump i c.loft }

/-! Free values (log 2). -/

/-- The next free value, w bits of it. -/
def freeNat (w : Nat) (s : State) : Nat := (Config.freeValue s.free).toNat % 2 ^ w

/-- A free value has been taken. -/
def tookFree (s : State) : State := { s with free := s.free + 1 }

/-! Stamps (R132: the epochs in which stamps with SYNC were taken). -/

/-- A stamp is taken now. -/
def noteStamp (s : State) : State :=
  if synced s && !s.clk.syncEpochs.contains s.clk.tepoch then
    s.onClk fun k => { k with syncEpochs := s.clk.tepoch :: k.syncEpochs }
  else s

/-! The bytes of the hayloft: a sorted list with no entry equal to what an unlisted byte reads as, 0 (R463). -/

/-- A byte of the hayloft. -/
def memGet (m : List Host.Cell) (a : Nat) : Byte :=
  match m with
  | [] => 0
  | (x, b) :: r => if x = a then b else memGet r a

/-- One byte written. -/
def memPut (m : List Host.Cell) (a : Nat) (b : Byte) : List Host.Cell :=
  match m with
  | [] => if b = 0 then [] else [(a, b)]
  | (x, y) :: r =>
    if a < x then (if b = 0 then (x, y) :: r else (a, b) :: (x, y) :: r)
    else if a = x then (if b = 0 then r else (a, b) :: r)
    else (x, y) :: memPut r a b

/-- Bytes written from an address on. -/
def memWrite (m : List Host.Cell) (a : Nat) : List Byte → List Host.Cell
  | [] => m
  | b :: r => memWrite (memPut m a b) (a + 1) r

/-- n bytes from an address on. -/
def memRead (m : List Host.Cell) (a n : Nat) : List Byte := (List.range n).map fun i => memGet m (a + i)

/-- The bytes of a range set to zero. -/
def memZero (m : List Host.Cell) (a n : Nat) : List Host.Cell :=
  m.filter fun c => decide (c.1 < a) || decide (a + n ≤ c.1)

/-- The canonical form: addresses strictly rising, and no listed byte is 0. -/
def Memory.wf : List Host.Cell → Bool
  | [] => true
  | [(_, b)] => b != 0
  | (x, b) :: (y, c) :: r => b != 0 && decide (x < y) && Memory.wf ((y, c) :: r)

/-- Write bytes straight into the hayloft; codewords covered whole become sound (R456). -/
def loftPoke (a : Nat) (p : List Byte) (s : State) : State :=
  s.onLoft fun l =>
    { l with
      mem := memWrite l.mem a p
      damage := l.damage.filter fun d => !(decide (a ≤ 16 * d.1) && decide (16 * d.1 + 16 ≤ a + p.length))
      writeBack := l.writeBack.filter fun w => decide (16 * w + 16 ≤ a) || decide (a + p.length ≤ 16 * w) }

/-! Stream queues (R426). -/

/-- Bytes a frame takes in a queue. -/
def sfSize (f : SFrame) : Nat := 12 + roundUp f.payload.length 4

/-- The enable bit of a stream channel (R434). -/
def strmEnabled (s : State) (ch : Nat) : Bool :=
  bit s.strm.cfg 0 31 && (if ch < 32 then bit s.strm.cfg 1 ch else bit s.strm.cfg 2 (ch - 32))

/-- The queue with the oldest frames of a channel dropped until a new one fits, and how many were dropped. -/
def strmTrim (ch size : Nat) : Nat → List SFrame → List SFrame × Nat
  | 0, q => (q, 0)
  | n + 1, q =>
    let mine := q.filter fun f => f.ch == ch
    if mine.length ≥ 64 || (mine.map sfSize).sum + size > 65536 then
      match q.findIdx? fun f => f.ch == ch with
      | some i => let r := strmTrim ch size n (q.eraseIdx i); (r.1, r.2 + 1)
      | none => (q, 0)
    else (q, 0)

/-- A frame waits; with no credit held, CREDIT_TMO begins to run (R419). -/
def strmWait (s : State) : State :=
  if s.strm.credits == 0 && s.strm.starved.isNone then s.onStrm fun t => { t with starved := some s.clk.c } else s

/-- Queue an outbound stream frame; STREAM_DROP counts what it displaces (R426). Not on a disabled channel. -/
def strmQueue (f : SFrame) (s : State) : State × Nat :=
  if !strmEnabled s f.ch then (s, 0) else
  let r := strmTrim f.ch (sfSize f) 65 s.strm.queue
  (strmWait (cntStrmBy 7 r.2 (s.onStrm fun t => { t with queue := r.1 ++ [f] })), r.2)

/-! The recorder (R447 to R451). -/

/-- The system source number (R440). -/
def sysSource (s : State) (src : Nat) : Nat := sysAddr s * 128 + src

/-- The 32 bytes of a record (R448). -/
def recBytes (r : Rec) : List Byte :=
  leBytes 8 r.seq ++ leBytes 4 (r.kind * 2 ^ 29 + b2n r.remote * 2 ^ 28 + r.source)
    ++ leBytes 4 (r.code * 2 ^ 24 + r.rep) ++ leBytes 4 r.data ++ leBytes 4 r.touch ++ leBytes 4 r.data2
    ++ leBytes 4 0

/-- Where a record lies (R447). -/
def recAddr (s : State) (seq : Nat) : Nat := regionBase s 3 + 32 * (seq % (regionSize s 3 / 32))

/-- Write a new record: SEQ and TOUCH = 1 first, TOUCH = 2 when complete (R450). A clock mark counts as it is written (R454). -/
def recWrite (r : Rec) (s : State) : State :=
  let r' := { r with seq := s.ev.recSeq, touch := 2 }
  when' (r.kind == 1) (cntEv 4) <| cntEv 1 ((loftPoke (recAddr s s.ev.recSeq) (recBytes r') s).onEv fun e =>
    { e with newest := some r', recSeq := e.recSeq + 1, recCount := e.recCount + 1 })

/-- The newest record is the same event and can take another repeat (R449). -/
def recSame (e : Event) (r : Rec) : Bool :=
  r.kind == 0 && r.remote == e.remote && r.source == e.sysSrc && r.code == e.code && r.data == e.data
    && r.data2 == e.data2 && decide (r.rep < 0xFFFFFF)

/-- A newly written EVENT record. -/
def recOf (e : Event) (rep : Nat) : Rec :=
  { seq := 0, kind := 0, remote := e.remote, source := e.sysSrc, code := e.code, rep := rep, data := e.data,
    touch := 0, data2 := e.data2 }

/-- Fold n further occurrences into the newest record, or write what does not fit (R449). -/
def recFold (e : Event) (n : Nat) (s : State) : State :=
  match s.ev.newest with
  | none => recWrite (recOf e (n - 1)) s
  | some r =>
    if recSame e r then
      let rep := min (r.rep + n) 0xFFFFFF
      let r' := { r with rep := rep, touch := r.touch + 2 }
      let bad := s.loft.damage.filter fun d => decide (16 * d.1 = recAddr s r.seq ∨ 16 * d.1 = recAddr s r.seq + 16)
      let s1 := cntEv 2 (s.onEv fun v => { v with newest := some r' })
      let s2 := s1.onLoft fun l => { l with mem := memWrite l.mem (recAddr s r.seq) (recBytes r'),
                                            damage := l.damage.map fun d => if bad.contains d && d.2 == .two then (d.1, .poisoned) else d }
      let s3 := each (bad.filter fun d => d.2 != .one) (fun _ => cntLoft 12) s2
      if r.rep + n > 0xFFFFFF then recWrite (recOf e (r.rep + n - 0xFFFFFF - 1)) s3 else s3
    else recWrite (recOf e (n - 1)) s

/-- Entries of the collector that count against its 256 places. -/
def colCount (l : List ColEntry) : Nat :=
  (l.filter fun c => match c with | .mark _ => false | .event _ _ => true | .lost _ _ => true).length

/-- An event that the routing sends to the recorder (R449, R451). -/
def recordEvent (e : Event) (s : State) : State :=
  if s.ev.collector.isEmpty && (match s.ev.newest with | some r => recSame e r | none => false) then recFold e 1 s
  else
    match s.ev.collector.getLast? with
    | some (.event f n) =>
      if s.ev.lostN == 0 && f.sysSrc == e.sysSrc && f.remote == e.remote && f.code == e.code && f.data == e.data
          && f.data2 == e.data2 then
        cntEv 2 (s.onEv fun v => { v with collector := v.collector.dropLast ++ [.event f (n + 1)] })
      else if colCount s.ev.collector < 256 && s.ev.lostN == 0 then
        s.onEv fun v => { v with collector := v.collector ++ [.event e 0] }
      else
        cntEv 3 (s.onEv fun v => { v with lostN := v.lostN + 1, lostSrc := if v.lostN == 0 then e.sysSrc else v.lostSrc })
    | _ =>
      if colCount s.ev.collector < 256 && s.ev.lostN == 0 then
        s.onEv fun v => { v with collector := v.collector ++ [.event e 0] }
      else
        cntEv 3 (s.onEv fun v => { v with lostN := v.lostN + 1, lostSrc := if v.lostN == 0 then e.sysSrc else v.lostSrc })

/-- A clock mark, with its code (R134, R448). It waits behind what the collector holds. -/
def clockMark (code : Nat) (s : State) : State :=
  let t := trainTime s
  let r : Rec := { seq := 0, kind := 1, remote := false, source := sysSource s 0, code := code,
                   rep := s.clk.tepoch * 65536 + s.clk.st.code * 4096, data := t % 2 ^ 32, touch := 0,
                   data2 := t / 2 ^ 32 }
  if s.ev.collector.isEmpty then recWrite r s
  else s.onEv fun v => { v with collector := v.collector ++ [.mark r] }

/-- A RESUME record (R447, R463). -/
def resumeRecord (code : Nat) (s : State) : State :=
  let r : Rec := { seq := 0, kind := 3, remote := false, source := sysSource s 0, code := code, rep := 0,
                   data := s.flash.bootCount % 2 ^ 32, touch := 0, data2 := 0 }
  if s.ev.collector.isEmpty then recWrite r s
  else s.onEv fun v => { v with collector := v.collector ++ [.mark r] }

/-! Sentences, as far as event talkers need them (R196, R199, R213). -/

/-- Index of the nth occurrence of a byte, counting from 0. -/
def nthByte (d : Byte) : Nat → Nat → List Byte → Option Nat
  | _, _, [] => none
  | n, i, b :: r => if b == d then (match n with | 0 => some i | m + 1 => nthByte d m (i + 1) r) else nthByte d n (i + 1) r

/-- A field up to the next DELIM, '*' or CR LF (R199). -/
def keyField (delim : Byte) : List Byte → List Byte
  | [] => []
  | b :: r => if b == delim || b == 0x2A || (b == 0x0D && r.head? == some 0x0A) then [] else b :: keyField delim r

/-- The bytes of one key segment (R199). -/
def keySegment (rec_ : List Word) (body : List Byte) (k : Nat) : List Byte :=
  let g := bits rec_ (3 + k / 2) (if k % 2 = 0 then 31 else 15) (if k % 2 = 0 then 16 else 0)
  let len := natBits g 14 10
  let delim := byteOf (bits rec_ 2 31 24)
  if natBit g 15 then
    let start := if bits rec_ 0 30 28 == 0 then 1 else 0
    let rest := body.drop start
    let n := natBits g 9 5
    let field := match n with
      | 0 => some rest
      | m + 1 => (nthByte delim m 0 rest).map fun i => rest.drop (i + 1)
    padTo len (((keyField delim (field.getD [])).drop (natBits g 4 0)).take len)
  else padTo len ((body.drop (natBits g 9 0)).take len)

/-- The 20-byte key (R199). -/
def keyOf (rec_ : List Word) (talker : Nat) (body : List Byte) : List Byte :=
  beBytes 4 talker ++ (padTo 16 ((List.range 4).flatMap (keySegment rec_ body))).take 16

/-- A hex digit's value. -/
def hexVal (b : Byte) : Option Nat :=
  let n := b.toNat
  if 48 ≤ n ∧ n ≤ 57 then some (n - 48) else if 65 ≤ n ∧ n ≤ 70 then some (n - 55)
  else if 97 ≤ n ∧ n ≤ 102 then some (n - 87) else none

/-- The check of a LINE-CHECKED sentence: absent, or present with its result (R194). A '*' before two characters that are
not hex digits counts as a failed check: DESIGN CHOICE, log 48. -/
def lineCheck (body : List Byte) : Option Bool :=
  let core := body.take (body.length - 2)
  let n := core.length
  if 4 ≤ n && core.getD (n - 3) 0 == 0x2A then
    match hexVal (core.getD (n - 2) 0), hexVal (core.getD (n - 1) 0) with
    | some a, some b => some ((xorBytes ((core.drop 1).take (n - 4))).toNat == 16 * a + b)
    | _, _ => some false
  else none

/-- The body length that a LENGTH-PREFIXED sentence declares after its sync byte and length field: the offset of
the body and its length (R194). -/
def lengthPrefix (rec_ : List Word) (body : List Byte) : Nat × Int :=
  let off := b2n (bit rec_ 1 31)
  let two := bit rec_ 1 24
  let v : Nat := if two then (if bit rec_ 1 25 then le body off 2 else be body off 2) else be body off 1
  (off + (if two then 2 else 1), (v : Int) + sx 8 (bits rec_ 1 23 16))

/-- A whole item is exactly one sentence of the profile: `none` is INVALID, `some c` has CHECKED = c (R194, R195). -/
def wholeSentence (rec_ : List Word) (body : List Byte) : Option Bool :=
  let n := body.length
  let check := bits rec_ 0 27 26
  if n == 0 || decide (n > bits rec_ 0 10 0) then none else
  match bits rec_ 0 30 28 with
  | 0 =>
    let core := body.take (n - 2)
    if decide (n ≥ 3) && (core.getD 0 0 == 0x24 || core.getD 0 0 == 0x21) && body.drop (n - 2) == [0x0D, 0x0A]
        && (core.drop 1).all (fun b => decide (0x20 ≤ b.toNat) && decide (b.toNat ≤ 0x7E) && b != 0x24 && b != 0x21) then
      match check, lineCheck body with
      | 0, _ => some false
      | 1, none => some false
      | _, none => none
      | _, some ok => if ok then some true else none
    else none
  | 1 =>
    let bcc := bit rec_ 1 0
    let a := byteOf (bits rec_ 1 31 24)
    let b := byteOf (bits rec_ 1 23 16)
    let core := if bcc then body.take (n - 1) else body
    let m := core.length
    if decide (m ≥ 2) && core.getD 0 0 == a && core.getD (m - 1) 0 == b && ((core.drop 1).take (m - 2)).all (· != b) then
      if bcc then
        let ok := xorBytes (core.drop 1) == body.getD (n - 1) 0
        match check with
        | 0 => some false
        | _ => if ok then some true else none
      else (match check with | 2 => none | _ => some false)
    else none
  | 2 =>
    let p := lengthPrefix rec_ body
    if (!bit rec_ 1 31 || body.getD 0 0 == byteOf (bits rec_ 1 7 0)) && decide (1 ≤ p.2) && decide ((p.1 : Int) + p.2 = n)
    then some false else none
  | 3 => some false
  | 4 => some false
  | _ => none

/-- Own system talker ID of a slot (R190). -/
def talkerId (s : State) (slot : Nat) : Nat := sysAddr s * 64 + slot

/-- The KEY_HASH of a sentence (R199): the CRC-32 of its 20 key bytes. A record from elsewhere holds the hash itself. -/
def keyHash (key : List Byte) : Nat := if key.length == 20 then (crc32 key).toNat else le key 0 4

/-- Two sentences have the same key (R215): their 20 bytes, or their KEY_HASH where a record from elsewhere gives no more. -/
def sameKey (a b : List Byte) : Bool := if a.length == b.length then a == b else keyHash a == keyHash b

/-- A sentence of a local slot, not yet classified. -/
def mkSentence (s : State) (slot : Nat) (stamp : Stamp) (endStamp : Option Stamp) (noise addr checked : Bool)
    (body : List Byte) : Sentence :=
  let rec_ := s.sent.talkers.getD slot []
  { slot := slot, talker := talkerId s slot, stamp := stamp, endStamp := endStamp, noise := noise, addr := addr,
    checked := checked, yard := false, late := false, replay := false, gap := false,
    tseq := s.sent.tseq.getD slot 0, cls := 0, sup := false, hist := false, rule := 0,
    key := keyOf rec_ (talkerId s slot) body, body := body, arrived := trainTime s }

/-- A sentence is framed without discard: FRAMED and TSEQ rise, and it enters the engine's input queue, or is
discarded when that is full (R204, R213). -/
def sentenceIn (x : Sentence) (s : State) : State :=
  let s1 := cntTalk x.slot 0 (s.onSent fun t => { t with tseq := t.tseq.modify x.slot fun n => (n + 1) % 2 ^ 32 })
  if s1.sent.inq.length < 1024 then s1.onSent fun t => { t with inq := t.inq ++ [x] }
  else cntTalk x.slot 5 s1

/-- Offer an event to one event talker slot (R196). -/
def offerTalker (src code : Nat) (st : Stamp) (slot : Nat) (s : State) : State :=
  let rec_ := s.sent.talkers.getD slot []
  if bit rec_ 0 31 && bits rec_ 5 22 16 == src && (bits rec_ 5 15 8 == 0xFF || bits rec_ 5 15 8 == code) then
    let body := (wordBytes (rec_.drop 6)).take (bits rec_ 5 4 0)
    match wholeSentence rec_ body with
    | some c => sentenceIn (mkSentence s slot st none false false c body) s
    | none => cntTalk slot 3 s
  else s

/-! Events (R438 to R446). -/

/-- Ring a host bell (R368, R369). -/
def ringHost (n : Nat) (s : State) : State := s.onHost fun h => { h with hostBell := h.hostBell ||| 2 ^ n }

/-- Words of an event record, as bytes (R445). -/
def eventBytes (e : Event) (eseq : Nat) : List Byte :=
  leBytes 4 (e.stamp.ep * 2 ^ 24 + b2n e.stamp.sync * 2 ^ 23 + b2n e.remote * 2 ^ 22 + e.sysSrc)
    ++ leBytes 4 (e.code * 2 ^ 24) ++ leBytes 4 e.stamp.s32 ++ leBytes 4 e.data ++ leBytes 4 e.data2 ++ leBytes 4 eseq

/-- The event stream frame that is being filled leaves for channel 48 (R445). -/
def evFrameClose (s : State) : State × Nat :=
  if s.strm.evFrame.isEmpty then (s, 0) else
  let body := ((s.strm.evFrame.zip s.strm.evSeqs).map fun x => eventBytes x.1 x.2).flatten
  let r := strmQueue { ch := 48, seq := 0, param := s.strm.evFrame.length, payload := body } s
  (r.1.onStrm fun t => { t with evFrame := [], evSeqs := [] }, r.2)

/-- Put an event record into the stream frame (R445). -/
def evToStream (e : Event) (eseq : Nat) (s : State) : State :=
  s.onStrm fun t => { t with evFirst := if t.evFrame.isEmpty then s.clk.c else t.evFirst,
                             evFrame := t.evFrame ++ [e], evSeqs := t.evSeqs ++ [eseq] }

/-- The destination that a TRAIN code names now (R442). -/
def evDst (code : Nat) (s : State) : EvDst := if code == 1 then .all else if code == 2 then .car0 else .car s.ev.dest

/-- Queue an event record for the train; the oldest gives way beyond 256 (R446). `code` is the TRAIN code. -/
def evToTrain (code : Nat) (e : Event) (eseq : Nat) (s : State) : State :=
  let x := (evDst code s, e, eseq, trainTime s)
  if code == 3 && (carOfBadge s s.ev.dest).isNone then cntEv 8 s
  else if s.ev.trainQ.length < 256 then s.onEv fun v => { v with trainQ := v.trainQ ++ [x] }
  else cntEv 8 (s.onEv fun v => { v with trainQ := v.trainQ.drop 1 ++ [x] })

/-- Every route of one event, each on its own (R442, R443, R453). -/
def routeEvent (src : Nat) (e : Event) (s : State) : State :=
  let w := (s.ev.routes.getD src 0).toNat
  let s0 := cntEv 0 s
  let s1 := when' (natBit w 31) (fun t => t.onHost fun h => { h with evPend := h.evPend ||| 2 ^ src }) s0
  let s2 := when' (natBit w 30 && decide (natBits w 28 24 < 24)) (ringHost (natBits w 28 24)) s1
  let seqd := natBit w 23 || natBits w 20 19 != 0
  let n := s.ev.eseq
  let s3 := when' seqd (fun t => t.onEv fun v => { v with eseq := (v.eseq + 1) % 2 ^ 32 }) s2
  let s4 := when' (natBit w 23) (evToStream e n) s3
  let s5 := when' (natBit w 22 && !(src == 127 && e.code == 1)) (recordEvent e) s4
  let s6 := when' (natBit w 21) (each (List.range' 48 8) (offerTalker src e.code e.stamp)) s5
  when' (natBits w 20 19 != 0) (evToTrain (natBits w 20 19) e n) s6

/-- An event of this car. -/
def mkEvent (s : State) (st : Stamp) (src code data data2 : Nat) : Event :=
  { sysSrc := sysSource s src, code := code % 256, data := data % 2 ^ 32, data2 := data2 % 2 ^ 32,
    remote := false, stamp := st }

/-- An event takes its place among those of its lane clock cycle, by local source (R443). -/
def eventInsert (e : Event) (l : List Event) : List Event :=
  let before := fun (x : Event) => decide (x.sysSrc % 128 ≤ e.sysSrc % 128)
  l.takeWhile before ++ e :: l.dropWhile before

/-- Raise an event with its own stamp: it reaches the controller, which routes it at the end of the lane clock cycle (R443). In BOOT and
RESET it waits for STARTUP (R439). In OFF and BARN there is none (R488). -/
def raiseAt (st : Stamp) (src code data data2 : Nat) (s : State) : State :=
  match s.sys.dev with
  | .off => s
  | .barn => s
  | .reset => s.onEv fun v => { v with bootPend := v.bootPend ++ [(src, code, data, data2)] }
  | .boot => s.onEv fun v => { v with bootPend := v.bootPend ++ [(src, code, data, data2)] }
  | _ => (noteStamp s).onEv fun v => { v with arrived := eventInsert (mkEvent s st src code data data2) v.arrived }

/-- Raise an event whose CODE the defining chapter gives (R438). -/
def raiseCode (src code data data2 : Nat) (s : State) : State := raiseAt (stampNow s) src code data data2 s

/-- Raise an event whose CODE is DATA [7:0] (R438). -/
def raise2 (src data data2 : Nat) (s : State) : State := raiseCode src (data % 256) data data2 s

/-- The same with DATA2 zero. -/
def raise (src data : Nat) (s : State) : State := raise2 src data 0 s

/-- The first occurrence in the basic cycle, or in the millisecond without a plan (R519): do f, else nothing.
`key` names what is limited. -/
def firstInCycle (key : Nat) (f : State → State) (s : State) : State :=
  let p := limitPeriod s
  if s.ev.firsts.contains (key, p) then s
  else f (s.onEv fun v => { v with firsts := (key, p) :: v.firsts.filter fun x => x.1 != key })

/-- Raise an event for the first occurrence in a basic cycle. -/
def raiseFirst (key src data : Nat) (s : State) : State := firstInCycle key (raise src data) s

/-- Queue an outbound stream frame, and report what it displaced (R426, R436). -/
def strmPush (f : SFrame) (s : State) : State :=
  let r := strmQueue f s
  if r.2 == 0 then r.1 else raiseFirst 11803 118 (f.ch * 256 + 3) r.1

/-- Close the event stream frame (R445). -/
def strmCloseEvents (s : State) : State :=
  let r := evFrameClose s
  if r.2 == 0 then r.1 else raiseFirst 11803 118 (48 * 256 + 3) r.1

/-- One event goes to its routes, and a stream frame that is full closes (R442, R445). -/
def routeNext (e : Event) (s : State) : State :=
  let s1 := routeEvent (e.sysSrc % 128) e s
  if 255 ≤ s1.strm.evFrame.length then strmCloseEvents s1 else s1

/-- The events of a lane clock cycle go to every route in ascending local source order (R443). -/
def flushEvents (s : State) : State := each s.ev.arrived routeNext (s.onEv fun v => { v with arrived := [] })

/-- Answer an inbound stream frame with STATUS on channel 63 (R425). -/
def strmStatus (ch seq status detail : Nat) (s : State) : State :=
  if s.strm.status.length < 16 then
    strmWait <| cntStrm 5 (s.onStrm fun t => { t with status := t.status ++
      [{ ch := 63, seq := 0, param := 0, payload := leBytes 4 (ch * 2 ^ 26 + seq % 65536) ++ leBytes 4 (status + detail * 256) }] })
  else cntStrm 6 s

/-! Reads and writes of the hayloft with its code (R455 to R458, R468). -/

/-- Codewords of a range. -/
def codewords (a n : Nat) : List Nat := if n = 0 then [] else List.range' (a / 16) ((a + n - 1) / 16 + 1 - a / 16)

/-- A correction is counted and the first of a region in each second is reported (R457, R468). -/
def noteCorrected (cw : Nat) (s : State) : State :=
  let r := regionOf s (16 * cw)
  let sec := trainTime s / 1000000000
  let s1 := cntLoft (2 * r) s
  let n := match s.ev.corrSec.find? fun x => x.1 == r && x.2.1 == sec with | some x => x.2.2 | none => 0
  let s2 := s1.onEv fun v => { v with corrSec := (r, sec, n + 1) :: v.corrSec.filter fun x => x.1 != r }
  if n == 0 then raise2 104 (r * 2 ^ 29 + 16 * cw) 1 s2 else s2

/-- An uncorrectable read is reported (R458, R468). `who` is DATA2: the reader, and 512 more for a codeword that R456 poisoned. -/
def noteUncorrectable (cw who : Nat) (s : State) : State :=
  let r := regionOf s (16 * cw)
  raise2 105 (r * 2 ^ 29 + 16 * cw) who ((cntLoft (2 * r + 1) s).onLoft fun l => { l with lastUe := 16 * cw })

/-- Read a range: `false` when some codeword of it is uncorrectable. A corrected codeword waits for its
write-back (R457). -/
def loftCheck (a n who : Nat) (s : State) : Bool × State :=
  (codewords a n).foldl (fun x cw =>
    match (x.2.loft.damage.find? fun d => d.1 == cw) with
    | none => x
    | some (_, .one) =>
      (x.1, noteCorrected cw (x.2.onLoft fun l => { l with writeBack := if l.writeBack.contains cw then l.writeBack else l.writeBack ++ [cw] }))
    | some (_, .two) => (false, noteUncorrectable cw who x.2)
    | some (_, .poisoned) => (false, noteUncorrectable cw (who + 512) x.2)) (true, s)

/-- Write a range. A codeword written in part is read first: a damaged one becomes POISONED (R456). -/
def loftWrite (a : Nat) (p : List Byte) (who : Nat) (s : State) : State :=
  let part := (codewords a p.length).filter fun cw => !(decide (a ≤ 16 * cw) && decide (16 * cw + 16 ≤ a + p.length))
  let hit := part.filter fun cw => s.loft.damage.any fun d => d.1 == cw && d.2 != .one
  let fix := part.filter fun cw => s.loft.damage.any fun d => d.1 == cw && d.2 == .one
  let s1 := loftPoke a p s
  let s2 := s1.onLoft fun l => { l with damage := (l.damage.filter fun d => !fix.contains d.1).map fun d =>
                                          if hit.contains d.1 then (d.1, .poisoned) else d }
  let s3 := each fix noteCorrected s2
  each hit (fun cw t => noteUncorrectable cw (who + 512) (cntLoft 12 t)) s3

/-- Bytes of a range as they stand. -/
def loftBytes (a n : Nat) (s : State) : List Byte := memRead s.loft.mem a n

/-- An entry of the persistent counters is appended; when its sector fills, the reserve sector goes on (R465, R486). -/
def journalEntry (s : State) : State :=
  s.onFlash fun f => if f.journal < 1024 then { f with journal := f.journal + 1 } else { f with journal := 1, reserve := false }

end Sys2Proof.Machine
end

