-- ==== Sys2Proof/Machine/Msg.lean ====
section
/-!
DEFINITION. Messages of the firmware: outbound slots and held messages, notifications, CONTROL frames of the
bridge, the reply to a command and the checks that every command passes in order (R384 to R393).
-/

namespace Sys2Proof.Machine

open Sys2Proof

/-- The master ID the firmware sends under (R22). -/
def coreId : Nat := 0x10 + Config.fwCore.toNat

/-- One manger channel changed. -/
def modMang (ch : Nat) (f : Manger → Manger) (s : State) : State :=
  s.onHost fun h => { h with mang := h.mang.modify ch f }

/-- One manger channel. -/
def mangOf (s : State) (ch : Nat) : Manger := s.host.mang.getD ch Manger.reset

/-- Queue a local frame for the train (R171). -/
def trainSend (f : TxFrame) (s : State) : State := s.onLane fun l => { l with txq := l.txq ++ [{ f with at_ := trainTime s }] }

/-- The CONTROL header of R428, then its body. -/
def ctlPayload (op reqId session priv win : Nat) (body : List Byte) : List Byte :=
  beBytes 1 op ++ [0] ++ beBytes 2 reqId ++ beBytes 2 session ++ beBytes 1 priv ++ beBytes 1 win ++ body

/-- The next REQ_ID of this car's requests (R428). -/
def nextReq (s : State) : Nat := (s.brg.reqId + 1) % 65536
def tookReq (s : State) : State := s.onBrg fun b => { b with reqId := nextReq s }

/-- A delivered message of this car to itself, which does not cross the train (R373). -/
def selfMsg (s : State) (payload : List Byte) : RxMsg :=
  { hdr := { ftype := ftControl, prio := 0, grp := false, all := false, conf := false, rsv1 := 0,
             inaug := s.inaug.epoch, key := s.sec.cur, rsv4 := 0, src := sysAddr s, rsv6 := 0, dst := sysAddr s,
             seq := 0, stall := 0, cycle := 0, len := payload.length, adm := s.inaug.adm, rsv20 := 0,
             dirY := false, hops := 0, poison := false, held := false, rsvM := 0, corr := 0 },
    endB := false, stamp := stampNow s, at_ := trainTime s, payload := payload }

/-- Send a CONTROL frame to a system address; to the car itself it stays inside (R373, R428). -/
def ctlSend (dst : Nat) (tag : TxTag) (payload : List Byte) (s : State) : State :=
  if dst == sysAddr s then s.onLane fun l => { l with rxq := l.rxq ++ [selfMsg s payload] }
  else trainSend { ftype := ftControl, prio := (Config.prioOf ftControl).toNat, grp := false, all := false,
                   dst := dst, open_ := false, tag := tag, payload := payload } s

/-- The same for a message that travels with the epoch of its commit (R376). -/
def ctlSendIn (epoch dst : Nat) (payload : List Byte) (s : State) : State :=
  if dst == sysAddr s then s.onLane fun l => { l with rxq := l.rxq ++ [selfMsg s payload] }
  else trainSend { ftype := ftControl, prio := (Config.prioOf ftControl).toNat, grp := false, all := false,
                   dst := dst, open_ := false, tag := .plain, payload := payload, epoch := some epoch } s

/-- Send a CONTROL frame to every car. -/
def ctlSendAll (payload : List Byte) (s : State) : State :=
  trainSend { ftype := ftControl, prio := (Config.prioOf ftControl).toNat, grp := false, all := true,
              dst := 0x3FFF, open_ := false, tag := .plain, payload := payload } s

/-! Outbound slots (R366). -/

/-- The outbound slot of a remote channel is empty again, and its oldest origin is served. -/
def remoteServed (ch : Nat) (s : State) : State :=
  (modMang ch (fun m => { m with outFull := false }) s).onBrg fun b => { b with origin := b.origin.eraseP fun o => o.ch == ch }

/-- A reply of a remote channel leaves for its origin and stands for an acceptance not yet sent; the slot clears as the frame is
launched (R374). Without a numbered origin there is nobody to send it to. -/
def replyRemote (ch : Nat) (words : List Word) (s : State) : State :=
  match s.brg.origin.find? fun o => o.ch == ch with
  | none => remoteServed ch s
  | some o =>
    match carOfBadge s o.badge with
    | none => remoteServed ch s
    | some n =>
      let dst := s.inaug.train * 64 + n
      let s1 := s.onLane fun l => { l with txq := l.txq.filter fun f => !(f.tag == .accept ch && be f.payload 2 2 == o.reqId) }
      let s2 := ctlSend dst (.reply ch) (ctlPayload 4 o.reqId o.session 0 ch (wordBytes words)) s1
      if dst == sysAddr s then remoteServed ch s2 else s2

/-- The words are committed to the outbound slot; host bell 29 rings (R366, R369). -/
def commitOut (ch : Nat) (words : List Word) (session : Nat) (s : State) : State :=
  let s1 := modMang ch (fun m => { m with
      outMsg := words ++ m.outMsg.drop words.length, outFull := true, outSender := coreId, outSession := session }) s
  let s2 := ringHost 29 s1
  if 12 ≤ ch then replyRemote ch words s2 else if 10 ≤ ch then strmWait s2 else s2

/-- An outbound message for a channel: into the slot, or held behind it. A reply to a session that a host reset
ended is cleared and counted (R380). -/
def outPut (ch : Nat) (words : List Word) (session : Nat) (s : State) : State :=
  if ch < 12 && session != 0 && s.host.dead.contains session then
    raise 114 (1 * 65536 + 4) (modMang ch (fun m => { m with outDrop := min (m.outDrop + 1) 0xFFFF }) s)
  else if (mangOf s ch).outFull || !(mangOf s ch).held.isEmpty then
    modMang ch (fun m => { m with held := m.held ++ [{ words := words, session := session, sender := coreId }] }) s
  else commitOut ch words session s

/-! Yard sessions (R346, R347). -/

/-- A yard session. -/
def sessOf (s : State) (k : Nat) : Option YSess := s.yard.sess[k]?

/-- Send words to a yard session's peer on transmit queue 6, under its MSEQ (R346, R347). -/
def yardSend (y : YSess) (mseq : Nat) (words : List Word) (s : State) : State :=
  s.onYard fun d => { d with txq := d.txq ++
    [{ queue := 6, udp := some (y.addr, y.port), sport := bits d.record 8 15 0, hop := 0,
       bytes := beBytes 2 y.id ++ beBytes 2 0 ++ beBytes 4 mseq ++ wordBytes words,
       timed := none, tsub := 0, relayed := none }] }

/-! Notifications (R391). -/

/-- Word 0 of a message (R384). -/
def word0 (tag code words : Nat) : Word := wordOf (coreId * 2 ^ 24 + tag * 65536 + code * 16 + words % 16)

/-- A notification to one manger channel; with 64 held already it is lost (R391). -/
def notifyCh (ch session : Nat) (parts : List (List Word)) (s : State) : State :=
  if 64 < (mangOf s ch).held.length + parts.length then cntCmd 2 s
  else each parts (fun w => outPut ch w session) s

/-- The words of a notification. -/
def noteWords (code : Nat) (data : List Nat) : List Word :=
  word0 0 code (data.length + 1) :: data.map wordOf

/-- Send a notification, given as its parts, to every session of this car: host port, stream port and yard (R391, R424). -/
def notifyAll (parts : List (List Word)) (s : State) : State :=
  let s0 := if s.host.session == 0 then s else notifyCh s.host.notify s.host.session parts s
  let s1 := if s0.strm.session == 0 then s0 else notifyCh 10 s0.strm.session parts s0
  each (s1.yard.sess.filter fun y => y.id != 0) (fun y t => each parts (fun w => yardSend y 0 w) t) s1

/-- Send a notification to the one session that it concerns, if it is a session of a port of this car. -/
def notifySession (session : Nat) (parts : List (List Word)) (s : State) : State :=
  if session == 0 then s
  else if s.host.session == session then notifyCh s.host.notify session parts s
  else if s.strm.session == session then notifyCh 10 session parts s
  else match s.yard.sess.find? fun y => y.id == session with
    | some y => each parts (fun w => yardSend y 0 w) s
    | none => s

/-- A notification to the sender of a command: none to a remote host (R391). -/
def notifyVia (via : Via) (session : Nat) (parts : List (List Word)) (s : State) : State :=
  match via with
  | .manger n => if n < 12 then notifySession session parts s else s
  | .yard _ => notifySession session parts s

/-- The STATE notification (R391): sent when the device state or BRACED changes. -/
def notifyState (old : Nat) (s : State) : State :=
  notifyAll [noteWords 0xE02 [s.sys.dev.code * 2 ^ 28 + old * 2 ^ 24 + b2n s.sys.braced * 2 ^ 23
    + s.inaug.role.code * 2 ^ 20]] s

/-! Commands (R384 to R393). -/

/-- The CODE of a message. -/
def msgCode (ws : List Word) : Nat := bits ws 0 15 4

/-- The length of a message in words. -/
def msgWords (ws : List Word) : Nat := if bits ws 0 3 0 == 0 then 16 else bits ws 0 3 0

/-- Replies of a channel that are made and wait for that of an earlier message (R387). -/
def heldBack (s : State) (n : Nat) : Nat := (s.host.order.filter fun e => e.ch == n && e.done.isSome).length

/-- The message that waits on a channel or a yard session. A yard session's next message is not executed before the last one has its
reply, which is sent under the last MSEQ (R347). -/
def waitingMsg (s : State) (via : Via) : Option (List Word) :=
  match via with
  | .manger n =>
    if (mangOf s n).inFull && decide ((mangOf s n).held.length + heldBack s n < 64) then some (mangOf s n).inMsg else none
  | .yard k => if s.host.order.any (·.ch == 16 + k) then none else match sessOf s k with | some y => y.inbox | none => none

/-- What the sender of a message holds now (R317, R320). A message of a session that is still the port's own has
that session's privilege; any other has the one stamped with it. -/
def ctxOf (s : State) (via : Via) (ws : List Word) : Ctx :=
  let base : Ctx := { via := via, session := 0, priv := .observe, scope := 0, config := false, badge := s.sys.badge,
                      tag := bits ws 0 23 16, rcode := msgCode ws, words := ws }
  match via with
  | .manger n =>
    let m := mangOf s n
    if n < 10 then
      if m.inSession == s.host.session && m.inSession != 0 then
        { base with session := m.inSession, priv := s.host.priv, scope := s.host.scope }
      else { base with session := m.inSession, priv := m.inPriv }
    else if n < 12 then
      if m.inSession == s.strm.session && m.inSession != 0 then
        { base with session := m.inSession, priv := s.strm.priv, scope := s.strm.scope }
      else { base with session := m.inSession, priv := m.inPriv }
    else { base with session := m.inSession, priv := m.inPriv,
                     badge := ((s.brg.origin.reverse.find? fun o => o.ch == n).map (·.badge)).getD 0 }
  | .yard k =>
    match sessOf s k with
    | some y => { base with session := y.id, priv := y.priv, scope := y.scope }
    | none => base

/-- A message taken from a channel has its place in the order of the replies (R387). -/
def noteTaken (ch : Nat) (ws : List Word) (s : State) : State :=
  s.onHost fun h => { h with order := h.order ++ [{ ch := ch, tag := bits ws 0 23 16, code := msgCode ws, done := none }] }

/-- The firmware takes the message: IN_FULL clears and CMD_TAKEN counts (R365, R387, R413). -/
def takeMsg (via : Via) (s : State) : State :=
  match via with
  | .manger n =>
    noteTaken n (mangOf s n).inMsg (cntCmd 0 (modMang n (fun m => { m with inFull := false }) (s.onCmd fun q => { q with lastCh := n })))
  | .yard k =>
    noteTaken (16 + k) (((sessOf s k).bind (·.inbox)).getD [])
      (cntCmd 0 (s.onYard fun d => { d with sess := d.sess.modify k fun y => { y with inbox := none } }))

/-- A reply: status and detail in word 1, results from word 2 on (R385). -/
def replyWords (c : Ctx) (status detail : Nat) (results : List Nat) : List Word :=
  word0 c.tag c.rcode (results.length + 2) :: wordOf (status + detail % 2 ^ 24 * 256) :: results.map wordOf

/-- The entry of a message that has no reply yet. -/
def outOpen (ch : Nat) (c : Ctx) (e : OutEnt) : Bool := e.ch == ch && e.tag == c.tag && e.code == c.rcode && e.done.isNone

/-- The first open entry of a command gets its reply. -/
def orderSet (ch : Nat) (c : Ctx) (ws : List Word) : List OutEnt → List OutEnt
  | [] => []
  | e :: r => if outOpen ch c e then { e with done := some (ws, c.session) } :: r else e :: orderSet ch c ws r

/-- Replies leave for as long as the first message of the channel that is left has one. -/
def orderFlush (ch : Nat) : Nat → State → State
  | 0, s => s
  | k + 1, s =>
    match (s.host.order.find? fun e => e.ch == ch).bind (·.done) with
    | some (ws, session) =>
      orderFlush ch k (outPut ch ws session (s.onHost fun h => { h with order := h.order.eraseP fun e => e.ch == ch }))
    | none => s

/-- A channel's replies are placed in the order in which its messages were taken (R387). -/
def outReply (ch : Nat) (c : Ctx) (ws : List Word) (s : State) : State :=
  if s.host.order.any (outOpen ch c) then orderFlush ch s.host.order.length (s.onHost fun h => { h with order := orderSet ch c ws h.order })
  else outPut ch ws c.session s

/-- Send the reply to a command where the command came from (R366, R347). -/
def reply (c : Ctx) (status detail : Nat) (results : List Nat) (s : State) : State :=
  let ws := replyWords c status detail results
  let s1 := if status == 0 then s else cntCmd 1 s
  match c.via with
  | .manger n => outReply n c ws s1
  | .yard k =>
    let s1 := s1.onHost fun h => { h with order := h.order.eraseP (outOpen (16 + k) c) }
    match sessOf s1 k with
    | some y =>
      if c.session == 0 || y.id == c.session then
        yardSend y y.mseq ws (s1.onYard fun d => { d with sess := d.sess.modify k fun z => { z with reply := ws } })
      else s1
    | none => s1

def replyOk (c : Ctx) (results : List Nat) (s : State) : State := reply c 0 0 results s
/-- BAD_PARAM with the index of the offending word and of the record (R388). -/
def badParam (c : Ctx) (word entry : Nat) (s : State) : State := reply c 3 (word % 256 * 65536 + entry % 65536) [] s
/-- The detail of STATE_ERROR: the device state and the role (R388). -/
def stateDetail (s : State) : Nat := s.sys.dev.code * 2 ^ 20 + s.inaug.role.code * 65536
def stateError (c : Ctx) (s : State) : State := reply c 5 (stateDetail s) [] s
def privError (c : Ctx) (s : State) : State := reply c 4 c.priv.code [] s
def noSpace (c : Ctx) (n : Nat) (s : State) : State := reply c 6 (min n 0xFFFFFF) [] s
def notFound (c : Ctx) (s : State) : State := reply c 7 0 [] s
def staleGen (c : Ctx) (g : Nat) (s : State) : State := reply c 8 (g % 65536) [] s
def sigError (c : Ctx) (s : State) : State := reply c 9 0 [] s
def timeoutError (c : Ctx) (s : State) : State := reply c 10 0 [] s
/-- INTEGRITY: 0 = hash mismatch, 1 = uncorrectable hayloft error (R388). -/
def integrityError (c : Ctx) (n : Nat) (s : State) : State := reply c 12 n [] s
def busyError (c : Ctx) (n : Nat) (s : State) : State := reply c 1 (min n 255) [] s

/-- The codes the firmware implements (R396 to R404). -/
def knownCodes : List Nat :=
  List.range' 0x001 12 ++ List.range' 0x101 7 ++ [0x201, 0x202] ++ List.range' 0x301 5 ++ List.range' 0x401 8
    ++ List.range' 0x501 3 ++ List.range' 0x601 11 ++ List.range' 0x701 11 ++ List.range' 0x801 8
    ++ [0x901, 0x902] ++ [0xA01, 0xA02, 0xA03] ++ List.range' 0xB01 6 ++ [0xF01, 0xF02, 0xF03]

/-- The commands the RECOVERY loader accepts (R302). -/
def recoveryCodes : List Nat := [0x001, 0x002, 0x003, 0x004, 0x701, 0x702, 0x705, 0x709, 0x807, 0xB04]

/-- The commands that need no session on the host port (R386). -/
def sessionFree : List Nat := [0x001, 0x002, 0x003]

/-- The sender has the privilege a command needs (R317, R319). SERVICE and CONFIGURE include OPERATE (R305, log 12). -/
def hasPriv (s : State) (need : Need) (c : Ctx) : Bool :=
  match need with
  | .observe => true
  | .operate => c.config || c.priv == .operate || c.priv == .service || (s.sys.dev == .recovery && msgCode c.words == 0x807)
  | .config => c.config || (s.sys.dev == .recovery && (msgCode c.words == 0xB04 || msgCode c.words == 0x709))
  | .service => c.priv == .service
  | .serviceTest => c.priv == .service && natBit c.scope 1
  | .proof => true

/-- Words beyond those the command uses are zero (R386). -/
def restZero (c : Ctx) (used : Nat) : Bool := ((c.words.take (msgWords c.words)).drop used).all (· == 0)

/-- Whether the message came over the host's own port. -/
def onHostPort (c : Ctx) : Bool := match c.via with | .manger n => decide (n < 10) | .yard _ => false

/-- The first word beyond those the command uses that is not zero. -/
def restFirst (c : Ctx) (used : Nat) : Nat := used + ((c.words.take (msgWords c.words)).drop used).findIdx (· != 0)

/-- The word, before the r-th, and the entry with which the command's own parameters fail, if they do: the first offending word
decides (R388). -/
def ownBad (body : Ctx → State → State) (r : Nat) (c : Ctx) (s : State) : Option (Nat × Nat) :=
  (List.range r).findSome? fun w => ((List.range 65536).find? fun e => body c s == badParam c w e s).map fun e => (w, e)

/-- The checks of R386, orders 2 to 6 as far as they are common to every command, then the command's own. `used` is how many
words it uses, word 0 included; `fixed` is false where the number varies. -/
def checkCmd (used : Nat) (need : Need) (body : Ctx → State → State) (c : Ctx) (s : State) : State :=
  let code := msgCode c.words
  if s.sys.dev == .recovery && !recoveryCodes.contains code then stateError c s
  else if c.tag == 0 then badParam c 0 0 s
  else if msgWords c.words < used then badParam c 0 0 s
  else if onHostPort c && c.session == 0 && !sessionFree.contains code then stateError c s
  else if !hasPriv s need c then privError c s
  else if !restZero c used then
    let r := restFirst c used
    let x := (ownBad body r c s).getD (r, 0)
    badParam c x.1 x.2 s
  else body c s

/-- Commands that execute one at a time (R393). -/
def serialised (need : Need) (code : Nat) : Bool :=
  need == .config || [0x705, 0x007, 0x008, 0x009, 0x00A, 0x00B, 0x704, 0xB04].contains code

/-- Commands held while BRACED: those that ask for a state transition, envelopes, slot writes and ROLLBACK_COMMIT (R27, R301, R305, R405),
and RECIPE_ACTIVATE, which writes the flash before it replies (R411, R466). -/
def heldWhenBraced (code : Nat) : Bool := [0x007, 0x008, 0x009, 0x00A, 0x00C, 0x705, 0x707, 0xB04].contains code

/-- A serialised command begins. While BRACED is set a command of R27 is held (log 13: it counts as executing). -/
def startSerial (code : Nat) (run : Ctx → State → State) (c : Ctx) (s : State) : State :=
  if s.sys.braced && heldWhenBraced code then s.onCmd fun q => { q with busy := some c, held := q.held ++ [c] } else run c s

/-- A serialised command that has been taken begins at once, or waits behind those taken before it, or the ninth is turned away
(R393). Under BRACED a RESET waits for nothing. -/
def beginSerial (code : Nat) (run : Ctx → State → State) (c : Ctx) (s : State) : State :=
  if s.sys.braced && code == 0x00B then run c s
  else if s.cmd.busy.isSome || !s.cmd.waiting.isEmpty then
    if s.cmd.waiting.length < 8 then s.onCmd fun q => { q with waiting := q.waiting ++ [c] }
    else busyError c s.cmd.waiting.length s
  else startSerial code run c s

/-- The firmware runs and takes messages: in RECOVERY the loader does (R302), and during the entry into BARN nothing does (R488). -/
def takesMsgs (s : State) : Bool := (fwRuns s || s.sys.dev == .recovery) && s.sys.barn != .entering

/-- The command of an accepted envelope that came over `via` and has this code (R305). -/
def readyFor (code : Nat) (via : Via) (s : State) : Option Ctx :=
  s.cmd.ready.filter fun c => c.via == via && msgCode c.words == code

/-- The codes whose privilege is CONFIGURE (R396 to R404). -/
def configCodes : List Nat :=
  [0x00C, 0x106, 0x303, 0x304, 0x401, 0x402, 0x403, 0x501, 0x601, 0x602, 0x603, 0x604, 0x706, 0x707, 0x708, 0x709, 0x801, 0x802, 0x803,
   0x902, 0xA02, 0xB04]

/-- A command that draws a nonce waits for random output (R291; log 23). -/
def needsEntropy (code : Nat) : Bool := [0x005, 0x703, 0x70A].contains code

/-- PARCEL_PUSH and SNAPSHOT_SEND to the own car place bytes in its hayloft, which BRACED pauses (R460): the message waits. -/
def placePaused (s : State) (ws : List Word) : Bool :=
  s.sys.braced && (msgCode ws == 0xB06 || msgCode ws == 0x808) && wd ws 1 == sysAddr s

/-- The command of an accepted envelope is the next that the firmware executes: no message is taken before it (R305), unless BRACED
or the entropy source holds it back (R27, R291, R460). -/
def readyFirst (s : State) : Bool :=
  match s.cmd.ready with
  | some c => !(s.sys.braced && heldWhenBraced (msgCode c.words)) && !placePaused s c.words && !(!s.sec.entropyOk && needsEntropy (msgCode c.words))
  | none => false

/-- It executes now: the envelope's turn among the serialised commands ends with it (R393). -/
def takeReady (s : State) : State := s.onCmd fun q => { q with ready := none, busy := none }

/-- An earlier message of the channel has been taken and has not begun: within a channel messages execute in the order in which they are
taken (R387). -/
def earlierWaits (via : Via) (s : State) : Bool := (s.cmd.waiting ++ s.cmd.held).any fun c => c.via == via

/-- The firmware can take what waits on a channel: a serialised command at any time, any other when none taken before it from the
channel has yet to begin, and one that draws a nonce when there is random output. -/
def canTake (s : State) (n : Nat) : Bool :=
  match waitingMsg s (.manger n) with
  | none => false
  | some ws =>
    let code := msgCode ws
    (configCodes.contains code || serialised .observe code || !earlierWaits (.manger n) s) && (s.sec.entropyOk || !needsEntropy code) && !placePaused s ws

/-- Channels are served in round-robin order (R387): the next after the last one served from which a message can be taken. -/
def turnOf (s : State) : Option Nat := ((List.range 16).map fun i => (s.cmd.lastCh + 1 + i) % 16).find? (canTake s)

/-- A message may be taken from here now. Yard sessions have their own inboxes. -/
def hasTurn (s : State) (via : Via) : Bool := match via with | .manger n => turnOf s == some n | .yard _ => true

/-- One firmware command: that of an accepted envelope, or the message that waits, which is taken; it is checked and executed. A
message of another code is not this command's, and nothing happens (log 7). A serialised command is checked as it is taken, and its
conditions on the state when it begins (R393); any other is not taken while one taken before it from its channel has not begun. -/
def firmware (code used : Nat) (need : Need) (body : Ctx → State → State) (via : Via) (s : State) : State :=
  if !takesMsgs s then s else
  match readyFor code via s with
  | some c => if (s.sys.braced && heldWhenBraced code) || placePaused s c.words then s else checkCmd used need body c (takeReady s)
  | none =>
  if readyFirst s || !hasTurn s via then s else
  match waitingMsg s via with
  | none => s
  | some ws =>
    if msgCode ws != code || placePaused s ws || (!serialised need code && earlierWaits via s) then s else
    let c := ctxOf s via ws
    let s1 := takeMsg via s
    if serialised need code then checkCmd used need (beginSerial code (checkCmd used need body)) c s1
    else checkCmd used need body c s1

/-! Parcels (R389, R390). -/

/-- The key of a session in reservations: sessions of other cars are kept apart by their badge. -/
def sessKey (s : State) (c : Ctx) : Nat := if c.badge == s.sys.badge then c.session else (c.badge + 1) * 65536 + c.session

/-- Two ranges share a byte. -/
def overlap (a n b m : Nat) : Bool := decide (a < b + m) && decide (b < a + n)

/-- A range lies in the host parcels region, aligned (R389). -/
def inParcels (s : State) (a n : Nat) : Bool := a % 4 == 0 && decide (a + n ≤ loftSize) && decide (regionBase s 5 ≤ a)

/-- A range that a command may name: for a dump by SEGMENT_SEND in RECOVERY any outside the firmware region (R302). -/
def parcelRange (s : State) (code a n : Nat) : Bool :=
  inParcels s a n || (s.sys.dev == .recovery && code == 0x807 && a % 4 == 0 && decide (a + n ≤ loftSize) && decide (regionBase s 1 ≤ a))

/-- The range touches a reservation of another session (R390). -/
def reservedByOther (s : State) (c : Ctx) (a n : Nat) : Bool :=
  s.cmd.parcels.any fun p => p.session != sessKey s c && overlap a n p.addr p.len

/-- The pair of words at i names a usable parcel; otherwise the command fails (R389, R390). -/
def withParcel (i : Nat) (f : Nat → Nat → State → State) (c : Ctx) (s : State) : State :=
  let a := wd c.words i
  let n := wd c.words (i + 1)
  if !parcelRange s (msgCode c.words) a n then badParam c i 0 s
  else if reservedByOther s c a n then privError c s
  else f a n s

/-- An input parcel, read whole (R389): an uncorrectable error replies INTEGRITY. That of an accepted envelope has been read
before (R305). -/
def readParcel (i : Nat) (f : List Byte → State → State) (c : Ctx) (s : State) : State :=
  withParcel i (fun a n t =>
    match c.copy with
    | some p => f p t
    | none =>
      let r := loftCheck a n coreId t
      if r.1 then f (loftBytes a n r.2) r.2 else integrityError c 1 r.2) c s

/-- How many items of the given sizes fit into n bytes. -/
def fitCount : Nat → List Nat → Nat
  | _, [] => 0
  | n, x :: r => if x ≤ n then fitCount (n - x) r + 1 else 0

/-- An output parcel takes whole items for as long as they fit (R389). `done` is given how many were written. -/
def writeItems (i : Nat) (items : List (List Byte)) (done : Nat → State → State) (c : Ctx) (s : State) : State :=
  withParcel i (fun a n t =>
    let k := fitCount n (items.map (·.length))
    if k == 0 && !items.isEmpty then noSpace c ((items.headD []).length - n) t
    else done k (loftWrite a (items.take k).flatten coreId t)) c s

end Sys2Proof.Machine
end

