-- ==== Sys2Proof/Machine/FieldOps.lean ====
section
/-!
DEFINITION. The field section as other chapters act on it: the decision table that sets every output switch, and
the end of a group's ownership (R252, R270 to R280).
-/

namespace Sys2Proof.Machine

open Sys2Proof

/-- One channel's state. -/
def chanOf (s : State) (n : Nat) : Chan := s.fld.ch.getD n Chan.reset

/-- One group's state. -/
def grpOf (s : State) (g : Nat) : FGroup := s.fld.grp.getD g FGroup.reset

/-- One channel's record (R283). -/
def chRec (s : State) (n : Nat) : List Word := s.fld.chanRec.getD n []

def modChan (n : Nat) (f : Chan → Chan) (s : State) : State := s.onFld fun d => { d with ch := d.ch.modify n f }
def modGrp (g : Nat) (f : FGroup → FGroup) (s : State) : State := s.onFld fun d => { d with grp := d.grp.modify g f }

def chMode (s : State) (n : Nat) : Nat := bits (chRec s n) 0 31 30
def chIsIn (s : State) (n : Nat) : Bool := chMode s n == 1
def chIsOut (s : State) (n : Nat) : Bool := chMode s n == 2
def chSafe (s : State) (n : Nat) : Nat := bits (chRec s n) 0 28 27
def chMarked (s : State) (n : Nat) : Bool := bit (chRec s n) 0 26
def chMark (s : State) (n : Nat) : Nat := bits (chRec s n) 0 25 22
/-- DEBOUNCE in ns. -/
def chDebounce (s : State) (n : Nat) : Nat := bits (chRec s n) 0 15 0 * 1000

def barnWatch (s : State) : Bool := natBit s.fld.module.toNat 23
/-- HB_TIMEOUT in ns (R281). -/
def hbTimeout (s : State) : Nat :=
  let n := natBits s.fld.module.toNat 31 24
  (if n == 0 then 10 else n) * 1000000
def grpRearm (s : State) (g : Nat) : Bool := natBit (s.fld.groupRec.getD g 0).toNat 31
def grpFwRules (s : State) (g : Nat) : Bool := natBit (s.fld.groupRec.getD g 0).toNat 30
def grpLease (s : State) (g : Nat) : Nat := natBits (s.fld.groupRec.getD g 0).toNat 15 0

/-- The field die is powered (R252). -/
def fieldPowered (s : State) : Bool :=
  match s.sys.dev with
  | .off => false
  | .reset => false
  | .boot => false
  | .barn => barnWatch s
  | _ => true

/-- INTEGRATING, RUNNING or TEST: owner commands are accepted (R25, R271). -/
def ownerStates (d : Dev) : Bool := d == .integrating || d == .running || d == .test

/-- C of the sample of the field island that stands at a moment: it takes one every 50 ns (R258; log 22). -/
def sampleAt (c : Nat) : Nat := c / 50 * 50

/-- The cycle of the lane clock, 322.265625 MHz, in which a value of C lies; one begins at C = 0 (log 22). -/
def laneCycle (c : Nat) : Nat := c * 165 / 512

/-- The last boundary at which leases counted falls in the present lane clock cycle (R273). -/
def atBoundary (s : State) : Bool := match s.fld.leaseAt with | some c => laneCycle c == laneCycle s.clk.c | none => false

/-- The row of R279 that decides a channel's switch. -/
def fieldRow (s : State) (n : Nat) : Nat :=
  let c := chanOf s n
  let g := grpOf s (n / 8)
  if !fieldPowered s then 1
  else if c.short || c.latched.isSome || c.shed || g.uv || g.ov then 2
  else if s.fld.hbLost then 3
  else if g.owner == .none || g.lease == 0 || !ownerStates s.sys.dev then 4
  else if s.sys.braced then 5
  else 6

/-- SAFE as a switch state; HOLD keeps the state held when the row began to apply. -/
def safeLevel (safe : Nat) (hold : Bool) : Bool := if safe == 1 then true else if safe == 2 then hold else false

/-- One channel after the table of R279 has been applied. A channel that is not OUT is off. -/
def settleChan (s : State) (n : Nat) (c : Chan) : Chan :=
  let row := fieldRow s n
  let hold := if row != c.row && (row == 3 || row == 4) && !(c.row == 3 || c.row == 4) then c.drive else c.hold
  let d := chIsOut s n &&
    (if row ≤ 2 then false else if row ≤ 4 then safeLevel (chSafe s n) hold else if row == 5 then c.drive else c.ownReq)
  { c with row := row, hold := hold, drive := d, onSince := if d == c.drive then c.onSince else s.clk.c }

/-- Every output follows the table of R279. -/
def fieldSettle (s : State) : State :=
  s.onFld fun d => { d with ch := d.ch.zipIdx.map fun x => settleChan s x.2 x.1 }

/-- OWNERSHIP, with the group and its generation (R287). -/
def ownEvent (g code : Nat) (s : State) : State :=
  raise 53 ((grpOf s g).gen % 65536 * 65536 + g % 4 * 256 + code) s

/-- The owner of a group is told, when it is a session of this car's host port or yard port (R391, R402). -/
def ownNotify (o : Owner) (g why : Nat) (s : State) : State :=
  match o with
  | .host badge session =>
    if badge == s.sys.badge && session != s.strm.session then
      notifySession session [noteWords 0xE03 [(grpOf s g).gen % 65536 * 65536 + why * 256 + g % 4]] s
    else s
  | .none => s
  | .firmware => s

/-- Ownership of a group ends; GEN is unchanged and the channels go to their safe states (R273, R274). `why` 0
sends no notification. -/
def endOwner (g code why : Nat) (s : State) : State :=
  let o := (grpOf s g).owner
  if o == .none then s
  else
    let s1 := ownEvent g code (fieldSettle (modGrp g (fun x => { x with owner := .none, lease := 0 }) s))
    if why == 0 then s1 else ownNotify o g why s1

/-- Every group is left unowned. -/
def endOwners (code why : Nat) (s : State) : State := each (List.range 4) (fun g => endOwner g code why) s

/-- The field output image and the SYNC flag as they stand are noted, for the APPLY that looks back 10 µs (R186). -/
def logImage (s : State) : State :=
  let t := trainTime s
  s.onPlan fun p =>
    let recent := p.imgLog.filter fun x => decide (t < x.1 + 20000)
    { p with imgLog := (t, s.fld.image, synced s) :: recent ++ ((p.imgLog.find? fun x => !decide (t < x.1 + 20000)).toList) }

/-- The field output image and SYNC at an earlier train time. -/
def imageAt (s : State) (t : Nat) : Nat × Bool :=
  match s.plan.imgLog.find? fun x => decide (x.1 ≤ t) with
  | some x => x.2
  | none => (0, false)

/-- A request of the owner: masked values enter the image, and the IMMEDIATE channels among them take it at once
(R272, R276). `all` applies to MARKED channels too (R278). -/
def fieldRequest (g mask vals : Nat) (all : Bool) (s : State) : State :=
  let sel := fun n => n / 8 == g && natBit mask (n % 8)
  let s1 := s.onFld fun d =>
    { d with
      image := (List.range 32).foldl (fun im n => if sel n then
        im - b2n (natBit im n) * 2 ^ n + b2n (natBit vals (n % 8)) * 2 ^ n else im) d.image
      ch := d.ch.zipIdx.map fun x =>
        if sel x.2 && (all || !chMarked s x.2) then { x.1 with ownReq := natBit vals (x.2 % 8) } else x.1 }
  logImage (fieldSettle s1)

end Sys2Proof.Machine
end

