-- ==== Sys2Proof/Machine/Train.lean ====
section
/-!
DEFINITION. What the car does as part of a train, shared by many commands: device state and role changes, time
states, keys and rotations, adoption of a numbering, loss of membership, composition triggers and censuses
(R26, R30, R95 to R103, R123, R128, R311 to R313, R520).
-/

namespace Sys2Proof.Machine

open Sys2Proof

/-! Device state and role. -/

/-- The bypass pins of a device state (R25); BYPASS is released by its own command (R36). -/
def bypassOf (d : Dev) (p : PinLevel) : PinLevel :=
  match d with
  | .off => .hiZ
  | .reset => .hiZ
  | .boot => .low
  | .recovery => .low
  | .barn => .low
  | _ => p

/-- A role byte of R116. -/
def roleByte (s : State) : Nat :=
  s.inaug.role.code * 16 + b2n s.inaug.drive * 8 + (if s.inaug.role == .backup then s.inaug.rank else 0)

/-- The car's role, rank or DRIVE overlay changes, and ROLE is raised (R116). -/
def setRole (r : Role) (rank : Nat) (drive : Bool) (s : State) : State :=
  let old := roleByte s
  let s1 := s.onInaug fun x => { x with role := r, rank := rank, drive := drive }
  if roleByte s1 == old then s1 else raise 90 (old * 256 + roleByte s1) s1

/-- The base role follows the device state (R30): one is held in STOPPED, INTEGRATING and RUNNING, and none elsewhere. -/
def roleIn (d : Dev) (s : State) : State :=
  match d with
  | .stopped => if s.inaug.role == .none then setRole .guest 0 false s else s
  | .integrating => s
  | .running => s
  | _ => setRole .none 0 false s

/-- A transition of the device state (R26): pins follow R25, the role R30, ownership of field groups ends on leaving the
three states (R274), every output follows R279, and the STATE notification goes out (R391). -/
def setDev (d : Dev) (s : State) : State :=
  let old := s.sys.dev
  if old == d then s
  else
    let s0 := s.onFld fun x => { x with fwOn := d == .running || (d == .integrating && x.fwOn) }
    let s1 := s0.onSys fun x => { x with dev := d, bypassA := bypassOf d x.bypassA, bypassB := bypassOf d x.bypassB }
    let s2 := when' (ownerStates old && !ownerStates d) (endOwners 2 4) s1
    let s3 := when' (d == .integrating) (fun t => t.onPlan fun p => { p with markSince := trainTime t }) s2
    notifyState old.code (fieldSettle (roleIn d s3))

/-! Time states (R123). -/

/-- A car that is master no longer has no plant time to give (R151). -/
def plantEnd (s : State) : State :=
  let s1 := s.onTeth fun t => { t with plant := .none }
  if s.teth.plant == .locked then raise 78 2 s1 else s1

/-- The time state changes: TIME_STATE is raised, and FREE entered or left is marked (R134, R158). -/
def setTState (t : TState) (s : State) : State :=
  let old := s.clk.st
  if old == t then s
  else
    let s1 := s.onClk fun k => { k with st := t, fresh := k.fresh || t == .free, good := if t == .tracking then k.good else 0 }
    let s2 := if t == .free then clockMark 3 s1 else if old == .free then clockMark 4 s1 else s1
    let s3 := raise 72 (old.code * 16 + t.code) (logImage s2)
    if old == .master then plantEnd s3 else s3

/-- RATE changes: the term accumulated so far goes into OFFSET (R119). -/
def setRate (r : Int) (s : State) : State :=
  s.onClk fun k => { k with offset := timeFx s - (k.c : Int) * 65536, cA := k.c, rate := r }

/-- This car releases TETHER and is master no longer. -/
def releaseTether (s : State) : State := s.onTeth fun t => { t with tdrive := false }

/-- The car enters FREE (R123, R144, R520): train time runs on at RATE; a master stops its references and releases
TETHER. -/
def enterFree (s : State) : State :=
  let s1 := when' (s.clk.st == .master) (fun t => releaseTether (t.onRef fun r => { r with abdicate := none })) s
  (setTState .free s1).onRef fun r => { r with usedNow := false, usedPrev := false }

/-! Keys (R311 to R314). -/

/-- A key epoch is valid at this car. -/
def keyValid (s : State) (e : Nat) : Bool := s.sec.keys.any fun k => k.epoch == e

/-- ASCII text as bytes. -/
def ascii (t : List Nat) : List Byte := t.map byteOf

/-- KN640-KCHK. -/
def kchkText : List Byte := ascii [0x4B, 0x4E, 0x36, 0x34, 0x30, 0x2D, 0x4B, 0x43, 0x48, 0x4B]

/-- SHA-256 as 32 bytes. -/
def sha (p : List Byte) : List Byte := beBytes 32 (Config.sha256 p).toNat

/-- SHA-256 as a number. -/
def shaNat (p : List Byte) : Nat := (Config.sha256 p).toNat

/-- The key check of a key (R90). -/
def keyCheck (epoch key : Nat) : List Byte := (sha (kchkText ++ [byteOf epoch] ++ beBytes 32 key)).take 16

/-! INAUGURATION and ADMISSION frames (R88 to R90). -/

/-- An INAUGURATION or ADMISSION payload: the prefix of R88 and the body. -/
def inaugPayload (s : State) (sub flags : Nat) (body : List Byte) : List Byte :=
  beBytes 8 s.sys.badge ++ [byteOf sub, byteOf flags, 0, 0] ++ body

/-- A keyed INAUGURATION frame (R89). -/
def inaugFrame (s : State) (tag : TxTag) (sub : Nat) (body : List Byte) : TxFrame :=
  { ftype := ftInauguration, prio := 7, grp := false, all := true, dst := 0x3FFF, open_ := false, tag := tag,
    payload := inaugPayload s sub 0 body }

/-! The copy of the lead-car state (R113). -/

/-- ADMIT of BACKUP 1; 0 where vacant. -/
def backup1 (s : State) : Nat := s.inaug.backups.headD 0

/-- One chunk of the image of a version. -/
def chunkFrame (s : State) (v n i : Nat) : TxFrame :=
  let d := (Config.stateChunk v i).take 1024
  let d := if d.isEmpty then [0] else d
  inaugFrame s .plain 9 (beBytes 4 v ++ [byteOf i, byteOf n] ++ beBytes 2 d.length ++ d)

/-- A GROUP_CHANGE that waited for its copy replies (R397). -/
def commitReply (s : State) : State :=
  match s.cmd.commitWait with
  | some c => replyOk c [] (s.onCmd fun q => { q with commitWait := none, busy := none })
  | none => s

/-- The image is committed to what BACKUP 1 holds, or to nothing when there is no BACKUP 1 (log 16). -/
def stateCommitted (s : State) : State :=
  commitReply (s.onLdr fun l => { l with stateVer := l.version, ceiling := l.ceilingAsked, copyAt := none, copyFails := 0,
                                         committed := backup1 s != 0 })

/-- A new version of the lead-car state is sent (R113). A change sends what Config gives as the image's chunks; the
manual names no smaller set for a given change (log 16). -/
def stateCopy (s : State) : State :=
  let v := (s.ldr.version + 1) % 2 ^ 32
  let s1 := s.onLdr fun l => { l with version := v, copyAt := none }
  if backup1 s == 0 then stateCommitted s1
  else
    let n := (Config.stateTotal v).toNat + 1
    let frames := (List.range n).map (chunkFrame s1 v n)
    let image := (List.range n).flatMap fun i => let d := (Config.stateChunk v i).take 1024; if d.isEmpty then [0] else d
    let done := inaugFrame s1 .commit 10 (beBytes 4 v ++ [byteOf n, 0, 0, 0] ++ sha image)
    each (frames ++ [done]) trainSend s1

/-- Keyed source entries whose key epoch is not valid are released (R70). -/
def releaseEntries (s : State) : State :=
  s.onLane fun l => { l with src := l.src.filter fun e => e.open_ || keyValid s e.key }

/-- Every train key is erased (R520, R322, R323). -/
def eraseKeys (s : State) : State :=
  releaseEntries (s.onSec fun x => { x with keys := [], rot := none, rotWait := false, inst := none, unwrap := [],
                                            oldKey := none, switchM := none })

/-! The owner enrolment record (R296). -/

/-- The bytes of the record that its MAC covers. -/
def enrolBytes (e : Enrol) : List Byte :=
  beBytes 2 e.cert.length ++ e.cert ++ beBytes 32 e.hash ++ [byteOf (b2n e.cosign)] ++ beBytes 8 e.envSeq ++ beBytes 4 e.floor

/-- The record's MAC under the fuse key. -/
def enrolSeal (s : State) (e : Enrol) : Nat := (Config.fuseMac s.sec.fuseKey (enrolBytes e)).toNat

/-- A record as it is written to flash. -/
def sealed (s : State) (e : Enrol) : Enrol := { e with sealMac := enrolSeal s e }

/-- The record, unless its MAC failed: then it counts as absent. -/
def enrolled (s : State) : Option Enrol := if s.sec.enrolBad then none else s.sec.enrol

/-! The RSA units (R326, R327). -/

/-- A guest's key block has yet to be wrapped (R105). -/
def grantWaits (g : GuestReq) : Bool := g.ok && g.adm != 0 && !g.granted

/-- A REKEY block has yet to be wrapped (R313). -/
def wrapWaits (s : State) : Bool := match s.sec.rot with | some r => r.blocks.any fun b => !b.wrapped | none => false

/-- A use of a unit is asked for, or runs. -/
def rsaAsked (s : State) (u : RsaUse) : Bool :=
  match u with
  | .idle => false
  | .grantOpen => s.inaug.guest == .unwrapping
  | .rekeyOpen => !s.sec.unwrap.isEmpty
  | .signQuote => s.inaug.guest == .signing
  | .signBeacon => isLead s && !s.ldr.beaconNext.isEmpty
  | .hostPriv => !s.sec.rsaPriv.isEmpty
  | .rekeyWrap => wrapWaits s
  | .grantWrap => isLead s && s.ldr.guests.any grantWaits
  | .hostPub => !s.sec.rsaPub.isEmpty

/-- The uses of the private unit in the order of R327. -/
def privOrder : List RsaUse := [.grantOpen, .rekeyOpen, .signQuote, .signBeacon, .hostPriv]

/-- Those of the public unit: key wrapping in arrival order, then host commands. -/
def pubOrder (s : State) : List RsaUse :=
  if s.sec.wrapAhead == 0 then [.rekeyWrap, .grantWrap, .hostPub] else [.grantWrap, .rekeyWrap, .hostPub]

/-- How many requests a unit has: at most one of each internal kind but the grants, and the host's. -/
def rsaWaiting (priv : Bool) (s : State) : Nat :=
  if priv then (privOrder.filter fun u => u != .hostPriv && rsaAsked s u).length + s.sec.rsaPriv.length
  else b2n (wrapWaits s) + (if isLead s then (s.ldr.guests.filter grantWaits).length else 0) + s.sec.rsaPub.length

/-- What a unit does now: what runs is not pre-empted, else the first in order of what waits (R327). -/
def rsaNext (s : State) (now : RsaUse) (order : List RsaUse) : RsaUse :=
  if rsaAsked s now then now else (order.find? (rsaAsked s)).getD .idle

/-- The next grant block is asked for after the grants that wait already (R313, R327). -/
def wrapNext (s : State) : State := s.onSec fun x => { x with wrapAhead := (s.ldr.guests.filter grantWaits).length }

/-! Attestation (R303, R304, R310). -/

/-- KN640-DEBUG. -/
def debugText : List Byte := ascii [0x4B, 0x4E, 0x36, 0x34, 0x30, 0x2D, 0x44, 0x45, 0x42, 0x55, 0x47]

/-- FW_MEAS as a quote carries it (R310). -/
def quoteFw (s : State) : List Byte :=
  let m := beBytes 32 s.sys.fwMeas
  if s.sec.debug then sha (debugText ++ m) else m

/-- The stall plan measurement; zero when no plan is loaded (R167, R303). -/
def planMeas (s : State) : List Byte :=
  if planLoaded s then sha (wordBytes s.plan.hdr ++ s.plan.entries.flatMap wordBytes) else beBytes 32 0

/-- Whether some session holds SERVICE. -/
def serviceActive (s : State) : Bool :=
  s.host.priv == .service || s.strm.priv == .service || s.yard.sess.any (·.priv == .service)

/-- FLAGS of a quote (R304). -/
def quoteFlags (s : State) : Nat :=
  b2n (enrolled s).isSome * 2 ^ 15
    + b2n (match enrolled s with | some e => e.cosign | none => false) * 2 ^ 14
    + b2n s.sys.fwCosigned * 2 ^ 13 + b2n (s.sys.running == some true) * 2 ^ 12 + b2n s.sec.debug * 2 ^ 11
    + b2n (serviceActive s) * 2 ^ 10 + b2n (synced s) * 2 ^ 9 + b2n (s.sys.dev == .test) * 2 ^ 8

/-- Bytes 0 to 153 of a quote over a nonce of 32 bytes (R304). -/
def quoteBody (nonce : List Byte) (s : State) : List Byte :=
  ascii [0x4B, 0x4E, 0x51, 0x54] ++ beBytes 2 1 ++ beBytes 8 s.sys.badge ++ nonce ++ quoteFw s
    ++ beBytes 32 s.rcp.meas ++ planMeas s ++ beBytes 2 s.sec.arb ++ beBytes 2 (quoteFlags s)
    ++ beBytes 8 (trainTime s)

/-- A quote with its signature by the identity key. -/
def quoteSigned (key : Nat) (body : List Byte) : List Byte := body ++ padTo 384 (Config.signOwn key body)

/-- Idle units begin what waits (R327). A host's quote has its body fixed as it begins (R304). -/
def rsaBegin (s : State) : State :=
  let p := rsaNext s s.sec.runPriv privOrder
  let q := rsaNext s s.sec.runPub (pubOrder s)
  s.onSec fun x =>
    { x with
      runPriv := p, runPub := q
      rsaPriv := match p, x.rsaPriv with
        | .hostPriv, j :: r => (if j.job == .quote && j.data.length == 32 then { j with data := quoteBody j.data s } else j) :: r
        | _, l => l }

/-- A use is the one that its unit is at, so that it can complete now. -/
def rsaTurn (u : RsaUse) (s : State) : Bool := (rsaBegin s).sec.runPriv == u || (rsaBegin s).sec.runPub == u

/-- An operation of a unit completes: it is counted, and the unit is free (R327, R329). -/
def rsaEnd (priv : Bool) (s : State) : State :=
  cntSec (if priv then 6 else 7) (s.onSec fun x => if priv then { x with runPriv := .idle } else { x with runPub := .idle })

/-! BEACONs of this car (R104). -/

/-- The key of an epoch. -/
def keyOfEpoch (s : State) (e : Nat) : Option Nat := (s.sec.keys.find? fun k => k.epoch == e).map (·.key)

/-- The next key a lead announces (R313). -/
def nextKey (s : State) : Option (Nat × Nat) := s.sec.rot.map fun r => (r.next, r.key)

/-- Bytes 0 to 115 of a BEACON. -/
def beaconHead (claim : Bool) (s : State) : List Byte :=
  let next := match nextKey s with | some (e, _) => 0x80 + e | none => 0
  let curCheck := match keyOfEpoch s s.sec.cur with | some k => keyCheck s.sec.cur k | none => beBytes 16 0
  let nextCheck := match nextKey s with | some (e, k) => keyCheck e k | none => beBytes 16 0
  inaugPayload s 1 (b2n claim * 128 + b2n (pLine s) * 64) ([byteOf (pColdRank s), byteOf (if claim then pTrain s else s.inaug.train)]
    ++ beBytes 2 (if claim then 0 else s.inaug.epoch * 16 + s.sec.cur) ++ [byteOf (if claim then 0 else next), 0, 0, 0]
    ++ beBytes 32 s.ldr.nl ++ beBytes 32 s.ldr.echo
    ++ (if claim then beBytes 32 0 else curCheck ++ nextCheck))

/-- A BEACON up to its signature. -/
def beaconBody (claim : Bool) (s : State) : List Byte :=
  let h := beaconHead claim s
  h ++ quoteBody (sha h) s

/-- The signing of a new BEACON begins; the previous one is sent until it is done (R104). -/
def startBeacon (s : State) : State := rsaBegin (s.onLdr fun l => { l with beaconNext := beaconBody false s })

/-! A rotation starts (R312, R313). -/

/-- The MATRIX count of the first matrix-cycle boundary at least REKEY_DELAY from now (R313). -/
def switchMatrix (s : State) : Nat :=
  let d := planNbc s * cycleP s
  (trainTime s + pRekeyDelay s + d - 1) / d % 2 ^ 32

/-- The carriers of a rotation: numbered members in numbering order from car 1, then granted guests (R313). -/
def rekeyTargets (s : State) : List RekeyBlk :=
  ((s.inaug.numbering.drop 1).map fun e =>
    { adm := e.adm, guest := false, wrapped := false, acked := false, sentAt := none, resent := 0 }) ++
  ((s.ldr.guests.filter fun g => g.granted && !(s.inaug.numbering.any fun e => e.adm == g.adm)).map fun g =>
    { adm := g.adm, guest := true, wrapped := false, acked := false, sentAt := none, resent := 0 })

/-- A lead starts a rotation, or replaces the pending one (R312, R313): a BEACON that announces the next key epoch is signed, and
the lead-car state, which names the valid key epochs, is copied (R112). It waits while an old key has not been erased, and
while no random output is given (R291). -/
def startRotation (s : State) : State :=
  if !isLead s || s.sec.keys.isEmpty then s
  else if s.sec.oldKey.isSome || !s.sec.entropyOk then s.onSec fun x => { x with rotWait := true }
  else
    let next := match s.sec.rot with
      | some r => r.next
      | none => (s.sec.cur + 1 + s.sec.takeRank) % 16
    let rid := (s.sec.rotCtr + 1) % 2 ^ 32
    let key := freeNat 256 s
    let m := switchMatrix s
    let s1 := (tookFree s).onSec fun x =>
      { x with
        rot := some { rid := rid, next := next, key := key, switchM := m, blocks := rekeyTargets s }
        rotCtr := rid
        rotWait := false
        inst := some { rid := rid, epoch := next, switchM := m, key := key }
        keys := (x.keys.filter fun k => k.epoch == x.cur) ++ [{ epoch := next, key := key }] }
    stateCopy (startBeacon (raise 97 (next * 256 + 1) (wrapNext (releaseEntries s1))))

/-! Fitness (R135, R136). -/

/-- FIT bits or the local view change, and FITNESS is raised (R135, R136, R158). -/
def setFit (fit loc : Nat) (s : State) : State :=
  if s.ref.fit == fit && s.ref.localFit == loc then s
  else
    let s1 := s.onRef fun r => { r with fit := fit, localFit := loc }
    if s.ref.fit != fit || loc != fit then raise 74 (fit * 256 + loc) s1 else s1

/-- One FIT bit as this car sees it: the master's own decision, or the local view. A master has no local view (R136): its
FITNESS carries the view it had before (DESIGN CHOICE, log 41). -/
def setFitBit (i : Nat) (v : Bool) (s : State) : State :=
  if s.clk.st == .master then
    let m := s.ref.myFit - b2n (natBit s.ref.myFit i) * 2 ^ i + b2n v * 2 ^ i
    if m == s.ref.myFit then s else raise 74 (m * 256 + s.ref.localFit) (s.onRef fun r => { r with myFit := m })
  else
    setFit s.ref.fit (s.ref.localFit - b2n (natBit s.ref.localFit i) * 2 ^ i + b2n v * 2 ^ i) s

/-! Routes (R128). -/

/-- The coupler delay table's entry of a link: delay and tolerance in 0.1 ns. -/
def linkDelay (s : State) (a b : Nat) : Nat × Nat :=
  match s.rcp.delays.find? fun e => (wd64 e 0 == a && wd64 e 2 == b) || (wd64 e 0 == b && wd64 e 2 == a) with
  | some e => (bits e 4 31 16, bits e 4 15 8)
  | none => (pLinkDefault s, pLinkTol s)

/-- The n links along X from a car number, as (delay, tolerance) (R128). -/
def routeLinks (s : State) (start n : Nat) : List (Nat × Nat) :=
  let cnt := s.inaug.numbering.length
  (List.range n).map fun i =>
    match numbered s ((start + i) % cnt), numbered s ((start + i + 1) % cnt) with
    | some a, some b => linkDelay s a.badge b.badge
    | _, _ => (pLinkDefault s, pLinkTol s)

/-- Links from car a to car b along X, in order. -/
def linksX (s : State) (a b : Nat) : List (Nat × Nat) :=
  let cnt := s.inaug.numbering.length
  routeLinks s a ((b + cnt - a % cnt) % cnt)

/-- Links from car a to car b in a direction. Along Y they are the X links from b to a. -/
def linksDir (s : State) (dirY : Bool) (a b : Nat) : List (Nat × Nat) := if dirY then linksX s b a else linksX s a b

/-- NL, LSUM and LTOL of both directions from the master to this car (R128), and the address that its DELAYs go to (R146). -/
def routeCalc (s0 : State) : State :=
  let s := s0.onTeth fun t => { t with master := (carOfBadge s0 s0.ref.mbadge).map fun m => s0.inaug.train * 64 + m }
  match carOfBadge s s.ref.mbadge, s.inaug.car with
  | some m, some n =>
    let x := linksX s m n
    let y := linksX s n m
    s.onRef fun r => { r with nlX := x.length, nlY := y.length, lsumX := (x.map (·.1)).sum, lsumY := (y.map (·.1)).sum,
                              ltolX := (x.map (·.2)).sum, ltolY := (y.map (·.2)).sum }
  | _, _ => s.onRef fun r => { r with nlX := 0, nlY := 0, lsumX := 0, lsumY := 0, ltolX := 0, ltolY := 0 }

/-! Drive cars (R146, R149). -/

/-- The car's badge owns a DELAY stall. -/
def hasDelayStall (s : State) : Bool := s.plan.entries.any fun e => enDelay e && enOwner e == s.sys.badge

/-- DC_STATE is settled anew, on admission or at a change of master: exchanges are discarded (R149), and a change is
reported (R158). Requests that are out still count when no response comes (R159). -/
def driveRestart (s : State) : State :=
  let new : DcState := if !s.inaug.drive then .notDrive else if hasDelayStall s then .acquiring else .noStall
  let s1 := s.onTeth fun t => { t with dc := new, exch := [], exchN := 0 }
  if new == s.teth.dc then s1
  else match new with
    | .notDrive => s1
    | .acquiring => raise 79 8 s1
    | .noStall => raise 79 6 s1
    | .dcLocked => s1

/-! Discards of R101. -/

/-- A held frame is taken out of the hold, or a frame outside the epochs of R101 arrives: a discard. -/
def oldEpoch (epoch : Nat) (s : State) : State :=
  firstInCycle 9400 (raiseCode 94 (epoch % 256) (epoch % 4096) 0) (cntInaug 2 s)

/-! Adoption of a numbering (R100, R103). -/

/-- The RENUMBER notification's parts (R391): byte i is the new number of the car that had number i. -/
def renumberParts (prev train cause own : Nat) (s : State) : List (List Word) :=
  let byte := fun i => match (s.inaug.numbering.zipIdx.find? fun x => x.1.prev == i) with
    | some x => x.2
    | none => 0xFF
  [0, 1].map fun part =>
    word0 0 0xE01 11 :: wordOf (s.inaug.epoch * 65536 + prev) :: wordOf (train * 2 ^ 24 + cause * 65536 + own * 256 + part)
      :: bytesWords ((List.range 32).map fun i => byteOf (byte (32 * part + i)))

/-- The role of a role byte of R90. -/
def roleOfByte (b : Nat) : Role := if natBits b 7 6 == 0 then .lead else if natBits b 7 6 == 1 then .backup else .member

/-- The badge of BACKUP k in a numbering. -/
def backupBadge (entries : List NumEntry) (k : Nat) : Option Nat :=
  (entries.find? fun e => natBits e.role 7 6 == 1 && natBits e.role 5 4 == k).map (·.badge)

/-- A newly elected backup starts unfit (R135). -/
def unfitNew (old new : List NumEntry) (s : State) : State :=
  each ((List.range 3).filter fun i => backupBadge old (i + 1) != backupBadge new (i + 1)) (fun i t =>
    setFitBit i false (t.onRef fun r => { r with shadows := r.shadows.set i ⟨[], 0, 0, false⟩ })) s

/-- This car adopts an epoch and a numbering that lists it as car n, or omits it: it has no number then and is a member
by its ADMIT and keys alone (R100, R102; log 37). The frames held for an epoch are released by the caller (R101). -/
def adopt (epoch train cause grace : Nat) (n : Option Nat) (entries : List NumEntry) (s : State) : State :=
  let none_ : NumEntry := { badge := s.sys.badge, adm := s.inaug.adm, role := 0x80, prev := 0xFF }
  let e := match n with | some i => entries.getD i none_ | none => none_
  let num := n.getD 0xFF
  let prev := s.inaug.epoch
  let s1 := s.onInaug fun x =>
    { x with
      adoptSys := srcField s, prevTrain := x.train, prevNumbers := x.numbering
      graceUntil := some (trainTime s + grace * cycleP s)
      epoch := epoch % 4096, train := train, car := n, numbering := entries
      omitted := if n.isSome then 0 else x.omitted + 1
      leadBadge := (entries.getD 0 none_).badge, leadAdmit := (entries.getD 0 none_).adm }
  let s2 := setRole (roleOfByte e.role) (natBits e.role 5 4) (natBit e.role 3) s1
  let s3 := (unfitNew s.inaug.numbering entries (routeCalc s2)).onTeth fun t =>
    { t with answered := t.answered.filter fun a => entries.any fun x => x.adm == a.1 }
  let s4 := when' (s3.inaug.drive != s.inaug.drive || s.inaug.car.isNone) driveRestart s3
  let s5 := when' (!(s4.inaug.role == .backup && s4.inaug.rank == 1))
    (fun t => t.onLdr fun l => { l with active := none, build := none }) s4
  let s6 := raiseCode 88 cause (epoch % 4096 * 65536 + num * 256 + cause) 0 s5
  notifyAll (renumberParts prev train cause num s6) s6

/-! Loss of membership (R520). -/

/-- A waiting frame that means nothing outside the membership it was made in: keyed INAUGURATION and ADMISSION frames and
REKEY_ACK (R89, R313; log 38). -/
def ofMembership (f : TxFrame) : Bool :=
  !f.open_ && (f.ftype == ftInauguration || f.ftype == ftAdmission || (f.ftype == ftControl && be f.payload 0 1 == 0x12))

/-- The car gives up everything that made it a member. Its device state is the caller's. -/
def loseMembership (s : State) : State :=
  let s1 := setRole .guest 0 false (enterFree s)
  let s2 := s1.onInaug fun x =>
    { x with adm := 0, car := none, numbering := [], prevNumbers := [], graceUntil := none, omitted := 0,
             adoptSys := 0, leadBadge := 0, leadAdmit := 0, backups := [0, 0, 0], posDue := [], heard := none, replied := 0,
             guest := .idle, beacon := none, claimSigned := false, claimSent := none }
  let s3 := (eraseKeys s2).onLdr fun _ => LeadSt.reset
  let s4 := s3.onLane fun l => { l with early := [], txq := l.txq.filter fun f => !ofMembership f }
  (driveRestart s4).onRef fun r => { r with mbadge := 0, mrole := 255, madmit := 0, uBadge := 0, uRole := 255, refs := [], closed := false }

/-- Loss in INTEGRATING or RUNNING: the car seeks admission again (R26, R92). -/
def loseAndSeek (s : State) : State :=
  let s1 := loseMembership s
  setDev .integrating (s1.onInaug fun x => { x with cold := .listening (trainTime s1) })

/-! Censuses (R95, R96). -/

/-- X leaves a lead at its end B, or in a line at its only coupled end (R44). -/
def leadOrient (s : State) : Bool := !pLine s || coupled s true || !coupled s false

/-- The lead's ORIENT follows its coupled ends (R44). -/
def orientLead (s : State) : State := s.onEnds fun e => { e with orient := leadOrient s }

/-- A census is opened; its counter is part of the lead-car state (R112). -/
def newCensus (cause : Nat) (s0 : State) : State :=
  let s := orientLead s0
  let id := s.ldr.censusCtr % (2 ^ 32 - 1) + 1
  stateCopy (s.onLdr fun l =>
    { l with
      censusCtr := id, keptCause := none
      census := some { cid := id, cause := cause, since := trainTime s, sentAt := none, folded := [], replies := [], closed := false } })

/-- The lead meets a trigger, a report or an ADM_DONE. `adm` is the member that reported, if any (R96). The report that opens
a census is not itself folded into it: the census waits for the cars of the numbering and for those folded in after it
(DESIGN CHOICE, log 45). -/
def openCensus (cause : Nat) (adm : Option Nat) (s : State) : State :=
  match s.ldr.census with
  | none => newCensus cause s
  | some c =>
    let t := orientLead s
    if c.closed then t.onLdr fun l => { l with keptCause := some (l.keptCause.getD cause) }
    else match adm with
      | none => t
      | some a => t.onLdr fun l => { l with census := some { c with folded := if c.folded.contains a then c.folded else c.folded ++ [a] } }

/-- A composition trigger at this car (R43, R95): a member reports it to the lead, and the lead opens a census. -/
def trigger (endB : Bool) (cause : Nat) (s : State) : State :=
  if admitted s && onTrain s then
    let s1 := raise 89 (b2n endB * 256 + cause) s
    if isLead s1 then openCensus cause none s1
    else s1.onInaug fun x => { x with posDue := if x.omitted == 0 then x.posDue ++ [(cause, trainTime s1)] else x.posDue }
  else s

/-! Entering RUNNING (R26, R275). -/

/-- The firmware takes an unowned group with FW_RULES, from the entry to RUNNING until the car leaves RUNNING and INTEGRATING
(R274, R275). -/
def fwTake (g : Nat) (s : State) : State :=
  if grpFwRules s g && (grpOf s g).owner == .none && s.fld.fwOn then
    let s1 := s.onFld fun d =>
      { d with
        image := (List.range 8).foldl (fun im i => let n := 8 * g + i
          im - b2n (natBit im n) * 2 ^ n + b2n (chanOf s n).drive * 2 ^ n) d.image
        ch := d.ch.zipIdx.map fun x => if x.2 / 8 == g then { x.1 with ownReq := x.1.drive } else x.1
        grp := d.grp.modify g fun x => { x with owner := .firmware, gen := (x.gen + 1) % 65536, lease := grpLease s g } }
    fieldSettle (ownEvent g 1 (cntGrp g 2 (logImage s1)))
  else s

/-- The car enters RUNNING. -/
def enterRunning (s : State) : State :=
  if s.sys.dev == .integrating then each (List.range 4) fwTake (setDev .running s) else s

end Sys2Proof.Machine
end

