-- ==== Sys2Proof/Machine/Coupler.lean ====
section
/-!
DEFINITION. Coupler ends: presence, lane status, the hello exchange and the end states, with the composition
triggers they give (R33 to R43, R74).
-/

namespace Sys2Proof.Machine

open Sys2Proof

/-- One coupler end changed. -/
def onEnd (endB : Bool) (f : CplEnd → CplEnd) (s : State) : State :=
  s.onEnds fun e => if endB then { e with b := f e.b } else { e with a := f e.a }

/-- The lanes are powered: not in OFF, RESET or BARN. -/
def lanesOn (s : State) : Bool :=
  match s.sys.dev with
  | .off => false
  | .reset => false
  | .barn => false
  | _ => true

/-- The lane lets the end be LOCKED or UP (R39). -/
def laneGood (s : State) (endB : Bool) : Bool :=
  let e := endOf s endB
  lanesOn s && e.signal && e.lock && !e.hiBer && coupled s endB

/-- A frame arriving on an end is cut off: what leaves of it ends with an error block (R74). -/
def cutArriving (endB : Bool) (s : State) : State :=
  match (endOf s endB).rx with
  | none => s
  | some r =>
    let s1 := cntEnd endB 3 (onEnd endB (fun e => { e with rx := none }) s)
    if r.dec == .forwarded then
      cntEnd endB 6 (onEnd (!endB) (fun e => if r.inBuf then { e with buf := e.buf.modify (e.buf.length - 1) fun w => { w with bad := true } }
        else { e with tx := e.tx.map fun w => { w with bad := true } }) s1)
    else s1

/-- The end takes a state: its event, and on leaving UP the loss of the link (R39, R40, R43, R66). -/
def setEnd (endB : Bool) (st : EndState) (s : State) : State :=
  let old := (endOf s endB).st
  if old == st then s
  else
    let s1 := raise (56 + b2n endB) (old.code * 256 + st.code) (onEnd endB (fun e => { e with st := st }) s)
    if old == .up then
      let s2 := cntEnd endB 14 (cutArriving endB s1)
      onEnd endB (fun e => { e with leftUp := some (trainTime s), nbr := none, buf := [], busyUntil := 0, localTx := false,
                                    helloCur := [], helloLast := none }) s2
    else if st == .up then onEnd endB (fun e => { e with leftUp := none }) s1
    else onEnd endB (fun e => { e with helloCur := [], helloLast := none }) s1

/-- The end follows its lane and its presence (R39). -/
def endUpdate (endB : Bool) (s : State) : State :=
  match (endOf s endB).st with
  | .loopback => s
  | .down => if laneGood s endB then setEnd endB .locked s else s
  | .locked => if laneGood s endB then s else setEnd endB .down s
  | .up => if laneGood s endB then s else setEnd endB .down s

/-- PRESENCE_CHANGE (R34): the pin has held a new level for 1 ms. -/
def presenceChange (endB level : Bool) (s : State) : State :=
  let s0 := onEnd endB (fun e => { e with pin := level }) s
  match s.sys.dev with
  | .off => s0
  | .reset => s0
  | _ =>
    if pNoPresence s endB || (endOf s endB).present == level then s0
    else
      let s1 := onEnd endB (fun e => { e with present := level }) s0
      let s2 := raise (58 + b2n endB) (b2n level) s1
      endUpdate endB (trigger endB 1 s2)

def execPresenceChange (endB level : Bool) (s : State) : Out := .next (presenceChange endB level s)

/-- LANE_STATUS_CHANGE (R39). -/
def laneStatusChange (endB signal lock hiBer : Bool) (s : State) : State :=
  let c := s.clk.c
  endUpdate endB (onEnd endB (fun e =>
    { e with
      signal := signal, lock := lock, hiBer := hiBer
      absentAt := if signal then none else some (e.absentAt.getD c) }) s)

def execLaneStatusChange (endB signal lock hiBer : Bool) (s : State) : Out :=
  .next (laneStatusChange endB signal lock hiBer s)

/-- The egress of an end is idle and its pass buffer is empty (R60). -/
def egressIdle (s : State) (endB : Bool) : Bool :=
  decide ((endOf s endB).busyUntil ≤ s.clk.c) && (endOf s endB).buf.isEmpty

/-- D2 and D3 of a hello chunk (R37). -/
def helloData (s : State) (endB : Bool) (k : Nat) : Nat × Nat :=
  if k < 4 then
    let b := beBytes 8 s.sys.badge
    ((b.getD (2 * k) 0).toNat, (b.getD (2 * k + 1) 0).toNat)
  else (b2n endB * 128 + b2n (pLine s) * 64 + b2n (admitted s) * 32 + b2n (isLead s) * 16, s.inaug.train)

/-- HELLO_CHUNK_SEND (R38): the next chunk, in the first idle slot after a 2 µs interval. -/
def helloChunkSend (endB : Bool) (s : State) : State :=
  let e := endOf s endB
  if (e.st == .locked || e.st == .up) && lanesOn s && decide (e.helloAt ≤ s.clk.c) && egressIdle s endB then
    let d := helloData s endB e.txChunk
    onEnd endB (fun x => { x with lastHello := some (x.txChunk, d.1, d.2), txChunk := (x.txChunk + 1) % 5,
                                  helloAt := (s.clk.c / 2000 + 1) * 2000 }) s
  else s

def execHelloChunkSend (endB : Bool) (s : State) : Out := .next (helloChunkSend endB s)

/-- A neighbour identity is accepted (R38, R39). -/
def acceptNeighbour (endB : Bool) (badge : Nat) (s : State) : State :=
  let prev := (endOf s endB).prev
  let s1 := setEnd endB .up (onEnd endB (fun e => { e with nbr := some badge, prev := some badge }) s)
  match prev with
  | none => s1
  | some p =>
    if p == badge then s1
    else trigger endB 2 (raise2 60 (b2n endB) (badge % 2 ^ 32) s1)

/-- The badge that five chunks spell. -/
def helloBadge (h : List (Nat × Nat)) : Nat := (h.take 4).foldl (fun a x => a * 65536 + x.2) 0

/-- A complete hello (R38): the second of two that are identical names the neighbour. -/
def helloComplete (endB : Bool) (h : List (Nat × Nat)) (s : State) : State :=
  let e := endOf s endB
  let v := ((h.getD 4 (4, 0)).2)
  let s1 := onEnd endB (fun x => { x with helloCur := [], helloLast := some h, nbrFlags := v / 256, nbrTrain := v % 256 }) s
  if e.helloLast == some h then
    if e.st == .up && e.nbr == some (helloBadge h) then s1 else acceptNeighbour endB (helloBadge h) s1
  else s1

/-- HELLO_CHUNK_RECEIVE (R38): idx is D1, val is D2 and D3. -/
def helloChunkReceive (endB : Bool) (idx val : Nat) (s : State) : State :=
  let e := endOf s endB
  if !(e.st == .locked || e.st == .up) || !lanesOn s then s
  else
    let fresh := if idx == 0 then [(0, val)] else []
    let differs := match e.helloLast with
      | some l => (l.getD idx (idx, val)).2 != val
      | none => false
    if idx != e.helloCur.length || decide (4 < idx) then
      onEnd endB (fun x => { x with helloCur := fresh, helloLast := none }) s
    else if differs then onEnd endB (fun x => { x with helloCur := fresh, helloLast := none }) s
    else if idx == 4 then helloComplete endB (e.helloCur ++ [(4, val)]) s
    else onEnd endB (fun x => { x with helloCur := x.helloCur ++ [(idx, val)] }) s

def execHelloChunkReceive (endB : Bool) (idx val : Nat) (s : State) : Out := .next (helloChunkReceive endB idx val s)

/-- LINE_LINK_TIMEOUT (R43): in mode LINE an end has not been UP for 3 × P. -/
def lineLinkTimeout (endB : Bool) (s : State) : State :=
  let e := endOf s endB
  match e.leftUp with
  | none => s
  | some t =>
    if pLine s && e.st != .up && decide (t + 3 * cycleP s ≤ trainTime s) then
      trigger endB 3 (onEnd endB (fun x => { x with leftUp := none }) s)
    else s

def execLineLinkTimeout (endB : Bool) (s : State) : Out := .next (lineLinkTimeout endB s)

end Sys2Proof.Machine
end

