-- ==== Sys2Proof/Machine/Twin.lean ====
section
/-!
DEFINITION. The source table of twin paths: its entries, the forward map at the header, the acceptance table at the
tail, the release of open entries and the settlement of pairs (R69 to R85).
-/

namespace Sys2Proof.Machine

open Sys2Proof

def DirMap.empty : DirMap := { valid := false, top := 0, acc := [], fwd := [] }

/-- A new entry (R70). -/
def newEntry (isOpen : Bool) (id key now : Nat) : SrcEntry :=
  { open_ := isOpen, id := id, badge := if isOpen then id else 0, key := key, x := .empty, y := .empty,
    path := .unpaired, missX := 0, missY := 0, pend := [], acc := 0, dup := 0, stale := 0, singleX := 0, singleY := 0,
    seen := now }

/-- The entry of a source. -/
def srcFind (s : State) (isOpen : Bool) (id : Nat) : Option SrcEntry :=
  s.lane.src.find? fun e => e.open_ == isOpen && e.id == id

/-- One source entry changed. -/
def modSrc (isOpen : Bool) (id : Nat) (f : SrcEntry → SrcEntry) (s : State) : State :=
  s.onLane fun l => { l with src := l.src.map fun e => if e.open_ == isOpen && e.id == id then f e else e }

/-- An entry of the needed kind is free (R69): 96 keyed, 32 open. -/
def srcFree (s : State) (isOpen : Bool) : Bool :=
  decide ((s.lane.src.filter fun e => e.open_ == isOpen).length < (if isOpen then 32 else 96))

/-- LANE_HEALTH, at most once per direction and basic cycle for each code, and code 3 once per basic cycle (R71, R81). -/
def laneHealth (code : Nat) (dirY : Bool) (adm n : Nat) (s : State) : State :=
  raiseFirst (6200 + code * 2 + b2n (dirY && code != 3)) 62 (adm % 65536 * 65536 + b2n dirY * 32768 + min n 127 * 256 + code) s

/-- The entry of one direction. -/
def dirOf (e : SrcEntry) (dirY : Bool) : DirMap := if dirY then e.y else e.x
def setDir (e : SrcEntry) (dirY : Bool) (m : DirMap) : SrcEntry := if dirY then { e with y := m } else { e with x := m }

/-- What order 6 of R58 decides for a SEQ (R72). -/
inductive FwdMark where
  | stale | repeated | mark | unmarked
deriving DecidableEq, Repr

def fwdDecide (m : DirMap) (q : Nat) : FwdMark :=
  if !m.valid then .mark
  else if decide (q + 1024 ≤ m.top) then .stale
  else if decide (q ≤ m.top + 1024) then (if m.fwd.contains q then .repeated else .mark)
  else .unmarked

/-- A SEQ is marked in the forward map; while VALID is clear the map is anchored at it, and marks outside its 2,048 bits
are gone (R69, R72). -/
def fwdMark (q : Nat) (m : DirMap) : DirMap :=
  let fwd := if m.valid then m.fwd else m.fwd.filter fun x => decide (q < x + 1024) && decide (x ≤ q + 1024)
  { m with fwd := if fwd.contains q then fwd else q :: fwd }

/-- TOP rises to a SEQ that passed its tail check, and both maps slide (R69, R75). -/
def raiseTop (q : Nat) (m : DirMap) : DirMap :=
  let top := if m.valid then max m.top q else q
  { valid := true, top := top,
    acc := m.acc.filter fun x => decide (top < x + 1024) && decide (x ≤ top),
    fwd := m.fwd.filter fun x => decide (top < x + 1024) && decide (x ≤ top + 1024) }

/-- The fate of a copy that passed its tail check (R75). -/
inductive Fate where
  | stale | duplicate | accepted
deriving DecidableEq, Repr

/-- A SEQ lies in a direction's accept window with its bit set. -/
def accHas (m : DirMap) (q : Nat) : Bool :=
  m.valid && decide (m.top < q + 1024) && decide (q ≤ m.top) && m.acc.contains q

/-- TOPMAX: the larger of the valid TOP values. -/
def topMax (e : SrcEntry) : Option Nat :=
  match e.x.valid, e.y.valid with
  | true, true => some (max e.x.top e.y.top)
  | true, false => some e.x.top
  | false, true => some e.y.top
  | false, false => none

/-- The table of R75: the first row that applies. -/
def fateOf (e : SrcEntry) (dirY : Bool) (q : Nat) : Fate :=
  if (match topMax e with | some t => decide (q + 1024 ≤ t) | none => false) then .stale
  else if accHas (dirOf e (!dirY)) q then .duplicate
  else if accHas (dirOf e dirY) q then .stale
  else .accepted

/-- The entry after a copy has passed its tail check (R75, R79): the update, then the mark. -/
def afterTail (e : SrcEntry) (dirY : Bool) (q key now c : Nat) : SrcEntry :=
  let f := fateOf e dirY q
  let m := raiseTop q (dirOf e dirY)
  let m' := if f == .stale then m else { m with acc := if m.acc.contains q then m.acc else q :: m.acc }
  let e1 := setDir { e with seen := c } dirY m'
  match f with
  | .stale => { e1 with stale := satAdd 1 e1.stale }
  | .duplicate => { e1 with dup := satAdd 1 e1.dup, pend := e1.pend.map fun p => if p.seq == q then { p with paired := true } else p }
  | .accepted => { e1 with acc := satAdd 1 e1.acc, key := key,
                           pend := e1.pend ++ [{ seq := q, y := dirY, at_ := now, paired := false }] }

/-- OPEN_ENTRY_RELEASE (R70): no frame of the source for 1 s. -/
def openEntryRelease (badge : Nat) (s : State) : State :=
  match srcFind s true badge with
  | none => s
  | some e =>
    if e.seen + 1000000000 ≤ s.clk.c then
      s.onLane fun l => { l with src := l.src.filter fun x => !(x.open_ && x.id == badge) }
    else s

def execOpenEntryRelease (badge : Nat) (s : State) : Out := .next (openEntryRelease badge s)

/-! Settlement (R79 to R81). -/

/-- What one settled SEQ does to a path: the entry, and the changes as (code, missing direction Y). R79 speaks of a counter
of the name PAIRED, and R69 and R85 give an entry none: the model keeps SINGLE_X and SINGLE_Y alone (DESIGN CHOICE, log 39). -/
def settleOne (e : SrcEntry) (p : PendSeq) : SrcEntry × List (Nat × Bool) :=
  if p.paired then
    let e1 := { e with missX := 0, missY := 0, path := .paired }
    match e.path with
    | .missing y => (e1, [(2, y)])
    | .unpaired => (e1, [])
    | .paired => (e1, [])
  else
    let missY := !p.y
    let e1 := if missY then { e with singleY := satAdd 1 e.singleY, missY := e.missY + 1, missX := 0 }
      else { e with singleX := satAdd 1 e.singleX, missX := e.missX + 1, missY := 0 }
    let run := if missY then e1.missY else e1.missX
    match e.path with
    | .unpaired => (e1, [])
    | .paired => if 4 ≤ run then ({ e1 with path := .missing missY }, [(1, missY)]) else (e1, [])
    | .missing y => if y != missY && decide (4 ≤ run) then ({ e1 with path := .missing missY }, [(1, missY)]) else (e1, [])

/-- Every due SEQ of an entry settles in order: more than PAIR_H before the boundary (R79), in train time: a step of train time does
not move the instants that are kept (DESIGN CHOICE, log 39). -/
def settleEntry (horizon boundary : Nat) (e : SrcEntry) : SrcEntry × List (Nat × Bool) :=
  let due := e.pend.filter fun p => decide (p.at_ + horizon < boundary)
  due.foldl (fun r p => let x := settleOne r.1 p; (x.1, r.2 ++ x.2))
    ({ e with pend := e.pend.filter fun p => !decide (p.at_ + horizon < boundary) }, [])

/-- PAIR_SETTLEMENT (R79): at a boundary every SEQ that is due settles, and the changes of each code and direction
are reported together (R81). The source an event names is the first in the order of the source table (DESIGN CHOICE, log 39). -/
def pairSettlement (s : State) : State :=
  if !planLoaded s then s
  else
    let b := trainTime s / cycleP s * cycleP s
    let rs := s.lane.src.map (settleEntry (pPairH s) b)
    let s1 := s.onLane fun l => { l with src := rs.map (·.1) }
    each [(1, false), (1, true), (2, false), (2, true)] (fun k t =>
      let hit := rs.filter fun r => r.2.contains k
      match hit with
      | [] => t
      | r :: _ => laneHealth k.1 k.2 (if r.1.open_ then 0 else r.1.id) hit.length t) s1

def execPairSettlement (s : State) : Out := .next (pairSettlement s)

end Sys2Proof.Machine
end

