-- ==== Sys2Proof/Machine/TimeOps.lean ====
section
/-!
DEFINITION. The time servo: steps, the use of a REFERENCE, the fitness of SHADOWs, the exchanges of drive cars, and
what every basic-cycle boundary does (R129 to R136, R140 to R149, R162, R273, R275). Train time is in units of
2^-16 ns.
-/

namespace Sys2Proof.Machine

open Sys2Proof

/-- A duration in ns as 2^-16 ns. -/
def fx (ns : Nat) : Int := (ns : Int) * 65536

/-- A duration in 0.1 ns as 2^-16 ns. -/
def fxTenth (n : Nat) : Int := (n : Int) * 65536 / 10

/-- A number kept within ± a bound. -/
def clamp (b x : Int) : Int := max (-b) (min b x)

/-! What a basic-cycle boundary does (R162). -/

/-- References of the ending basic cycle (R130): every car not in MASTER counts one without a used reference. -/
def refDuty (s : State) : State :=
  let missed := s.clk.st != .master && !s.ref.usedNow
  let s1 := when' missed (cntTime 1) s
  s1.onRef fun r => { r with usedPrev := r.usedNow, usedNow := false, masterQuiet := r.masterQuiet + 1,
                             missRun := if missed then r.missRun + 1 else r.missRun }

/-- A tether fault ends (R143). -/
def tetherFaultEnd (s : State) : State :=
  if s.teth.tfault then raise 76 0 (s.onTeth fun t => { t with tfault := false, refRun := 0, lowRun := 0 }) else s

/-- The rank under which this car could claim mastery: 0 for the lead, k for BACKUP k (R140). -/
def claimRank (s : State) : Option Nat :=
  match s.inaug.role with
  | .lead => some 0
  | .backup => some s.inaug.rank
  | _ => none

/-- The car may claim mastery (R140, R141). -/
def claimEligible (s : State) : Bool :=
  s.clk.st == .holdover && s.ref.barred.isEmpty &&
    (match claimRank s with
     | none => false
     | some 0 => true
     | some (k + 1) => natBit s.ref.fit k || decide (64 ≤ s.teth.holdCycles))

/-- The counts of R140 and R143, of the cycle that ends. A master holds the line itself (log 18). -/
def tetherDuty (used : Bool) (s : State) : State :=
  let s1 := s.onTeth fun t =>
    { t with
      released := if t.tether then t.released + 1 else 0
      lowRun := if !t.tether && !used && s.clk.st != .master then t.lowRun + 1 else 0
      refRun := if t.tfault && used then t.refRun + 1 else 0
      holdCycles := if s.clk.st == .holdover then t.holdCycles + 1 else 0
      eligible := if claimEligible s then t.eligible + 1 else 0 }
  if s1.teth.tfault && decide (8 ≤ s1.teth.refRun) then tetherFaultEnd s1 else s1

/-- Four cycles without a SHADOW of a rank clear its bit (R135). -/
def shadowDuty (s : State) : State :=
  each (List.range 3) (fun i t =>
    let h := t.ref.shadows.getD i ⟨[], 0, 0, false⟩
    let missed := if h.usedNow then 0 else h.missed + 1
    let t1 := t.onRef fun r => { r with shadows := r.shadows.set i { h with usedNow := false, missed := missed } }
    if 4 ≤ missed then setFitBit i false t1 else t1) s

/-- Leases: a host's loses one basic cycle, the firmware renews its own (R273, R275). -/
def leaseDuty (s : State) : State :=
  each (List.range 4) (fun g t =>
    match (grpOf t g).owner with
    | .none => t
    | .firmware => modGrp g (fun x => { x with lease := grpLease t g }) t
    | .host _ _ => modGrp g (fun x => { x with lease := x.lease - 1 }) t) (s.onFld fun d => { d with leaseAt := some s.clk.c })

/-- A request of a drive car without a response within 4 basic cycles (R159), the cycle of its launch being the first (DESIGN CHOICE,
log 18). -/
def delayDuty (cycle : Nat) (s : State) : State :=
  let old := s.teth.delayOut.filter fun d => decide (d.cycle + 4 ≤ cycle)
  let s1 := s.onTeth fun t => { t with delayOut := t.delayOut.filter fun d => !decide (d.cycle + 4 ≤ cycle) }
  each (old.filter fun d => !d.answered) (fun _ => cntTime 10) s1

/-- ppm as a rate in units of 2^-40. -/
def ppmRate (n : Nat) : Int := (n : Int) * 2 ^ 40 / 1000000

/-- RATE with plant time moves by at most 2 ppm from where it stood at the start of the basic cycle (R151). -/
def plantRate (r : Int) (s : State) : State := setRate (s.teth.cycRate + clamp (ppmRate 2) (r - s.teth.cycRate)) s

/-- The basic cycle begins with this RATE; a master that has lost plant time goes on toward F (R151). -/
def rateDuty (s : State) : State :=
  let s1 := s.onTeth fun t => { t with cycRate := s.clk.rate }
  if s.clk.st == .master && s.teth.plant == .holdover && s.clk.rate != s.clk.freq then plantRate s.clk.freq s1 else s1

/-- The duties of a boundary, for the basic cycle that begins (R162). -/
def boundaryDuties (s : State) : State :=
  let cyc := trainTime s / cycleP s
  let used := s.ref.usedNow
  let s1 := s.onPlan fun p => { p with cycle := cyc }
  let s2 := rateDuty (delayDuty cyc (shadowDuty (tetherDuty used (refDuty s1))))
  each (List.range 4) fwTake (leaseDuty s2)

/-! The servo (R131, R132). -/

/-- What is kept by train time moves with a step of it (R186): when marks began to fire, and the output images as they
changed; a strobe issued for the time before it starts nothing. -/
def moveMarks (th : Int) (s : State) : State :=
  let mv := fun (t : Nat) => ((t : Int) + th / 65536).toNat
  s.onPlan fun p => { p with strobes := [], markSince := mv p.markSince, imgLog := p.imgLog.map fun x => (mv x.1, x.2) }

/-- The last forward step passed over a train time: what stood there did not occur (R162). -/
def passedOver (s : State) (t : Nat) : Bool :=
  match s.plan.skip with
  | some (a, b) => decide (a < t) && decide (t < b)
  | none => false

/-- Train time is stepped. What a forward step passes over does not occur: stalls, checks and marks; its boundaries are
treated as one (R162). -/
def stepBy (th : Int) (s : State) : State :=
  if th == 0 then s else
  let from_ := trainTime s
  let s0 := moveMarks th (cntTime 6 (s.onClk fun k => { k with offset := k.offset + th }))
  let s1 := s0.onClk fun k => { k with sec := trainTime s0 / 1000000000 }
  let s2 := clockMark 2 (raise 77 (s1.clk.tepoch * 256 + (if 0 ≤ th then 2 else 3)) s1)
  if !planLoaded s2 then s2
  else if 0 ≤ th then
    let s3 := s2.onPlan fun p => { p with skip := some (from_, trainTime s2) }
    if s3.plan.cycle < trainTime s3 / cycleP s3 then pairSettlement (boundaryDuties s3) else s3
  else s2.onPlan fun p => { p with cycle := trainTime s2 / cycleP s2, skip := none }

/-- A backward step is permitted: the epoch holds no SYNC stamp of this car since reset (R132). -/
def backOk (s : State) : Bool := !s.clk.syncEpochs.contains s.clk.tepoch

/-- 1 ms, 1 µs and 50 ns. -/
def ms1 : Int := fx 1000000
def us1 : Int := fx 1000
def ns50 : Int := fx 50

/-- The slewing branch of R131: the integral and the phase term. -/
def slew (th : Int) (s : State) : State :=
  let p : Int := cycleP s
  let f := clamp (ppmRate 200) (s.clk.freq + th * 2 ^ 24 / (32 * p))
  let ph := clamp (ppmRate (pSlewPpm s)) (th * 2 ^ 24 / (4 * p))
  (setRate (f + ph) s).onClk fun k => { k with freq := f, phase := ph }

/-- The servo at a used reference (R131). -/
def servo (th : Int) (s : State) : State :=
  let back := decide (0 ≤ th) || backOk s
  let s1 :=
    if s.clk.fresh && back then (stepBy th s).onClk fun k => { k with phase := 0 }
    else if decide (ms1 < th) then (stepBy th s).onClk fun k => { k with phase := 0 }
    else if decide (th < -ms1) && back then (stepBy th s).onClk fun k => { k with phase := 0 }
    else
      let t := when' (decide (th < -ms1)) (fun u => raise 77 (u.clk.tepoch * 256 + 4) u) s
      slew th t
  s1.onClk fun k => { k with fresh := false, theta := th, usedAt := k.c, slewing := decide (us1 < th.natAbs) }

/-- The time state after a used reference (R123). -/
def refState (verified : Bool) (th : Int) (s : State) : State :=
  let good := if verified && decide ((th.natAbs : Int) ≤ ns50) then s.clk.good + 1 else 0
  let s1 := s.onClk fun k => { k with good := good }
  match s.clk.st with
  | .free => setTState .tracking s1
  | .tracking => if verified && decide (8 ≤ good) then setTState .locked s1 else s1
  | .locked => s1
  | .holdover => if verified then setTState .locked s1 else s1
  | .master => s1

/-! REFERENCE payloads (R126). -/

/-- A delay response entry has no reserved bit set. -/
def respOk (p : List Byte) (i : Nat) : Bool := be p (32 + 28 * i + 2) 1 % 64 == 0 && be p (32 + 28 * i + 3) 1 == 0

/-- The payload may be used. -/
def refOk (p : List Byte) : Bool :=
  let n := be p 25 1
  decide (n ≤ 8) && p.length == 32 + 28 * n && (List.range n).all (respOk p)

/-- ORIGIN with its fraction. -/
def refOrigin (p : List Byte) : Int := fx (be p 0 8) + (be p 8 2 : Nat)
def refEpoch (p : List Byte) : Nat := be p 10 1
def refRole (p : List Byte) : Nat := be p 11 1
def refBadge (p : List Byte) : Nat := be p 12 8
def refFlags (p : List Byte) : Nat := be p 24 1

/-- The delay sum and tolerance sum of a copy's route, in 0.1 ns, and whether it mismatches (R129). -/
def routeSum (links : List (Nat × Nat)) (s : State) (hops : Nat) : Nat × Nat × Bool :=
  if hops + 1 == links.length then ((links.map (·.1)).sum, (links.map (·.2)).sum, false)
  else ((hops + 1) * pLinkDefault s, (hops + 1) * pLinkTol s, true)

/-- The links from a sender to this car in a direction; none when either has no number. -/
def linksFrom (s : State) (badge : Nat) (dirY : Bool) : List (Nat × Nat) :=
  match carOfBadge s badge, s.inaug.car with
  | some m, some n => linksDir s dirY m n
  | _, _ => []

/-! Drive cars (R148). -/

/-- One route of an exchange is filled in. -/
def setRoute (x : Bool) (v : Int × Int) (e : DriveEx) : DriveEx := if x then { e with x := some v } else { e with y := some v }

/-- A copy of a REFERENCE that answers this drive car's request gives one route's offset and link delay; the exchange counts
with its first route. -/
def driveExchange (h : Hdr) (p : List Byte) (tl : Int) (s : State) : State :=
  if !(s.teth.dc == .acquiring || s.teth.dc == .dcLocked) || refBadge p != s.ref.mbadge then s
  else
    match (List.range (be p 25 1)).find? fun i => be p (32 + 28 * i) 2 == s.inaug.adm with
    | none => s
    | some i =>
      let o := 32 + 28 * i
      let id := be p (o + 4) 4
      let useX := h.dirY      -- the reference's Y copy answers the request's X copy
      match s.teth.delayOut.find? fun d => d.reqId == id with
      | none => s
      | some d =>
        if !natBit (be p (o + 2) 1) (if useX then 7 else 6) then s
        else
          let t2 : Int := if useX then fx (be p (o + 8) 8) + (be p (o + 16) 2 : Nat) else fx (be p (o + 18) 8) + (be p (o + 26) 2 : Nat)
          let a := t2 - d.t1
          let b := (tl - h.corr) - refOrigin p
          let v := ((b - a) / 2, (a + b) / 2)
          if d.answered then
            s.onTeth fun t =>
              { t with
                exch := t.exch.map fun e => if e.reqId == id then setRoute useX v e else e
                delayOut := t.delayOut.filter fun x => x.reqId != id }
          else
            let s1 := s.onTeth fun t =>
              { t with
                exch := (setRoute useX v { reqId := id, x := none, y := none } :: t.exch).take 32, exchN := t.exchN + 1
                delayOut := t.delayOut.map fun x => if x.reqId == id then { x with answered := true } else x }
            if s1.teth.dc == .acquiring && decide (32 ≤ s1.teth.exchN) then
              raise 79 7 (s1.onTeth fun t => { t with dc := .dcLocked })
            else s1

/-- The mean of a list; 0 of an empty one. -/
def meanOf (l : List Int) : Int := if l.isEmpty then 0 else l.sum / (l.length : Int)

/-- The mean offset O over the exchanges held: of each, the mean of its routes. -/
def driveMean (s : State) : Int :=
  meanOf (s.teth.exch.map fun e => meanOf ((e.x.toList ++ e.y.toList).map (·.1)))

/-- The link delay that the exchanges measured on the route that a REFERENCE takes in a direction: the request went along it the
other way (R148). -/
def driveLink (s : State) (dirY : Bool) : Option Int :=
  let l := s.teth.exch.filterMap fun e => (if dirY then e.x else e.y).map (·.2)
  if s.teth.dc == .dcLocked && !l.isEmpty then some (meanOf l) else none

/-! Use of a REFERENCE (R130). -/

/-- The MROLE this car sends and reports as master: 0 as lead, else its rank (R144, R160). A master that is neither lead nor backup
has rank 0 (DESIGN CHOICE, log 41). -/
def ownMrole (s : State) : Nat := if isLead s then 0 else s.inaug.rank

/-- A reference ranks better than another: lower MROLE, then lower badge. -/
def refBetter (r1 b1 r2 b2 : Nat) : Bool := decide (r1 < r2) || (r1 == r2 && decide (b1 < b2))

/-- A new master is followed (R128, R149, R158). -/
def newMaster (badge role adm : Nat) (s : State) : State :=
  let s1 := s.onRef fun r => { r with mbadge := badge, mrole := role, madmit := adm }
  raise 75 (adm * 65536 + role) (driveRestart (routeCalc s1))

/-- A master that uses a better reference stops and follows it (R142). -/
def masterYield (s : State) : State := setTState .tracking (releaseTether s)

/-- A time epoch has been adopted: the event and the mark are the first stamps in it (R134, R158). -/
def epochMark (e : Nat) (s : State) : State := raise 77 (e * 256 + 1) (clockMark 1 s)

/-- A time epoch is adopted where train time itself goes on (R141, R144). -/
def adoptEpoch (e : Nat) (s : State) : State :=
  if s.clk.tepoch == e then s else epochMark e (s.onClk fun k => { k with tepoch := e })

/-- A correction under a time epoch: a step that the epoch brings stands before any stamp in it (R132, R133). -/
def inEpoch (e : Nat) (f : State → State) (s : State) : State :=
  when' (s.clk.tepoch != e) (epochMark e) (f (s.onClk fun k => { k with tepoch := e }))

/-- A REFERENCE with ABDICATE names this car when it is the best-ranked backup whose FIT bit is set (R138). -/
def abdicated (flags : Nat) (s : State) : Option Nat :=
  if natBit flags 4 && s.inaug.role == .backup && ((List.range 3).find? fun i => natBit flags (i + 1)) == some (s.inaug.rank - 1) then
    some (trainTime s / cycleP s)
  else none

/-- What a checked REFERENCE says of its sender: the car follows it as master (R130, R142). -/
def refFollow (h : Hdr) (p : List Byte) (s : State) : State :=
  let badge := refBadge p
  let s0 := when' (s.clk.st == .master) masterYield s
  let s1 := if s0.ref.mbadge == badge && s0.ref.mrole != 255 then s0.onRef fun r => { r with mrole := refRole p, madmit := h.adm }
    else newMaster badge (refRole p) h.adm s0
  s1.onRef fun r => { r with closed := natBit (refFlags p) 0, takeNext := abdicated (refFlags p) s1 }

/-- A REFERENCE is used (R129 to R131). A car that cannot check its tag uses its timing content alone, and takes no CLOSED from it
(R42, R65). -/
def refUse (h : Hdr) (p : List Byte) (tl : Int) (verified : Bool) (s : State) : State :=
  let s1 := if verified then refFollow h p s else s.onRef fun r => { r with uBadge := refBadge p, uRole := refRole p, closed := false }
  let s2 := cntTime 0 s1
  let rt := routeSum (linksFrom s2 (refBadge p) h.dirY) s2 h.hops
  let s3 := when' rt.2.2 (cntTime 5) s2
  let s4 := s3.onRef fun r => { r with usedNow := true, masterQuiet := 0, missRun := 0, hops := h.hops, ltol := rt.2.1 }
  let s5 := when' verified (driveExchange h p tl) s4
  let locked := s5.teth.dc == .dcLocked
  let sum := if rt.2.2 then fxTenth rt.1 else (driveLink s5 h.dirY).getD (fxTenth rt.1)
  let th := if locked then -(driveMean s5) else refOrigin p + h.corr + sum - tl
  let s6 := (inEpoch (refEpoch p) (servo th) s5).onClk fun k => { k with lastTheta := if locked then -th else th }
  let s7 := when' verified (fun t => setFit (natBits (refFlags p) 3 1) t.ref.localFit t) s6
  refState verified th s7

/-- Whether the car uses a REFERENCE (R130, R142). A car that checks no tags goes by the sender it used last (R65). -/
def refDecide (badge role : Nat) (verified : Bool) (s : State) : Bool :=
  let curRole := if verified then s.ref.mrole else s.ref.uRole
  let curBadge := if verified then s.ref.mbadge else s.ref.uBadge
  if s.clk.st == .master then refBetter role badge (ownMrole s) s.sys.badge
  else if curRole == 255 || curBadge == badge then true
  else if refBetter role badge curRole curBadge then true
  else decide (2 ≤ s.ref.masterQuiet)

/-- A first copy of a REFERENCE has passed delivery, or a guest places its stalls by it (R65, R130). -/
def refReceive (h : Hdr) (p : List Byte) (tl : Int) (verified : Bool) (s : State) : State :=
  if !refOk p then cntTime 4 s
  else if refDecide (refBadge p) (refRole p) verified s then
    let s1 := refUse h p tl verified s
    if verified && admitted s1 && s1.inaug.omitted == 0 then enterRunning s1 else s1
  else cntTime 2 s

/-! SHADOW frames (R135, R136). -/

/-- A SHADOW copy gives δ for its rank. The limit is 50 ns, with EB at a car other than the master; an unbounded EB bounds
nothing (R136). -/
def shadowReceive (h : Hdr) (p : List Byte) (tl : Int) (s : State) : State :=
  if !refOk p then cntTime 4 s
  else
    let k := refRole p
    if k == 0 || decide (3 < k) then s
    else
      let i := k - 1
      let rt := routeSum (linksFrom s (refBadge p) h.dirY) s h.hops
      let d := refOrigin p + h.corr + fxTenth rt.1 - tl
      let lim : Option Int := if s.clk.st == .master then some ns50 else (errBound s).map fun e => ns50 + fx e
      let within := fun (v : Int) => match lim with | some l => decide ((v.natAbs : Int) ≤ l) | none => true
      let x := s.ref.shadows.getD i ⟨[], 0, 0, false⟩
      let hist := (d :: x.hist).take 16
      let good := if within d then x.good + 1 else 0
      let s1 := s.onRef fun r => { r with shadows := r.shadows.set i ⟨hist, good, 0, true⟩ }
      if !within (meanOf hist) then setFitBit i false s1
      else if 64 ≤ good then setFitBit i true s1 else s1

/-! Self-checks of the master (R137, R138). -/

/-- A self-check or HANDOVER makes the master abdicate in its next REFERENCE; mastery is barred for a number of
passes, 0 standing for until reset. -/
def selfCheckFail (code bar : Nat) (s : State) : State :=
  let s1 := raise 79 code s
  if s.clk.st == .master then
    s1.onRef fun r => { r with abdicate := some (r.abdicate.getD code),
                               barred := if code == 5 then r.barred else (code, bar) :: r.barred.filter fun x => x.1 != code }
  else if code == 1 then s1.onRef fun r => { r with barred := (code, bar) :: r.barred.filter fun x => x.1 != code }
  else s1

/-- One pass of a self-check: 1,000 in succession lift the bar (R137). -/
def selfCheckPass (code : Nat) (s : State) : State :=
  s.onRef fun r => { r with barred := r.barred.filterMap fun x =>
    if x.1 == code && decide (x.2 ≠ 0) then (if x.2 ≤ 1 then none else some (x.1, x.2 - 1)) else some x }

/-- A returning copy of this master's own REFERENCE that passed its tail check (R42, R137). LOOPBACK compares the absolute
value of the mean of 16 differences (DESIGN CHOICE, log 18). -/
def refReturn (h : Hdr) (p : List Byte) (tl : Int) (s : State) : State :=
  if s.clk.st != .master then s
  else
    let ring := (routeLinks s 0 s.inaug.numbering.length).map (·.1)
    let e := refOrigin p + h.corr + fxTenth ring.sum - tl
    let s1 := s.onRef fun r => { r with refs := r.refs.map fun x =>
      if x.seq == h.seq then (if h.dirY then { x with retY := some e } else { x with retX := some e }) else x }
    match s1.ref.refs.find? fun x => x.seq == h.seq with
    | some { seq := _, at_ := _, retX := some ex, retY := some ey } =>
      if !ringClosed s1 then s1
      else
        let eps := ((ex - ey) :: s1.ref.eps).take 16
        let s2 := s1.onRef fun r => { r with eps := eps }
        if eps.length == 16 then
          if fx 20 < ((eps.sum / 16).natAbs : Int) then selfCheckFail 3 1000 s2 else selfCheckPass 3 s2
        else s2
    | _ => s1

/-! DELAY at the master (R147). -/

/-- A REQ_ID is newer than another, modulo 2^32 (R146). -/
def reqNewer (a b : Nat) : Bool :=
  let d := (a + 2 ^ 32 - b % 2 ^ 32) % 2 ^ 32
  decide (1 ≤ d) && decide (d < 2 ^ 31)

/-- A request of a car is older than its newest one, or has been answered (R147). -/
def reqStale (s : State) (adm id : Nat) : Bool :=
  (s.teth.delayIn.any fun d => d.adm == adm && reqNewer d.reqId id)
    || s.teth.answered.any fun a => a.1 == adm && !reqNewer id a.2

/-- A copy of a DELAY is stamped: T2 is the arrival less CORR, and only the newest request of a car is kept. -/
def delayStamp (h : Hdr) (p : List Byte) (tl : Int) (s : State) : State :=
  let id := be p 12 4
  if s.clk.st != .master || p.length != 16 || reqStale s h.adm id then s
  else
    let t2 := tl - h.corr
    let set := fun (d : DelayReq) => if h.dirY then { d with t2y := some t2 } else { d with t2x := some t2 }
    if s.teth.delayIn.any fun d => d.adm == h.adm && d.reqId == id then
      s.onTeth fun t => { t with delayIn := t.delayIn.map fun d => if d.adm == h.adm && d.reqId == id then set d else d }
    else
      s.onTeth fun t => { t with delayIn := (t.delayIn.filter fun d => d.adm != h.adm) ++
        [set { adm := h.adm, reqId := id, t2x := none, t2y := none, first := trainTime s }] }

end Sys2Proof.Machine
end

