-- ==== Sys2Proof/Machine/Frames.lean ====
section
/-!
DEFINITION. Train frames on the wire: the forwarding decision at the header, the badge of an open frame, the tail
checks, duplicate discard, the delivery checks and delivery, and the pass buffer (R46 to R77, R101, R175 to R183).
-/

namespace Sys2Proof.Machine

open Sys2Proof

/-- Frames are processed: the lanes are powered and the device forwards (R21, R25). -/
def forwards (s : State) : Bool :=
  match s.sys.dev with
  | .startup => true
  | .stopped => true
  | .integrating => true
  | .running => true
  | .test => true
  | _ => false

/-- A copy is the car's own by its header (R58): it carries the car's ADMIT and the SRC that the car sends under, or sent
under before its latest adoption. DEDUCED for a granted guest: its car field 63 counts as its address (log 36). -/
def ownKeyed (s : State) (h : Hdr) : Bool :=
  h.adm != 0 && h.adm == s.inaug.adm && (h.src == srcField s || h.src == s.inaug.adoptSys)

/-- One arriving frame changed. -/
def modRx (endB : Bool) (f : RxFrame → RxFrame) (s : State) : State := onEnd endB (fun e => { e with rx := e.rx.map f }) s

/-- A copy starts out of the onward end, or waits in its pass buffer behind a local frame or another held frame (R58 to
R60). Its payload and tag follow as they arrive. -/
def startForward (endB : Bool) (s : State) : State :=
  match (endOf s endB).rx with
  | none => s
  | some r =>
    let o := endOf s (!endB)
    let wait := (o.localTx && decide (s.clk.c < o.busyUntil)) || !o.buf.isEmpty
    let res := (Config.residence s.free).toNat
    let h := { r.hdr with hops := r.hdr.hops + 1, held := r.hdr.held || wait, corr := sx 48 (tc 48 (r.hdr.corr + (res : Int))) }
    let w : WireFrame := { hdr := h, payload := [], prot := .carried 0, bad := false, at_ := s.clk.c }
    let s1 := modRx endB (fun x => { x with dec := .forwarded, inBuf := wait }) (tookFree s)
    let s2 := cntEnd (!endB) 1 s1
    if wait then cntEnd (!endB) 12 (onEnd (!endB) (fun e => { e with buf := e.buf ++ [w] }) s2)
    else onEnd (!endB) (fun e => { e with tx := some w, localTx := false,
                                          busyUntil := s.clk.c + (wireTime r.hdr.len + 9) / 10 }) s2

/-- Order 6 and 7 of R58, with or without a source entry (R71, R72). -/
def forwardByMap (endB isOpen : Bool) (id : Nat) (s : State) : State :=
  match (endOf s endB).rx with
  | none => s
  | some r =>
    if r.full then startForward endB s
    else
      match srcFind s isOpen id with
      | none => startForward endB s
      | some e =>
        let mark := modSrc isOpen id fun x => setDir x r.hdr.dirY (fwdMark r.hdr.seq (dirOf x r.hdr.dirY))
        match fwdDecide (dirOf e r.hdr.dirY) r.hdr.seq with
        | .stale => cntEnd endB 15 (modRx endB (fun x => { x with dec := .repeated }) s)
        | .repeated => cntEnd endB 16 (modRx endB (fun x => { x with dec := .repeated }) s)
        | .mark => startForward endB (mark s)
        | .unmarked => startForward endB (cntEnd endB 17 s)

/-- An entry is made for a source that has none, or the frame finds none free (R70, R71). -/
def entryFor (endB isOpen : Bool) (id : Nat) (s : State) : State :=
  match (endOf s endB).rx with
  | none => s
  | some r =>
    match srcFind s isOpen id with
    | some _ => modSrc isOpen id (fun e => { e with seen := s.clk.c }) s
    | none =>
      if srcFree s isOpen then
        s.onLane fun l => { l with src := l.src ++ [newEntry isOpen id r.hdr.key s.clk.c] }
      else
        laneHealth 3 r.hdr.dirY 0 1 (cntEnd endB 18 (modRx endB (fun x => { x with full := true }) s))

/-- A frame of a source that has an entry is seen: under order 2 and order 4 too, which make no entry (R70). -/
def seenAgain (isOpen : Bool) (id : Nat) (s : State) : State := modSrc isOpen id (fun e => { e with seen := s.clk.c }) s

/-- The decision of R58 once the source is known. `own` is order 2. -/
def decideFrame (endB isOpen own : Bool) (id : Nat) (s : State) : State :=
  match (endOf s endB).rx with
  | none => s
  | some r =>
    let setDec := fun d => modRx endB (fun x => { x with dec := d })
    let ent := fun t => entryFor endB isOpen id t
    if (endOf s (!endB)).st != .up && !own then ent (cntEnd endB 10 (setDec .ended s))
    else if own then cntEnd endB 11 (setDec .returned (seenAgain isOpen id s))
    else if 64 ≤ r.hdr.hops then ent (cntEnd endB 9 (setDec .hopLimit s))
    else if 1996 < r.hdr.len then cntEnd endB 8 (setDec .badLen (seenAgain isOpen id s))
    else if r.hdr.poison then ent (cntEnd endB 5 (setDec .poisonedIn s))
    else forwardByMap endB isOpen id (ent s)

/-- The same with order 1 before order 2: a copy whose onward end is not UP ends here even when it is the car's own. -/
def decideOrdered (endB isOpen own : Bool) (id : Nat) (s : State) : State :=
  if (endOf s (!endB)).st != .up then decideFrame endB isOpen false id s else decideFrame endB isOpen own id s

/-- FRAME_HEADER (R58). -/
def frameHeader (endB : Bool) (h : Hdr) (s : State) : State :=
  let e := endOf s endB
  if e.st != .up || e.rx.isSome || !forwards s then s
  else
    let r : RxFrame := { hdr := h, badge := none, rxAt := s.clk.c, tl := timeFx s, stamp := stampNow s, dec := .pending,
                         full := false, inBuf := false }
    let s1 := noteStamp (onEnd endB (fun x => { x with rx := some r }) s)
    if h.adm == 0 then s1
    else releaseEntries (decideOrdered endB false (ownKeyed s h) h.adm s1)

def execFrameHeader (endB : Bool) (hdr : Hdr) (s : State) : Out := .next (frameHeader endB hdr s)

/-- OPEN_FRAME_BADGE (R73): the decision on an open frame. -/
def openFrameBadge (endB : Bool) (badge : Nat) (s : State) : State :=
  match (endOf s endB).rx with
  | none => s
  | some r =>
    if r.hdr.adm != 0 || r.badge.isSome then s
    else decideOrdered endB true (badge == s.sys.badge) badge (modRx endB (fun x => { x with badge := some badge }) s)

def execOpenFrameBadge (endB : Bool) (badge : Nat) (s : State) : Out := .next (openFrameBadge endB badge s)

/-! The tail (R61 to R66). -/

/-- The copy of a forwarded frame that leaves through the other end. -/
def modCopy (endB : Bool) (r : RxFrame) (f : WireFrame → WireFrame) (s : State) : State :=
  if r.dec != .forwarded then s
  else onEnd (!endB) (fun e =>
    if r.inBuf && !e.buf.isEmpty then { e with buf := e.buf.modify (e.buf.length - 1) f } else { e with tx := e.tx.map f }) s

/-- The outgoing copy ends with an error block (R61); POISON_OUT counts where `count` says so. -/
def poisonCopy (endB : Bool) (r : RxFrame) (count : Bool) (s : State) : State :=
  if r.dec != .forwarded then s
  else when' count (cntEnd endB 6)
    (modCopy endB r (fun w => { w with bad := true, hdr := if r.inBuf then { w.hdr with poison := true } else w.hdr }) s)

/-- TAIL_FAIL, the first in a basic cycle (R40). -/
def tailFail (endB : Bool) (code : Nat) (s : State) : State := raiseFirst 6100 61 (b2n endB * 256 + code) s

/-- The train number in SRC is one whose keys this car holds (R311). -/
def trainKnown (s : State) (h : Hdr) : Bool :=
  let t := h.src / 64
  if s.inaug.numbering.isEmpty then (match s.inaug.beacon with | some b => t == be b.raw 13 1 | none => false)
  else t == s.inaug.train || (t == s.inaug.prevTrain && (match s.inaug.graceUntil with | some g => decide (trainTime s < g) | none => false))

/-- DST matches GRP and ALL, and nothing reserved is set (R53, R54). -/
def headerOk (h : Hdr) : Bool :=
  h.rsv1 == 0 && h.rsv4 == 0 && h.rsv6 == 0 && h.rsv20 == 0 && decide (h.len ≤ 1996)
    && decide (1 ≤ h.ftype) && decide (h.ftype ≤ 11)
    && (match h.grp, h.all with
        | false, false => true
        | true, false => decide (0x3F00 ≤ h.dst)
        | false, true => h.dst == 0x3FFF
        | true, true => false)

/-- FTYPE is permitted in a stall of an entry (R163); open and keyed frames are told apart where R163 does. -/
def typePermitted (e : List Word) (ftype : Nat) (isOpen : Bool) : Bool :=
  match enType e with
  | 0 => ftype == ftReference
  | 1 => ftype == ftShadow
  | 2 =>
    match enKind e with
    | 0 => ftype == ftCyclic || ftype == ftControl || ftype == ftHost
    | 1 => ftype == ftDelay
    | 2 => ftype == ftControl || ftype == ftHost
    | _ => false
  | 3 => ftype == ftSentence || ftype == ftEvent || ftype == ftControl || ftype == ftHost || ftype == ftBulk
  | 4 => if isOpen then ftype == ftAdmission || ftype == ftInauguration else ftype == ftAdmission || ftype == ftControl
  | 5 => ftype == ftSentence || ftype == ftEvent || (ftype == ftInauguration && !isOpen)
  | _ => false

/-- 1 ns and 0.1 ns in units of a tenth of 2^-16 ns. -/
def uNs (n : Nat) : Int := (n : Int) * 655360
def uTenth (n : Nat) : Int := (n : Int) * 65536

/-- The start in ns of the occurrence of an entry in a basic cycle that lies nearest to L (R176). -/
def nearestS (s : State) (e : List Word) (cycle : Nat) (l : Int) : Int :=
  let per := uNs (planNbc s * cycleP s)
  let base := uNs (cycle * cycleP s + enStart e * 100)
  (base + per * ((l - base + per / 2) / per)) / 655360

/-- Where a copy's launch estimate lies: before the window, after it, or in it (R176). -/
inductive Window where
  | early | late | inside
deriving DecidableEq, Repr

/-- The launch estimate of a copy (R176). -/
def launchEst (s : State) (h : Hdr) (tl : Int) : Int :=
  tl * 10 - h.corr * 10 - ((h.hops + 1) * pLinkDefault s : Nat) * 65536

def windowOf (s : State) (e : List Word) (h : Hdr) (tl : Int) (eb : Nat) : Window :=
  let l := launchEst s h tl
  let st := nearestS s e h.cycle l * 655360
  let half := uNs (planGuard s * 50)
  let m := uNs eb + uTenth ((h.hops + 1) * pLinkTol s)
  if l < st - half - m then .early
  else if st + uNs (enLength e * 100) - half + m < l + uTenth (wireTime h.len) then .late
  else .inside

/-- What the delivery checks of R175 say. -/
inductive Verdict where
  | wrongStall | notOwner | early | late | pass
deriving DecidableEq, Repr

def stallCheck (s : State) (h : Hdr) (tl : Int) : Verdict :=
  match planFind s h.stall h.cycle with
  | none => .wrongStall
  | some (e, _) =>
    if decide (planNbc s ≤ h.cycle) then .wrongStall
    else if !typePermitted e h.ftype (h.adm == 0) then .wrongStall
    else if enType e == tyExpress && h.prio != 7 then .wrongStall
    else if enCyclic e && h.ftype == ftCyclic && h.len != 8 + enImgLen e then .wrongStall
    else if enType e == tyOwned && !(s.inaug.numbering.any fun n => n.badge == enOwner e && n.adm == h.adm) then .notOwner
    else if enType e == tyGuest then .pass
    else match errBound s with
      | none => .pass
      | some eb =>
        match windowOf s e h tl eb with
        | .early => .early
        | .late => .late
        | .inside => .pass

/-- The first WRONG_STALL, NOT_OWNER, EARLY or LATE of a basic cycle is reported (R187). -/
def stallReject (v : Verdict) (h : Hdr) (s : State) : State :=
  let d := h.stall % 128 * 256 + h.cycle % 64
  match v with
  | .wrongStall => raiseFirst 8700 87 d (cntStall 6 s)
  | .notOwner => raiseFirst 8700 87 (32768 + d) (cntStall 7 s)
  | .early => raiseFirst 8300 83 d (cntStall 4 s)
  | .late => raiseFirst 8300 83 (32768 + d) (cntStall 5 s)
  | .pass => s

/-- A group is set in the car's map with a listener here (R177, R206, R210). -/
def groupHere (s : State) (g : Nat) : Bool := s.sent.gmaps.any fun m => m.num == g && m.mapped && m.mask != 0

/-- The car's own address; none while it has no number. -/
def ownAddr (s : State) : Option Nat := s.inaug.car.map fun n => s.inaug.train * 64 + n

/-- DEST of a CYCLIC entry includes this car (R177). -/
def destHere (s : State) (e : List Word) : Bool := enDest e == 1 || (enDest e == 2 && groupHere s (enGroup e))

/-- The destination matches this car, whose address in that epoch is given. A car without a number takes what names car
field 63 (R105). -/
def destMatch (s : State) (h : Hdr) (addr : Option Nat) : Bool :=
  if h.all then true
  else if h.grp then groupHere s (h.dst - 0x3F00)
  else match addr with
    | some a => h.dst == a
    | none => h.dst % 64 == 63

/-! Delivery (R77, R101). -/

/-- The subtype of an INAUGURATION or ADMISSION payload. -/
def subType (p : List Byte) : Nat := be p 8 1

/-- LEN a subtype requires, by FTYPE and key; none for an unknown subtype (R89, R90; log 17: CENSUS is sent with 20 bytes and needs 17). -/
def subLen (ftype : Nat) (isOpen : Bool) (p : List Byte) : Option Nat :=
  match ftype, isOpen, subType p with
  | 8, true, 1 => some 654
  | 8, true, 2 => some 13
  | 8, false, 3 => some 26
  | 8, false, 4 => some 17
  | 8, false, 5 => some 36
  | 8, false, 6 => some (20 + 12 * max 1 (min 64 (be p 14 1)))
  | 8, false, 7 => some 21
  | 8, false, 8 => some 24
  | 8, false, 9 => some (20 + max 1 (min 1024 (be p 18 2)))
  | 8, false, 10 => some 52
  | 8, false, 11 => some 18
  | 8, true, 12 => some 13
  | 7, true, 0x21 => some 13
  | 7, true, 0x22 => some 614
  | 7, true, 0x23 => some 820
  | 7, false, 0x24 => some 48
  | _, _, _ => none

/-- Reserved fields of a subtype's body are zero (R88, R90). Bytes and FLAGS bits between the fields that R90 lists count as reserved,
the low bits of POSITION's byte 19 and of a role byte do not (DESIGN CHOICE, log 40). A COUNT outside 1 to 64, a DATA_LEN outside 1 to 1,024 and a
PRESENT whose FLAGS[7] is 0 count as malformed too (DESIGN CHOICE, log 40). -/
def subZero (p : List Byte) : Bool :=
  let flags := be p 9 1
  zeros p 10 2 &&
    (match subType p with
     | 1 => flags % 64 == 0 && zeros p 17 3 && natBits (be p 16 1) 6 4 == 0
     | 3 => flags == 0 && zeros p 14 2
     | 4 => flags == 0 && zeros p 17 3
     | 6 => flags == 0 && zeros p 18 2 && natBits (be p 12 2) 15 12 == 0 && decide (1 ≤ be p 14 1) && decide (be p 14 1 ≤ 64)
     | 9 => flags == 0 && decide (1 ≤ be p 18 2) && decide (be p 18 2 ≤ 1024)
     | 10 => flags == 0 && zeros p 17 3
     | 12 => flags == 0x80
     | 0x24 => flags == 0 && zeros p 14 2
     | _ => flags == 0)

/-- A payload that may be acted on (R88). -/
def inaugOk (h : Hdr) (p : List Byte) : Bool :=
  match subLen h.ftype (h.adm == 0) p with
  | none => false
  | some n => decide (n ≤ p.length) && subZero p

/-- The body of a CONTROL payload by its OP: 1 = one word, 2 = one to sixteen words (R428). -/
def ctlBodyOk (op : Nat) (b : List Byte) : Bool :=
  let n := b.length
  let words := n % 4 == 0 && decide (4 ≤ n) && decide (n ≤ 64)
  match op with
  | 0x01 => words
  | 0x02 => n == 0
  | 0x03 => n == 4
  | 0x04 => words
  | 0x05 => n == 4 && decide (1 ≤ le b 0 4 / 65536) && decide (le b 0 4 / 65536 ≤ 16)
  | 0x06 => words
  | 0x07 => n == 4
  | 0x10 => n % 12 == 0 && decide (0 < n) && (List.range (n / 12)).all fun i => be b (12 * i + 1) 1 / 4 == 0 && zeros b (12 * i + 2) 2
  | 0x11 => n == 396 && decide (be b 4 1 < 16) && zeros b 5 3
  | 0x12 => n == 20
  | 0x13 => n == 16
  | 0x14 => decide (8 < n) && zeros b 5 3
  | 0x15 => n == 8
  | _ => false

/-- A CONTROL payload keeps the layout of R428. -/
def ctlOk (p : List Byte) : Bool :=
  let op := be p 0 1
  let win := be p 7 1
  decide (8 ≤ p.length) && be p 1 1 == 0 && decide (be p 6 1 < 4) &&
    (if op == 1 || op == 2 || op == 3 || op == 4 then decide (12 ≤ win) && decide (win ≤ 15) else win == 0) &&
    ctlBodyOk op (p.drop 8)

/-- A CONTROL payload that breaks the layout is counted; a message or a read request is answered with INTEGRITY (R428, R432). -/
def badControl (h : Hdr) (p : List Byte) (s : State) : State :=
  let s1 := cntStrm 10 s
  let op := be p 0 1
  if decide (8 ≤ p.length) && (op == 1 || op == 5) then
    ctlSend h.src .plain (ctlPayload (if op == 1 then 3 else 7) (be p 2 2) (be p 4 2) 0 (if op == 1 then be p 7 1 else 0) (leBytes 4 0x0C)) s1
  else s1

/-- A CENSUS copy's hop count (R97): both copies of one CENSUS_ID are taken, the second one too. -/
def censusHeard (h : Hdr) (p : List Byte) (s : State) : State :=
  if h.ftype == ftInauguration && be p 8 1 == 4 && inaugOk h p then
    let id := be p 12 4
    let n := h.hops + 1
    s.onInaug fun x =>
      { x with heard := match x.heard with
          | some (i, t, px, py) =>
            if i == id then some (i, t, if h.dirY then px else n, if h.dirY then n else py)
            else some (id, trainTime s, if h.dirY then 0 else n, if h.dirY then n else 0)
          | none => some (id, trainTime s, if h.dirY then 0 else n, if h.dirY then n else 0) }
  else s

/-- ORIENT is learnt from the first INAUGURATION frame accepted (R45): a keyed one once its layout stands, an open one once
its signature has been verified. -/
def learnOrient (endB : Bool) (h : Hdr) (s : State) : State :=
  if h.ftype == ftInauguration && !s.ends.orientSet then
    s.onEnds fun e => { e with orient := h.dirY == endB, orientSet := true }
  else s

/-- A frame for the firmware, the sentence engine or the bridge waits for the row that acts on it. -/
def toQueue (endB : Bool) (r : RxFrame) (p : List Byte) (s : State) : State :=
  let h := r.hdr
  if (h.ftype == ftInauguration || h.ftype == ftAdmission) && !inaugOk h p then cntInaug 3 s
  else if h.ftype == ftControl && !ctlOk p then badControl h p s
  else
    let s1 := if h.adm == 0 then s else censusHeard h p (learnOrient endB h s)
    s1.onLane fun l => { l with
      rxq := l.rxq ++ [{ hdr := h, endB := endB, stamp := r.stamp, at_ := tc 64 (r.tl / 65536), payload := p }] }

/-- An outbound HOST frame leaves on its stream channel (R55, R423). -/
def hostOut (h : Hdr) (p : List Byte) (s : State) : State :=
  let ch := be p 2 2
  if p.length < 4 || ch < 52 || decide (55 < ch) then s
  else strmPush { ch := ch, seq := 0, param := 0, payload := leBytes 4 (be p 0 2 * 65536 + h.src) ++ p.drop 4 } s

/-- A CYCLIC frame reaches the input image of its entry, while DEST includes the car (R177, R180, R181, R183). -/
def cyclicIn (r : RxFrame) (p : List Byte) (s : State) : State :=
  match planFind s r.hdr.stall r.hdr.cycle with
  | none => s
  | some (e, idx) =>
    let occ := (nearestS s e r.hdr.cycle (launchEst s r.hdr r.tl)).toNat
    match s.plan.images.find? fun i => i.entry == idx && !i.out with
    | none => s
    | some im =>
      let mod := fun (f : Image → Image) (t : State) => t.onPlan fun x =>
        { x with images := x.images.map fun i => if i.entry == idx && !i.out then f i else i }
      let s1 := mod (fun i => { i with got := (occ :: i.got).take 64 }) s
      if !destHere s e then s
      else if im.frozen then cntStall 8 s1
      else
        let c : ImageIn := { data := p.drop 8, stamp := r.stamp, cycle := r.hdr.cycle, adm := r.hdr.adm, pubSeq := be p 0 4 }
        mod (fun i => { i with copying := some c }) s1

/-- The frame is delivered to what it is for (R31, R54, R163). -/
def deliver (endB : Bool) (r : RxFrame) (p : List Byte) (s : State) : State :=
  let h := r.hdr
  match h.ftype with
  | 1 => refReceive h p r.tl true s
  | 2 => shadowReceive h p r.tl s
  | 3 => cyclicIn r p s
  | 9 => delayStamp h p r.tl s
  | 10 => hostOut h p s
  | _ => toQueue endB r p s

/-- A held frame of an epoch that the car has adopted, or that it did not adopt in time (R101). -/
def earlyRelease (m : Bool × RxFrame × List Byte) (s : State) : State :=
  if m.2.1.hdr.inaug == s.inaug.epoch && destMatch s m.2.1.hdr (ownAddr s) then cntInaug 1 (deliver m.1 m.2.1 m.2.2 s)
  else oldEpoch m.2.1.hdr.inaug s

/-- After an adoption the hold is emptied (R101). -/
def earlyFlush (s : State) : State :=
  each (s.lane.early.map (·.2)) earlyRelease (s.onLane fun l => { l with early := [] })

/-- An accepted keyed copy at an admitted car: the inauguration epoch and the destination match (R101). -/
def epochDeliver (endB : Bool) (r : RxFrame) (p : List Byte) (s : State) : State :=
  let h := r.hdr
  let e := s.inaug.epoch
  let inGrace := match s.inaug.graceUntil with | some g => decide (trainTime s < g) | none => false
  let known := s.inaug.numbering.any fun n => n.adm == h.adm
  if h.inaug == e then (if destMatch s h (ownAddr s) then deliver endB r p s else s)
  else if h.inaug == (e + 4095) % 4096 && inGrace && known then
    (if destMatch s h (some s.inaug.adoptSys) then cntInaug 0 (deliver endB r p s) else s)
  else if h.inaug == (e + 1) % 4096 && known then
    if h.all || h.grp then (if destMatch s h (ownAddr s) then cntInaug 1 (deliver endB r p s) else s)
    else s.onLane fun l => { l with early := l.early ++ [(trainTime s, endB, r, p)] }
  else oldEpoch h.inaug s

/-- Delivery of an accepted copy (R52, R65, R77). -/
def deliveryCheck (endB : Bool) (r : RxFrame) (p : List Byte) (s : State) : State :=
  let h := r.hdr
  match stallCheck s h r.tl with
  | .pass =>
    if h.adm == 0 then
      let guestStall := match planFind s h.stall h.cycle with | some (e, _) => enType e == tyGuest | none => false
      if guestStall && (h.ftype == ftAdmission || h.ftype == ftInauguration) && destMatch s h (ownAddr s) then
        toQueue endB r p s
      else s
    else if admitted s then epochDeliver endB r p s
    else if s.inaug.role == .guest && !s.sec.keys.isEmpty then
      if h.ftype == ftReference then refReceive h p r.tl false s
      else if h.ftype == ftInauguration || (h.ftype == ftControl && !h.all && !h.grp && h.dst % 64 == 63) then deliver endB r p s
      else s
    else s
  | v => stallReject v h s

/-- What a second copy still gives: the hop count of a CENSUS whose first copy was delivered, the master's stamp of a DELAY, a
drive car's stamp of a REFERENCE (R97, R147). -/
def secondCopy (r : RxFrame) (p : List Byte) (s : State) : State :=
  let h := r.hdr
  if h.ftype == ftReference then (if refOk p then driveExchange h p r.tl s else s)
  else if h.ftype == ftDelay && h.dst == sysAddr s then delayStamp h p r.tl s
  else if s.inaug.heard.any fun x => x.1 == be p 12 4 then censusHeard h p s
  else s

/-- The source of an arriving frame: an open one's badge, or its ADMIT (R69). -/
def sourceOf (r : RxFrame) : Option (Bool × Nat) :=
  if r.hdr.adm == 0 then r.badge.map fun b => (true, b) else some (false, r.hdr.adm)

/-- Duplicate discard at the tail, then delivery (R75). A header that R53 refuses bars the delivery alone. -/
def acceptTail (endB : Bool) (r : RxFrame) (p : List Byte) (s : State) : State :=
  match sourceOf r with
  | none => s
  | some (isOpen, id) =>
    match srcFind s isOpen id with
    | none => s
    | some e =>
      let s1 := modSrc isOpen id (fun x => afterTail x r.hdr.dirY r.hdr.seq r.hdr.key (trainTime s) s.clk.c) s
      if !headerOk r.hdr then s1
      else match fateOf e r.hdr.dirY r.hdr.seq with
        | .stale => s1
        | .duplicate => secondCopy r p s1
        | .accepted => deliveryCheck endB r p s1

/-- A copy whose tail check can still pass and be accepted. -/
def mayAccept (r : RxFrame) : Bool :=
  match r.dec with
  | .returned => false
  | .poisonedIn => false
  | _ => !r.full

/-- A copy of the same frame stands before its tail at end A (R76). -/
def sameAtA (s : State) (r : RxFrame) : Bool :=
  match s.ends.a.rx with
  | some a => mayAccept a && (sourceOf a).isSome && sourceOf a == sourceOf r && a.hdr.seq == r.hdr.seq
  | none => false

/-- Copies from end B that stood back take their turn: end A's copy has had its tail, or the lane clock cycle is over (R76). -/
def flushTails (s : State) : State :=
  each s.lane.tailB (fun x => acceptTail true x.1 x.2) (s.onLane fun l => { l with tailB := [] })

/-- The frame passed the FCS, the length and the tag (R63, R66); a header that R53 refuses counts once, as order 4 of R58 counted
it. Where both ends hold copies of one frame at their tails in the same lane clock cycle, end A's is the first copy (R76). -/
def tailPassed (endB : Bool) (r : RxFrame) (p : List Byte) (s : State) : State :=
  let h := r.hdr
  let s1 := cntEnd endB 0 s
  match r.dec with
  | .returned => if h.ftype == ftReference then refReturn h p r.tl s1 else s1
  | .poisonedIn => s1
  | _ =>
    let s2 := when' (!headerOk h && r.dec != .badLen) (cntEnd endB 8) s1
    if r.full then s2
    else if endB && sameAtA s r then s2.onLane fun l => { l with tailB := l.tailB ++ [(r, p)] }
    else acceptTail endB r p s2

/-- The key that a frame's tag is checked with: the open key, or that of EPOCH.KEY (R52, R61). -/
def tailKey (s : State) (h : Hdr) : Option Nat :=
  if h.adm == 0 then some openKey
  else if trainKnown s h then (s.sec.keys.find? fun k => k.epoch == h.key).map (·.key) else none

/-- The FCS is right, and the length on the wire is that of LEN (R47, R61): `body` is all that stands between header and tag. -/
def fcsPasses (h : Hdr) (body : List Byte) (tag : BitVec 128) (fcs : BitVec 32) : Bool :=
  fcs == fcsOf h body tag && body.length == max h.len 12

/-- The tail of a frame has arrived (R61 to R66): first poison, then FCS and length, then the tag under the frame's key. -/
def tailChecks (endB : Bool) (r : RxFrame) (body : List Byte) (tag : BitVec 128) (fcs : BitVec 32) (errBlock badBlock : Bool)
    (s : State) : State :=
  let h := r.hdr
  if errBlock || h.poison then
    if r.dec == .returned then s
    else
      let s1 := when' (errBlock || badBlock) (cntEnd endB 13) s
      poisonCopy endB r false (when' (r.dec != .poisonedIn) (cntEnd endB 5) s1)
  else
    let s0 := when' badBlock (cntEnd endB 13) s
    if !fcsPasses h body tag fcs then poisonCopy endB r true (tailFail endB 1 (cntEnd endB 3 s0))
    else
      let wire := body.take h.len
      match tailKey s h with
      | none =>
        let s1 := cntEnd endB 7 s0
        if h.ftype == ftReference && s.inaug.role == .guest && s.sys.dev == .integrating && s.sec.keys.isEmpty
            && !s.ref.usedNow && r.dec != .returned then
          refReceive h wire r.tl false s1
        else s1
      | some k =>
        if tag == tagOf k h wire then tailPassed endB r (confText k h wire) s0
        else
          let s1 := tailFail endB 2 (cntEnd endB 4 s0)
          if s.inaug.role == .guest && s.sec.keys.isEmpty then s1 else poisonCopy endB r true s1

/-- FRAME_TAIL (R61): what stood between header and tag, the tag, the FCS, whether the frame ended in an error block, and
whether it contained an invalid block. -/
def frameTail (endB : Bool) (body : List Byte) (tag : BitVec 128) (fcs : BitVec 32) (errBlock badBlock : Bool) (s : State) :
    State :=
  match (endOf s endB).rx with
  | none => s
  | some r =>
    let s0 := onEnd endB (fun e => { e with rx := none })
      (modCopy endB r (fun w => { w with payload := body, prot := .carried tag }) s)
    let s1 := tailChecks endB r body tag fcs errBlock badBlock s0
    if endB then s1 else flushTails s1

def execFrameTail (endB : Bool) (body : List Byte) (tag : BitVec 128) (fcs : BitVec 32) (errBlock badBlock : Bool) (s : State) :
    Out := .next (frameTail endB body tag fcs errBlock badBlock s)

/-- A frame's hold in the pass buffer, in 2^-16 ns at the car's rate, joins its residence in CORR (R59). -/
def addHold (now : Nat) (rate : Int) (w : WireFrame) : WireFrame :=
  let d : Int := (now - w.at_ : Nat) * 65536
  { w with hdr := { w.hdr with corr := sx 48 (tc 48 (w.hdr.corr + d + d * rate / 2 ^ 40)) } }

/-- PASS_BUFFER_RELEASE (R60): the frame that was leaving has ended, and the held frame leaves; another that arrives
meanwhile is held behind it. A hold beyond one maximum frame time is reported (R40). -/
def passBufferRelease (endB : Bool) (s : State) : State :=
  let e := endOf s endB
  match e.buf with
  | [] => s
  | w :: rest =>
    if s.clk.c < e.busyUntil then s
    else
      let s1 := onEnd endB (fun x => { x with buf := rest, tx := some (addHold s.clk.c s.clk.rate w), localTx := true,
                                              busyUntil := s.clk.c + (wireTime w.hdr.len + 9) / 10 }) s
      let last := rest.isEmpty
      let s2 := when' last (modRx (!endB) fun r => { r with inBuf := false }) s1
      if w.at_ * 10 + 16448 < s.clk.c * 10 then raise 63 (b2n endB) s2 else s2

def execPassBufferRelease (endB : Bool) (s : State) : Out := .next (passBufferRelease endB s)

/-- EARLY_FRAME_HOLD_EXPIRY (R101): held for TRANSIT_T without adoption. -/
def earlyFrameHoldExpiry (s : State) : State :=
  let gone := s.lane.early.filter fun m => decide (m.1 + pTransit s ≤ trainTime s)
  let s1 := s.onLane fun l => { l with early := l.early.filter fun m => !decide (m.1 + pTransit s ≤ trainTime s) }
  each gone (fun m => oldEpoch m.2.2.1.hdr.inaug) s1

def execEarlyFrameHoldExpiry (s : State) : Out := .next (earlyFrameHoldExpiry s)

end Sys2Proof.Machine
end

