-- ==== Sys2Proof/Machine/Launch.lean ====
section
/-!
DEFINITION. Insertion at the source: the stall occurrence at this instant, the launch conditions, the commitment of a
frame with its SEQ, the order within an occurrence, and CYCLIC images (R67, R163, R169 to R173, R180 to R183,
R208, R209, R446).
-/

namespace Sys2Proof.Machine

open Sys2Proof

/-- An occurrence of a stall (R162): its entry, the entry's index, its start in ns of train time and the cycle number. -/
structure Occ where
  e     : List Word
  idx   : Nat
  start : Nat
  cycle : Nat
deriving DecidableEq, Repr

/-- The occurrence that holds this instant, of an entry that satisfies a condition. -/
def occFind (s : State) (p : List Word → Bool) : Option Occ :=
  if !planLoaded s then none
  else
    let t := trainTime s
    let tc := t / cycleP s * cycleP s
    let c := cycleOf s t
    (s.plan.entries.zipIdx.find? fun x =>
      p x.1 && enApplies x.1 c && decide (tc + enStart x.1 * 100 ≤ t) && decide (t < tc + (enStart x.1 + enLength x.1) * 100)).map
      fun x => { e := x.1, idx := x.2, start := tc + enStart x.1 * 100, cycle := c }

/-- The occurrence that holds this instant; stalls of one cycle never overlap (R166). -/
def occNow (s : State) : Option Occ := occFind s fun _ => true

/-- E − G of an occurrence in 0.1 ns. -/
def occEnd (s : State) (o : Occ) : Nat := (o.start + enLength o.e * 100 - planGuard s * 100) * 10

/-- t + F(LEN) ≤ E − G (R169). -/
def roomLeft (s : State) (o : Occ) (len : Nat) : Bool := decide (trainTime s * 10 + wireTime len ≤ occEnd s o)

/-- Outside GUEST stalls the insertion deadline holds (R170). -/
def deadlineOk (s : State) (o : Occ) : Bool := enType o.e == tyGuest || withinDeadline s

/-- An end takes a local frame now (R60, R172): UP, idle, and no earlier committed copy waits there. -/
def endReady (s : State) (endB : Bool) : Bool :=
  (endOf s endB).st == .up && egressIdle s endB && !(s.lane.copies.any fun c => c.endB == endB)

/-- The direction of a copy that leaves through an end (R44, R45). -/
def dirOfEnd (s : State) (endB : Bool) : Bool := endB != s.ends.orient

/-- SEQ stops here (R50). -/
def seqStop : Nat := 0xFFFFF0000000

/-- The SEQ a frame would take. -/
def seqOf (s : State) (isOpen : Bool) : Nat := if isOpen then s.lane.openSeq else s.lane.seq

/-- The series after a frame (R50, R105). An open series that is used up goes on in the next boot's, with the boot
count raised and entered in the journal (R465). -/
def seqUsed (isOpen : Bool) (s : State) : State :=
  if isOpen then
    if s.lane.openSeq % 2 ^ 32 == 0xFFFFFFFF then
      let b := s.flash.bootCount + 1
      (journalEntry (s.onFlash fun f => { f with bootCount := b })).onLane fun l => { l with openSeq := b % 65535 * 2 ^ 32 }
    else s.onLane fun l => { l with openSeq := l.openSeq + 1 }
  else
    let s1 := s.onLane fun l => { l with seq := l.seq + 1 }
    if s1.lane.seq == seqStop then s1.onInaug fun x => { x with guest := .idle, retryAsked := true } else s1

/-- The header of one copy (R48, R49). -/
def mkHdr (s : State) (f : TxFrame) (o : Occ) (seq : Nat) (dirY : Bool) : Hdr :=
  { ftype := f.ftype, prio := f.prio, grp := f.grp, all := f.all, conf := enConf o.e && !f.open_, rsv1 := 0,
    inaug := f.epoch.getD s.inaug.epoch, key := s.sec.cur, rsv4 := 0, src := srcField s, rsv6 := 0, dst := f.dst, seq := seq,
    stall := enStall o.e, cycle := o.cycle, len := f.payload.length, adm := if f.open_ then 0 else s.inaug.adm,
    rsv20 := 0, dirY := dirY, hops := 0, poison := false, held := false, rsvM := 0, corr := 0 }

/-- The key that seals a frame of this car: the open key, or that of its EPOCH.KEY (R52, R61). -/
def sealKey (s : State) (h : Hdr) : Nat :=
  if h.adm == 0 then openKey else ((s.sec.keys.find? fun k => k.epoch == h.key).map (·.key)).getD 0

/-- A copy starts out of an end, sealed as it goes (R46). -/
def startCopy (endB : Bool) (h : Hdr) (p : List Byte) (s : State) : State :=
  cntEnd endB 2 (onEnd endB (fun e => { e with
    tx := some { hdr := h, payload := p, prot := .own (sealKey s h), bad := false, at_ := s.clk.c }, localTx := true,
    busyUntil := s.clk.c + (wireTime p.length + 9) / 10 }) s)

/-- What follows the launch of a frame's first copy. -/
def afterLaunch (f : TxFrame) (s : State) : State :=
  match f.tag with
  | .plain => s
  | .bulk _ => s
  | .reply ch => (modMang ch (fun m => { m with outFull := false }) s).onBrg fun b => { b with origin := b.origin.eraseP fun o => o.ch == ch }
  | .accept _ => s
  | .readReq id => s.onHost fun h => { h with rdBuf := match h.rdBuf with
      | .waiting k off n r _ far => if r == id then .waiting k off n r (some (trainTime s)) far else h.rdBuf
      | _ => h.rdBuf }
  | .rekey adm =>
    let again := match s.sec.rot with
      | some r => r.blocks.any fun b => b.adm == adm && b.resent != 0
      | none => false
    cntSec (if again then 4 else 3) (s.onSec fun x =>
      { x with rot := x.rot.map fun r => { r with blocks := r.blocks.map fun b =>
          if b.adm == adm then { b with sentAt := some (trainTime s) } else b } })
  | .posSent => s.onInaug fun x => { x with posDue := x.posDue.drop 1 }
  | .commit => s.onLdr fun l => { l with copyAt := some (trainTime s) }
  | .admQuote => s.onInaug fun x => { x with guest := .asked (trainTime s) }
  | .dissolve =>
    let w := s.ldr.winner
    (loseAndSeek (raise 92 2 s)).onLdr fun l => { l with winner := w }

/-- The lists of R171 and R173 belong to the occurrence that is current. -/
def enterOcc (o : Occ) (s : State) : State :=
  if s.lane.occ == o.start * 10 then s
  else s.onLane fun l => { l with occ := o.start * 10, blockedA := [], blockedB := [], deferred := [] }

/-- A class is blocked at an end in an occurrence (R171). -/
def blockedAt (s : State) (o : Occ) (endB : Bool) (cls : Nat) : Bool :=
  s.lane.occ == o.start * 10 && (if endB then s.lane.blockedB else s.lane.blockedA).contains cls

/-- A class is blocked at every end that is UP. -/
def blockedAll (s : State) (o : Occ) (cls : Nat) : Bool :=
  [false, true].all fun b => (endOf s b).st != .up || blockedAt s o b cls

/-- Commit a frame to an occurrence: it takes its SEQ, its first copy starts, and a copy that another end cannot start
now waits there (R172). At an end where its class is blocked it leaves no copy: that one is missed (R171, R172). `together`
launches both copies at one instant or not at all (R125). `none` when no copy can be launched. -/
def commit (f : TxFrame) (o : Occ) (together : Bool) (s : State) : Option State :=
  let len := f.payload.length
  let up := [false, true].filter fun b => (endOf s b).st == .up
  let ready := up.filter fun b => endReady s b && !blockedAt s o b f.prio
  if ready.isEmpty || (together && ready.length != up.length) || !roomLeft s o len
      || (!f.open_ && decide (seqStop ≤ s.lane.seq)) then none
  else
    let q := seqOf s f.open_
    let s1 := each ready (fun b => startCopy b (mkHdr s f o q (dirOfEnd s b)) f.payload) (noteStamp s)
    let rest := up.filter fun b => !ready.contains b && !blockedAt s o b f.prio
    let s2 := (each (up.filter fun b => blockedAt s o b f.prio) (fun _ => cntStall 2) s1).onLane fun l => { l with copies := l.copies ++ rest.map fun b =>
      { endB := b, hdr := mkHdr s f o q (dirOfEnd s b), payload := f.payload, occEnd := occEnd s o } }
    some (afterLaunch f (seqUsed f.open_ s2))

/-- The car's state and role let it insert in a stall (R163, R102). The frame's type is asked by typePermitted. -/
def mayInsert (s : State) (o : Occ) (ftype : Nat) (isOpen : Bool) (p : List Byte) : Bool :=
  let member := admitted s && onTrain s
  match enType o.e with
  | 0 => s.clk.st == .master && s.inaug.omitted == 0
  | 1 => s.inaug.role == .backup && enStall o.e == s.inaug.rank && s.clk.st == .locked && member && s.inaug.omitted == 0
  | 2 => enOwner o.e == s.sys.badge && s.inaug.omitted == 0 &&
      (if enDelay o.e then member && s.inaug.drive else admitted s && s.sys.dev == .running)
  | 3 => member && s.inaug.omitted == 0
  | 4 =>
    if isOpen then onTrain s || (s.sys.dev == .stopped && be p 8 1 == 12)
    else onTrain s && (s.inaug.role == .guest || s.inaug.guest == .done) && !s.sec.keys.isEmpty
      && (ftype == ftAdmission || be p 0 1 == 0x12)
  | 5 => member && (s.inaug.omitted == 0 || (ftype == ftInauguration && be p 8 1 == 5))
  | _ => false

/-- The occurrence that a committed copy belongs to is now, and R163 and R170 hold as at its first copy (R169, R172). -/
def copyMay (s : State) (c : TxCopy) : Bool :=
  match occNow s with
  | some o => enStall o.e == c.hdr.stall && o.cycle == c.hdr.cycle && occEnd s o == c.occEnd
      && typePermitted o.e c.hdr.ftype (c.hdr.adm == 0) && mayInsert s o c.hdr.ftype (c.hdr.adm == 0) c.payload && deadlineOk s o
  | none => false

/-- A copy is missed: while its occurrence lasts, its class is blocked at its end (R171, R172). -/
def copyMissed (c : TxCopy) (s : State) : State :=
  match occNow s with
  | some o =>
    if occEnd s o == c.occEnd then
      (enterOcc o s).onLane fun l =>
        if c.endB then { l with blockedB := c.hdr.prio :: l.blockedB } else { l with blockedA := c.hdr.prio :: l.blockedA }
    else s
  | none => s

/-- FRAME_COPY_LAUNCH (R172): a committed copy leaves when R169 permits it at its end, or is missed. -/
def frameCopyLaunch (endB : Bool) (s : State) : State :=
  match s.lane.copies.find? fun c => c.endB == endB with
  | none => s
  | some c =>
    let drop := s.onLane fun l => { l with copies := l.copies.erase c }
    if (endOf s endB).st != .up then drop
    else if c.occEnd < trainTime s * 10 + wireTime c.payload.length then copyMissed c (cntStall 2 drop)
    else if egressIdle s endB && copyMay s c then startCopy endB c.hdr c.payload drop
    else s

def execFrameCopyLaunch (endB : Bool) (s : State) : Out := .next (frameCopyLaunch endB s)

/-! Sentence records (R209, R212). -/

/-- The 24 header bytes, the padded body and the end stamp. A record that came from elsewhere keeps its KEY_HASH in place
of the key. -/
def sentenceBytes (x : Sentence) : List Byte :=
  leBytes 4 x.talker ++ leBytes 4 x.stamp.s32
    ++ leBytes 4 (x.stamp.ep * 256 + b2n x.stamp.sync * 128 + b2n x.late * 64 + b2n x.endStamp.isSome * 32 + b2n x.yard * 16
        + b2n x.checked * 8 + b2n x.addr * 4 + b2n x.replay * 2 + b2n x.noise)
    ++ leBytes 4 (keyHash x.key) ++ leBytes 4 x.tseq
    ++ leBytes 4 (x.cls * 2 ^ 29 + b2n x.sup * 2 ^ 28 + b2n x.hist * 2 ^ 27 + b2n x.gap * 2 ^ 26
        + (x.body.length - 1) % 1024 * 65536 + x.rule % 2048)
    ++ padTo (roundUp x.body.length 4) x.body
    ++ (match x.endStamp with | some t => leBytes 4 t.s32 | none => [])

/-- How many sentences from a queue's head fit into a payload: `room` bytes, and only of a class where one is given. -/
def packCount (room : Nat) (only : Option Nat) : List Sentence → Nat
  | [] => 0
  | x :: r =>
    let n := (sentenceBytes x).length
    if n ≤ room && (match only with | some c => x.cls == c | none => true) then packCount (room - n) only r + 1 else 0

/-- The largest LEN that still fits the occurrence now. -/
def maxLen (s : State) (o : Occ) : Nat := min 1996 ((occEnd s o - trainTime s * 10) / 8 - 60)

/-- The send queue whose turn it is: the head of the highest class, then the oldest (R208). -/
def sendPick (q : List (Nat × List Sentence)) : Option (Nat × List Sentence) :=
  q.foldl (fun b x => match b, x.2.head? with
    | none, some _ => some x
    | some y, some h => match y.2.head? with
      | some g => if g.cls < h.cls || (g.cls == h.cls && decide (h.arrived < g.arrived)) then some x else b
      | none => some x
    | _, none => b) none

/-- GSEQ of a stream (R209). -/
def gseqOf (s : State) (stream : Nat) : Nat := ((s.sent.gseq.find? fun x => x.1 == stream).map (·.2)).getD 0

/-- The SENTENCE frame of a stream's first n sentences (R209). -/
def sentenceFrame (s : State) (stream : Nat) (xs : List Sentence) : TxFrame :=
  let grp := decide (stream < 256)
  { ftype := ftSentence, prio := xs.foldl (fun a x => min a x.cls) 7, grp := grp, all := false,
    dst := if grp then 0x3F00 + stream else stream / 65536, open_ := false, tag := .plain,
    payload := beBytes 2 (stream % 65536) ++ [byteOf xs.length, 0] ++ beBytes 4 (gseqOf s stream) ++ xs.flatMap sentenceBytes }

/-- The stream's sentences leave its queue, and GSEQ rises. -/
def sentenceSent (stream n : Nat) (s : State) : State :=
  let g := gseqOf s stream
  s.onSent fun t => { t with
    sendq := (t.sendq.map fun x => if x.1 == stream then (x.1, x.2.drop n) else x).filter fun x => !x.2.isEmpty
    gseq := (stream, (g + 1) % 2 ^ 32) :: t.gseq.filter fun x => x.1 != stream }

/-! EVENT frames (R446). -/

/-- The system address of an event destination; none when its badge is not numbered. -/
def eventDst (s : State) (d : EvDst) : Option Nat :=
  match d with
  | .all => some 0x3FFF
  | .car0 => some (s.inaug.train * 64)
  | .car b => (carOfBadge s b).map fun n => s.inaug.train * 64 + n

/-- Records are packed for the destination of the oldest; those of a badge that is no longer numbered are dropped, and the next oldest
names the destination. -/
def eventPrune : Nat → State → State
  | 0, s => s
  | n + 1, s =>
    match s.ev.trainQ with
    | [] => s
    | x :: _ =>
      if (eventDst s x.1).isSome then s
      else eventPrune n (cntEvBy 8 (s.ev.trainQ.filter fun y => y.1 == x.1).length
        (s.onEv fun v => { v with trainQ := v.trainQ.filter fun y => y.1 != x.1 }))

/-- An EVENT frame as far as an occurrence permits one. -/
def eventProbe (s : State) : TxFrame :=
  { ftype := ftEvent, prio := s.ev.prio, grp := false, all := true, dst := 0, open_ := false, tag := .plain, payload := [] }

/-- The EVENT frame of records of one destination. -/
def eventFrame (s : State) (d : EvDst) (dst : Nat) (xs : List (EvDst × Event × Nat × Nat)) : TxFrame :=
  { ftype := ftEvent, prio := s.ev.prio, grp := false, all := d == .all, dst := dst, open_ := false, tag := .plain,
    payload := [byteOf xs.length, 0, 0, 0] ++ xs.flatMap fun x => eventBytes x.2.1 x.2.2.1 }

/-! Open INAUGURATION frames, ADMISSION frames and POSITIONs (R88 to R90). -/

/-- An open INAUGURATION frame. -/
def openInaug (s : State) (sub flags : Nat) (body : List Byte) : TxFrame :=
  { ftype := ftInauguration, prio := 7, grp := false, all := true, dst := 0x3FFF, open_ := true, tag := .plain,
    payload := inaugPayload s sub flags body }

/-- An ADMISSION frame (R89). -/
def admFrame (s : State) (isOpen : Bool) (dst sub : Nat) (body : List Byte) : TxFrame :=
  { ftype := ftAdmission, prio := 7, grp := false, all := false, dst := dst, open_ := isOpen, tag := .plain,
    payload := inaugPayload s sub 0 body }

/-- Byte 19 of a POSITION: the ends, presence and ORIENT (R34, R90). -/
def endsByte (s : State) : Nat :=
  s.ends.a.st.code * 64 + s.ends.b.st.code * 16 + b2n (coupled s false) * 8 + b2n (coupled s true) * 4 + b2n s.ends.orient * 2

/-- A POSITION (R90). -/
def posFrame (s : State) (tag : TxTag) (cid cause px py : Nat) : TxFrame :=
  inaugFrame s tag 5 (beBytes 4 cid ++ [byteOf cause, byteOf px, byteOf py, byteOf (endsByte s)]
    ++ beBytes 8 (s.ends.a.nbr.getD 0) ++ beBytes 8 (s.ends.b.nbr.getD 0))

/-! The order within an occurrence (R171). -/

/-- A frame that could have its turn: one of the waiting frames, a stream's sentences, or records of a destination. -/
inductive Cand where
  | frame (i : Nat)
  | sentences (stream n : Nat)
  | events (dest : EvDst) (n : Nat)
  | position
deriving DecidableEq, Repr

/-- A candidate with its class, its arrival, and the frame it would be. -/
structure Turn where
  cand  : Cand
  frame : TxFrame
  at_   : Nat
deriving DecidableEq, Repr

/-- R163 permits a waiting frame in an occurrence, for the car's state and role. A DELAY stall carries DELAY alone, and a
CYCLIC stall its CYCLIC frame first (R171). -/
def permitted (s : State) (o : Occ) (f : TxFrame) : Bool :=
  typePermitted o.e f.ftype f.open_ && mayInsert s o f.ftype f.open_ f.payload
    && !(enType o.e == tyOwned && enDelay o.e) && (!enCyclic o.e || s.lane.cyclicOcc == some o.start)
    && (enType o.e != tyExpress || f.prio == 7)

/-- The oldest unsolicited POSITION of a member, an omitted one too, in an EXPRESS stall that starts after its trigger (R95,
R102). -/
def posTurn (s : State) (o : Occ) : List Turn :=
  match s.inaug.posDue with
  | (cause, at_) :: _ =>
    if enType o.e == tyExpress && decide (at_ ≤ o.start) && admitted s && onTrain s && !isLead s then
      [Turn.mk .position (posFrame s .posSent 0 cause 0 0) at_]
    else []
  | [] => []

/-! Frames with a stall of their own moment (R94, R96 to R98). -/

/-- The next LEAD_STATUS goes into an EXPRESS stall that starts 100 µs after the launch of the previous one (R94). -/
def statusFrom (s : State) : Nat := match s.ldr.statusAt with | none => 0 | some t => t + 100000

/-- A NUMBERING goes into the next EXPRESS stall after its census has closed (R98). -/
def numberingFrom (s : State) : Nat := match s.ldr.census with | some c => if c.closed then c.since else 0 | none => 0

/-- Since when a class-7 frame of such a row waits for its EXPRESS stall: LEAD_STATUS, CENSUS, NUMBERING and HANDOVER at the lead,
the reply to a CENSUS and the DISSOLVE of a takeover at a member. -/
def specialsDue (s : State) : List Nat :=
  if isLead s then
    statusFrom s :: (match s.ldr.census with | some c => if c.sentAt.isNone then [c.since] else [] | none => [])
      ++ (if s.ldr.numberingDue.isSome then [numberingFrom s] else []) ++ s.ldr.handSince.toList
  else (match s.inaug.heard with
    | some (cid, at_, _, _) => if admitted s && cid != s.inaug.replied then [at_ + pTransit s] else []
    | none => []) ++ s.ldr.dissolveSince.toList

/-- Since when the next BEACON of a lead waits for a GUEST stall (R104). -/
def beaconFrom (s : State) : Nat := (s.ldr.beaconAt.map (· + 1000000)).getD 0

/-- Since when the next claim waits for a GUEST stall (R92). -/
def claimFrom (s : State) : Nat := (s.inaug.claimSent.map (· + 1000000)).getD 0

/-- Since when a BEACON or a claim waits for its GUEST stall. -/
def guestDue (s : State) : List Nat :=
  (if isLead s && !s.ldr.beaconNow.isEmpty && !natBit (be s.ldr.beaconNow 9 1) 7 then [beaconFrom s] else [])
    ++ (match s.inaug.cold with | .claiming _ => [claimFrom s] | _ => [])

/-- A frame of class 7 that began to wait at `since` stands behind one of those (R171). -/
def behindSpecial (s : State) (o : Occ) (since : Nat) : Bool :=
  if enType o.e == tyExpress then (specialsDue s).any fun t => decide (t ≤ o.start) && decide (t < since)
  else enType o.e == tyGuest && (guestDue s).any fun t => decide (t ≤ trainTime s) && decide (t < since)

/-- The candidates of an occurrence. -/
def turns (s : State) (o : Occ) : List Turn :=
  let fs := (s.lane.txq.zipIdx.filter fun x => permitted s o x.1).map fun x => Turn.mk (.frame x.2) x.1 x.1.at_
  let sOk := permitted s o { ftype := ftSentence, prio := 7, grp := true, all := false, dst := 0, open_ := false, tag := .plain, payload := [] }
  let express := enType o.e == tyExpress
  let q := if express then s.sent.sendq.filter fun x => (x.2.head?.map (·.cls)) == some 7 else s.sent.sendq
  let ss := if !sOk then [] else match sendPick q with
    | none => []
    | some (stream, xs) =>
      let n := max 1 (min 255 (packCount (maxLen s o - 8) (if express then some 7 else none) xs))
      [Turn.mk (.sentences stream n) (sentenceFrame s stream (xs.take n)) ((xs.head?.map (·.arrived)).getD 0)]
  let eOk := permitted s o (eventProbe s)
  let es := if !eOk then [] else match s.ev.trainQ with
    | [] => []
    | x :: _ =>
      match eventDst s x.1 with
      | none => []
      | some dst =>
        let mine := s.ev.trainQ.filter fun y => y.1 == x.1
        let n := max 1 (min 83 ((maxLen s o - 4) / 24))
        [Turn.mk (.events x.1 (mine.take n).length) (eventFrame s x.1 dst (mine.take n)) x.2.2.2]
  posTurn s o ++ fs ++ ss ++ es

/-- The turn that comes first among classes not blocked: highest class, then first in. -/
def firstTurn (blocked : Nat → Bool) (ts : List Turn) : Option Turn :=
  (ts.filter fun t => !blocked t.frame.prio).foldl (fun b t => match b with
    | none => some t
    | some x => if x.frame.prio < t.frame.prio || (x.frame.prio == t.frame.prio && decide (t.at_ < x.at_)) then some t else b) none

/-- A launched candidate leaves the place where it waited. -/
def takeCand (c : Cand) (s : State) : State :=
  match c with
  | .frame i => s.onLane fun l => { l with txq := l.txq.eraseIdx i }
  | .sentences stream n => sentenceSent stream n s
  | .position => s
  | .events d n =>
    let mine := (s.ev.trainQ.filter fun y => y.1 == d).take n
    cntEvBy 6 n (s.onEv fun v => { v with trainQ := v.trainQ.filter fun y => !mine.contains y })

/-- A frame that had its turn cannot be committed: its class is blocked, and DEFERRED counts once (R171, R173). -/
def deferTurn (cls : Nat) (s : State) : State :=
  let s1 := s.onLane fun l => { l with blockedA := cls :: l.blockedA, blockedB := cls :: l.blockedB }
  if s.lane.deferred.contains cls then s1 else cntStall 1 (s1.onLane fun l => { l with deferred := cls :: l.deferred })

/-- The turns of an occurrence, class by class, until one is launched (R171). -/
def launchTurns (o : Occ) : Nat → State → State
  | 0, s => s
  | n + 1, s =>
    match firstTurn (blockedAll s o) (turns s o) with
    | none => s
    | some t =>
      if t.frame.prio == 7 && behindSpecial s o t.at_ then s
      else if !roomLeft s o t.frame.payload.length then launchTurns o n (deferTurn t.frame.prio s)
      else match commit t.frame o false s with
        | some s1 => takeCand t.cand s1
        | none => s

/-- A silenced car counts an occurrence once (R170). -/
def silencedOnce (o : Occ) (s : State) : State :=
  if s.lane.silencedOcc == o.start * 10 + 1 then s
  else cntStall 0 (s.onLane fun l => { l with silencedOcc := o.start * 10 + 1 })

/-- The occurrence is one that this car owns (R163, R170). -/
def ownsOcc (s : State) (o : Occ) : Bool := enType o.e == tyOwned && enOwner o.e == s.sys.badge && onTrain s

/-- A silenced car: the occurrence counts when the car owns it or had a frame waiting, and each class that had its turn is
deferred (R170, R173). -/
def silencedTurns (o : Occ) (ts : List Turn) (s : State) : State :=
  each (ts.map (·.frame.prio)) (fun c t => if t.lane.deferred.contains c then t else deferTurn c t) (silencedOnce o s)

/-- Records are about to be packed where the occurrence permits their frame (R446). -/
def packEvents (o : Occ) (s : State) : State := if permitted s o (eventProbe s) then eventPrune s.ev.trainQ.length s else s

/-- FRAME_LAUNCH (R169 to R173): the device launches the waiting frame whose turn it is. -/
def frameLaunch (s : State) : State :=
  match occNow s with
  | none => s
  | some o =>
    let s1 := packEvents o (enterOcc o s)
    let ts := turns s1 o
    if ts.isEmpty && !(ownsOcc s1 o && !deadlineOk s1 o) then s1
    else if !deadlineOk s1 o then silencedTurns o ts s1
    else launchTurns o 9 s1

def execFrameLaunch (s : State) : Out := .next (frameLaunch s)

/-! I/O images (R180 to R183). -/

/-- Bytes an image takes: control block, pad and three buffers (R180). -/
def imgSize (i : Image) : Nat := 64 + 3 * roundUp i.len 64

/-- Where an image lies: the images stand in plan order from the start of their region (log 15). -/
def imgAddr (s : State) (entry : Nat) (out : Bool) : Nat :=
  regionBase s 4 + ((s.plan.images.takeWhile fun i => !(i.entry == entry && i.out == out)).map imgSize).sum

/-- The address of one buffer. -/
def imgBuf (s : State) (i : Image) (b : Nat) : Nat := imgAddr s i.entry i.out + 64 + b * roundUp i.len 64

/-- An image changed. -/
def modImg (entry : Nat) (out : Bool) (f : Image → Image) (s : State) : State :=
  s.onPlan fun p => { p with images := p.images.map fun i => if i.entry == entry && i.out == out then f i else i }

/-- The binding of an image: COUPLING and GROUP (R184). -/
def imgBind (s : State) (entry : Nat) : Bool × Nat :=
  match s.plan.binds.find? fun w => natBits w.toNat 31 16 == entry with
  | some w => (natBit w.toNat 2, natBits w.toNat 1 0)
  | none => (false, 0)

/-- The device takes PUBLISH when it names another buffer (R182). -/
def takePublish (i : Image) : Image :=
  if i.hostValid && decide (i.hostBuf ≤ 2) && i.hostBuf != i.ready then
    { i with ready := i.hostBuf, flips := (i.flips + 1) % 65536, pubSeq := (i.pubSeq + 1) % 2 ^ 32, never := false }
  else i

/-- CYCLIC_LAUNCH (R171, R173, R181, R182): the owner sends its current send buffer. -/
def cyclicLaunch (entry : Nat) (s : State) : State :=
  match occFind s fun e => enCyclic e && enOwner e == s.sys.badge with
  | none => s
  | some o =>
    if o.idx != entry || s.lane.cyclicOcc == some o.start || !admitted s || s.sys.dev != .running || s.inaug.omitted != 0 then s
    else
      let seen := s.onLane fun l => { l with cyclicOcc := some o.start }
      if !deadlineOk s o then cntStall 1 (silencedOnce o seen)
      else if !roomLeft s o (8 + enImgLen o.e) then cntStall 1 seen
      else
        match s.plan.images.find? fun i => i.entry == entry && i.out with
        | none => s
        | some i0 =>
          let i := if (imgBind s entry).1 then i0 else takePublish i0
          let a := imgBuf s i i.ready
          let r := loftCheck a i.len 0 s
          if !r.1 then cntStall 1 (r.2.onLane fun l => { l with cyclicOcc := some o.start })
          else
            let grp := enDest o.e == 2
            let f : TxFrame := { ftype := ftCyclic, prio := 6, grp := grp, all := !grp,
                                 dst := if grp then 0x3F00 + enGroup o.e else 0x3FFF, open_ := false, tag := .plain,
                                 payload := beBytes 4 i.pubSeq ++ beBytes 4 0 ++ loftBytes a i.len r.2 }
            match commit f o false r.2 with
            | none => s
            | some s1 =>
              modImg entry true (fun _ => { i with stamp := stampNow s, cycle := o.cycle, adm := s.inaug.adm })
                (s1.onLane fun l => { l with cyclicOcc := some o.start })

def execCyclicLaunch (entry : Nat) (s : State) : Out := .next (cyclicLaunch entry s)

/-! Launching a frame with a stall of its own moment. -/

/-- The first occurrence of a type is now. -/
def occOfType (s : State) (ty : Nat) : Option Occ := occFind s fun e => enType e == ty

/-- A frame has its turn in an EXPRESS occurrence that starts at a train time or later, where class 7 is not blocked and no
other frame of class 7 has waited longer (R94 to R98, R163, R171). -/
def expressTurn (t : Nat) (f : TxFrame) (s : State) : Option Occ :=
  match occOfType s tyExpress with
  | none => none
  | some o =>
    if decide (t ≤ o.start) && permitted s o f then some o else none

/-- Class 7 is free for a frame that began to wait at `since`. -/
def expressFree (o : Occ) (since : Nat) (s : State) : Bool :=
  !blockedAll s o 7 && !(turns s o).any (fun x => x.frame.prio == 7 && decide (x.at_ < since)) && !behindSpecial s o since

/-- Launch a frame now, in an EXPRESS stall that starts at a train time or later; it has waited since `since`. `none` when it
does not leave. -/
def sendExpressFrom (t since : Nat) (f : TxFrame) (s : State) : Option State :=
  match expressTurn t f s with
  | none => none
  | some o => if deadlineOk s o && expressFree o since s then commit f o false s else none

/-- What a frame that had its turn and did not leave is counted as (R170, R171, R173). -/
def expressHeld (t since : Nat) (f : TxFrame) (s : State) : State :=
  match expressTurn t f s with
  | none => s
  | some o =>
    let s1 := enterOcc o s
    if !deadlineOk s1 o then deferTurn 7 (silencedOnce o s1)
    else if expressFree o since s1 && !roomLeft s1 o f.payload.length then deferTurn 7 s1
    else s1

/-- A class-7 frame that waits in a GUEST stall came before one that has waited since `since` (R171). -/
def guestFree (o : Occ) (since : Nat) (s : State) : Bool :=
  !blockedAll s o 7 && !(turns s o).any fun x => x.frame.prio == 7 && decide (x.at_ < since)

/-- Launch an open frame in a GUEST stall now (R104); it has waited since `since`. -/
def sendGuest (since : Nat) (f : TxFrame) (s : State) : Option State :=
  match occOfType s tyGuest with
  | none => none
  | some o => if permitted s o f && guestFree o since s then commit f o false s else none

/-- What such a frame is counted as when it does not fit (R171, R173). -/
def guestHeld (since : Nat) (f : TxFrame) (s : State) : State :=
  match occOfType s tyGuest with
  | none => s
  | some o =>
    let s1 := enterOcc o s
    if permitted s1 o f && guestFree o since s1 && !roomLeft s1 o f.payload.length then deferTurn 7 s1 else s1

end Sys2Proof.Machine
end

