-- ==== Sys2Proof/Machine/Stall.lean ====
section
/-!
DEFINITION. Stall plan at run time: silencing, the check of CYCLIC occurrences, input images, cycle marks and the
field strobe (R170, R177, R182 to R187, R277).
-/

namespace Sys2Proof.Machine

open Sys2Proof

/-- EB_LIMIT_CROSSING (R170): EB passes GUARD × 50 ns, and SILENCE is raised. -/
def ebLimitCrossing (s : State) : State :=
  let now := !withinDeadline s
  if planLoaded s && onTrain s && now != s.lane.silenced then
    raise 81 (min (errBoundWord s) 0xFFFFFF * 256 + b2n now) (s.onLane fun l => { l with silenced := now })
  else s

def execEbLimitCrossing (s : State) : Out := .next (ebLimitCrossing s)

/-- The start of the latest occurrence of an entry that ended at least TRANSIT_T ago; none before the first. -/
def lastOcc (s : State) (e : List Word) : Option Nat :=
  let per := 2 ^ enRepeat e * cycleP s
  let base := enFirst e * cycleP s + enStart e * 100
  let tail := enLength e * 100 + pTransit s
  if trainTime s < base + tail || per == 0 then none
  else some (base + (trainTime s - tail - base) / per * per)

/-- IMAGE, when STALE or OWNER_ABSENT of an input image changes (R187). -/
def imageFlags (entry : Nat) (stale absent : Bool) (s : State) : State :=
  match s.plan.images.find? fun i => i.entry == entry && !i.out with
  | none => s
  | some i =>
    if i.stale == stale && i.absent == absent then s
    else raise 85 (entry * 65536 + b2n stale * 8 + b2n absent * 4)
      (modImg entry false (fun i => { i with stale := stale, absent := absent }) s)

/-- The instant of an occurrence's check, E + TRANSIT_T, is now, and no step passed over it or over the occurrence
(R162, R177). A car that was not checking then does not check later. An occurrence whose start alone was passed over counts as passed
over here, though frames may be inserted in the rest of it (DESIGN CHOICE, log 11). -/
def checkNow (s : State) (e : List Word) (st : Nat) : Bool :=
  let at_ := st + enLength e * 100 + pTransit s
  decide (trainTime s ≤ at_ + 1) && !passedOver s at_ && !passedOver s st

/-- CYCLIC_OCCURRENCE_CHECK (R177). -/
def cyclicOccurrenceCheck (entry : Nat) (s : State) : State :=
  match s.plan.entries[entry]?, s.plan.images.find? fun i => i.entry == entry && !i.out with
  | some e, some i =>
    match lastOcc s e with
    | none => s
    | some st =>
      if !onTrain s || (errBound s).isNone || !enCyclic e || enOwner e == s.sys.badge || !destHere s e || i.checked == some st || !checkNow s e st then s
      else
        let s1 := modImg entry false (fun i => { i with checked := some st }) s
        if (carOfBadge s (enOwner e)).isNone then imageFlags entry i.stale true s1
        else if i.got.contains st then imageFlags entry false false s1
        else
          let s2 := raiseFirst 8200 82 (enStall e * 256 + cycleOf s st) (cntStall 3 s1)
          imageFlags entry true i.absent s2
  | _, _ => s

def execCyclicOccurrenceCheck (entry : Nat) (s : State) : Out := .next (cyclicOccurrenceCheck entry s)

/-- The lowest buffer that satisfies a condition. -/
def lowestBuf (p : Nat → Bool) : Nat := ((List.range 3).find? p).getD 0

/-- READY shows a frame (R181): FLIPS rises and W2 to W4 follow. -/
def expose (b : Nat) (d : ImageIn) (i : Image) : Image :=
  { i with ready := b, flips := (i.flips + 1) % 65536, never := false, stamp := d.stamp, cycle := d.cycle, adm := d.adm,
           pubSeq := d.pubSeq }

/-- The copy into FILL is complete (R182, R183). -/
def filled (mark : Bool) (d : ImageIn) (i : Image) : Image :=
  if mark then
    let old := i.pend
    { i with pend := i.fill, pendIn := some d, copying := none,
             fill := if old ≤ 2 then old else lowestBuf fun b => b != i.ready && b != i.fill }
  else
    let j := expose i.fill d i
    { j with copying := none, fill := lowestBuf fun b => b != j.ready && !(j.hostValid && b == j.hostBuf) }

/-! Cycle marks (R184 to R186). -/

def markRec (s : State) (m : Nat) : List Word := s.plan.marks.getD m []
def markEnabled (r : List Word) : Bool := bit r 0 6
def markApply (r : List Word) : Bool := bit r 1 4
/-- The mark fires in a basic cycle. -/
def markIn (r : List Word) (c : Nat) : Bool := c % 2 ^ bits r 0 9 7 == bits r 0 15 10
/-- The instant of a mark in the basic cycle that a train time lies in. -/
def markInstant (s : State) (r : List Word) (t : Nat) : Nat := t / cycleP s * cycleP s + bits r 0 31 16 * 100

/-- FREEZE fixes PEND of an input image (R183). -/
def freezeImage (i : Image) : Image := if i.out then i else { i with frozen := true }

/-- FLIP exposes PEND, or takes PUBLISH at an output image (R183). -/
def flipImage (i : Image) : Image :=
  if i.out then takePublish i
  else
    let j := { i with frozen := false }
    if i.pend ≤ 2 then
      match i.pendIn with
      | some d => { expose i.pend d j with pend := 3, pendIn := none }
      | none => { j with pend := 3 }
    else j

/-- FREEZE and FLIP of one mark on one image. -/
def markImage (s : State) (a : Nat × Bool × Bool) (i : Image) : Image :=
  if (imgBind s i.entry).1 && natBit a.1 (imgBind s i.entry).2 then
    let j := if a.2.1 then freezeImage i else i
    if a.2.2 then flipImage j else j
  else i

/-- The actions of a mark on images are noted with the images before them, for a copy that completes in the same lane clock
cycle (R183). -/
def noteMark (a : Nat × Bool × Bool) (s : State) : State :=
  s.onPlan fun p =>
    if laneCycle p.markC == laneCycle s.clk.c && !p.markActs.isEmpty then { p with markActs := p.markActs ++ [a] }
    else { p with markC := s.clk.c, markPre := p.images, markActs := [a] }

/-- An input image as a copy meets it: marks of this very lane clock cycle come after the copy (R183). -/
def beforeMarks (s : State) (i : Image) : Image × List (Nat × Bool × Bool) :=
  if laneCycle s.plan.markC == laneCycle s.clk.c && !s.plan.markActs.isEmpty then
    match s.plan.markPre.find? fun x => x.entry == i.entry && x.out == i.out && x.copying == i.copying with
    | some x => (x, s.plan.markActs)
    | none => (i, [])
  else (i, [])

/-- IMAGE_COPY_COMPLETE (R182, R183). An image whose DEST does not include the car takes no copy (R180). -/
def imageCopyComplete (entry : Nat) (s : State) : State :=
  match s.plan.images.find? fun i => i.entry == entry && !i.out with
  | none => s
  | some i0 =>
    match i0.copying with
    | none => s
    | some d =>
      let b := beforeMarks s i0
      let i := b.1
      if i.frozen then cntStall 8 (modImg entry false (fun i => { i with copying := none }) s)
      else
        let s1 := loftWrite (imgBuf s i i.fill) (padTo i.len (d.data.take i.len)) 0 s
        let j := b.2.foldl (fun x a => markImage s a x) (filled (imgBind s entry).1 d i)
        modImg entry false (fun _ => j) s1

def execImageCopyComplete (entry : Nat) (s : State) : Out := .next (imageCopyComplete entry s)

/-- The channels of a strobe take its values (R19, R186, R276). -/
def applyStrobe (x : Strobe) (s : State) : State :=
  fieldSettle (s.onFld fun d => { d with
    ch := d.ch.zipIdx.map fun c => if natBit x.mask c.2 then { c.1 with ownReq := natBit x.vals c.2 } else c.1 })

/-- The APPLY of a mark at an instant is skipped: there is no image and SYNC flag of 10 µs before, or SYNC was clear (R186). -/
def applySkips (at_ : Nat) (s : State) : Bool := decide (at_ < s.plan.markSince + 10000) || !(imageAt s (at_ - 10000)).2

/-- APPLY at a mark: skipped, or the pins change by the strobe that was issued for it (R19, R186). -/
def markApplyAct (m at_ : Nat) (s : State) : State :=
  if applySkips at_ s then raise 86 m (cntStall 9 s)
  else match s.plan.strobes.find? fun x => x.for_ == .mark m && x.at_ == at_ with
    | some x => applyStrobe x (s.onPlan fun p => { p with strobes := p.strobes.filter fun y => y != x })
    | none => s

/-- The marker frame of a mark (R422). -/
def markerFrame (s : State) (m ch at_ : Nat) : SFrame :=
  { ch := ch, seq := 0, param := 0,
    payload := leBytes 4 (s.clk.tepoch * 2 ^ 24 + b2n (synced s) * 2 ^ 23 + cycleOf s at_ % 64 * 256 + m) ++ leBytes 4 (matrixOf s at_)
      ++ leBytes 4 (at_ % 2 ^ 32) ++ leBytes 4 0 }

/-- The actions of a mark in their order (R185). -/
def markActions (m at_ : Nat) (r : List Word) (s : State) : State :=
  let groups := bits r 1 23 20
  let act := (groups, bit r 1 6, bit r 1 5)
  let s2 := when' (bit r 1 6 || bit r 1 5) (fun t => (noteMark act t).onPlan fun p =>
    { p with images := p.images.map (markImage t act) }) s
  let s3 := when' (markApply r) (markApplyAct m at_) s2
  let s4 := when' (bit r 1 3) (fun t => strmPush (markerFrame t m (bits r 1 13 8) at_) t) s3
  when' (bit r 1 7) (fun t =>
    let d := cycleOf t at_ % 64 * 256 + m
    raiseAt { s32 := at_ % 2 ^ 32, ep := t.clk.tepoch, sync := synced t } 84 (d % 256) d 0 t) s4

/-- A mark's instant is now, in a basic cycle that it names; it has not fired there, and no step passed over it (R162, R185). -/
def markDue (s : State) (m : Nat) : Bool :=
  let r := markRec s m
  let t := trainTime s
  let at_ := markInstant s r t
  planLoaded s && onTrain s && markEnabled r && markIn r (cycleOf s t) && (t == at_ || t == at_ + 1)
    && s.plan.fired.getD m 0 != t / cycleP s + 1 && !passedOver s at_

/-- A mark that is due fires. -/
def fireMark (m : Nat) (s : State) : State :=
  let r := markRec s m
  let t := trainTime s
  markActions m (markInstant s r t) r (cntStall 10 (s.onPlan fun p => { p with fired := p.fired.set m (t / cycleP s + 1) }))

/-- CYCLE_MARK_FIRE (R185): once in each basic cycle the mark names, at its instant. Marks of lower number that are due at the
same instant act first. -/
def cycleMarkFire (m : Nat) (s : State) : State :=
  if markDue s m then
    let at_ := markInstant s (markRec s m) (trainTime s)
    each (((List.range m).filter fun k => markDue s k && markInstant s (markRec s k) (trainTime s) == at_) ++ [m]) fireMark s
  else s

def execCycleMarkFire (mark : Nat) (s : State) : Out := .next (cycleMarkFire mark s)

/-- The lead of the field strobe, 5 µs: it is due for a change at a train time now (R19). A counter that steps over the nanosecond
is met at the next one. -/
def strobeNow (s : State) (at_ : Nat) : Bool := trainTime s + 5000 == at_ || trainTime s + 4999 == at_

/-- The marks with APPLY whose strobe is due now. -/
def applySoon (s : State) : List (Nat × Nat) :=
  (List.range 16).filterMap fun m =>
    let r := markRec s m
    let t := trainTime s
    let at_ := markInstant s r (t + 5000)
    if planLoaded s && onTrain s && markEnabled r && markApply r && markIn r (cycleOf s at_) && strobeNow s at_ then some (m, at_) else none

/-- Channels a mark acts on, as a mask. -/
def markMask (s : State) (m : Nat) : Nat :=
  ((List.range 32).map fun n => b2n (chIsOut s n && chMarked s n && chMark s n == m) * 2 ^ n).sum

/-- A pending timed apply will be carried out: its generation is current and its time epoch stands (R278). -/
def timedLive (s : State) (x : Timed) : Bool := x.ep == s.clk.tepoch && (grpOf s x.g).gen == x.gen

/-- The strobes that are due: of every scheduled change 5 µs ahead that will not be skipped or discarded (R186, R277, R278). -/
def strobesDue (s : State) : List Strobe :=
  (((applySoon s).filter fun x => !applySkips x.2 s).map fun x =>
      { for_ := .mark x.1, at_ := x.2, mask := markMask s x.1, vals := (imageAt s (x.2 - 10000)).1 })
    ++ ((s.fld.timed.filter fun x => timedLive s x && strobeNow s x.at_).map fun x =>
      { for_ := .timed x.slot, at_ := x.at_, mask := x.mask * 2 ^ (8 * x.g), vals := x.vals * 2 ^ (8 * x.g) })

/-- OUTPUT_APPLY_STROBE (R19, R277): the lane island issues the field strobe of every scheduled change that is 5 µs away now. -/
def outputApplyStrobe (s : State) : State :=
  s.onPlan fun p => { p with strobes := p.strobes ++ (strobesDue s).filter fun x => !p.strobes.contains x }

def execOutputApplyStrobe (s : State) : Out := .next (outputApplyStrobe s)

end Sys2Proof.Machine
end

