-- ==== Sys2Proof/Machine/Master.lean ====
section
/-!
DEFINITION. Time mastery: REFERENCE, SHADOW and DELAY frames, becoming master, the tether and the self-checks
(R123 to R127, R134, R137 to R147).
-/

namespace Sys2Proof.Machine

open Sys2Proof

/-- The car becomes time master (R139, R144): it asserts TETHER, train time runs on at F, and its routes and exchanges are
those of a change of master (R128, R149). It starts with the FIT bits of the last REFERENCE it used and with its own
history of SHADOWs (DESIGN CHOICE, log 41). -/
def becomeMaster (keep : Bool) (s : State) : State :=
  let s1 := s.onTeth fun t => { t with tdrive := true, released := 0, lowRun := 0 }
  let s2 := if keep then s1 else adoptEpoch ((s1.clk.tepoch + 1) % 256) s1
  let s3 := setTState .master (setRate s2.clk.freq s2)
  let s4 := s3.onRef fun r =>
    { r with
      mbadge := s3.sys.badge, mrole := ownMrole s3, madmit := s3.inaug.adm, refs := [], eps := [], missRun := 0
      abdicate := none, takeNext := none, myFit := r.fit, skipped := trainTime s3 / cycleP s3 + 1 }
  let s5 := driveRestart (routeCalc s4)
  raise 75 (s5.inaug.adm * 65536 + ownMrole s5) (s5.onClk fun k => { k with phase := 0, slewing := false })

/-- The part of a REFERENCE or SHADOW payload before the responses (R126). -/
def timePayload (s : State) (role flags ndc : Nat) (utc : Int) (mbound : Nat) : List Byte :=
  beBytes 8 (tc 64 (timeFx s / 65536)) ++ beBytes 2 (tc 16 (timeFx s)) ++ [byteOf s.clk.tepoch, byteOf role]
    ++ beBytes 8 s.sys.badge ++ beBytes 4 (matrixOf s (trainTime s)) ++ [byteOf flags, byteOf ndc]
    ++ beBytes 2 (tc 16 utc) ++ beBytes 4 mbound

/-- A response entry (R147). -/
def respEntry (d : DelayReq) : List Byte :=
  let half := fun (t : Option Int) => match t with
    | some v => beBytes 8 (tc 64 (v / 65536)) ++ beBytes 2 (tc 16 v)
    | none => beBytes 10 0
  beBytes 2 d.adm ++ [byteOf (b2n d.t2x.isSome * 128 + b2n d.t2y.isSome * 64), 0] ++ beBytes 4 d.reqId ++ half d.t2x ++ half d.t2y

/-- The requests that the next REFERENCE answers (R147). -/
def respDue (s : State) : List DelayReq :=
  (s.teth.delayIn.filter fun d => (d.t2x.isSome && d.t2y.isSome) || decide (d.first + pTransit s ≤ trainTime s)).take 8

/-- MBOUND now: after a loss of lock it grows at DRIFT_PPM (R151). -/
def mboundNow (s : State) : Nat :=
  if s.teth.plant == .holdover then min 0xFFFFFFFF (s.teth.mbound + (pDriftPpm s * (s.clk.c - s.teth.plantAt) + 9999999) / 10000000)
  else s.teth.mbound

/-- The master has plant time (R151). -/
def plantSet (s : State) : Bool := s.teth.plant == .locked || s.teth.plant == .holdover

/-- TFLAGS of a REFERENCE (R126). -/
def refTflags (s : State) : Nat :=
  b2n (plantSet s) * 128 + b2n (s.teth.plant == .locked) * 64 + b2n s.clk.slewing * 32 + b2n s.ref.abdicate.isSome * 16
    + s.ref.myFit % 8 * 2 + b2n (masterClosed s)

/-- The REFERENCE as it stands now. -/
def refFrame (s : State) : TxFrame :=
  let ds := respDue s
  { ftype := ftReference, prio := 7, grp := false, all := true, dst := 0x3FFF, open_ := false, tag := .plain,
    payload := timePayload s (ownMrole s) (refTflags s) ds.length (if plantSet s then s.teth.utc else 0)
      (if plantSet s then mboundNow s else 0xFFFFFFFF) ++ ds.flatMap respEntry }

/-- After its REFERENCE with ABDICATE a master stops and holds over (R138). It used no reference as master, so its EB counts
h, LTOL and θ as 0 and A from here (DESIGN CHOICE, log 42). -/
def abdicateNow (s : State) : State :=
  let s1 := cntTime 7 (setRate s.clk.freq (releaseTether s))
  let s2 := setTState .holdover (s1.onClk fun k => { k with theta := 0, phase := 0, usedAt := k.c })
  let s3 := (s2.onRef fun r => { r with abdicate := none, hops := 0, ltol := 0 }).onTeth fun t => { t with holdCycles := 0, eligible := 0 }
  raise 73 (min s3.ref.missRun 255) s3

/-- REFERENCE_SEND (R125, R126): in stall 0 the master launches its REFERENCE, or finds that none can be launched any
more in this basic cycle, which REF_SKIPPED alone counts (DESIGN CHOICE, log 11). -/
def referenceSend (s : State) : State :=
  let cyc := trainTime s / cycleP s
  if s.clk.st != .master || s.inaug.omitted != 0 || !planLoaded s || s.ref.skipped == cyc + 1 then s
  else
    match occOfType s tyReference with
    | none => s
    | some o =>
      let f := refFrame s
      if !roomLeft s o f.payload.length then cntTime 3 (s.onRef fun r => { r with skipped := cyc + 1 })
      else
        match commit f o true s with
        | none => s
        | some s1 =>
          let ds := respDue s
          let s2 := s1.onTeth fun t =>
            { t with
              delayIn := t.delayIn.filter fun d => !ds.contains d
              answered := (t.answered.filter fun a => !ds.any fun d => d.adm == a.1) ++ ds.map fun d => (d.adm, d.reqId) }
          let s3 := s2.onRef fun r =>
            { r with
              skipped := cyc + 1
              refs := r.refs.drop (r.refs.length - 63) ++ [{ seq := s.lane.seq, at_ := trainTime s, retX := none, retY := none }] }
          if s.ref.abdicate.isSome then abdicateNow s3 else s3

def execReferenceSend (s : State) : Out := .next (referenceSend s)

/-- A SHADOW or DELAY that cannot be launched any more in its occurrence is deferred once (R173). -/
def ownHeld (o : Occ) (f : TxFrame) (s : State) : State :=
  if roomLeft s o f.payload.length then s
  else
    let s1 := enterOcc o s
    if s1.lane.deferred.contains f.prio then s1 else deferTurn f.prio s1

/-- SHADOW_SEND (R127): a LOCKED BACKUP k in stall k. -/
def shadowSend (s : State) : State :=
  match occFind s fun e => enType e == tyShadow && enStall e == s.inaug.rank with
  | none => s
  | some o =>
    if s.inaug.role != .backup || s.clk.st != .locked || s.inaug.omitted != 0 || !onTrain s || s.ref.shadowAt == some o.start then s
    else if !deadlineOk s o then deferTurn 7 (silencedOnce o (enterOcc o s))
    else
      let f : TxFrame := { ftype := ftShadow, prio := 7, grp := false, all := true, dst := 0x3FFF, open_ := false, tag := .plain,
                           payload := timePayload s s.inaug.rank (b2n s.clk.slewing * 32) 0 0 0xFFFFFFFF }
      match commit f o true s with
      | none => ownHeld o f s
      | some s1 => s1.onRef fun r => { r with shadowAt := some o.start }

def execShadowSend (s : State) : Out := .next (shadowSend s)

/-- HOLDOVER_ENTRY (R123, R145): three basic cycles without a reference. SLEWING reads 0 from then on, since no reference is used
(DESIGN CHOICE, log 18). -/
def holdoverEntry (s : State) : State :=
  if s.clk.st == .locked && decide (3 ≤ s.ref.missRun) then
    let th := thetaLeft s
    let s1 := (setRate s.clk.freq s).onClk fun k => { k with theta := th, phase := 0, slewing := false }
    let s2 := s1.onTeth fun t => { t with holdCycles := 0, eligible := 0 }
    raise 73 (min s.ref.missRun 255) (setTState .holdover s2)
  else s

def execHoldoverEntry (s : State) : Out := .next (holdoverEntry s)

/-- WHOLE_SECOND_MARK (R134). -/
def wholeSecondMark (s : State) : State :=
  let n := trainTime s / 1000000000
  if (fwRuns s || s.sys.dev == .recovery) && decide (s.clk.sec < n) then clockMark 5 (s.onClk fun k => { k with sec := n })
  else s

def execWholeSecondMark (s : State) : Out := .next (wholeSecondMark s)

/-- REFCLK_FAULT (R137): mastery is barred until reset. -/
def refclkFault (s : State) : State := if fwRuns s then selfCheckFail 1 0 s else s

def execRefclkFault (s : State) : Out := .next (refclkFault s)

/-- A self-check of a car that is not master only counts toward lifting its bar (R137). -/
def checkBarred (code : Nat) (ok : Bool) (s : State) : State :=
  if ok then selfCheckPass code s
  else s.onRef fun r => { r with barred := r.barred.map fun x => if x.1 == code then (code, 1000) else x }

/-- STAMP_SELF_CHECK (R137): two captures of one strobe, whose difference in ns is given. -/
def stampSelfCheck (diff : Int) (s : State) : State :=
  let ok := decide (diff.natAbs ≤ 2)
  if !fwRuns s then s
  else if s.clk.st == .master && !ok then selfCheckFail 4 1000 s
  else checkBarred 4 ok s

def execStampSelfCheck (diff : Int) (s : State) : Out := .next (stampSelfCheck diff s)

/-- A car that listens because TETHER was low waits out its rank from now (R92). -/
def listenFrom (s : State) : State :=
  let listen := max 10000000 (32 * cycleP s)
  match s.inaug.cold with
  | .listening since =>
    if since + listen < trainTime s then s.onInaug fun x => { x with cold := .listening (trainTime s - listen) } else s
  | _ => s

/-- TETHER_CHANGE (R139): the line has been at a new level for 2 µs; high is released. The lane island takes the level in every
state in which it runs; the firmware acts on it where the recipe says that TETHER is fitted. -/
def tetherChange (level : Bool) (s : State) : State :=
  let s1 := s.onTeth fun t => { t with tetherPin := level }
  if !lanesOn s || s.teth.tether == level then s1
  else
    let s2 := s1.onTeth fun t => { t with tether := level, released := 0, lowRun := 0 }
    if level && pTetherFitted s && fwRuns s then listenFrom (tetherFaultEnd s2) else s2

def execTetherChange (level : Bool) (s : State) : Out := .next (tetherChange level s)

/-- The tether condition of a claim (R140, R143): stall 0 of the first basic cycle after the car has become eligible and has
seen TETHER released for 2 + k whole ones; the one in which the line rose does not count. A car without a tether counts as
under a fault (log 18). -/
def tetherAllows (k : Nat) (s : State) : Bool :=
  if !pTetherFitted s || s.teth.tfault then decide (2 + k ≤ s.teth.eligible)
  else s.teth.tether && decide (2 + k < s.teth.released) && decide (1 ≤ s.teth.eligible)

/-- A claim in stall 0 (R140, R141). -/
def claimNow (keep : Bool) (s : State) : State :=
  let s1 := becomeMaster keep s
  referenceSend (s1.onRef fun r => { r with skipped := 0 })

/-- MASTER_CLAIM (R138, R140, R141). -/
def masterClaim (s : State) : State :=
  let inStall := (occOfType s tyReference).isSome
  if !inStall || !onTrain s || s.inaug.omitted != 0 then s
  else
    let named : Bool := match s.ref.takeNext with
      | some c => trainTime s / cycleP s == c + 1 && s.ref.barred.isEmpty && s.inaug.role == .backup && s.clk.st != .master
      | none => false
    if named then claimNow true s
    else match claimRank s with
      | none => s
      | some k =>
        if claimEligible s && tetherAllows k s then
          let fit := match k with | 0 => true | i + 1 => natBit s.ref.fit i
          claimNow (fit && decide (s.teth.holdCycles ≤ 16)) s
        else s

def execMasterClaim (s : State) : Out := .next (masterClaim s)

/-- TETHER_FAULT_BEGIN (R143). -/
def tetherFaultBegin (s : State) : State :=
  if pTetherFitted s && !s.teth.tfault && !s.teth.tether && decide (8 < s.teth.lowRun) && s.clk.st != .master then
    listenFrom (raise 76 1 (cntTime 8 (s.onTeth fun t => { t with tfault := true, refRun := 0 })))
  else s

def execTetherFaultBegin (s : State) : Out := .next (tetherFaultBegin s)

/-- The DELAY of a request (R146). -/
def delayFrame (s : State) (dst id : Nat) : TxFrame :=
  { ftype := ftDelay, prio := (Config.prioOf ftDelay).toNat, grp := false, all := false, dst := dst, open_ := false, tag := .plain,
    payload := beBytes 8 (tc 64 (timeFx s / 65536)) ++ beBytes 2 (tc 16 (timeFx s)) ++ [byteOf s.clk.tepoch, 0] ++ beBytes 4 id }

/-- DELAY_SEND (R146): a drive car in its delay stall. -/
def delaySend (s : State) : State :=
  match occFind s fun e => enDelay e && enOwner e == s.sys.badge, s.teth.master with
  | some o, some dst =>
    let active := s.teth.dc == .acquiring || s.teth.dc == .dcLocked
    if !active || !admitted s || !onTrain s || s.inaug.omitted != 0 || s.clk.st == .master || s.teth.delayAt == some o.start then s
    else if !deadlineOk s o then deferTurn (Config.prioOf ftDelay).toNat (silencedOnce o (enterOcc o s))
    else
      let id := (s.teth.reqId + 1) % 2 ^ 32
      match commit (delayFrame s dst id) o true s with
      | none => ownHeld o (delayFrame s dst id) s
      | some s1 => cntTime 9 (s1.onTeth fun t =>
          { t with
            reqId := id, delayAt := some o.start
            delayOut := t.delayOut ++ [{ reqId := id, t1 := timeFx s, cycle := trainTime s / cycleP s, answered := false }] })
  | _, _ => s

def execDelaySend (s : State) : Out := .next (delaySend s)

end Sys2Proof.Machine
end

