-- ==== Sys2Proof/Machine/InaugOps.lean ====
section
/-!
DEFINITION. What the rows of inauguration share: taking a delivered frame, signatures verified once, BEACONs and quotes,
the ADMIT allocator, the copy of the lead-car state, group maps, and becoming lead (R89 to R93, R104, R107, R109,
R112 to R114, R206).
-/

namespace Sys2Proof.Machine

open Sys2Proof

/-- The first delivered frame that satisfies a condition is taken and acted on; without one nothing happens. -/
def withMsg (p : RxMsg → Bool) (f : RxMsg → State → State) (s : State) : State :=
  match s.lane.rxq.find? p with
  | none => s
  | some m => f m (s.onLane fun l => { l with rxq := l.rxq.erase m })

/-- A delivered INAUGURATION or ADMISSION frame of a subtype, open or keyed (R89). -/
def isSub (ftype : Nat) (isOpen : Bool) (sub : Nat) (m : RxMsg) : Bool :=
  m.hdr.ftype == ftype && (m.hdr.adm == 0) == isOpen && subType m.payload == sub

/-- The sender's badge (R88). -/
def msgBadge (m : RxMsg) : Nat := be m.payload 0 8

/-- n bytes of a payload. -/
def part (p : List Byte) (off n : Nat) : List Byte := (p.drop off).take n

/-- A distinct signed content is verified once, with the verdict of the RSA unit; a repeat is known by its hash
(R89). -/
def verifyOnce (content : List Byte) (verdict : Bool) (s : State) : Bool × State :=
  let h := shaNat content
  match s.inaug.verified.find? fun x => x.1 == h with
  | some x => (x.2, s)
  | none => (verdict, cntSec 7 (s.onInaug fun x => { x with verified := (h, verdict) :: x.verified }))

/-! Fields of a BEACON (R90) and of the quote in it (R304). -/

def bcClaim (p : List Byte) : Bool := natBit (be p 9 1) 7
def bcLine (p : List Byte) : Bool := natBit (be p 9 1) 6
def bcRank (p : List Byte) : Nat := be p 12 1
def bcTrain (p : List Byte) : Nat := be p 13 1
def bcNextValid (p : List Byte) : Bool := natBit (be p 16 1) 7
def bcNl (p : List Byte) : Nat := be p 20 32
def bcEcho (p : List Byte) : Nat := be p 52 32
def bcCheckCur (p : List Byte) : List Byte := part p 84 16
def bcCheckNext (p : List Byte) : List Byte := part p 100 16
def bcQuote (p : List Byte) : List Byte := part p 116 538
def bcSig (p : List Byte) : List Byte := part p 270 384
def quNonce (q : List Byte) : List Byte := part q 14 32
def quFw (q : List Byte) : List Byte := part q 46 32
def quPlan (q : List Byte) : List Byte := part q 110 32
def quArb (q : List Byte) : Nat := be q 142 2

/-- The quote has its magic and version and names the badge (R304). -/
def quForm (badge : Nat) (q : List Byte) : Bool := be q 0 4 == 0x4B4E5154 && be q 4 2 == 1 && be q 6 8 == badge

/-- The quote of a BEACON is over payload bytes 0 to 115 (R90). -/
def bcForm (badge : Nat) (p : List Byte) : Bool := quForm badge (bcQuote p) && quNonce (bcQuote p) == sha (p.take 116)

/-! The admission policy (R309). -/

def polNfw (s : State) : Nat := bits s.rcp.policy 0 23 16
def polMin (s : State) : Nat := bits s.rcp.policy 0 15 8
def polOwner (s : State) : List Byte := wordBytes ((s.rcp.policy.drop 1).take 8)
def polFw (s : State) (i : Nat) : List Byte := wordBytes ((s.rcp.policy.drop (9 + 8 * i)).take 8)
def polFwOk (s : State) (m : List Byte) : Bool := (List.range (polNfw s)).any fun i => polFw s i == m

/-- A quote satisfies the policy's firmware list and anti-rollback minimum. -/
def policyOk (s : State) (q : List Byte) : Bool := polFwOk s (quFw q) && decide (polMin s ≤ quArb q)

/-- OWNER_HASH of this car; zero without an owner (R90). -/
def ownerHash (s : State) : List Byte :=
  match enrolled s with
  | some e => beBytes 32 e.hash
  | none => beBytes 32 0

/-- The order of R91 between claims: a is better than b. Rank 0 comes after 4. -/
def claimBetter (ra ba rb bb : Nat) : Bool :=
  let ka := if ra == 0 then 5 else ra
  let kb := if rb == 0 then 5 else rb
  decide (ka < kb) || (ka == kb && decide (ba < bb))

/-! NLs and signed BEACONs of this car (R104). -/

/-- A new NL is drawn, a BEACON signed for it and the NL history copied (R104, R112); it waits while there is no random output
(R291). -/
def drawNl (s : State) : State :=
  if s.sec.entropyOk then
    stateCopy <| startBeacon ((tookFree s).onLdr fun l => { l with nlPrev := l.nl, nl := freeNat 256 s, nlAt := trainTime s, nlDue := false })
  else s.onLdr fun l => { l with nlDue := true }

/-- A BEACON with its signature. -/
def beaconDone (key : Nat) (body : List Byte) : List Byte := body ++ padTo 384 (Config.signOwn key (body.drop 116))

/-! ADMIT values (R107). `nextAdmit` and `ceiling` count values from 0x0001 on without wrapping. -/

/-- The value of a count: upward from 0x0001, after 0xFFFE from 0x0001 again. -/
def admitVal (n : Nat) : Nat := (n - 1) % 0xFFFE + 1

/-- The value has been issued under a valid key epoch. -/
def admitUsed (s : State) (v : Nat) : Bool := s.ldr.issued.any fun x => x.2 == v && keyValid s x.1

/-- Some value is free. -/
def admitFree (s : State) : Bool :=
  decide ((s.ldr.issued.filter fun x => keyValid s x.1).length < 0xFFFE) || (List.range' 1 0xFFFE).any fun v => !admitUsed s v

/-- The first count from n on, within the committed ceiling, whose value is free. -/
def admitFind (s : State) : Nat → Nat → Option Nat
  | 0, _ => none
  | fuel + 1, n => if s.ldr.ceiling < n then none else if admitUsed s (admitVal n) then admitFind s fuel (n + 1) else some n

/-! A copy of the lead-car state that fails (R113). -/

/-- The copy failed: the full image follows as the next version, and after three failures COPY_FAIL is raised and the
retry waits (R113). -/
def copyFailed (s : State) : State :=
  let s1 := s.onLdr fun l => { l with copyFails := l.copyFails + 1, copyAt := none, copyTry := trainTime s }
  if s1.ldr.copyFails == 3 then raise 92 5 s1
  else if 3 < s1.ldr.copyFails then s1
  else stateCopy s1

/-- A further block of 16 ADMIT values is reserved when 4 of the committed ones remain (R107). -/
def reserveAdmits (s : State) : State :=
  if s.ldr.ceiling < s.ldr.nextAdmit + 4 && s.ldr.ceilingAsked == s.ldr.ceiling then
    stateCopy (s.onLdr fun l => { l with ceilingAsked := l.ceiling + 16 })
  else s

/-- A guest that passed the checks takes an ADMIT value of a committed block, its key block is being built, and the allocator is
copied (R112). Where every value that is left in the block has been issued already, all of them are skipped. No value is issued
under a key epoch that this lead has not generated (R107, R114). -/
def takeAdmit (badge : Nat) (s : State) : State :=
  match s.ldr.guests.find? fun g => g.badge == badge with
  | none => s
  | some g =>
    if !g.ok || g.adm != 0 || !s.ldr.rekeyedSelf then s
    else
      match admitFind s 0x20000 s.ldr.nextAdmit with
      | none => s.onLdr fun l => { l with nextAdmit := max l.nextAdmit (l.ceiling + 1) }
      | some n =>
        let v := admitVal n
        stateCopy <| s.onLdr fun l =>
          { l with
            nextAdmit := n + 1
            issued := (s.sec.cur, v) :: ((nextKey s).map fun x => (x.1, v)).toList ++ l.issued
            guests := l.guests.map fun x => if x.badge == badge then { x with adm := v } else x }

/-- Some guest waits for a value. -/
def admitWaits (s : State) : Bool := s.ldr.rekeyedSelf && s.ldr.guests.any fun g => g.ok && g.adm == 0

/-- Every guest that waits for a value takes one if it can; where a further block is committed at once, from that block too. -/
def takeAdmitsUpTo : Nat → State → State
  | 0, s => s
  | n + 1, s =>
    let t := reserveAdmits (each (s.ldr.guests.map (·.badge)) takeAdmit (reserveAdmits s))
    if s.ldr.ceiling < t.ldr.ceiling && admitWaits t then takeAdmitsUpTo n t else t

/-- Every guest that waits for a value takes one if it can: 4,096 blocks hold every value. -/
def takeAdmits (s : State) : State := rsaBegin (takeAdmitsUpTo 4096 s)

/-! Group maps (R206). -/

/-- The entry of a group in a badge's map: group, flags, reserved, slot mask. -/
def mapEntry (s : State) (badge g : Nat) : List Byte :=
  let ms := match s.sent.groups.find? fun x => x.num == g with | some x => x.members | none => []
  let mask := ms.foldl (fun m x => if x.1 == badge then m ||| 2 ^ (x.2 % 64) else m) 0
  [byteOf g, byteOf (2 + b2n (ms.any fun x => x.1 != badge)), 0, 0] ++ beBytes 8 mask

/-- The map of a member, for a list of groups, in a CONTROL frame. -/
def sendMap (badge : Nat) (gs : List Nat) (s : State) : State :=
  match carOfBadge s badge with
  | none => s
  | some n => ctlSend (s.inaug.train * 64 + n) .plain (ctlPayload 0x10 0 0 0 0 (gs.flatMap (mapEntry s badge))) s

/-- A member's whole map: 256 groups in two frames. -/
def sendMaps (badge : Nat) (s : State) : State := sendMap badge (List.range' 128 128) (sendMap badge (List.range 128) s)

/-! Becoming lead (R44, R93, R109). -/

/-- The NUMBERING entry of this car as lead. -/
def ownEntry (s : State) (prev : Nat) : NumEntry := { badge := s.sys.badge, adm := s.inaug.adm, role := 0, prev := prev }

/-- A cold start is won, or proceeded with after DISSOLVE (R93, R109): LEAD, car 0, ADMIT 1, epoch 0, a first train key of
epoch 0, a NUMBERING of itself and BEACONs; time mastery, and with it RUNNING, unless a self-check bars it (R137, log 43). -/
def coldWin (s : State) : State :=
  let key := freeNat 256 s
  let s1 := (eraseKeys (tookFree s)).onSec fun x =>
    { x with keys := [{ epoch := 0, key := key }], cur := 0, switchAt := trainTime s, takeRank := 0, rotWait := false }
  let s2 := s1.onInaug fun x =>
    { x with car := some 0, adm := 1, epoch := 0, train := pTrain s, adoptSys := pTrain s * 64, cold := .off, claimSent := none,
             guest := .idle, omitted := 0, backups := [0, 0, 0], posDue := [] }
  let s3 := ((s2.onLane fun l => { l with seq := 0 }).onSent fun t => { t with gseq := [] }).onLdr fun l =>
    { l with nextAdmit := 2, ceiling := 16, ceilingAsked := 16, issued := [(0, 1)], rekeyedSelf := true, roster := [],
             guests := [], census := none, keptCause := none, nextEpoch := some 0, handTarget := none, handSince := none,
             dissolveSince := none, winner := none }
  let s4 := (s3.onInaug fun x => { x with numbering := [ownEntry s3 0xFF], leadBadge := s3.sys.badge, leadAdmit := 1 }).onEnds
    fun e => { e with orient := leadOrient s, orientSet := true }
  let fit := s.ref.barred.isEmpty
  let s5 := when' fit (becomeMaster false) (when' s.inaug.drive driveRestart (setRole .lead 0 false s4))
  let s6 := s5.onLdr fun l => { l with numberingDue := some ([ownEntry s5 0xFF], 8) }
  when' fit enterRunning (drawNl s6)

/-- The roster in a committed image (R112). -/
def imageRoster (img : List Byte) : List RosterCar :=
  (Config.imageCars img).map fun c =>
    { badge := c.1, adm := c.2.1, rank := c.2.2.1 % 8, cert := c.2.2.2.1, posX := c.2.2.2.2.1, posY := c.2.2.2.2.2.1,
      ends_ := c.2.2.2.2.2.2.1 % 256, nbrA := c.2.2.2.2.2.2.2.1, nbrB := c.2.2.2.2.2.2.2.2, omits := 0 }

/-- A backup whose better-ranked backups are missing moves up first (R30, R109). -/
def moveUp (s : State) : State := when' (decide (1 < s.inaug.rank)) (setRole .backup 1 s.inaug.drive) s

/-- A backup takes over with its committed copy (R109, R112, R114): roster, issued ADMITs, NL history, rotation time and groups
are those of the copy. A former lead's rotation that this car was still unwrapping goes with that lead. -/
def takeOver (cause : Nat) (img : List Byte) (s : State) : State :=
  let k := s.inaug.rank
  let s2 := cntInaug 6 (when' s.inaug.drive driveRestart (setRole .lead 0 false (moveUp s)))
  let ceil := Config.imageItem img 2 % 2 ^ 16
  let s3 := s2.onLdr fun l =>
    { l with
      nextEpoch := some ((max (Config.imageItem img 0 % 4096) s.inaug.epoch + 1) % 4096)
      censusCtr := Config.imageItem img 1 % 2 ^ 32
      nextAdmit := ceil + 1, ceiling := ceil, ceilingAsked := ceil, active := none, build := none, rekeyedSelf := false
      roster := (imageRoster img).filter fun c => c.badge != s.sys.badge
      issued := Config.imageIssued img
      nl := Config.imageItem img 4 % 2 ^ 256, nlPrev := Config.imageItem img 5 % 2 ^ 256
      guests := [], census := none, keptCause := none, numberingDue := none, committed := false, copyFails := 0
      copyAt := none, statusAt := none, handTarget := none, handSince := none, dissolveSince := none }
  let s4 := s3.onSent fun t => { t with groups := ((Config.imageGroups img).take 256).map fun g => { num := g.1 % 256, members := g.2 } }
  let s5 := (s4.onInaug fun x =>
    { x with leadBadge := s.sys.badge, leadAdmit := s.inaug.adm, posDue := []
             backups := x.backups.zipIdx.map fun b => if b.2 < k then 0 else b.1 }).onEnds
    fun e => { e with orient := leadOrient s, orientSet := true }
  let s6 := s5.onSec fun x => { x with takeRank := k, switchAt := Config.imageItem img 3 % 2 ^ 64, unwrap := [] }
  let s7 := raise 92 (if cause == 7 then 3 else 1) s6
  drawNl (startRotation (newCensus cause s7))

end Sys2Proof.Machine
end

