-- ==== Sys2Proof/Machine/Admission.lean ====
section
/-!
DEFINITION. Cold start, BEACONs and admission: the claimant, the guest, and the lead that admits it (R91 to R93,
R104 to R108, R110, R168).
-/

namespace Sys2Proof.Machine

open Sys2Proof

/-! Cold start (R92). -/

/-- LISTEN_T. -/
def listenT (s : State) : Nat := max 10000000 (32 * cycleP s)

/-- COLD_START_LISTEN_END (R92): the car begins to claim. Its claim is formed and signed once; at reset none is held. -/
def coldStartListenEnd (s : State) : State :=
  match s.inaug.cold with
  | .listening since =>
    let r := pColdRank s
    let open_ := s.teth.tether || s.teth.tfault || !pTetherFitted s
    if s.sys.dev != .integrating || s.inaug.role != .guest || r == 0 || decide (4 < r) || !open_
        || decide (trainTime s < since + listenT s + (r - 1) * 6000000) || (!s.inaug.claimSigned && !s.sec.entropyOk) then s
    else
      let s1 := s.onInaug fun x => { x with cold := .claiming 0, claimSent := none }
      if s.inaug.claimSigned then s1.onLdr fun l => { l with winner := none }
      else
        let s2 := (tookFree s1).onLdr fun l => { l with nl := freeNat 256 s, echo := 0, winner := none }
        cntSec 6 ((s2.onLdr fun l => { l with beaconNow := beaconDone s2.sec.idKey (beaconBody true s2) }).onInaug fun x => { x with claimSigned := true })
  | _ => s

def execColdStartListenEnd (s : State) : Out := .next (coldStartListenEnd s)

/-- The BEACON or claim that is held, as a frame. -/
def beaconFrame (s : State) : TxFrame :=
  { ftype := ftInauguration, prio := 7, grp := false, all := true, dst := 0x3FFF, open_ := true, tag := .plain,
    payload := s.ldr.beaconNow }

/-- CLAIM_SEND (R92): every 1 ms in the next GUEST stall. -/
def claimSend (s : State) : State :=
  match s.inaug.cold with
  | .claiming first =>
    let due := match s.inaug.claimSent with | none => true | some t => decide (t + 1000000 ≤ trainTime s)
    if !due then s
    else match sendGuest (claimFrom s) (beaconFrame s) s with
      | none => guestHeld (claimFrom s) (beaconFrame s) s
      | some s1 => s1.onInaug fun x =>
          { x with cold := .claiming (if s.inaug.claimSent.isNone then trainTime s else first), claimSent := some (trainTime s) }
  | _ => s

def execClaimSend (s : State) : Out := .next (claimSend s)

/-- CLAIM_WIN (R93): 5 ms after the first claim. -/
def claimWin (s : State) : State :=
  match s.inaug.cold with
  | .claiming first =>
    if s.inaug.claimSent.isNone || decide (trainTime s < first + 5000000) || !s.sec.entropyOk || !onTrain s then s
    else coldWin (raise 93 1 s)
  | _ => s

def execClaimWin (s : State) : Out := .next (claimWin s)

/-- CLAIM_WAIT_TIMEOUT (R92): the better claimant's badge is discredited until reset, and the car starts again. -/
def claimWaitTimeout (s : State) : State :=
  match s.inaug.cold with
  | .waiting badge since =>
    if trainTime s < since + 50000000 then s
    else raise 93 3 (s.onInaug fun x => { x with discredited := badge :: x.discredited, cold := .listening (trainTime s) })
  | _ => s

def execClaimWaitTimeout (s : State) : Out := .next (claimWaitTimeout s)

/-! BEACONs of the lead (R104). -/

/-- BEACON_SEND (R104): BEACON and LEAD_CERT after each 1 ms interval. -/
def beaconSend (s : State) : State :=
  let due := match s.ldr.beaconAt with | none => true | some t => decide (t + 1000000 ≤ trainTime s)
  if !isLead s || !due || s.ldr.beaconNow.isEmpty || bcClaim s.ldr.beaconNow then s
  else
    match sendGuest (beaconFrom s) (beaconFrame s) s with
    | none => guestHeld (beaconFrom s) (beaconFrame s) s
    | some s1 => trainSend (openInaug s1 2 0 s1.sec.devCert) (s1.onLdr fun l => { l with beaconAt := some (trainTime s) })

def execBeaconSend (s : State) : Out := .next (beaconSend s)

/-- NL_REDRAW (R104): every 1 s, or when a draw has waited for entropy. -/
def nlRedraw (s : State) : State :=
  if isLead s && s.sec.entropyOk && (s.ldr.nlDue || decide (s.ldr.nlAt + 1000000000 ≤ trainTime s)) then drawNl s else s

def execNlRedraw (s : State) : Out := .next (nlRedraw s)

/-- BEACON_SIGNED (R104, R327). -/
def beaconSigned (s : State) : State :=
  if !rsaTurn .signBeacon s then s
  else
    rsaBegin (rsaEnd true (s.onLdr fun l =>
      { l with
        beaconPrev := if bcNl l.beaconNow == bcNl l.beaconNext then l.beaconPrev else l.beaconNow
        beaconNow := beaconDone s.sec.idKey l.beaconNext, beaconNext := [] }))

def execBeaconSigned (s : State) : Out := .next (beaconSigned s)

/-! Receiving a BEACON. -/

/-- A guest takes a BEACON as the one it answers (R105, step 1). -/
def seek (b : Beacon) (s : State) : State :=
  let again := s.inaug.guest == .failed
  let s1 := s.onInaug fun x => { x with beacon := some b, guest := .haveBeacon, cold := .off, retryAsked := false }
  when' again (cntInaug 5) (s1.onLdr fun l => { l with winner := none })

/-- The guest may answer this BEACON: it waits for one, and after a failure the NL is another (R106). -/
def mayAnswer (s : State) (b : Beacon) : Bool :=
  match s.inaug.guest with
  | .idle => true
  | .failed => s.inaug.retryAsked || (match s.inaug.beacon with | some o => bcNl o.raw != bcNl b.raw | none => true)
  | _ => false

/-- A STOPPED car answers each new NL once with PRESENT (R108). -/
def answerPresent (b : Beacon) (s : State) : State :=
  if s.inaug.presentNl.contains (bcNl b.raw) then s
  else trainSend (openInaug s 12 0x80 s.sec.devCert) (s.onInaug fun x => { x with presentNl := bcNl b.raw :: x.presentNl })

/-- A lead meets the BEACON of another lead (R110). -/
def foreignBeacon (b : Beacon) (s : State) : State :=
  if !policyOk s (bcQuote b.raw) then raise 92 4 s
  else
    let newNl := match s.ldr.foreign with | some f => bcNl f.raw != bcNl b.raw | none => true
    let s1 := s.onLdr fun l => { l with foreign := some b, echo := bcNl b.raw }
    let s2 := when' newNl startBeacon s1
    let echoed := bcEcho b.raw != 0 && (bcEcho b.raw == s.ldr.nl || bcEcho b.raw == s.ldr.nlPrev)
    let better := claimBetter (bcRank b.raw) b.badge (pColdRank s) s.sys.badge
    if echoed && better && !(s2.lane.txq.any fun f => f.tag == .dissolve) then
      trainSend (inaugFrame s2 .dissolve 7 (beBytes 8 b.badge ++ [byteOf (bcTrain b.raw)]))
        (s2.onLdr fun l => { l with winner := some (b.badge, bcTrain b.raw) })
    else s2

/-- A car without membership in INTEGRATING meets a BEACON or a claim (R92, R105). After a merge it holds out for the winner
that DISSOLVE named until its listening ends; a car of COLD_RANK 0 never ends it (DESIGN CHOICE, log 44). -/
def guestBeacon (b : Beacon) (s : State) : State :=
  let claim := bcClaim b.raw
  let named := match s.ldr.winner with | some w => w.1 == b.badge | none => true
  match s.inaug.cold with
  | .listening _ => if !claim && named then seek b s else s
  | .claiming _ =>
    if claim && (s.inaug.discredited.contains b.badge || !claimBetter (bcRank b.raw) b.badge (pColdRank s) s.sys.badge) then s
    else raise 93 2 (s.onInaug fun x => { x with cold := .waiting b.badge (trainTime s) })
  | .waiting badge _ => if !claim && b.badge == badge then seek b s else s
  | .off => if !claim && mayAnswer s b then seek b s else s

/-- A car seeks admission: it is a guest, or its SEQ series is used up (R50). -/
def seeking (s : State) : Bool := s.inaug.role == .guest || decide (seqStop ≤ s.lane.seq)

/-- A valid BEACON is acted on. -/
def beaconAct (b : Beacon) (s : State) : State :=
  if s.sys.dev == .stopped then (if bcClaim b.raw then s else answerPresent b s)
  else if !onTrain s then s
  else if isLead s && !seeking s then (if bcClaim b.raw then s else foreignBeacon b s)
  else if seeking s then guestBeacon b s
  else s

/-- BEACON_RECEIVE (R105): the signature is that of the quote, which must be over this very payload. -/
def beaconReceive (sigOk : Bool) (s : State) : State :=
  withMsg (isSub ftInauguration true 1) (fun m t =>
    let r := verifyOnce (part m.payload 116 154) sigOk t
    if r.1 && bcForm (msgBadge m) m.payload then
      beaconAct { badge := msgBadge m, raw := m.payload } (learnOrient m.endB m.hdr r.2)
    else r.2) s

def execBeaconReceive (sigOk : Bool) (s : State) : Out := .next (beaconReceive sigOk s)

/-! The guest (R105, R106). -/

/-- A guest's admission fails with a reason; keys of a grant are given up (R65, R106). -/
def admFail (code : Nat) (s : State) : State :=
  let s1 := when' (s.inaug.role == .guest) eraseKeys (s.onInaug fun x => { x with guest := .failed, failCode := code, quoteDue := [], block := [] })
  raise 91 code s1

/-- LEAD_CERT_RECEIVE (R105, steps 1 and 2). -/
def leadCertReceive (s : State) : State :=
  withMsg (isSub ftInauguration true 2) (fun m t =>
    match t.inaug.guest, t.inaug.beacon with
    | .haveBeacon, some b =>
      if b.badge == msgBadge m then t.onInaug fun x => { x with leadCert := m.payload.drop 12, guest := .verifying } else t
    | _, _ => t) s

def execLeadCertReceive (s : State) : Out := .next (leadCertReceive s)

/-- LEAD_VERIFIED (R105, step 2; R41, R168). -/
def leadVerified (chainOk sigOk : Bool) (s : State) : State :=
  match s.inaug.guest, s.inaug.beacon with
  | .verifying, some b =>
    let r1 := verifyOnce s.inaug.leadCert chainOk s
    let r2 := verifyOnce (part b.raw 116 154) sigOk r1.2
    let t := r2.2
    let lead := r1.1 && r2.1 && (Config.badgeOf (Config.certKey t.inaug.leadCert)).toNat == b.badge && policyOk t (bcQuote b.raw)
    if !lead then admFail 0x11 t
    else if bcLine b.raw != pLine t then admFail 0x10 t
    else if quPlan (bcQuote b.raw) != planMeas t then raise2 80 3 (planId t) (admFail 0x14 t)
    else rsaBegin (t.onInaug fun x => { x with guest := .signing, quoteDue := quoteBody (sha (beBytes 32 (bcNl b.raw) ++ ownerHash t)) t })
  | _, _ => s

def execLeadVerified (chainOk sigOk : Bool) (s : State) : Out := .next (leadVerified chainOk sigOk s)

/-- QUOTE_SIGNED (R105, steps 3 and 4; R327): ADM_CERT and ADM_QUOTE go to car 0. -/
def quoteSignedStep (s : State) : State :=
  if !rsaTurn .signQuote s then s else
  match s.inaug.guest, s.inaug.beacon with
  | .signing, some b =>
    let q := quoteSigned s.sec.idKey s.inaug.quoteDue
    let s1 := rsaBegin (rsaEnd true (s.onInaug fun x => { x with guest := .sending, quoteHash := shaNat q, quoteDue := [] }))
    let dst := bcTrain b.raw * 64
    let f := admFrame s1 true dst 0x22 (beBytes 32 (bcNl b.raw) ++ ownerHash s1 ++ q)
    trainSend { f with tag := .admQuote } (trainSend (admFrame s1 true dst 0x21 s1.sec.devCert) s1)
  | _, _ => s

def execQuoteSigned (s : State) : Out := .next (quoteSignedStep s)

/-- ADM_GRANT_RECEIVE (R105, step 7): the grant is for this car and repeats the BEACON that it verified. -/
def admGrantReceive (sigOk : Bool) (s : State) : State :=
  withMsg (isSub ftAdmission true 0x23) (fun m t =>
    if be m.payload 12 8 != t.sys.badge then t
    else match t.inaug.guest, t.inaug.beacon with
      | .asked _, some b =>
        if b.badge != msgBadge m then t
        else if sigOk && be m.payload 20 32 == bcNl b.raw && part m.payload 52 384 == bcSig b.raw then
          rsaBegin (t.onInaug fun x => { x with block := part m.payload 436 384, guest := .unwrapping })
        else admFail 0x12 t
      | _, _ => t) s

def execAdmGrantReceive (sigOk : Bool) (s : State) : Out := .next (admGrantReceive sigOk s)

/-- GRANT_UNWRAPPED (R105, steps 7 and 8; R327): the keys are installed and ADM_DONE follows under the new key, in the inauguration
epoch that the BEACON names. -/
def grantUnwrapped (ok : Bool) (s0 : State) : State :=
  if !rsaTurn .grantOpen s0 then s0 else
  match s0.inaug.guest, s0.inaug.beacon with
  | .unwrapping, some b =>
    let s := rsaEnd true s0
    let p := beBytes 100 (Config.unwrapKey s.sec.idKey s.inaug.block)
    let e := be p 2 1
    let n := be p 35 1
    let check := keyCheck e (be p 3 32) == bcCheckCur b.raw
      && (!bcNextValid b.raw || n == 0xFF || keyCheck n (be p 36 32) == bcCheckNext b.raw)
    if !ok || be p 68 32 != s.inaug.quoteHash || !check then admFail 0x12 s
    else
      let keys := { epoch := e % 16, key := be p 3 32 } :: (if n == 0xFF then [] else [{ epoch := n % 16, key := be p 36 32 }])
      let s1 := releaseEntries (s.onSec fun x => { x with keys := keys, cur := e % 16, inst := none, unwrap := [], oldKey := none })
      let s2 := s1.onInaug fun x => { x with adm := be p 0 2, epoch := be b.raw 14 2 / 16, adoptSys := srcField s, guest := .done, block := [] }
      let s3 := (s2.onLane fun l => { l with seq := 0 }).onSent fun t => { t with gseq := [] }
      let s4 := when' (n != 0xFF) (raise 97 (n % 16 * 256 + 2)) s3
      trainSend (admFrame s4 false (bcTrain b.raw * 64) 0x24 (beBytes 2 (be p 0 2) ++ [0, 0] ++ beBytes 32 s4.inaug.quoteHash)) s4
  | _, _ => s0

def execGrantUnwrapped (ok : Bool) (s : State) : Out := .next (grantUnwrapped ok s)

/-- GRANT_TIMEOUT (R106): no grant within 20 ms of step 4. -/
def grantTimeout (s : State) : State :=
  match s.inaug.guest with
  | .asked t => if trainTime s < t + 20000000 then s else admFail 0x13 s
  | _ => s

def execGrantTimeout (s : State) : Out := .next (grantTimeout s)

/-! The lead admits (R105 to R108). -/

/-- ADM_CERT_RECEIVE (R89, R106): the issuer's signature is verified before the certificate replaces what the lead holds of the
guest. -/
def admCertReceive (s : State) : State :=
  withMsg (isSub ftAdmission true 0x21) (fun m t =>
    let cert := m.payload.drop 12
    if !isLead t then t
    else
      let r := verifyOnce cert (Config.certVerifies cert) t
      if !r.1 then r.2
      else r.2.onLdr fun l => { l with guests := (l.guests.filter fun g => g.badge != msgBadge m) ++
        [{ badge := msgBadge m, cert := cert, ok := false, nl := 0, adm := 0, quoteHash := 0, granted := false, done := false }] }) s

def execAdmCertReceive (s : State) : Out := .next (admCertReceive s)

/-- The first check of R106 that fails, as its reason code; 0 when all pass. The certificate is the one ADM_CERT
brought. -/
def admCheck (cert p : List Byte) (badge : Nat) (chainOk sigOk : Bool) (s : State) : Nat :=
  let q := part p 76 538
  let nl := be p 12 32
  let oh := part p 44 32
  if 64 ≤ s.inaug.numbering.length then 0x08
  else if !chainOk || cert.isEmpty || (Config.badgeOf (Config.certKey cert)).toNat != badge then 0x01
  else if !sigOk || !quForm badge q then 0x02
  else if !(nl == s.ldr.nl || nl == s.ldr.nlPrev) || quNonce q != sha (beBytes 32 nl ++ oh) then 0x03
  else if oh != polOwner s then 0x04
  else if !polFwOk s (quFw q) then 0x05
  else if quArb q < polMin s then 0x06
  else if !admitFree s then 0x07
  else 0

/-- A refusal: counted, and reported at most once in 60 s for a badge (R106). -/
def admRefuse (badge code : Nat) (s : State) : State :=
  let recent := s.ldr.refused.any fun x => x.1 == badge && decide (trainTime s < x.2 + 60000000000)
  let s1 := cntInaug 4 (s.onLdr fun l => { l with guests := l.guests.filter fun g => g.badge != badge })
  let s2 := if recent then s1
    else raise 91 code (s1.onLdr fun l => { l with refused := (badge, trainTime s) :: l.refused.filter fun x => x.1 != badge })
  when' (code == 7) startRotation s2

/-- ADM_QUOTE_RECEIVE (R106, R107). -/
def admQuoteReceive (chainOk sigOk : Bool) (s : State) : State :=
  withMsg (isSub ftAdmission true 0x22) (fun m t =>
    if !isLead t then t
    else
      let badge := msgBadge m
      let cert := match t.ldr.guests.find? fun g => g.badge == badge with | some g => g.cert | none => []
      let r1 := verifyOnce cert chainOk t
      let r2 := verifyOnce (part m.payload 76 154) sigOk r1.2
      let code := admCheck cert m.payload badge r1.1 r2.1 r2.2
      if code != 0 then admRefuse badge code r2.2
      else takeAdmits (r2.2.onLdr fun l => { l with guests := (l.guests.filter fun g => g.badge != badge) ++
        (l.guests.filter fun g => g.badge == badge).map fun g =>
          { g with ok := true, nl := be m.payload 12 32, quoteHash := shaNat (part m.payload 76 538) } })) s

def execAdmQuoteReceive (chainOk sigOk : Bool) (s : State) : Out := .next (admQuoteReceive chainOk sigOk s)

/-- The 100 bytes of a key block (R90). -/
def keyBlock (g : GuestReq) (s : State) : List Byte :=
  let cur := (keyOfEpoch s s.sec.cur).getD 0
  let next := match nextKey s with | some (e, k) => byteOf e :: beBytes 32 k | none => 0xFF :: beBytes 32 0
  beBytes 2 g.adm ++ [byteOf s.sec.cur] ++ beBytes 32 cur ++ next ++ beBytes 32 g.quoteHash

/-- GRANT_BUILT (R105, steps 5 and 6; R327): the first of the guests that wait. -/
def grantBuilt (badge : Nat) (s : State) : State :=
  match s.ldr.guests.find? grantWaits with
  | none => s
  | some g =>
    if g.badge != badge || !rsaTurn .grantWrap s then s
    else
      let bc := if bcNl s.ldr.beaconNow == g.nl then s.ldr.beaconNow else s.ldr.beaconPrev
      let block := padTo 384 ((Config.wrapKey (be (keyBlock g s) 0 100) badge).take 384)
      let s0 := s.onLdr fun l => { l with guests := l.guests.map fun x => if x.badge == badge then { x with granted := true } else x }
      let s1 := rsaBegin (rsaEnd false (s0.onSec fun x => { x with wrapAhead := x.wrapAhead - 1 }))
      trainSend (admFrame s1 true (s1.inaug.train * 64 + 63) 0x23 (beBytes 8 badge ++ beBytes 32 g.nl ++ bcSig bc ++ block)) s1

def execGrantBuilt (badge : Nat) (s : State) : Out := .next (grantBuilt badge s)

/-- ADM_DONE_RECEIVE (R96, R105, step 9). No message brings the lead the COLD_RANK of a car: a free value (log 19). -/
def admDoneReceive (s : State) : State :=
  withMsg (isSub ftAdmission false 0x24) (fun m t =>
    match t.ldr.guests.find? fun g => g.granted && g.adm == m.hdr.adm && g.adm == be m.payload 12 2 && g.quoteHash == be m.payload 16 32 with
    | none => t
    | some g =>
      if !isLead t || g.done then t
      else
        let t1 := (tookFree t).onLdr fun l =>
          { l with
            guests := l.guests.map fun x => if x.badge == g.badge then { x with done := true } else x
            present := l.present.filter fun b => b != g.badge
            roster := (l.roster.filter fun c => c.badge != g.badge) ++
              [{ badge := g.badge, adm := g.adm, rank := freeNat 8 t % 5, cert := shaNat g.cert, posX := 0, posY := 0,
                 ends_ := 0, nbrA := 0, nbrB := 0, omits := 0 }] }
        stateCopy (openCensus 4 none (raise 91 (g.adm * 65536) t1))) s

def execAdmDoneReceive (s : State) : Out := .next (admDoneReceive s)

/-- PRESENT_RECEIVE (R108). -/
def presentReceive (sigOk : Bool) (s : State) : State :=
  withMsg (isSub ftInauguration true 12) (fun m t =>
    let r := verifyOnce (m.payload.drop 12) sigOk t
    let badge := msgBadge m
    if !isLead t || !r.1 || (Config.badgeOf (Config.certKey (m.payload.drop 12))).toNat != badge || r.2.ldr.present.contains badge then r.2
    else raise 95 0 ((learnOrient m.endB m.hdr r.2).onLdr fun l => { l with present := l.present ++ [badge] })) s

def execPresentReceive (sigOk : Bool) (s : State) : Out := .next (presentReceive sigOk s)

end Sys2Proof.Machine
end

