-- ==== Sys2Proof/Machine/Numbering.lean ====
section
/-!
DEFINITION. Censuses, numberings, lead loss, line handover and the copy of the lead-car state (R94 to R103, R109 to
R114).
-/

namespace Sys2Proof.Machine

open Sys2Proof

/-! LEAD_STATUS (R94, R109). -/

/-- LEAD_STATUS_SEND (R94). -/
def leadStatusSend (s : State) : State :=
  if !isLead s then s
  else
    let body := [byteOf s.inaug.numbering.length, byteOf s.inaug.train, 0, 0] ++ beBytes 4 s.ldr.stateVer
      ++ ((List.range 3).flatMap fun i => beBytes 2 (s.inaug.backups.getD i 0))
    match sendExpressFrom (statusFrom s) (statusFrom s) (inaugFrame s .plain 3 body) s with
    | none => expressHeld (statusFrom s) (statusFrom s) (inaugFrame s .plain 3 body) s
    | some s1 => s1.onLdr fun l => { l with statusAt := some (trainTime s) }

def execLeadStatusSend (s : State) : Out := .next (leadStatusSend s)

/-- LEAD_STATUS_RECEIVE (R109). -/
def leadStatusReceive (s : State) : State :=
  withMsg (isSub ftInauguration false 3) (fun m t =>
    if isLead t then t
    else (t.onLdr fun l => { l with dissolveSince := none }).onInaug fun x =>
      { x with heardLead := trainTime t, leadBadge := msgBadge m, leadAdmit := m.hdr.adm,
               backups := [be m.payload 20 2, be m.payload 22 2, be m.payload 24 2] }) s

def execLeadStatusReceive (s : State) : Out := .next (leadStatusReceive s)

/-! Censuses (R96 to R98). -/

/-- The lead knows the sender as a member. -/
def knownMember (s : State) (adm : Nat) : Bool :=
  s.ldr.roster.any (fun c => c.adm == adm) || s.inaug.numbering.any fun e => e.adm == adm

/-- A reply enters the census once. -/
def censusReply (cid adm px py ends : Nat) (s : State) : State :=
  match s.ldr.census with
  | none => s
  | some c =>
    if c.closed || c.cid != cid || c.sentAt.isNone || c.replies.any (fun r => r.1 == adm) then s
    else s.onLdr fun l => { l with census := some { c with replies := c.replies ++ [(adm, px, py, ends)] } }

/-- The roster with what the last POSITION of a car says; only a reply to a CENSUS gives POS_X and POS_Y. -/
def rosterPosition (adm : Nat) (p : List Byte) (l : List RosterCar) : List RosterCar :=
  l.map fun c =>
    if c.adm == adm then
      { c with ends_ := be p 19 1, nbrA := be p 20 8, nbrB := be p 28 8
               posX := if be p 12 4 == 0 then c.posX else be p 17 1, posY := if be p 12 4 == 0 then c.posY else be p 18 1 }
    else c

/-- The lead keeps what the last POSITION of a car says, and copies a roster that it changes (R112, R113). -/
def notePosition (adm : Nat) (p : List Byte) (s : State) : State :=
  let r := rosterPosition adm p s.ldr.roster
  if r == s.ldr.roster then s else stateCopy (s.onLdr fun l => { l with roster := r })

/-- POSITION_RECEIVE (R96). -/
def positionReceive (s : State) : State :=
  withMsg (isSub ftInauguration false 5) (fun m t0 =>
    let cid := be m.payload 12 4
    let t := notePosition m.hdr.adm m.payload t0
    if !isLead t0 || !knownMember t0 m.hdr.adm then t0
    else if cid == 0 then openCensus (be m.payload 16 1) (some m.hdr.adm) t
    else censusReply cid m.hdr.adm (be m.payload 17 1) (be m.payload 18 1) (be m.payload 19 1) t) s

def execPositionReceive (s : State) : Out := .next (positionReceive s)

/-- CENSUS_SEND (R96): in the next EXPRESS stall. -/
def censusSend (s : State) : State :=
  match s.ldr.census with
  | some c =>
    let f := inaugFrame s .plain 4 (beBytes 4 c.cid ++ [byteOf c.cause, 0, 0, 0])
    if !isLead s || c.sentAt.isSome then s
    else match sendExpressFrom c.since c.since f s with
      | none => expressHeld c.since c.since f s
      | some s1 => s1.onLdr fun l => { l with census := some { c with sentAt := some (trainTime s) } }
  | none => s

def execCensusSend (s : State) : Out := .next (censusSend s)

/-- CENSUS_RECEIVE (R97): the arrival was noted at the tail; the member sets ORIENT by R45. -/
def censusReceive (s : State) : State :=
  withMsg (isSub ftInauguration false 4) (fun m t =>
    if !admitted t || isLead t then t
    else t.onEnds fun e => { e with orient := m.hdr.dirY == m.endB, orientSet := true }) s

def execCensusReceive (s : State) : Out := .next (censusReceive s)

/-- POSITION_REPLY_SEND (R97): once for each CENSUS_ID, in an EXPRESS stall that starts at least TRANSIT_T after its first copy. -/
def positionReplySend (s : State) : State :=
  match s.inaug.heard with
  | some (cid, at_, px, py) =>
    let f := posFrame s .plain cid 0 px py
    if !admitted s || isLead s || cid == s.inaug.replied then s
    else match sendExpressFrom (at_ + pTransit s) (at_ + pTransit s) f s with
      | none => expressHeld (at_ + pTransit s) (at_ + pTransit s) f s
      | some s1 => s1.onInaug fun x => { x with replied := cid }
  | none => s

def execPositionReplySend (s : State) : Out := .next (positionReplySend s)

/-- A car that takes part in a census: badge, ADMIT, POS_X, POS_Y, ends. -/
structure Place where
  badge : Nat
  adm   : Nat
  x     : Nat
  y     : Nat
  ends  : Nat
deriving DecidableEq, Repr

/-- Insert by an ascending key, before equals: sorting keeps the order of equals. -/
def insertBy {α : Type} (key : α → Nat) (a : α) : List α → List α
  | [] => [a]
  | b :: r => if key a ≤ key b then a :: b :: r else b :: insertBy key a r

/-- Sort by an ascending key. -/
def sortBy {α : Type} (key : α → Nat) : List α → List α
  | [] => []
  | a :: r => insertBy key a (sortBy key r)

/-- The badge of an ADMIT, from the roster or the numbering. -/
def badgeOfAdmit (s : State) (adm : Nat) : Option Nat :=
  match s.ldr.roster.find? fun c => c.adm == adm with
  | some c => some c.badge
  | none => (s.inaug.numbering.find? fun e => e.adm == adm).map (·.badge)

/-- The repliers, and the cars that have sent ADM_DONE: R163 lets those send no POSITION before they are numbered, so
where they stand is a free value (log 19). -/
def places (c : Census) (s : State) : List Place :=
  let rep := c.replies.filterMap fun r => (badgeOfAdmit s r.1).map fun b => Place.mk b r.1 r.2.1 r.2.2.1 r.2.2.2
  let news := (s.ldr.guests.filter fun g => g.done && !(rep.any fun p => p.badge == g.badge)).zipIdx.map fun x =>
    Place.mk x.1.badge x.1.adm (1 + (Config.freeValue (s.free + x.2)).toNat % 64) 0 0xA0
  (rep.filter fun p => p.badge != s.sys.badge) ++ news

/-- Cars in the order of R98: X_set ascending by POS_X, then Y_set descending by POS_Y. -/
def placeOrder (ps : List Place) : List Place :=
  (sortBy (·.x) (ps.filter fun p => decide (0 < p.x)) ++
    (sortBy (fun p => 256 - p.y) (ps.filter fun p => p.x == 0 && decide (0 < p.y)))).take 63

/-- COLD_RANK of a member as the lead knows it. -/
def rankOf (s : State) (badge : Nat) : Nat := match s.ldr.roster.find? fun c => c.badge == badge with | some c => c.rank | none => 0

/-- Badges of the backups: present ones in their previous order, then others with COLD_RANK 1 to 4 by R91 (R98). -/
def electBackups (s : State) (ps : List Place) : List Nat :=
  let present := fun b => ps.any fun p => p.badge == b
  let old := ((List.range 3).filterMap fun i => backupBadge s.inaug.numbering (i + 1)).filter present
  let others := (ps.map (·.badge)).filter fun b => !old.contains b && decide (1 ≤ rankOf s b) && decide (rankOf s b ≤ 4)
  (old ++ sortBy (rankOf s) (sortBy id others)).take 3

/-- An end car: one of its ends is not UP. -/
def isEndCar (p : Place) : Bool := natBits p.ends 7 6 != 2 || natBits p.ends 5 4 != 2

/-- The car that takes the lead role in a line whose lead has both ends coupled (R111): the end car reached through the
lead's end A, else the other one. -/
def handTarget (s : State) (ps : List Place) : Option Nat :=
  if !pLine s || !coupled s false || !coupled s true then none
  else
    let xs := sortBy (·.x) (ps.filter fun p => decide (0 < p.x))
    let ys := sortBy (·.y) (ps.filter fun p => p.x == 0 && decide (0 < p.y))
    let viaA := if s.ends.orient then ys else xs
    let viaB := if s.ends.orient then xs else ys
    let pick := fun (l : List Place) => match l.getLast? with | some p => if isEndCar p then some p.badge else none | none => none
    match pick viaA with | some b => some b | none => pick viaB

/-- The role byte of a member (R90). -/
def roleOf (s : State) (backups : List Nat) (badge : Nat) : Nat :=
  (match backups.findIdx? (· == badge) with | some i => 0x40 + 16 * (i + 1) | none => 0x80) + b2n ((pDriveList s).contains badge) * 8

/-- The previous car number of a badge; 0xFF when it had none. -/
def prevNumber (s : State) (badge : Nat) : Nat := (carOfBadge s badge).getD 0xFF

/-- The census closes: numbers and roles are assigned (R98). -/
def closeNow (c : Census) (s : State) : State :=
  let ps := placeOrder (places c s)
  let target := handTarget s ps
  let elected := electBackups s ps
  let backups := match target with | some b => (b :: elected.filter (· != b)).take 3 | none => elected
  let entries := ownEntry s (prevNumber s s.sys.badge) ::
    ps.map fun p => { badge := p.badge, adm := p.adm, role := roleOf s backups p.badge, prev := prevNumber s p.badge }
  let s1 := s.onLdr fun l =>
    { l with
      census := some { c with closed := true, since := trainTime s }, numberingDue := some (entries, c.cause), handTarget := target }
  { s1 with free := s.free + (s.ldr.guests.filter (·.done)).length }

/-- Every car of the numbering and every folded member has replied. -/
def allReplied (c : Census) (s : State) : Bool :=
  (((s.inaug.numbering.filter fun e => e.badge != s.sys.badge).map (·.adm)) ++ c.folded).all fun a => c.replies.any fun r => r.1 == a

/-- CENSUS_CLOSE (R96, R98). -/
def censusClose (s : State) : State :=
  match s.ldr.census with
  | some c =>
    match c.sentAt with
    | some t =>
      if isLead s && !c.closed && (allReplied c s || decide (t + 500000 + 3 * pTransit s ≤ trainTime s)) then closeNow c s else s
    | none => s
  | none => s

def execCensusClose (s : State) : Out := .next (censusClose s)

/-! Numberings (R98 to R103). -/

/-- The body of a NUMBERING (R90). -/
def numberingBody (prev train cause grace : Nat) (es : List NumEntry) : List Byte :=
  beBytes 2 prev ++ [byteOf es.length, byteOf train, byteOf cause, byteOf grace, 0, 0]
    ++ es.flatMap fun e => beBytes 8 e.badge ++ beBytes 2 e.adm ++ [byteOf e.role, byteOf e.prev]

/-- The entries a NUMBERING lists. -/
def numberingEntries (p : List Byte) : List NumEntry :=
  (List.range (be p 14 1)).map fun n =>
    let o := 20 + 12 * n
    { badge := be p o 8, adm := be p (o + 8) 2, role := be p (o + 10) 1, prev := be p (o + 11) 1 }

/-- ADMIT of BACKUP k in a numbering; 0 where vacant. -/
def backupAdmits (es : List NumEntry) : List Nat :=
  (List.range 3).map fun i => ((es.find? fun e => natBits e.role 7 6 == 1 && natBits e.role 5 4 == i + 1).map (·.adm)).getD 0

/-- What the lead does as its NUMBERING leaves (R96, R100, R206, R312). A census that was opened while the NUMBERING of a cold
start waited goes on. A car that it left out stays a member by its ADMIT until
a second one leaves it out (R102). -/
def numberingLeft (es : List NumEntry) (cause epoch : Nat) (s : State) : State :=
  let old := s.inaug.numbering
  let opened := s.ldr.census.filter fun c => !c.closed
  let kept := if opened.isSome then none else s.ldr.keptCause
  let s1 := adopt epoch (pTrain s) cause (pGrace s) (some 0) es s
  let s2 := (earlyFlush s1).onInaug fun x => { x with backups := backupAdmits es }
  let s3 := s2.onLdr fun l =>
    { l with
      nextEpoch := none, numberingDue := none, census := opened, keptCause := none
      committed := l.committed && backupBadge old 1 == backupBadge es 1
      guests := l.guests.filter fun g => !(g.done && es.any fun e => e.badge == g.badge && e.adm == g.adm)
      roster := (l.roster.map fun r => { r with omits := if es.any fun e => e.badge == r.badge then 0 else r.omits + 1 }).filter
        fun r => decide (r.omits < 2) }
  let s4 := each (es.filter fun e => !(old.any fun o => o.badge == e.badge) || cause == 8) (fun e => sendMaps e.badge) s3
  let s5 := stateCopy (startRotation s4)
  match kept with
  | some k => newCensus k s5
  | none => s5

/-- NUMBERING_SEND (R98, R100): at the launch of the first copy the lead adopts the numbering. -/
def numberingSend (s : State) : State :=
  match s.ldr.numberingDue with
  | none => s
  | some (es, cause) =>
    if !isLead s then s
    else
      let epoch := s.ldr.nextEpoch.getD ((s.inaug.epoch + 1) % 4096)
      let f := inaugFrame s .plain 6 (numberingBody ((epoch + 4095) % 4096) (pTrain s) cause (pGrace s) es)
      match sendExpressFrom (numberingFrom s) (numberingFrom s) f s with
      | none => expressHeld (numberingFrom s) (numberingFrom s) f s
      | some s1 => numberingLeft es cause epoch s1

def execNumberingSend (s : State) : Out := .next (numberingSend s)

/-- A NUMBERING that this car accepts, as car n, or that omits it (R100). -/
def adoptFrom (m : RxMsg) (n : Option Nat) (s : State) : State :=
  let es := numberingEntries m.payload
  (adopt ((be m.payload 12 2 + 1) % 4096) (be m.payload 15 1) (be m.payload 16 1) (be m.payload 17 1) n es s).onInaug fun x =>
    { x with backups := backupAdmits es }

/-- NUMBERING_RECEIVE (R100, R102). A member that it omits reports once, with cause OMITTED, and a second omission in succession
ends its membership. -/
def numberingReceive (s : State) : State :=
  withMsg (isSub ftInauguration false 6) (fun m t =>
    if isLead t then t
    else match (numberingEntries m.payload).findIdx? fun e => e.badge == t.sys.badge && e.adm == t.inaug.adm with
      | some n =>
        let fresh := t.inaug.guest == .done
        let t1 := (adoptFrom m (some n) t).onInaug fun x =>
          { x with cold := .off, guest := .idle, posDue := if fresh then [] else x.posDue
                   heardLead := if fresh then trainTime t else x.heardLead }
        earlyFlush (if fresh then raise 91 (t1.inaug.adm * 65536) t1 else t1)
      | none =>
        if !admitted t then t
        else if 1 ≤ t.inaug.omitted then loseAndSeek t
        else earlyFlush ((adoptFrom m none t).onInaug fun x => { x with posDue := [(5, trainTime t)] })) s

def execNumberingReceive (s : State) : Out := .next (numberingReceive s)

/-- GRACE_PERIOD_END (R100). -/
def gracePeriodEnd (s : State) : State :=
  match s.inaug.graceUntil with
  | some g => if g ≤ trainTime s then s.onInaug fun x => { x with graceUntil := none, prevNumbers := [] } else s
  | none => s

def execGracePeriodEnd (s : State) : Out := .next (gracePeriodEnd s)

/-! Lead loss, merges and handover (R109 to R111). -/

/-- The committed image of a bank. -/
def bankImage (b : Bank) : List Byte := (sortBy (·.1) b.chunks).flatMap (·.2)

/-- The DISSOLVE of a car that takes over without a copy: it names itself (R109). -/
def ownDissolve (s : State) : TxFrame := inaugFrame s .plain 7 (beBytes 8 s.sys.badge ++ [byteOf (pTrain s)])

/-- Since when that DISSOLVE waits. -/
def dissolveFrom (s : State) : Nat := s.ldr.dissolveSince.getD (trainTime s)

/-- A backup becomes lead: with its committed copy, or with DISSOLVE and a cold start (R109, R116). A DISSOLVE that cannot leave
keeps its place (R171), and no key can be drawn without random output (R291). -/
def becomeLead (cause : Nat) (s : State) : State :=
  match s.ldr.active with
  | some b => takeOver cause (bankImage b) s
  | none =>
    let t := (moveUp s).onLdr fun l => { l with dissolveSince := some (dissolveFrom s) }
    if !s.sec.entropyOk then t
    else match sendExpressFrom 0 (dissolveFrom s) (ownDissolve t) t with
      | none => expressHeld 0 (dissolveFrom s) (ownDissolve t) t
      | some s1 => cntInaug 6 (coldWin (raise 92 2 (raise 92 1 s1)))

/-- BACKUP_TAKEOVER (R109). -/
def backupTakeover (s : State) : State :=
  if s.inaug.role == .backup && onTrain s && s.inaug.omitted == 0
      && (s.ldr.dissolveSince.isSome || decide (s.inaug.heardLead + pLeadLoss s + (s.inaug.rank - 1) * 3000000 ≤ trainTime s)) then
    becomeLead 6 s
  else s

def execBackupTakeover (s : State) : Out := .next (backupTakeover s)

/-- LEAD_LOSS_TIMEOUT (R109). -/
def leadLossTimeout (s : State) : State :=
  if s.inaug.role == .member && onTrain s && decide (s.inaug.heardLead + pLeadLoss s + 9000000 ≤ trainTime s) then loseAndSeek s
  else s

def execLeadLossTimeout (s : State) : Out := .next (leadLossTimeout s)

/-- DISSOLVE_RECEIVE (R110). -/
def dissolveReceive (s : State) : State :=
  withMsg (isSub ftInauguration false 7) (fun m t =>
    if !onTrain t then t
    else (loseAndSeek (raise 92 2 t)).onLdr fun l => { l with winner := some (be m.payload 12 8, be m.payload 20 1) }) s

def execDissolveReceive (s : State) : Out := .next (dissolveReceive s)

/-- HANDOVER may be sent to a target: it is BACKUP 1 with a committed copy, a fit backup time master, and no census is open
(R111, steps 1 to 3). -/
def handReady (b : Nat) (s : State) : Bool :=
  isLead s && s.ldr.committed && (if s.clk.st == .master then natBit s.ref.myFit 0 else natBit s.ref.fit 0)
    && backupBadge s.inaug.numbering 1 == some b && s.ldr.census.isNone

/-- The HANDOVER to a target. -/
def handFrame (b : Nat) (s : State) : TxFrame := inaugFrame s .plain 8 (beBytes 8 b ++ beBytes 4 s.ldr.stateVer)

/-- Since when HANDOVER waits. -/
def handFrom (s : State) : Nat := s.ldr.handSince.getD (trainTime s)

/-- HANDOVER_SEND (R111, steps 3 and 4). A HANDOVER that cannot leave keeps its place (R171). -/
def handoverSend (s : State) : State :=
  match s.ldr.handTarget with
  | some b =>
    if !handReady b s then s.onLdr fun l => { l with handSince := none }
    else match sendExpressFrom 0 (handFrom s) (handFrame b s) s with
      | none => expressHeld 0 (handFrom s) (handFrame b s) (s.onLdr fun l => { l with handSince := some (handFrom s) })
      | some s1 =>
        let s2 := when' (s1.clk.st == .master) (selfCheckFail 5 0) (raise 92 3 s1)
        let s3 := setRole .member 0 s2.inaug.drive s2
        (s3.onInaug fun x => { x with heardLead := trainTime s }).onLdr fun _ => LeadSt.reset
  | none => s

def execHandoverSend (s : State) : Out := .next (handoverSend s)

/-- HANDOVER_RECEIVE (R111, step 5). -/
def handoverReceive (s : State) : State :=
  withMsg (isSub ftInauguration false 8) (fun m t =>
    if be m.payload 12 8 == t.sys.badge && t.inaug.role == .backup then becomeLead 7 t
    else t) s

def execHandoverReceive (s : State) : Out := .next (handoverReceive s)

/-! The copy of the lead-car state (R113). -/

/-- BACKUP 1. -/
def isBackup1 (s : State) : Bool := s.inaug.role == .backup && s.inaug.rank == 1

/-- What BACKUP 1 holds toward a version: the bank that it builds, or for another version the active one (R113). -/
def heldChunks (v : Nat) (l : LeadSt) : List (Nat × List Byte) :=
  let start := (l.active.map Bank.chunks).getD []
  match l.build with
  | some b => if b.version == v then b.chunks else start
  | none => start

/-- STATE_CHUNK_RECEIVE (R113). -/
def stateChunkReceive (s : State) : State :=
  withMsg (isSub ftInauguration false 9) (fun m t =>
    let v := be m.payload 12 4
    let i := be m.payload 16 1
    let d := part m.payload 20 (be m.payload 18 2)
    if !isBackup1 t then t
    else t.onLdr fun l => { l with build := some { version := v, chunks := (i, d) :: (heldChunks v l).filter fun c => c.1 != i } }) s

def execStateChunkReceive (s : State) : Out := .next (stateChunkReceive s)

/-- STATE_COMMIT_RECEIVE (R113): the first missing chunk, then the hash, decide the RESULT. -/
def stateCommitReceive (s : State) : State :=
  withMsg (isSub ftInauguration false 10) (fun m t =>
    if !isBackup1 t then t
    else
      let v := be m.payload 12 4
      let total := be m.payload 16 1
      let chunks := heldChunks v t.ldr
      let missing := (List.range total).find? fun i => !(chunks.any fun c => c.1 == i)
      let used := sortBy (·.1) (chunks.filter fun c => decide (c.1 < total))
      let result := match missing with
        | some _ => 2
        | none => if sha (used.flatMap (·.2)) == part m.payload 20 32 then 0 else 1
      let t1 := if result == 0 then cntInaug 7 (t.onLdr fun l => { l with active := some { version := v, chunks := used }, build := l.active })
        else cntInaug 8 t
      trainSend (inaugFrame t1 .plain 11 (beBytes 4 v ++ [byteOf result, byteOf (missing.getD 0)])) t1) s

def execStateCommitReceive (s : State) : Out := .next (stateCommitReceive s)

/-- STATE_ACK_RECEIVE (R113, R107). -/
def stateAckReceive (s : State) : State :=
  withMsg (isSub ftInauguration false 11) (fun m t =>
    if !isLead t || be m.payload 12 4 != t.ldr.version || m.hdr.adm != backup1 t then t
    else if be m.payload 16 1 == 0 then takeAdmits (stateCommitted t)
    else copyFailed t) s

def execStateAckReceive (s : State) : Out := .next (stateAckReceive s)

/-- STATE_COPY_TIMEOUT (R113): silence of 2 ms after STATE_COMMIT. -/
def stateCopyTimeout (s : State) : State :=
  match s.ldr.copyAt with
  | some t => if isLead s && decide (t + 2000000 ≤ trainTime s) then copyFailed s else s
  | none => s

def execStateCopyTimeout (s : State) : Out := .next (stateCopyTimeout s)

/-- STATE_COPY_RETRY (R113): after COPY_FAIL, every 100 ms. -/
def stateCopyRetry (s : State) : State :=
  if isLead s && decide (3 ≤ s.ldr.copyFails) && s.ldr.copyAt.isNone && decide (s.ldr.copyTry + 100000000 ≤ trainTime s) then
    stateCopy (s.onLdr fun l => { l with copyTry := trainTime s })
  else s

def execStateCopyRetry (s : State) : Out := .next (stateCopyRetry s)

end Sys2Proof.Machine
end

