-- ==== Sys2Proof/Machine/Serial.lean ====
section
/-!
DEFINITION. Serial ports: receiver, FIFO, receive ring, transmitter and driver enable, port records and the raw
commands (R227 to R251, R401).
-/

namespace Sys2Proof.Machine

open Sys2Proof

/-! Checks of records (R14): the first offending word. -/

/-- The word of the first condition that fails; conditions stand in ascending word order. -/
def firstBad (l : List (Bool × Nat)) : Option Nat := (l.find? (·.1)).map (·.2)

/-- A reserved field that is not zero. -/
def rsv (r : List Word) (i hi lo : Nat) : Bool × Nat := (bits r i hi lo != 0, i)

/-! The port record (R248, R249). -/

def poEnable (r : List Word) : Bool := bit r 0 31
def poDint (r : List Word) : Nat := bits r 0 27 16
def poDfrac (r : List Word) : Nat := bits r 0 15 12
def poData (r : List Word) : Nat := bits r 1 31 30
def poMute (r : List Word) : Bool := bit r 1 24
def poEchoMute (r : List Word) : Bool := bit r 1 23
def poStuckMs (r : List Word) : Nat := bits r 3 15 8
def poTimeout (r : List Word) : Nat := bits r 3 31 16
def poLevel (r : List Word) : Nat := bits r 3 5 0
def poRingKib (r : List Word) : Nat := bits r 4 15 0

/-- Oversampling ratio (R230). -/
def poOs (r : List Word) : Nat := if bits r 0 30 29 == 0 then 16 else if bits r 0 30 29 == 1 then 8 else 3

/-- Sixteen bit times in ns: 16 × PRE × OS × D × 10 ns (R230). -/
def poBits16 (r : List Word) : Nat := (if bit r 0 28 then 16 else 1) * poOs r * (16 * poDint r + poDfrac r) * 10

/-- n bit times in ns. -/
def bitTimes (r : List Word) (n : Nat) : Nat := n * poBits16 r / 16

/-! Bits on the line (R231, R234, R236). -/

/-- Parity: 0 none, 1 even, 2 odd, 3 mark, 4 space. -/
def poParity (r : List Word) : Nat := bits r 1 29 27
/-- DE[n] is active low. -/
def poDeLow (r : List Word) : Bool := bit r 1 22
/-- Lead and tail of DE[n], in sixteenths of a bit time. -/
def poDeLead (r : List Word) : Nat := bits r 2 15 8
def poDeTail (r : List Word) : Nat := bits r 2 7 0
/-- Data bits of a character. -/
def poDataBits (r : List Word) : Nat := 7 + min (poData r) 2
/-- Stop bits, counted in halves. -/
def poStopHalves (r : List Word) : Nat := 2 + bits r 1 26 25
/-- N: the bits from the start bit to the first stop bit inclusive (R233). -/
def poN (r : List Word) : Nat := 2 + poDataBits r + b2n (poParity r != 0)

/-- n sixteenths of a bit time in ns. -/
def sixteenths (r : List Word) (n : Nat) : Nat := n * poBits16 r / 256

/-- The time of a character with all its stop bits (R243). -/
def charTime (r : List Word) : Nat := sixteenths r (16 * (poN r - 1) + 8 * poStopHalves r)

/-- How long a line must be high to end LINE_STUCK: N plus the configured stop bits (R237). -/
def quietTime (r : List Word) : Nat := sixteenths r (16 * poN r + 8 * poStopHalves r)

/-- The ticks of a bit whose samples decide it (R231). -/
def sampleTicks (r : List Word) : List Nat := if poOs r == 16 then [7, 8, 9] else if poOs r == 8 then [3, 4, 5] else [1]

/-- The samples that decide a bit, of those taken at its ticks from tick 0 on. A sample that is not given is high (log 21). -/
def samplesUsed (r : List Word) (v : List Bool) : List Bool := (sampleTicks r).map fun t => v.getD t true

/-- The value of a bit from its samples, one at each tick: the majority of three, or with OS 3 the one sample (R231). -/
def bitOf (r : List Word) (v : List Bool) : Bool :=
  let u := samplesUsed r v
  decide (u.length < 2 * u.countP id)

/-- The three samples disagree: never with OS 3. -/
def bitNoise (r : List Word) (v : List Bool) : Bool :=
  let u := samplesUsed r v
  u.any id && !u.all id

/-- The parity bit that belongs to the data bits. -/
def parityOf (r : List Word) (data : List Bool) : Bool :=
  let odd := data.countP id % 2 == 1
  match poParity r with
  | 1 => odd
  | 2 => !odd
  | 3 => true
  | _ => false

/-- Bits, least significant first, as a number. -/
def bitsValue : List Bool → Nat
  | [] => 0
  | b :: l => b2n b + 2 * bitsValue l

/-- The data bits of a character, least significant first. -/
def dataBits (r : List Word) (ch : Nat) : List Bool := (List.range (poDataBits r)).map (natBit ch)

/-- The bits of a character before its stop bits, as the transmitter sends them. -/
def lineBits (r : List Word) (ch : Nat) : List Bool :=
  let d := dataBits r ch
  false :: d ++ (if poParity r == 0 then [] else [parityOf r d])

/-- What a receiver decides of a character: its value, and FE, PE, NOISE and BRK in bits 0 to 3 (R236). `body` holds the
samples of the data and parity bits, `stop` those of the first stop bit, `noise` says that the start bit's disagreed. -/
def readChar (r : List Word) (noise : Bool) (body : List (List Bool)) (stop : List Bool) : Nat × Nat :=
  let cells := (List.range (poN r - 2)).map fun i => body.getD i []
  let data := (cells.take (poDataBits r)).map (bitOf r)
  let par := (cells.drop (poDataBits r)).map (bitOf r)
  let fe := !bitOf r stop
  let brk := fe && !(data ++ par).any id
  let pe := !brk && par.any fun b => b != parityOf r data
  (bitsValue data, b2n fe + 2 * b2n pe + 4 * b2n (noise || (stop :: cells).any (bitNoise r)) + 8 * b2n brk)

/-- The fields that the receiver and the transmitter adopt (R245): the others are masked. -/
def poSetting (r : List Word) : List Word :=
  [wordOf (bits r 0 30 12 * 4096), wordOf (bits r 1 31 25 * 2 ^ 25), wordOf (bits r 2 31 16 * 65536)]

/-- The rate lies outside 300 to 33,333,334 baud: Baud = 16 × 10^9 / (16 bit times in ns) (R230). -/
def poRateBad (r : List Word) : Bool :=
  decide (16000000000 < 300 * poBits16 r) || decide (33333334 * poBits16 r < 16000000000)

/-- The first offending word of a port record (R14, R230, R249). A record with ENABLE = 0 is checked for reserved
bits only. -/
def portCheck (r : List Word) : Option Nat :=
  let en := poEnable r
  firstBad [
    rsv r 0 11 0,
    (en && (bits r 0 30 29 == 3 || poDint r == 0 || (bits r 0 30 29 == 2 && poDfrac r != 0) || poRateBad r), 0),
    rsv r 1 20 0,
    (en && (poData r == 3 || decide (4 < bits r 1 29 27) || bits r 1 26 25 == 3 || (poMute r && poData r != 2)), 1),
    rsv r 3 7 6,
    (en && (poTimeout r == 0 || poStuckMs r == 0), 3),
    rsv r 4 23 16,
    (en && (decide (poRingKib r < 4) || decide (1024 < poRingKib r)), 4),
    rsv r 5 31 0]

/-- Descriptors of a receive queue of a yard port record (R336). -/
def rxNdesc (r : List Word) (q : Nat) : Nat := bits r (14 + q) 31 16

/-- Bytes that the yard port's receive rings take: descriptors of 16 bytes and their buffers (R336, R337). -/
def ringBytes (r : List Word) : Nat := ((List.range 8).map fun q => rxNdesc r q * (16 + bits r (14 + q) 15 8 * 64)).sum

/-- KiB of receive ring that the ports of a list of records take, disabled ones too (R249). -/
def ringsKib (rs : List (List Word)) : Nat := (rs.map poRingKib).sum

/-! Port state. -/

/-- One port. -/
def portOf (s : State) (p : Nat) : PortSt := s.ports.getD p PortSt.reset

def modPort (p : Nat) (f : PortSt → PortSt) (s : State) : State := { s with ports := s.ports.modify p f }

/-- The serial island is clocked: not in BARN, but again from a wake source on (R247, R490). -/
def portsClocked (s : State) : Bool := s.sys.dev != .barn || s.sys.barn == .waking

/-- The port is clocked, and enabled or still completing a character after ENABLE was cleared (R229, R245, R247). -/
def portLive (s : State) (p : Nat) : Bool := portsClocked s && (poEnable (portOf s p).rec_ || (portOf s p).closing)

/-- The port may begin a character: not after ENABLE was cleared, nor while BARN is entered (R245, R488). -/
def portOpen (s : State) (p : Nat) : Bool := portLive s p && !(portOf s p).closing && s.sys.barn != .entering

/-- The level of TX[n]: high at idle, in the lead and in stop bits; none is high impedance (R227, R229, R234, R483). -/
def serialTx (s : State) (p : Nat) : Option Bool :=
  let x := portOf s p
  match s.sys.dev with
  | .off => none
  | .reset => none
  | _ => some (match x.txCh with
    | none => true
    | some ch =>
      if s.clk.c < x.txAt then true else (lineBits x.txSet ch).getD ((s.clk.c - x.txAt) * 16 / max 1 (poBits16 x.txSet)) true)

/-- The level of DE[n] (R229, R243, R248 DE_POL, R483). -/
def serialDe (s : State) (p : Nat) : Option Bool :=
  match s.sys.dev with
  | .off => none
  | .reset => none
  | _ => some ((portOf s p).de != poDeLow (portOf s p).rec_)

/-- An event of a serial source for its first occurrence in a basic cycle (R250). -/
def portFirst (p code data : Nat) (s : State) : State := firstInCycle (200000 + p * 256 + code) (raiseCode p code data 0) s

/-- The framing front end of a slot returns to hunting (R193). -/
def framerReset (slot : Nat) (s : State) : State :=
  s.onSent fun t => { t with framers := t.framers.modify slot fun _ => Framer.reset }

/-- RATE_APPLIED (R245). -/
def rateApplied (p dir : Nat) (s : State) : State := raiseCode p 7 dir 0 s

/-- The receiver adopts a pending setting. -/
def rxAdopt (p : Nat) (s : State) : State :=
  if (portOf s p).rxPend then rateApplied p 0 (modPort p (fun x => { x with rxSet := x.rec_, rxPend := false }) s) else s

/-- The transmitter adopts a pending setting. -/
def txAdopt (p : Nat) (s : State) : State :=
  if (portOf s p).txPend then rateApplied p 1 (modPort p (fun x => { x with txSet := x.rec_, txPend := false }) s) else s

/-! Rings in the frame-queue region (R242, R336). No rule places them there: the buffers of the yard port's queues come first,
then its descriptor rings, then the rings of the serial ports, each in order (DESIGN CHOICE, log 24). -/

/-- First byte of the receive ring of a port. -/
def serialRing (s : State) (p : Nat) : Nat :=
  regionBase s 1 + ringBytes s.yard.record + ringsKib ((s.ports.take p).map (·.rec_)) * 1024

/-- Address of a block of the ring of a port. -/
def blockAddr (s : State) (p place : Nat) : Nat := serialRing s p + 128 * place

/-! Receiver. -/

/-- START_EDGE (R231, R232, R245, R246): the edge at the pad, then the start bit decided from its samples. A receiver that waits
for a high line only notes that the line is low (R237, R247). -/
def startEdge (p : Nat) (samples : List Bool) (s : State) : State :=
  let x := portOf s p
  if !portOpen s p || x.echo then s
  else if x.phase == .stuck || x.phase == .waitIdle then modPort p (fun y => { y with lowAt := s.clk.c }) s
  else if x.phase != .hunting then s
  else
    let s1 := rxAdopt p s
    let r := (portOf s1 p).rxSet
    if bitOf r samples then
      let s2 := cntSerial p 6 (modPort p (fun y => { y with phase := .hunting, rx := true }) s1)
      portFirst p 6 (s2.ctr.serial.getD (12 * p + 6) 0) s2
    else
      let t := stampAt s1 (s1.clk.c - bits x.rec_ 4 31 24)
      noteStamp (modPort p (fun y =>
        { y with phase := .character, edge := some t, edgeAt := s1.clk.c, rx := false, noisy := bitNoise r samples }) s1)

def execStartEdge (port : Nat) (samples : List Bool) (s : State) : Out := .next (startEdge port samples s)

/-- The slot of R238. `fl`: [0] FE, [1] PE, [2] NOISE, [3] BRK, [4] ADDR_MATCH, [5] OVW. -/
def slotWord (fl ch : Nat) : Nat :=
  32768 + b2n (natBit fl 2) * 16384 + b2n (natBit fl 4) * 8192 + b2n (natBit fl 3) * 4096 + b2n (natBit fl 5) * 2048
    + b2n (natBit fl 1) * 1024 + b2n (natBit fl 0) * 512 + ch % 512

/-- FIFO_LEVEL on its rise (R241). -/
def levelCheck (p : Nat) (s : State) : State :=
  let x := portOf s p
  let lv := poLevel x.rec_
  let hit := lv != 0 && decide (lv ≤ x.fifo.length)
  let s1 := modPort p (fun y => { y with lvlHit := hit }) s
  if hit && !x.lvlHit then raiseCode p 5 x.fifo.length 0 s1 else s1

/-- A slot is stored, or overwrites the newest (R238, R240). -/
def enterSlot (p : Nat) (c : RxChar) (s : State) : State :=
  let x := portOf s p
  let full := decide (64 ≤ x.fifo.length)
  let c' : RxChar := if full && !natBit c.slot 11 then { c with slot := c.slot + 2048 } else c
  let s1 := modPort p (fun y => { y with fifo := (if full then y.fifo.take 63 else y.fifo) ++ [c'] }) s
  let s2 := cntSerial p 0 s1
  let s3 := when' (natBit c.slot 9) (cntSerial p 2) s2
  let s4 := when' (natBit c.slot 10) (cntSerial p 3) s3
  let s5 := when' (natBit c.slot 14) (cntSerial p 4) s4
  let s6 := when' (natBit c.slot 12) (cntSerial p 5) s5
  let s7 := if natBit c.slot 9 || natBit c.slot 10 || natBit c.slot 14 then portFirst p 1 c'.slot s6 else s6
  let s8 := if full then
      let t := cntSerial p 7 s7
      portFirst p 2 (t.ctr.serial.getD (12 * p + 7) 0) t
    else s7
  levelCheck p s8

/-- A completed character is stored. While the FIFO holds 64 slots it waits for the end of the island clock cycle of 10 ns, since a
read in that cycle takes effect first (R239, R240). -/
def storeChar (p : Nat) (c : RxChar) (s : State) : State :=
  if 64 ≤ (portOf s p).fifo.length then modPort p (fun y => { y with late := some c }) s else enterSlot p c s

/-- The character that waited enters the FIFO: the read has been, or the cycle is over. -/
def enterLate (p : Nat) (s : State) : State :=
  match (portOf s p).late with
  | some c => enterSlot p c (modPort p (fun y => { y with late := none }) s)
  | none => s

/-- The island clock cycle is over at every port. -/
def enterLates (s : State) : State :=
  if s.ports.any fun y => y.late.isSome then each (List.range 16) enterLate s else s

/-- ENABLE was cleared while a shifter was busy, and both are idle now (R245). -/
def portClose (p : Nat) (s : State) : State :=
  let x := portOf s p
  if x.closing && x.phase != .character && x.txCh.isNone then
    let s1 := modPort p (fun y =>
      { y with closing := false, phase := .hunting, edge := none, txFifo := [], txPhase := .idle, de := false, echo := false,
               muted := false, rx := true }) s
    s1.onSent fun t => { t with serialOut := t.serialOut.filter fun o => o.1 != p,
                                queues := t.queues.modify p fun q => { q with emitting := none } }
  else s

/-- The centre of the first stop bit of the character in progress: N − 0.5 bit times after its start edge (R231, R233). -/
def stopCentre (x : PortSt) : Nat := x.edgeAt + sixteenths x.rxSet (16 * poN x.rxSet - 8)

/-- CHARACTER_COMPLETE (R231, R234 to R240), from the centre of the first stop bit on: `body` holds the samples of the data
and parity bits, `stop` those of the first stop bit, one at each tick of the bit. -/
def characterComplete (p : Nat) (body : List (List Bool)) (stop : List Bool) (s : State) : State :=
  let x := portOf s p
  if x.phase != .character || !portsClocked s || decide (s.clk.c < stopCentre x) then s
  else
    let v := readChar x.rxSet x.noisy body stop
    let brk := natBit v.2 3
    let nine := poData x.rxSet == 2
    let addr := nine && natBit v.1 8
    let hit := addr && ((v.1 % 256) ^^^ bits x.rxSet 2 31 24) &&& bits x.rxSet 2 23 16 == 0
    let mute := poMute x.rec_ && nine
    let drop := mute && (if addr then !hit else x.muted)
    let s1 := modPort p (fun y =>
      { y with
        phase := if brk then .breakHold else .hunting
        stuckAt := if brk then y.edgeAt else y.stuckAt
        lowAt := if brk then stopCentre y else y.lowAt
        muted := if addr && mute then !hit else y.muted
        rx := bitOf y.rxSet stop
        lastEnd := y.edgeAt + charTime y.rxSet }) s
    let s2 := if drop then cntSerial p 9 s1
      else storeChar p { slot := slotWord (v.2 + b2n hit * 16) v.1, stamp := x.edge.getD Stamp.zero, gap := false } s1
    portClose p (modPort p (fun y => { y with edge := none }) s2)

def execCharacterComplete (port : Nat) (body : List (List Bool)) (stop : List Bool) (s : State) : Out :=
  .next (characterComplete port body stop s)

/-- LINE_STUCK_TIMEOUT (R237). -/
def lineStuckTimeout (p : Nat) (s : State) : State :=
  let x := portOf s p
  if portOpen s p && !x.echo && x.phase == .breakHold && decide (x.stuckAt + poStuckMs x.rec_ * 1000000 ≤ s.clk.c) then
    framerReset p (raiseCode p 3 (poStuckMs x.rec_) 0 (cntSerial p 8 (modPort p (fun y => { y with phase := .stuck, lowAt := s.clk.c }) s)))
  else s

def execLineStuckTimeout (port : Nat) (s : State) : Out := .next (lineStuckTimeout port s)

/-- The line has been high for one character time, all of it since it was last seen low or since the island was clocked. -/
def quietLine (x : PortSt) (high c : Nat) : Bool := decide (quietTime x.rxSet ≤ high) && decide (x.lowAt + high ≤ c)

/-- LINE_RESUMED (R237, R247): one character time of high; a short break ends at the first bit centre that is high. -/
def lineResumed (l : LineObs) (s : State) : State :=
  let p := l.port
  let x := portOf s p
  let s1 := modPort p (fun y => { y with phase := .hunting, rx := true }) s
  if !portOpen s p || x.echo then s
  else match x.phase with
    | .stuck => if quietLine x l.high s.clk.c then raiseCode p 4 (min ((s.clk.c - x.stuckAt) / 1000000) 0xFFFFFFFF) 0 s1 else s
    | .waitIdle => if quietLine x l.high s.clk.c then s1 else s
    | .breakHold => s1
    | .hunting => s
    | .character => s

def execLineResumed (port : LineObs) (s : State) : Out := .next (lineResumed port s)

/-! The receive ring (R242). -/

/-- Blocks of the ring that hold something. -/
def ringUsed (x : PortSt) : Nat := x.ring.length + b2n x.cur.isSome

/-- Free blocks of the ring. -/
def ringFree (x : PortSt) : Nat := poRingKib x.rec_ * 8 - ringUsed x

/-- An item as its little-endian 64-bit word: the slots that are stored, and zeros (R239). -/
def itemBytes (i : List RxChar) : List Byte := padTo 8 (i.flatMap fun c => leBytes 2 c.slot)

/-- The 8-byte header of a block (R242). -/
def blockHead (b : RingBlock) : List Byte :=
  let last := (b.items.getLast?.map (·.length)).getD 0
  let ovw := b.items.any fun i => i.any fun c => natBit c.slot 11
  leBytes 4 (b.bseq * 65536 + b.items.length * 4096 + last * 512 + b2n b.tmo * 256 + b2n ovw * 128) ++ leBytes 4 0

/-- The block being filled is closed: its header is written. -/
def closeBlock (p : Nat) (tmo : Bool) (s : State) : State :=
  match (portOf s p).cur with
  | some b =>
    loftWrite (blockAddr s p b.place) (blockHead { b with tmo := tmo }) 0
      (modPort p (fun y => { y with ring := y.ring ++ [{ b with tmo := tmo }], cur := none }) s)
  | none => s

/-- An item is written into its block in the hayloft, a read-modify-write of half a codeword (R242, R456). -/
def writeItem (p place k : Nat) (i : List RxChar) (s : State) : State :=
  loftWrite (blockAddr s p place + 8 + 8 * k) (itemBytes i) 0 s

/-- An item enters the block being filled, or a new one; with no free block the DMA waits. A character that waited for this
read enters the FIFO behind it (R239). -/
def putItem (p n : Nat) (s : State) : State :=
  let x := portOf s p
  let i := x.fifo.take n
  match x.cur with
  | some b =>
    let s1 := writeItem p b.place b.items.length i
      (modPort p (fun y => { y with fifo := y.fifo.drop n, cur := some { b with items := b.items ++ [i] } }) s)
    enterLate p (levelCheck p (if 15 ≤ b.items.length + 1 then closeBlock p false s1 else s1))
  | none =>
    if ringFree x == 0 then
      if x.stalled then s
      else raiseCode p 8 ((x.bseq + 65535) % 65536) 0 (cntSerial p 10 (modPort p (fun y => { y with stalled := true }) s))
    else
      enterLate p (levelCheck p (writeItem p x.place 0 i (modPort p (fun y =>
        { y with fifo := y.fifo.drop n, cur := some { bseq := y.bseq, place := y.place, items := [i], tmo := false },
                 bseq := (y.bseq + 1) % 65536, place := (y.place + 1) % max 1 (poRingKib y.rec_ * 8), stalled := false }) s)))

/-- FIFO_ITEM_TRANSFER (R239, R242): four stored slots move. -/
def fifoItemTransfer (p : Nat) (s : State) : State :=
  if portLive s p && decide (4 ≤ (portOf s p).fifo.length) then putItem p 4 s else s

def execFifoItemTransfer (port : Nat) (s : State) : Out := .next (fifoItemTransfer port s)

/-- The stored slots move, four at a time and then the rest. -/
def putAll (p : Nat) : Nat → State → State
  | 0, s => s
  | n + 1, s =>
    let k := (portOf s p).fifo.length
    if k == 0 then s else putAll p n (putItem p (min 4 k) s)

/-- RX_TIMEOUT_FLUSH (R242). -/
def rxTimeoutFlush (p : Nat) (s : State) : State :=
  let x := portOf s p
  if portLive s p && x.phase != .character && decide (x.lastEnd + bitTimes x.rxSet (poTimeout x.rec_) ≤ s.clk.c) &&
      (!x.fifo.isEmpty || x.cur.isSome) then
    let s1 := putAll p 17 s
    if (portOf s1 p).cur.isSome then cntSerial p 11 (closeBlock p true s1) else s1
  else s

def execRxTimeoutFlush (port : Nat) (s : State) : Out := .next (rxTimeoutFlush port s)

/-- The characters in the ring, oldest first. -/
def ringChars (x : PortSt) : List RxChar := ((x.ring ++ x.cur.toList).flatMap (·.items)).flatten

/-- Blocks whose every slot has been framed are freed (R242). -/
def freeBlocks : Nat → PortSt → PortSt
  | 0, x => x
  | n + 1, x => match x.ring with
    | [] => x
    | b :: r =>
      let k := (b.items.map (·.length)).sum
      if k ≤ x.framed then freeBlocks n { x with ring := r, framed := x.framed - k } else x

/-- A block that holds an uncorrectable codeword is discarded as it is read, with what is left of it (R458). -/
def dropBad (p : Nat) (s : State) : State :=
  let x := portOf s p
  each (x.ring ++ x.cur.toList) (fun b t =>
    let r := loftCheck (blockAddr t p b.place) 128 0 t
    if r.1 then r.2
    else modPort p (fun y =>
      { y with
        framed := if y.ring.head? == some b || (y.ring.isEmpty && y.cur == some b) then 0 else y.framed
        ring := y.ring.erase b, cur := if y.cur == some b then none else y.cur }) r.2) s

/-! Transmitter (R243). -/

/-- The transmit FIFO is filled from what its listener's sentence has left. -/
def txFill (p : Nat) (s : State) : State :=
  match s.sent.serialOut.find? fun o => o.1 == p with
  | none => s
  | some o =>
    let room := 64 - (portOf s p).txFifo.length
    let s1 := modPort p (fun y => { y with txFifo := y.txFifo ++ o.2.take room }) s
    s1.onSent fun t => { t with serialOut := (t.serialOut.filter fun q => q.1 != p) ++
                                  (if (o.2.drop room).isEmpty then [] else [(p, o.2.drop room)]) }

/-- The next character enters the shifter, if there is one: its start bit begins at C = `from_`, or after the lead. DE[n]
is asserted; with ECHO_MUTE the receiver ignores RX[n] from then on, a character in progress included (R243, R244). -/
def txNext (p from_ : Nat) (lead : Bool) (s : State) : State :=
  let s1 := txFill p s
  match (portOf s1 p).txFifo with
  | [] => s1
  | c :: r =>
    txFill p (modPort p (fun y =>
      let mute := poEchoMute y.rec_
      { y with
        txFifo := r, txCh := some (c % 2 ^ poDataBits y.txSet), txPhase := .character, de := true, echo := y.echo || mute
        txAt := from_ + (if lead then sixteenths y.txSet (poDeLead y.rec_) else 0)
        phase := if mute && y.phase == .character then .hunting else y.phase
        edge := if mute then none else y.edge }) (txAdopt p s1))

/-- The first tick of the transmitter from C on: ticks go on from the end of the last stop bit (R230, R243; log 21). -/
def nextTick (x : PortSt) (c : Nat) : Nat :=
  let per := max 1 (poBits16 x.txSet)
  let n := 16 * poOs x.txSet
  let k := ((c - x.txAt) * n + per - 1) / per
  x.txAt + (k * per + n - 1) / n

/-- A transmission begins when the transmitter is idle; in its tail the character starts at the next tick, without a new lead
(R243). -/
def txStart (p : Nat) (s : State) : State :=
  let x := portOf s p
  if !portOpen s p then s
  else match x.txPhase with
    | .idle => txNext p s.clk.c true s
    | .tail => txNext p (nextTick x s.clk.c) false s
    | .character => s

/-- The sentence being emitted on a serial listener is out (R225 SENT). -/
def serialSent (p : Nat) (s : State) : State :=
  let q := s.sent.queues.getD p ⟨[], [], none⟩
  if q.emitting.isSome && (portOf s p).txFifo.isEmpty && !(s.sent.serialOut.any fun o => o.1 == p) then
    cntLstn p 1 (s.onSent fun t => { t with queues := t.queues.modify p fun x => { x with emitting := none } })
  else s

/-- TX_CHARACTER_END (R243): the next character follows at once, or the tail begins. -/
def txCharacterEnd (p : Nat) (s : State) : State :=
  let x := portOf s p
  let end_ := x.txAt + charTime x.txSet
  if x.txCh.isNone || !portsClocked s || decide (s.clk.c < end_) then s
  else
    let s1 := serialSent p (cntSerial p 1 (modPort p (fun y => { y with txCh := none, txPhase := .tail, txAt := end_ }) s))
    if portOpen s p then txNext p end_ false s1 else portClose p s1

def execTxCharacterEnd (port : Nat) (s : State) : Out := .next (txCharacterEnd port s)

/-- C at which the tail in progress ends. -/
def tailEnd (x : PortSt) : Nat := x.txAt + sixteenths x.txSet (poDeTail x.rec_)

/-- DE_TAIL_END (R243). -/
def deTailEnd (p : Nat) (s : State) : State :=
  let x := portOf s p
  if x.txPhase == .tail && decide (tailEnd x ≤ s.clk.c) then
    modPort p (fun y => { y with txPhase := .idle, de := false, deOff := tailEnd y }) s
  else s

def execDeTailEnd (port : Nat) (s : State) : Out := .next (deTailEnd port s)

/-- ECHO_MUTE_END (R244): one bit time after the release of DE[n], at the transmitter's rate. -/
def echoMuteEnd (p : Nat) (s : State) : State :=
  let x := portOf s p
  if x.echo && !x.de && decide (x.deOff + sixteenths x.txSet 16 ≤ s.clk.c) then modPort p (fun y => { y with echo := false }) s else s

def execEchoMuteEnd (port : Nat) (s : State) : Out := .next (echoMuteEnd port s)

/-! Port records and raw commands (R245, R248, R401). -/

/-- ECHO_MUTE takes effect at once: RX[n] is ignored while DE[n] is asserted and for one bit time after its release (R244,
R245). -/
def echoNow (r : List Word) (y : PortSt) (c : Nat) : Bool :=
  poEchoMute r && (y.echo || y.de || decide (0 < y.deOff) && decide (c < y.deOff + sixteenths y.txSet 16))

/-- A port record that passed its checks takes effect (R245). FIFO_LEVEL is a level from now on: what the FIFO holds
already is no rise (R241). -/
def portApply (p : Nat) (r : List Word) (s : State) : State :=
  let x := portOf s p
  if poEnable r && !poEnable x.rec_ && !x.closing then
    modPort p (fun y =>
      { y with
        rec_ := r, rxSet := r, txSet := r, rxPend := false, txPend := false, phase := .hunting, edge := none
        muted := poMute r, fifo := [], late := none, lvlHit := false, ring := [], cur := none, framed := 0, bseq := 0, place := 0
        stalled := false
        lastEnd := s.clk.c }) s
  else
    let hit := poLevel r != 0 && decide (poLevel r ≤ x.fifo.length)
    if poEnable r then
      modPort p (fun y =>
        { y with
          rec_ := r, rxPend := poSetting r != poSetting y.rxSet, txPend := poSetting r != poSetting y.txSet
          echo := echoNow r y s.clk.c
          phase := if echoNow r y s.clk.c && y.phase == .character then .hunting else y.phase
          edge := if echoNow r y s.clk.c then none else y.edge
          lvlHit := hit, closing := false, muted := y.muted && poMute r || poMute r && !poMute x.rec_ }) s
    else
      portClose p (modPort p (fun y =>
        { y with rec_ := r, rxPend := false, txPend := false, lvlHit := hit, closing := poEnable x.rec_ || y.closing }) s)

/-- PORT_SET (R249): the rings of all ports and of the yard port share the region (R352). -/
def cmdPortSet (c : Ctx) (s : State) : State :=
  let p := wd c.words 1
  let r := (c.words.drop 2).take 6
  if 15 < p then badParam c 1 0 s
  else match portCheck r with
    | some i => badParam c (2 + i) 0 s
    | none =>
      let need := ringBytes s.yard.record + ringsKib ((s.ports.map (·.rec_)).set p r) * 1024
      if s.loft.fq * mib < need then noSpace c (need - s.loft.fq * mib) s
      else replyOk c [] (portApply p r s)

def execPortSet (via : Via) (s : State) : Out := .next (firmware 0x501 8 .config cmdPortSet via s)

/-- PORT_STATUS (R401). The six bits of the fill cannot say 64: they are a free value then (DESIGN CHOICE, log 21). -/
def cmdPortStatus (c : Ctx) (s0 : State) : State :=
  let p := wd c.words 1
  if 15 < p then badParam c 1 0 s0
  else
    let x := portOf s0 p
    let full := decide (64 ≤ x.fifo.length)
    let fill := if full then freeNat 6 s0 else x.fifo.length
    let s := when' full tookFree s0
    replyOk c [b2n (x.phase == .stuck) * 2 ^ 31 + b2n x.muted * 2 ^ 30 + b2n x.rxPend * 2 ^ 29 + b2n x.txPend * 2 ^ 28
      + b2n x.de * 2 ^ 27 + fill, ringFree x] s

def execPortStatus (via : Via) (s : State) : Out := .next (firmware 0x502 2 .observe cmdPortStatus via s)

/-- The 128 bytes of a block: header, items, and zeros (R242). -/
def blockBytes (b : RingBlock) : List Byte := padTo 128 (blockHead b ++ b.items.flatMap itemBytes)

/-- RAW_READ (R401): closed blocks are copied whole and then freed. -/
def cmdRawRead (c : Ctx) (s : State) : State :=
  let p := wd c.words 1
  if 15 < p then badParam c 1 0 s
  else withParcel 2 (fun _ _ u =>
    if bit (u.sent.talkers.getD p []) 0 31 then stateError c u
    else
      let u := dropBad p u
      let bs := (portOf u p).ring
      writeItems 2 (bs.map blockBytes) (fun k t =>
        replyOk c [k, (bs.head?.map (·.bseq)).getD 0] (modPort p (fun y => { y with ring := y.ring.drop k, framed := 0 }) t)) c u) c s

def execRawRead (via : Via) (s : State) : Out := .next (firmware 0x503 4 .observe cmdRawRead via s)

end Sys2Proof.Machine
end

