-- ==== Sys2Proof/Machine/Sentences.lean ====
section
/-!
DEFINITION. The sentence multiplexer: framing, the rule table, groups, send queues, resequencing, listener queues,
merge stages and emission (R189 to R220, R225, R226).
-/

namespace Sys2Proof.Machine

open Sys2Proof

/-! Records: their first offending word. -/

def tkEnable (r : List Word) : Bool := bit r 0 31
def tkProfile (r : List Word) : Nat := bits r 0 30 28
def tkCheck (r : List Word) : Nat := bits r 0 27 26
def tkMaxlen (r : List Word) : Nat := bits r 0 10 0
def tkPc (r : List Word) : Nat := bits r 1 15 0

/-- The profile parameters are in their ranges (R194). -/
def tkParamBad (r : List Word) : Bool :=
  let pa := bits r 1 31 24
  match tkProfile r with
  | 0 => wd r 1 != 0
  | 1 => pa == bits r 1 23 16 || bits r 1 15 1 != 0
  | 2 => bits r 1 30 26 != 0 || (if natBit pa 7 then decide (255 < tkPc r) else decide (tkPc r < 2))
  | _ => decide (tkPc r < 2)

/-- A talker record (R14, R191, R192): the first offending word. `ports` are the port records it stands beside. -/
def talkerCheck (ports : List (List Word)) (slot : Nat) (r : List Word) : Option Nat :=
  let len := fun i => bits r (3 + i / 2) (if i % 2 == 0 then 30 else 14) (if i % 2 == 0 then 26 else 10)
  let ev := decide (48 ≤ slot) && decide (slot ≤ 55)
  firstBad [
    (decide (4 < tkProfile r) || tkCheck r == 3 || (tkCheck r != 0 && decide (1 < tkProfile r)) || bits r 0 24 11 != 0
      || decide (1024 < tkMaxlen r) || ((tkEnable r || tkMaxlen r != 0) && decide (tkMaxlen r < 3))
      || (tkProfile r == 4 && decide (slot < 16) && poData (ports.getD slot []) != 2), 0),
    (tkParamBad r, 1),
    rsv r 2 23 0,
    (decide (16 < len 0 + len 1) || decide (16 < len 0) || decide (16 < len 1), 3),
    (decide (16 < len 0 + len 1 + len 2 + len 3), 4),
    ((decide (7 < bits r 5 31 24)) || (decide (slot < 56) && bits r 5 31 24 != 0) || bits r 5 23 23 != 0 || bits r 5 7 5 != 0
      || (!ev && bits r 5 22 0 != 0) || (ev && (decide (24 < bits r 5 4 0) || (tkEnable r && bits r 5 4 0 == 0))), 5),
    (!ev && wd r 6 != 0, 6), (!ev && wd r 7 != 0, 7), (!ev && wd r 8 != 0, 8), (!ev && wd r 9 != 0, 9),
    (!ev && wd r 10 != 0, 10), (!ev && wd r 11 != 0, 11)]

def lsEnable (r : List Word) : Bool := bit r 0 31
def lsForm (r : List Word) : Nat := bits r 0 30 28
def lsMerge (r : List Word) : Bool := bit r 0 27
def lsParcel (r : List Word) : Bool := bit r 0 26
/-- MERGE_WIN in ns. -/
def lsWin (r : List Word) : Nat := bits r 0 15 0 * 1000

/-- A listener record (R214). -/
def listenerCheck (slot : Nat) (r : List Word) : Option Nat :=
  let w := bits r 0 15 0
  firstBad [
    (decide (3 < lsForm r) || (decide (32 ≤ slot) && lsForm r != 3) || bits r 0 25 16 != 0
      || (lsParcel r && !(decide (16 ≤ slot) && decide (slot < 32)))
      || (if lsMerge r then decide (w < 10) || decide (10000 < w) else w != 0), 0),
    rsv r 1 31 0]

def ruValid (r : List Word) : Bool := bit r 10 31
def ruDrop (r : List Word) : Bool := bit r 10 30
def ruRate (r : List Word) : Nat := bits r 11 15 0
def ruBurst (r : List Word) : Nat := bits r 12 7 0

/-- A rule record (R200, R201). -/
def ruleCheck (idx : Nat) (r : List Word) : Option Nat :=
  let dflt := idx == 2047
  let outside := fun i => (r.getD (2 + i) 0) &&& (~~~ (r.getD (6 + i) 0)) != 0
  firstBad ([(dflt && wd r 0 != 0, 0), (dflt && wd r 1 != 0, 1)]
    ++ (List.range 4).map (fun i => (outside i || (dflt && wd r (2 + i) != 0), 2 + i))
    ++ (List.range 4).map (fun i => (dflt && wd r (6 + i) != 0, 6 + i))
    ++ [(bits r 10 15 0 != 0 || (!ruDrop r && !bit r 10 27), 10),
        (bits r 12 31 8 != 0 || (ruRate r == 0 && ruBurst r != 0) || (ruRate r != 0 && ruBurst r == 0), 12),
        rsv r 13 31 0, rsv r 14 31 0, rsv r 15 31 0])

/-- A rule as it stands after a load: decimation from 0, the bucket full (R202). -/
def freshRule (r : List Word) (c : Nat) : RuleSt := { rec_ := r, dec := 0, tokens := ruBurst r * 1000000, filled := c }

/-- One rule replaced (R203). -/
def putRule (idx : Nat) (r : List Word) (s : State) : State :=
  s.onSent fun t => { t with rules := (idx, freshRule r s.clk.c) :: t.rules.filter fun x => x.1 != idx }

/-! Sentences enter the engine (R204, R226). -/

/-- An event of slots 0 to 15 for its first occurrence in a basic cycle. -/
def slotFirst (slot code data : Nat) (s : State) : State := if slot < 16 then portFirst slot code data s else s

/-- A framing discard: counter 1 RX_ERROR, 2 TOO_LONG, 3 INVALID (R193, R226). -/
def discard (slot code : Nat) (s : State) : State := slotFirst slot 0x80 code (cntTalk slot code s)

/-- A sentence framed without discard goes to the engine, or is discarded there (R204). -/
def frameIn (x : Sentence) (s : State) : State :=
  let s1 := sentenceIn x s
  if s.sent.inq.length < 1024 then s1 else slotFirst x.slot 0x80 4 s1

/-! Framing of serial slots (R193, R194). -/

/-- What a character does to the framing front end. -/
inductive FrameOut where
  | hold               -- inside a sentence
  | junk               -- outside any sentence
  | done (checked : Bool)
  | bad (code : Nat)   -- a discard
deriving DecidableEq, Repr

/-- The front end at the first character of a sentence. -/
def frStart (v : Nat) (c : RxChar) : Framer :=
  { bytes := [byteOf v], active := true, armed := false, noise := natBit c.slot 14, addr := natBit v 8, bcc := false,
    stamp := c.stamp, endStamp := c.stamp }

/-- One more character inside. -/
def frAdd (f : Framer) (v : Nat) (c : RxChar) : Framer :=
  { f with bytes := f.bytes ++ [byteOf v], noise := f.noise || natBit c.slot 14, addr := f.addr || natBit v 8, endStamp := c.stamp }

/-- A completed body under its profile's check (R194). -/
def frEnd (r : List Word) (body : List Byte) : FrameOut :=
  match wholeSentence r body with | some c => .done c | none => .bad 3

/-- The state of a sentence after a character has been added: does it end, and how? -/
def frJudge (r : List Word) (f : Framer) : Framer × FrameOut :=
  let n := f.bytes.length
  let last := f.bytes.getD (n - 1) 0
  if tkMaxlen r < n then (Framer.reset, .bad 2)
  else match tkProfile r with
    | 0 =>
      if last == 0x0A && f.bytes.getD (n - 2) 0 == 0x0D && decide (3 ≤ n) then (Framer.reset, frEnd r f.bytes)
      else if decide (2 ≤ n) && (f.bytes.getD (n - 2) 0 == 0x0D || (last != 0x0D && (decide (last.toNat < 0x20) || decide (0x7E < last.toNat))))
      then (Framer.reset, .bad 3)
      else (f, .hold)
    | 1 =>
      if f.bcc then (Framer.reset, frEnd r f.bytes)
      else if decide (2 ≤ n) && last == byteOf (bits r 1 23 16) then
        if bit r 1 0 then ({ f with bcc := true }, .hold) else (Framer.reset, frEnd r f.bytes)
      else (f, .hold)
    | 2 =>
      let p := lengthPrefix r f.bytes
      if n < p.1 then (f, .hold)
      else if p.2 < 1 || (tkMaxlen r : Int) < (p.1 : Int) + p.2 then (Framer.reset, .bad 3)
      else if (n : Int) == (p.1 : Int) + p.2 then (Framer.reset, .done false)
      else (f, .hold)
    | _ => (f, .hold)

/-- A character that no flag spoils starts a sentence (R194). -/
def frStarts (r : List Word) (f : Framer) (v : Nat) : Bool :=
  match tkProfile r with
  | 0 => v % 256 == 0x24 || v % 256 == 0x21
  | 1 => v % 256 == bits r 1 31 24
  | 2 => if bit r 1 31 then v % 256 == bits r 1 7 0 else f.armed
  | 3 => f.armed
  | _ => natBit v 8

/-- A sentence starts at a character, which may also end it. -/
def frBegin (r : List Word) (f : Framer) (v : Nat) (c : RxChar) : Framer × FrameOut :=
  if frStarts r f v then frJudge r (frStart v c) else ({ f with armed := false }, .junk)

/-- One character through the front end. The last component: the character must be offered again, as the start of the
next sentence. -/
def frChar (r : List Word) (f : Framer) (c : RxChar) : Framer × FrameOut × Bool :=
  let v := c.slot % 512
  let spoiled := natBit c.slot 9 || natBit c.slot 10 || natBit c.slot 11 || natBit c.slot 12
  if spoiled then
    if f.active then (Framer.reset, .bad 1, false) else ({ f with armed := false }, .junk, false)
  else if !f.active then let x := frBegin r f v c; (x.1, x.2, false)
  else if tkProfile r == 0 && (v % 256 == 0x24 || v % 256 == 0x21) then (Framer.reset, .bad 3, true)
  else if tkProfile r == 4 && natBit v 8 then (Framer.reset, frEnd r f.bytes, true)
  else let x := frJudge r (frAdd f v c); (x.1, x.2, false)

/-- An idle gap of P_C bit times after the last character (R194). -/
def frGap (r : List Word) (f : Framer) : Framer × FrameOut :=
  match tkProfile r with
  | 2 => if bit r 1 31 then (f, .hold) else ({ f with armed := f.armed || !f.active }, .hold)
  | 3 => if f.active then ({ Framer.reset with armed := true }, frEnd r f.bytes) else ({ f with armed := true }, .hold)
  | 4 => if f.active then (Framer.reset, frEnd r f.bytes) else (f, .hold)
  | _ => (f, .hold)

/-- A talker record in force from now on (R213, R395): TSEQ starts at 0 when the slot is enabled. -/
def talkerApply (slot : Nat) (r : List Word) (s : State) : State :=
  let was := tkEnable (s.sent.talkers.getD slot [])
  let s1 := s.onSent fun t =>
    { t with
      talkers := t.talkers.set slot r, talkNext := t.talkNext.set slot none
      tseq := if tkEnable r && !was then t.tseq.set slot 0 else t.tseq }
  if tkEnable r && was then s1 else framerReset slot s1

/-- At a sentence's end a waiting talker record takes effect (R395). -/
def talkerTurn (slot : Nat) (s : State) : State :=
  match s.sent.talkNext.getD slot none with
  | some r => talkerApply slot r s
  | none => s

def framerOf (s : State) (slot : Nat) : Framer := s.sent.framers.getD slot Framer.reset

def setFramer (slot : Nat) (f : Framer) (s : State) : State :=
  s.onSent fun t => { t with framers := t.framers.set slot f }

/-- The outcome of a character or a gap. `f` is the front end that held the sentence. -/
def frameResult (slot : Nat) (f : Framer) (o : FrameOut) (s : State) : State :=
  match o with
  | .hold => s
  | .junk => cntTalk slot 4 s
  | .bad code => talkerTurn slot (discard slot code s)
  | .done ck =>
    let r := s.sent.talkers.getD slot []
    talkerTurn slot (frameIn (mkSentence s slot f.stamp (if bit r 0 25 then some f.endStamp else none) f.noise f.addr ck f.bytes) s)

/-- Whether an outcome ends a sentence. -/
def FrameOut.ends : FrameOut → Bool
  | .hold => false
  | .junk => false
  | .done _ => true
  | .bad _ => true

/-- The front end with the character in it, as the record of a completed sentence needs it. -/
def heldWith (f : Framer) (c : RxChar) : Framer := if f.active then frAdd f (c.slot % 512) c else frStart (c.slot % 512) c

/-- One character of the ring is framed; whether a sentence ended. -/
def frameStep (slot : Nat) (c : RxChar) (s : State) : State × Bool :=
  let f := framerOf s slot
  let x := frChar (s.sent.talkers.getD slot []) f c
  let s1 := frameResult slot (if x.2.2 then f else heldWith f c) x.2.1 (setFramer slot x.1 s)
  if x.2.2 then
    let y := frBegin (s1.sent.talkers.getD slot []) (framerOf s1 slot) (c.slot % 512) c
    (frameResult slot (heldWith Framer.reset c) y.2 (setFramer slot y.1 s1), true)
  else (s1, x.2.1.ends)

/-- The gap that followed a character. -/
def gapStep (slot : Nat) (s : State) : State × Bool :=
  let f := framerOf s slot
  let x := frGap (s.sent.talkers.getD slot []) f
  (frameResult slot f x.2 (setFramer slot x.1 s), x.2.ends)

/-- Characters are framed until a sentence ends or none is left. -/
def frameChars (slot : Nat) : List RxChar → State → State
  | [], s => s
  | c :: r, s =>
    let a := frameStep slot c (modPort slot (fun p => { p with framed := p.framed + 1 }) s)
    let b := if c.gap then gapStep slot a.1 else (a.1, false)
    if a.2 || b.2 then b.1 else frameChars slot r b.1

/-- SENTENCE_FRAMED (R193, R242). -/
def sentenceFramed (slot : Nat) (s : State) : State :=
  if 16 ≤ slot || !tkEnable (s.sent.talkers.getD slot []) || s.sys.dev == .barn then s
  else
    let t := dropBad slot s
    let x := portOf t slot
    modPort slot (fun p => freeBlocks p.ring.length p) (frameChars slot ((ringChars x).drop x.framed) t)

def execSentenceFramed (slot : Nat) (s : State) : Out := .next (sentenceFramed slot s)

/-- The newest character of a block is followed by a gap. -/
def markItems (l : List (List RxChar)) : List (List RxChar) :=
  l.dropLast ++ ((l.getLast?.map fun i => i.dropLast ++ (i.getLast?.map fun c => { c with gap := true }).toList).toList)

/-- IDLE_GAP_SENTENCE_END (R194): the gap is noted at the newest character, or acts at once when every character has
been framed. -/
def idleGapSentenceEnd (slot : Nat) (s : State) : State :=
  let x := portOf s slot
  let r := s.sent.talkers.getD slot []
  if 16 ≤ slot || !tkEnable r || !portLive s slot || x.phase == .character || decide (tkProfile r < 2)
      || decide (s.clk.c < x.lastEnd + bitTimes x.rxSet (tkPc r)) then s
  else if !x.fifo.isEmpty then
    modPort slot (fun p => { p with fifo := p.fifo.dropLast ++ (p.fifo.getLast?.map fun c => { c with gap := true }).toList }) s
  else if (ringChars x).length ≤ x.framed then (gapStep slot s).1
  else match x.cur with
    | some b => modPort slot (fun p => { p with cur := some { b with items := markItems b.items } }) s
    | none => modPort slot (fun p =>
        { p with ring := p.ring.dropLast ++ (p.ring.getLast?.map fun b => { b with items := markItems b.items }).toList }) s

def execIdleGapSentenceEnd (slot : Nat) (s : State) : Out := .next (idleGapSentenceEnd slot s)

/-! Virtual talkers (R195). -/

/-- One submit item for a slot: header words, then the body. -/
def submitItem (slot : Nat) (w0 w1 : Nat) (body : List Byte) (s : State) : State :=
  let r := s.sent.talkers.getD slot []
  let st : Stamp := if natBit w1 23 then { s32 := w0, ep := natBits w1 31 24, sync := synced s } else stampNow s
  match wholeSentence r body with
  | some ck => frameIn (mkSentence s slot st none false false ck body) (noteStamp s)
  | none => cntTalk slot 3 s

/-- The items of a byte string up to the first malformed one, and whether there is none. -/
def parseItems : Nat → List Byte → List (Nat × Nat × List Byte) × Bool
  | 0, p => ([], p.isEmpty)
  | n + 1, p =>
    if p.isEmpty then ([], true)
    else
      let w1 := le p 4 4
      let k := w1 % 2048
      let size := 8 + roundUp k 4
      if decide (p.length < 8) || natBits w1 22 11 != 0 || k == 0 || decide (1024 < k) || decide (p.length < size)
          || !zeros p (8 + k) (size - 8 - k) then ([], false)
      else let r := parseItems n (p.drop size); ((le p 0 4, w1, (p.drop 8).take k) :: r.1, r.2)

/-- Items to a talker slot. -/
def submitAll (slot : Nat) (items : List (Nat × Nat × List Byte)) (s : State) : State :=
  each items (fun i t => submitItem slot i.1 i.2.1 i.2.2 t) s

/-! Listener queues (R215). -/

/-- Bytes of a sentence as a record with padded body. -/
def recSize (x : Sentence) : Nat := (sentenceBytes x).length

/-- A list of sentences is within limits. -/
def within (maxN maxB : Nat) (q : List Sentence) : Bool := decide (q.length ≤ maxN) && decide ((q.map recSize).sum ≤ maxB)

/-- The lowest class of a list. -/
def lowClass (q : List Sentence) : Nat := q.foldl (fun a x => min a x.cls) 7

/-- The drop rule of R215 step 2 for one queue: the queue, whether the new sentence is in it, and the drops. -/
def trimQueue : Nat → List Sentence → Sentence → List Sentence × Bool × Nat
  | 0, q, x => (q ++ [x], true, 0)
  | n + 1, q, x =>
    if within 256 65536 (q ++ [x]) then (q ++ [x], true, 0)
    else
      let c := lowClass (q ++ [x])
      match q.findIdx? fun y => y.cls == c with
      | some i => let r := trimQueue n (q.eraseIdx i) x; (r.1, r.2.1, r.2.2 + 1)
      | none => (q, false, 1)

def lqOf (s : State) (n : Nat) : LQueue := s.sent.queues.getD n ⟨[], [], none⟩
def modLq (n : Nat) (f : LQueue → LQueue) (s : State) : State := s.onSent fun t => { t with queues := t.queues.modify n f }

/-- A new sentence at the queue (R215). `old` sentences neither supersede nor are superseded now (R222). -/
def enqueue (n : Nat) (x : Sentence) (s : State) : State :=
  let q := (lqOf s n).q
  let gone := fun y : Sentence => x.sup && !x.replay && y.sup && !y.replay && sameKey y.key x.key && y.talker == x.talker
  let q1 := q.filter fun y => !gone y
  let s1 := each (List.replicate (q.length - q1.length) ()) (fun _ => cntLstn n 3) s
  let r := trimQueue 300 q1 x
  let s2 := modLq n (fun l => { l with q := r.1 }) s1
  let s3 := when' r.2.1 (cntLstn n 0) s2
  each (List.replicate r.2.2 ()) (fun _ t => slotFirst n 0x81 r.1.length (cntLstn n 2 t)) s3

/-! Ordered merge (R218). -/

/-- The order of the merge stage: epoch, stamp, talker. -/
def mergeBefore (a b : Sentence) : Bool :=
  if a.stamp.ep != b.stamp.ep then epochNewer b.stamp.ep a.stamp.ep
  else if a.stamp.s32 != b.stamp.s32 then decide (a.stamp.s32 < b.stamp.s32)
  else decide (a.talker ≤ b.talker)

def mergeInsert (x : Sentence) : List Sentence → List Sentence
  | [] => [x]
  | y :: r => if mergeBefore y x then y :: mergeInsert x r else x :: y :: r

/-- The release time of a sentence. -/
def releaseAt (s : State) (win : Nat) (x : Sentence) : Int := extend (trainTime s) x.stamp.s32 + (win : Int)

/-- A sentence arrives at a merge stage. -/
def mergeIn (n : Nat) (x : Sentence) (s : State) : State :=
  let win := lsWin (s.sent.listeners.getD n [])
  let now : Int := trainTime s
  let rel := releaseAt s win x
  if !x.stamp.sync || (x.yard && x.talker / 4096 % 256 != s.inaug.train) then cntLstn n 6 (enqueue n x s)
  else if epochNewer s.clk.tepoch x.stamp.ep || decide (rel ≤ now) then
    slotFirst n 0x82 (min (now - rel).toNat 0xFFFFFFFF) (cntLstn n 5 (enqueue n { x with late := true } s))
  else
    let held := mergeInsert { x with arrived := trainTime s } (lqOf s n).held
    if within 512 131072 held then modLq n (fun l => { l with held := held }) s
    else match held with
      | [] => s
      | y :: r => cntLstn n 7 (enqueue n y (modLq n (fun l => { l with held := r }) s))

/-- The first held sentence is due. -/
def mergeDue (s : State) (n : Nat) (x : Sentence) : Bool :=
  let win := lsWin (s.sent.listeners.getD n [])
  decide (releaseAt s win x ≤ (trainTime s : Int)) ||
    (epochNewer x.stamp.ep s.clk.tepoch && decide (x.arrived + win ≤ trainTime s))

def mergeLoop (n : Nat) : Nat → State → State
  | 0, s => s
  | k + 1, s =>
    match (lqOf s n).held with
    | [] => s
    | x :: r => if mergeDue s n x then mergeLoop n k (enqueue n x (modLq n (fun l => { l with held := r }) s)) else s

/-- MERGE_RELEASE (R218). -/
def mergeRelease (n : Nat) (s : State) : State := mergeLoop n (lqOf s n).held.length s

def execMergeRelease (slot : Nat) (s : State) : Out := .next (mergeRelease slot s)

/-- A sentence is offered to a local listener (R214). -/
def offerListener (n : Nat) (x : Sentence) (s : State) : State :=
  let r := s.sent.listeners.getD n []
  if !lsEnable r then cntLstn n 4 s
  else if lsMerge r then mergeIn n x s else enqueue n x s

/-! Groups and send queues (R206 to R208). -/

def gmapOf (s : State) (g : Nat) : GMap :=
  (s.sent.gmaps.find? fun m => m.num == g).getD { num := g, mask := 0, mapped := false, remote := true }

/-- The stream of R209 as the send queues name it: a group, or 65,536 × DST + 0x100 + slot. -/
def directStream (listener : Nat) : Nat := (listener / 64) * 65536 + 0x100 + listener % 64

/-- Put a sentence at the end of its stream. -/
def sendPut (stream : Nat) (x : Sentence) (q : List (Nat × List Sentence)) : List (Nat × List Sentence) :=
  if q.any fun y => y.1 == stream then q.map fun y => if y.1 == stream then (y.1, y.2 ++ [x]) else y else q ++ [(stream, [x])]

/-- The oldest queued sentence of a class: stream and place. -/
def sendOldest (c : Nat) (q : List (Nat × List Sentence)) : Option (Nat × Nat × Nat) :=
  q.foldl (fun best y =>
    match y.2.zipIdx.find? fun z => z.1.cls == c with
    | none => best
    | some z => match best with
      | none => some (y.1, z.2, z.1.arrived)
      | some b => if z.1.arrived < b.2.2 then some (y.1, z.2, z.1.arrived) else best) none

/-- The drop rule across all send queues (R208). -/
def sendTrim (stream : Nat) (x : Sentence) : Nat → List (Nat × List Sentence) → List (Nat × List Sentence) × Nat
  | 0, q => (sendPut stream x q, 0)
  | n + 1, q =>
    let all := q.flatMap (·.2)
    if within 2048 262144 (all ++ [x]) then (sendPut stream x q, 0)
    else match sendOldest (lowClass (all ++ [x])) q with
      | some b =>
        let q' := (q.map fun y => if y.1 == b.1 then (y.1, y.2.eraseIdx b.2.1) else y).filter fun y => !y.2.isEmpty
        let r := sendTrim stream x n q'
        (r.1, r.2 + 1)
      | none => (q, 1)

/-- A sentence is queued for the train. -/
def sendSentence (stream : Nat) (x : Sentence) (s : State) : State :=
  let r := sendTrim stream { x with arrived := trainTime s } 2100 s.sent.sendq
  cntSent 0 r.2 (s.onSent fun t => { t with sendq := r.1 })

/-- Every local listener of a mask is offered the sentence. -/
def offerMask (mask : Nat) (x : Sentence) (s : State) : State :=
  each ((List.range 64).filter (natBit mask)) (fun n t => offerListener n x t) s

/-- A sentence is routed to a group (R207). -/
def routeGroup (g : Nat) (x : Sentence) (s : State) : State :=
  let m := gmapOf s g
  let s1 := when' m.mapped (offerMask m.mask x) s
  when' m.remote (sendSentence g x) s1

/-! History (R221). -/

/-- Train time of a stamp. -/
def stampTime (s : State) (t : Stamp) : Nat := tc 64 (extend (trainTime s) t.s32)

/-- A record goes to the newest block, or to a new one; the oldest gives way when the ring is full. -/
def historyPut (x : Sentence) (s : State) : State :=
  if s.loft.hist == 0 then cntLoft 13 s
  else
    let new : HBlock := { time := stampTime s x.stamp, ep := x.stamp.ep, seq := s.sent.histSeq, unsynced := !synced s, recs := [x] }
    match s.sent.history.getLast? with
    | some b =>
      if 32 + (b.recs.map recSize).sum + recSize x ≤ 65536 then
        s.onSent fun t => { t with history := t.history.dropLast ++ [{ b with recs := b.recs ++ [x], unsynced := b.unsynced || !synced s }] }
      else
        s.onSent fun t => { t with history := (t.history.drop (t.history.length + 1 - s.loft.hist * 16)) ++ [new], histSeq := t.histSeq + 1 }
    | none => s.onSent fun t => { t with history := [new], histSeq := t.histSeq + 1 }

/-! Classification (R200 to R202). -/

/-- Rule i matches a sentence (R200). -/
def ruleHit (x : Sentence) (i : Nat) (r : List Word) : Bool :=
  i == 2047 || (ruValid r && natBit (wd64 r 0) x.slot &&
    (List.range 16).all fun k =>
      let v := (wordBytes ((r.drop 2).take 4)).getD k 0
      let m := (wordBytes ((r.drop 6).take 4)).getD k 0
      ((x.key.getD (4 + k) 0) ^^^ v) &&& m == 0)

/-- The first rule that matches, in ascending index. A default rule that nothing has written drops (R200). -/
def ruleOf (s : State) (x : Sentence) : Nat × RuleSt :=
  (s.sent.rules.filter fun r => ruleHit x r.1 r.2.rec_).foldl (fun b r => if r.1 < b.1 then r else b)
    (2047, (s.sent.rules.find? fun r => r.1 == 2047).elim (freshRule ((List.replicate 16 0).set 10 0x40000000) 0) (·.2))

def modRule (i : Nat) (f : RuleSt → RuleSt) (s : State) : State :=
  s.onSent fun t => { t with rules := t.rules.map fun r => if r.1 == i then (r.1, f r.2) else r }

/-- The token bucket now, in millionths (R202). -/
def ruleTokens (r : RuleSt) (c : Nat) : Nat :=
  min (ruBurst r.rec_ * 1000000) (r.tokens + ruRate r.rec_ * ((c - r.filled) / 1000))

/-- Steps 4 and 5 of R202. -/
def ruleRate (i : Nat) (r : RuleSt) (x : Sentence) (s : State) : State :=
  let g := bits r.rec_ 10 23 16
  if ruRate r.rec_ == 0 then routeGroup g x (cntRule i 1 s)
  else
    let t := ruleTokens r s.clk.c
    let s1 := modRule i (fun y => { y with tokens := t, filled := y.filled + (s.clk.c - y.filled) / 1000 * 1000 }) s
    if t < 1000000 then cntRule i 2 s1
    else routeGroup g x (cntRule i 1 (modRule i (fun y => { y with tokens := t - 1000000 }) s1))

/-- A sentence under its rule (R202). -/
def classify (x0 : Sentence) (s : State) : State :=
  let ir := ruleOf s x0
  let i := ir.1
  let r := ir.2
  let x : Sentence := { x0 with cls := bits r.rec_ 10 26 24, sup := bit r.rec_ 10 28, hist := bit r.rec_ 10 29, rule := i }
  let s1 := when' x.hist (historyPut x) (cntRule i 0 s)
  if ruDrop r.rec_ then cntRule i 2 s1
  else
    let n := bits r.rec_ 11 31 16
    if 2 ≤ n then
      let s2 := modRule i (fun y => { y with dec := (y.dec + 1) % n }) s1
      if r.dec % n == 0 then ruleRate i r x s2 else cntRule i 2 s2
    else ruleRate i r x s1

/-- SENTENCE_CLASSIFY (R202). -/
def sentenceClassify (s : State) : State :=
  match s.sent.inq with
  | [] => s
  | x :: r => classify x (s.onSent fun t => { t with inq := r })

def execSentenceClassify (s : State) : Out := .next (sentenceClassify s)

/-! SENTENCE frames (R209, R210). -/

/-- One record of a payload: the sentence and the bytes it takes. `none` where the bytes do not hold it. -/
def parseRecord (now : Nat) (p : List Byte) : Option (Sentence × Nat) :=
  if p.length < 24 then none
  else
    let w2 := le p 8 4
    let w5 := le p 20 4
    let n := natBits w5 25 16 + 1
    let e := natBit w2 5
    let size := 24 + roundUp n 4 + (if e then 4 else 0)
    if p.length < size || natBits (le p 0 4) 31 20 != 0 || natBits w2 31 16 != 0 || natBits w5 15 11 != 0
        || !zeros p (24 + n) (roundUp n 4 - n) then none
    else
      let ep := natBits w2 15 8
      some ({ slot := 64, talker := le p 0 4, stamp := { s32 := le p 4 4, ep := ep, sync := natBit w2 7 },
              endStamp := if e then some { s32 := le p (24 + roundUp n 4) 4, ep := ep, sync := natBit w2 7 } else none,
              noise := natBit w2 0, addr := natBit w2 2, checked := natBit w2 3, yard := natBit w2 4, late := natBit w2 6,
              replay := natBit w2 1, gap := natBit w5 26, tseq := le p 16 4, cls := natBits w5 31 29, sup := natBit w5 28,
              hist := natBit w5 27, rule := natBits w5 10 0, key := (p.drop 12).take 4, body := (p.drop 24).take n,
              arrived := now }, size)

/-- Exactly n records fill the bytes. -/
def parseRecords (now : Nat) : Nat → List Byte → Option (List Sentence)
  | 0, p => if p.isEmpty then some [] else none
  | n + 1, p => match parseRecord now p with
    | none => none
    | some x => (parseRecords now n (p.drop x.2)).map fun r => x.1 :: r

/-- STREAM agrees with the destination (R209). -/
def streamOk (h : Hdr) (stream : Nat) : Bool :=
  if h.grp then decide (stream < 256) && h.dst == 0x3F00 + stream
  else decide (0x100 ≤ stream) && decide (stream ≤ 0x13F) && !h.all

/-- A frame's sentences reach the local listeners (R210). -/
def unpack (stream : Nat) (xs : List Sentence) (s : State) : State :=
  each xs (fun x t =>
    if stream < 256 then when' (gmapOf t stream).mapped (offerMask (gmapOf t stream).mask x) t
    else offerListener (stream - 0x100) x t) s

/-- The first record of a list is marked GAP. -/
def markGap (xs : List Sentence) : List Sentence := match xs with | [] => [] | x :: r => { x with gap := true } :: r

/-- How many frames lie between two GSEQ values. -/
def gseqAhead (q next : Nat) : Nat := (q + 2 ^ 32 - next % 2 ^ 32) % 2 ^ 32

/-- Held frames that follow in GSEQ order are unpacked. -/
def reseqRun (stream : Nat) : Nat → ReseqPair → State → ReseqPair × State
  | 0, p, s => (p, s)
  | n + 1, p, s =>
    match p.held.find? fun h => h.1 == p.next with
    | none => (p, s)
    | some h => reseqRun stream n { p with next := (p.next + 1) % 2 ^ 32, held := p.held.filter fun x => x.1 != h.1 } (unpack stream h.2.2 s)

def putPair (p : ReseqPair) (s : State) : State :=
  s.onSent fun t => { t with reseq := t.reseq.map fun x => if x.adm == p.adm && x.stream == p.stream then p else x }

/-- The gap before the first held frame of a pair is given up. -/
def skipGap (p : ReseqPair) (s : State) : State :=
  match p.held.foldl (fun (b : Option (Nat × Nat × List Sentence)) h => match b with
      | none => some h
      | some g => if gseqAhead h.1 p.next < gseqAhead g.1 p.next then some h else b) none with
  | none => s
  | some h =>
    let s1 := unpack p.stream (markGap h.2.2) (cntSent 2 (gseqAhead h.1 p.next) s)
    let r := reseqRun p.stream 33 { p with next := (h.1 + 1) % 2 ^ 32, held := p.held.filter fun x => x.1 != h.1 } s1
    putPair r.1 r.2

/-- The pair whose gap is oldest. -/
def oldestGap (s : State) : Option ReseqPair :=
  (s.sent.reseq.foldl (fun (b : Option (ReseqPair × Nat)) p =>
    match p.held.foldl (fun (m : Option Nat) h => some (match m with | none => h.2.1 | some a => min a h.2.1)) none with
    | none => b
    | some a => match b with
      | none => some (p, a)
      | some q => if a < q.2 then some (p, a) else b) none).map (·.1)

/-- A SENTENCE frame of a pair, resequenced (R210). -/
def reseqFrame (adm stream q : Nat) (xs : List Sentence) (s : State) : State :=
  match s.sent.reseq.find? fun p => p.adm == adm && p.stream == stream with
  | none =>
    if 512 ≤ s.sent.reseq.length then unpack stream xs (cntSent 4 1 s)
    else unpack stream xs (s.onSent fun t => { t with reseq := t.reseq ++ [{ adm := adm, stream := stream, next := (q + 1) % 2 ^ 32, held := [] }] })
  | some p =>
    let d := gseqAhead q p.next
    if d == 0 then
      let r := reseqRun stream 33 { p with next := (p.next + 1) % 2 ^ 32 } (unpack stream xs s)
      putPair r.1 r.2
    else if 2 ^ 31 ≤ d then cntSent 3 1 s
    else
      let s1 := if 32 ≤ (s.sent.reseq.map fun x => x.held.length).sum then
          (match oldestGap s with | some o => skipGap o s | none => s)
        else s
      match s1.sent.reseq.find? fun x => x.adm == adm && x.stream == stream with
      | none => s1
      | some p1 =>
        if gseqAhead q p1.next == 0 then
          let r := reseqRun stream 33 { p1 with next := (p1.next + 1) % 2 ^ 32 } (unpack stream xs s1)
          putPair r.1 r.2
        else if 2 ^ 31 ≤ gseqAhead q p1.next then cntSent 3 1 s1
        else putPair { p1 with held := p1.held ++ [(q, trainTime s1, xs)] } s1

/-- A delivered SENTENCE frame (R209, R210). -/
def sentenceFrameIn (m : RxMsg) (s : State) : State :=
  let stream := be m.payload 0 2
  match parseRecords (trainTime s) (be m.payload 2 1) (m.payload.drop 8) with
  | none => cntSent 1 1 s
  | some xs =>
    if xs.isEmpty || m.payload.length < 8 || be m.payload 3 1 != 0 || !streamOk m.hdr stream then cntSent 1 1 s
    else if m.hdr.grp && !(gmapOf s stream).mapped then s
    else reseqFrame m.hdr.adm stream (be m.payload 4 4) xs s

/-- SENTENCE_FRAME_UNPACK. -/
def sentenceFrameUnpack (s : State) : State := withMsg (fun m => m.hdr.ftype == ftSentence) sentenceFrameIn s

def execSentenceFrameUnpack (s : State) : Out := .next (sentenceFrameUnpack s)

/-- RESEQ_HOLD_EXPIRY (R210). -/
def reseqHoldExpiry (adm stream : Nat) (s : State) : State :=
  match s.sent.reseq.find? fun p => p.adm == adm && p.stream == stream with
  | none => s
  | some p => if p.held.any fun h => decide (h.2.1 + pTransit s ≤ trainTime s) then skipGap p s else s

def execReseqHoldExpiry (adm stream : Nat) (s : State) : Out := .next (reseqHoldExpiry adm stream s)

end Sys2Proof.Machine
end

