-- ==== Sys2Proof/Machine/SentCmd.lean ====
section
/-!
DEFINITION. Listener output, the sentence commands and the group commands (R205, R206, R211, R216, R219, R220, R395,
R397, R399), and the end of a replay (R222, R400).
-/

namespace Sys2Proof.Machine

open Sys2Proof

/-! Output forms (R219, R220). -/

def digit (n : Nat) : Byte := byteOf (if n < 10 then 48 + n else 55 + n)

/-- k upper-case hex digits. -/
def hexText : Nat → Nat → List Byte
  | 0, _ => []
  | k + 1, n => digit (n / 16 ^ k % 16) :: hexText k n

/-- k decimal digits. -/
def decText : Nat → Nat → List Byte
  | 0, _ => []
  | k + 1, n => digit (n / 10 ^ k % 10) :: decText k n

/-- A number below 10,000 in decimal without leading zeros. -/
def decPlain (n : Nat) : List Byte := decText (if n < 10 then 1 else if n < 100 then 2 else if n < 1000 then 3 else 4) n

/-- The tag (R220). -/
def tagText (x : Sentence) : List Byte :=
  let t := x.talker
  let fl := (if x.late then [byteOf 0x4C] else []) ++ (if x.stamp.sync then [] else [byteOf 0x55]) ++ (if x.gap then [byteOf 0x47] else [])
    ++ (if x.yard then [byteOf 0x59] else []) ++ (if x.replay then [byteOf 0x50] else []) ++ (if x.noise then [byteOf 0x4E] else [])
  let comma := [byteOf 0x2C]
  [byteOf 0x23, byteOf 0x4B, byteOf 0x54] ++ comma ++ hexText 2 x.stamp.ep ++ comma ++ hexText 8 x.stamp.s32 ++ comma
    ++ decPlain (t / 4096 % 256) ++ [byteOf 0x2E] ++ decText 2 (t / 64 % 64) ++ [byteOf 0x2F] ++ decText 2 (t % 64) ++ comma
    ++ hexText 8 x.tseq ++ comma ++ [digit x.cls] ++ comma ++ (if fl.isEmpty then [byteOf 0x2D] else fl) ++ comma
    ++ decPlain x.body.length ++ [byteOf 0x3A]

/-- Which check a sentence's profile has: 1 a '*hh', 2 a BCC, 0 none. A record from another car does not say its profile
(R209), so there it is free (log 20). -/
def checkKind (s : State) (x : Sentence) : Nat :=
  if 64 ≤ x.slot then Config.farCheck x.talker x.tseq % 3
  else
    let r := s.sent.talkers.getD x.slot []
    if tkProfile r == 0 then 1 else if tkProfile r == 1 && bit r 1 0 then 2 else 0

/-- RAW-RECHECKED (R219). -/
def recheck (s : State) (x : Sentence) : List Byte :=
  let b := x.body
  let n := b.length
  match checkKind s x with
  | 1 =>
    if decide (6 ≤ n) && b.getD (n - 5) 0 == 0x2A && b.drop (n - 2) == [0x0D, 0x0A] then
      b.take (n - 4) ++ hexText 2 (xorBytes ((b.take (n - 5)).drop 1)).toNat ++ [0x0D, 0x0A]
    else b
  | 2 => b.take (n - 1) ++ [xorBytes ((b.take (n - 1)).drop 1)]
  | _ => b

/-- What a listener emits, and where the body starts in it. -/
def formBytes (s : State) (n : Nat) (x : Sentence) : List Byte × Nat :=
  match lsForm (s.sent.listeners.getD n []) with
  | 0 => (x.body, 0)
  | 1 => (recheck s x, 0)
  | 2 => (tagText x ++ x.body, (tagText x).length)
  | _ => (sentenceBytes x, 24)

/-! Replay at its listener (R222, R400). -/

/-- REPLAY_DONE (R391). -/
def replayDone (r : Replay) (aborted : Bool) (s : State) : State :=
  notifyVia r.via r.session [noteWords 0xE04 [r.rid, r.count, b2n r.truncated + 2 * b2n aborted]]
    (s.onSent fun t => { t with replays := t.replays.filter fun x => x.rid != r.rid })

/-- There is room for a replayed record (R222). -/
def replayRoom (s : State) (n : Nat) : Bool :=
  let q := (lqOf s n).q
  decide (q.length < 128) && decide ((q.map recSize).sum < 32768)

/-- One replayed record is taken into the queue. -/
def replayTake (n : Nat) (x : Sentence) (s : State) : State := cntLstn n 8 (enqueue n { x with replay := true } s)

/-- The next waiting record of a listener: of a local replay, or one that came by BULK. -/
def replayNext (n : Nat) (s : State) : Option State :=
  match s.sent.replays.find? fun r => r.far.isNone && r.listener % 64 == n && !r.recs.isEmpty with
  | some r =>
    match r.recs with
    | [] => none
    | x :: rest =>
      let r' := { r with recs := rest, count := r.count + 1 }
      let s1 := replayTake n x (s.onSent fun t => { t with replays := t.replays.map fun y => if y.rid == r.rid then r' else y })
      some (if rest.isEmpty then replayDone r' false s1 else s1)
  | none =>
    match s.sent.replayIn.find? fun r => r.1 == n with
    | some (_, x :: rest) =>
      some (replayTake n x (s.onSent fun t => { t with replayIn := (t.replayIn.filter fun r => r.1 != n) ++
        (if rest.isEmpty then [] else [(n, rest)]) }))
    | _ => none

/-- Replayed records enter a queue while there is room. -/
def replayFill (n : Nat) : Nat → State → State
  | 0, s => s
  | k + 1, s => if replayRoom s n then (match replayNext n s with | some t => replayFill n k t | none => s) else s

/-- Local replays to a listener end because it is disabled. -/
def replayAbort (n : Nat) (s : State) : State :=
  each (s.sent.replays.filter fun r => r.far.isNone && r.listener % 64 == n) (fun r => replayDone r true)
    (s.onSent fun t => { t with replayIn := t.replayIn.filter fun r => r.1 != n })

/-- Replays bound for another car end because this car leaves INTEGRATING and RUNNING. -/
def replayLeave (s : State) : State := each (s.sent.replays.filter fun r => r.far.isSome) (fun r => replayDone r true) s

/-! Emission (R216). -/

def epRec (s : State) (e : Nat) : List Word := s.yard.eps.getD e []
def epEnable (r : List Word) : Bool := bit r 0 31
def epV6 (r : List Word) : Bool := bit r 0 30
def yardMaxlen (s : State) : Nat := bits s.yard.record 0 15 0

/-- Bytes of records that a datagram of an endpoint can hold (R341, R342): the frame counts from the destination
address to the FCS. -/
def epRoom (s : State) (e : Nat) : Nat := yardMaxlen s - (14 + (if epV6 (epRec s e) then 40 else 20) + 8 + 16 + 4)

/-- The record fits the datagram that an endpoint is packing. -/
def epFits (s : State) (e : Nat) (x : Sentence) : Bool :=
  let p := (s.yard.epSt.getD e ⟨[], 0, 0, 0⟩).pack
  decide (p.length < 255) && decide ((p.map recSize).sum + recSize x ≤ epRoom s e)

/-- A listener's next sentence begins to leave. -/
def beginEmit (n : Nat) (s : State) : Option (Sentence × State) :=
  match (lqOf s n).q with
  | [] => none
  | x :: r => some (x, (modLq n (fun l => { l with q := r, emitting := some x }) s).onSent fun t =>
      { t with lastOut := some (n, (formBytes s n x).1) })

/-- LISTENER_EMIT (R216). -/
def listenerEmit (n : Nat) (s0 : State) : State :=
  let s := replayFill n 129 s0
  let l := lqOf s n
  if n < 16 then
    if portOpen s n && (portOf s n).txPhase != .character && (portOf s n).txFifo.isEmpty && l.emitting.isNone then
      match beginEmit n s with
      | none => s
      | some (x, s1) =>
        let f := formBytes s n x
        let cs := f.1.zipIdx.map fun b => b.1.toNat + (if x.addr && b.2 == f.2 then 256 else 0)
        txStart n (s1.onSent fun t => { t with serialOut := (t.serialOut.filter fun o => o.1 != n) ++ [(n, cs)] })
    else s
  else if n < 32 then
    if lsParcel (s.sent.listeners.getD n []) || l.emitting.isSome || !strmEnabled s (n + 16) then s
    else match beginEmit n s with | none => s | some x => strmWait x.2
  else
    let e := n - 32
    if !epEnable (epRec s e) then s
    else match l.q with
      | [] => s
      | x :: r =>
        if epFits s e x then
          (modLq n (fun y => { y with q := r }) s).onYard fun d => { d with epSt := d.epSt.modify e fun p =>
            { p with pack := p.pack ++ [x], first := if p.pack.isEmpty then s.clk.c else p.first } }
        else s

def execListenerEmit (slot : Nat) (s : State) : Out := .next (listenerEmit slot s)

/-! Sentence commands (R399). -/

/-- TALKER_SET. -/
def cmdTalkerSet (c : Ctx) (s : State) : State :=
  let slot := wd c.words 1
  let r := (c.words.drop 2).take 12
  if 63 < slot then badParam c 1 0 s
  else match talkerCheck (s.ports.map (·.rec_)) slot r with
    | some i => badParam c (2 + i) 0 s
    | none =>
      if (framerOf s slot).active then replyOk c [] (s.onSent fun t => { t with talkNext := t.talkNext.set slot (some r) })
      else replyOk c [] (talkerApply slot r s)

def execTalkerSet (via : Via) (s : State) : Out := .next (firmware 0x401 14 .config cmdTalkerSet via s)

/-- A listener record takes effect at once (R395). -/
def listenerApply (n : Nat) (r : List Word) (s : State) : State :=
  let old := s.sent.listeners.getD n []
  let s1 := s.onSent fun t => { t with listeners := t.listeners.set n r }
  let s2 := if lsMerge old && !lsMerge r then
      each (lqOf s1 n).held (enqueue n) (modLq n (fun l => { l with held := [] }) s1)
    else s1
  if lsEnable r then s2 else replayAbort n s2

/-- LISTENER_SET. -/
def cmdListenerSet (c : Ctx) (s : State) : State :=
  let n := wd c.words 1
  let r := (c.words.drop 2).take 2
  if 63 < n then badParam c 1 0 s
  else match listenerCheck n r with
    | some i => badParam c (2 + i) 0 s
    | none => replyOk c [] (listenerApply n r s)

def execListenerSet (via : Via) (s : State) : Out := .next (firmware 0x402 4 .config cmdListenerSet via s)

/-- RULE_REPLACE (R203). -/
def cmdRuleReplace (c : Ctx) (s : State) : State :=
  if 2047 < wd c.words 1 then badParam c 1 0 s
  else if wd c.words 3 != 64 then badParam c 3 0 s
  else readParcel 2 (fun p t =>
    match ruleCheck (wd c.words 1) (bytesWords p) with
    | some i => badParam c i 0 t
    | none => replyOk c [] (putRule (wd c.words 1) (bytesWords p) t)) c s

def execRuleReplace (via : Via) (s : State) : Out := .next (firmware 0x403 4 .config cmdRuleReplace via s)

/-- SUBMIT (R195). -/
def cmdSubmit (c : Ctx) (s : State) : State :=
  let slot := wd c.words 1
  if slot < 16 || 47 < slot then badParam c 1 0 s
  else readParcel 2 (fun p t =>
    let i := parseItems p.length p
    if !i.2 then badParam c 1 i.1.length t
    else if !tkEnable (t.sent.talkers.getD slot []) then stateError c t
    else
      let t1 := submitAll slot i.1 t
      let k := t1.sent.inq.length - t.sent.inq.length
      replyOk c [k, i.1.length - k] t1) c s

def execSubmit (via : Via) (s : State) : Out := .next (firmware 0x404 4 .operate cmdSubmit via s)

/-- FETCH (R216). -/
def cmdFetch (c : Ctx) (s : State) : State :=
  let n := wd c.words 1
  if n < 16 || 31 < n || !lsParcel (s.sent.listeners.getD n []) then badParam c 1 0 s
  else
    let u := replayFill n 129 s
    let item := fun x => let b := (formBytes u n x).1; leBytes 4 b.length ++ padTo (roundUp b.length 4) b
    let items := (lqOf u n).q.map item
    writeItems 2 items (fun k t =>
      let t1 := each (List.replicate k ()) (fun _ => cntLstn n 1) (modLq n (fun l => { l with q := l.q.drop k }) t)
      replyOk c [k, ((items.take k).map (·.length)).sum, (lqOf t1 n).q.length] t1) c u

def execFetch (via : Via) (s : State) : Out := .next (firmware 0x405 4 .observe cmdFetch via s)

/-- REMOTE_UNREACHABLE (R388). -/
def unreachable (c : Ctx) (sys : Nat) (s : State) : State := reply c 11 (sys % 16384) [] s

/-- A car that the adopted numbering names. -/
def carKnown (s : State) (sys : Nat) : Bool := sys / 64 == s.inaug.train && (numbered s (sys % 64)).isSome

/-- DIRECT_SEND (R211). The manual names no talker for such a sentence: its talker slot, key hash, TSEQ and rule are free
values (log 20). -/
def cmdDirectSend (c : Ctx) (s : State) : State :=
  let id := natBits (wd c.words 1) 19 0
  let cls := natBits (wd c.words 1) 31 29
  if natBits (wd c.words 1) 28 20 != 0 then badParam c 1 0 s
  else readParcel 2 (fun p t =>
    match parseItems p.length p with
    | ([i], true) =>
      let v := freeNat 96 t
      let st : Stamp := if natBit i.2.1 23 then { s32 := i.1, ep := natBits i.2.1 31 24, sync := synced t } else stampNow t
      let x : Sentence :=
        { slot := 64, talker := sysAddr t * 64 + v % 64, stamp := st, endStamp := none, noise := false, addr := false,
          checked := false, yard := false, late := false, replay := false, gap := false, tseq := natBits v 37 6, cls := cls,
          sup := false, hist := false, rule := natBits v 80 70, key := leBytes 4 (natBits v 69 38), body := i.2.2,
          arrived := trainTime t }
      let t1 := tookFree (noteStamp t)
      if id / 64 == sysAddr t then replyOk c [] (offerListener (id % 64) x t1)
      else if carKnown t (id / 64) then replyOk c [] (sendSentence (directStream id) x t1)
      else unreachable c (id / 64) t
    | (is, _) => badParam c 1 is.length t) c s

def execDirectSend (via : Via) (s : State) : Out := .next (firmware 0x406 4 .operate cmdDirectSend via s)

/-- A counter block of R412: TYPE and length, then the counters. -/
def ctrBlock (type : Nat) (l : List Nat) : List Byte := leBytes 4 (type * 65536 + l.length) ++ l.flatMap (leBytes 4)

/-- SENTENCE_COUNTERS. -/
def cmdSentenceCounters (c : Ctx) (s : State) : State :=
  writeItems 1 [ctrBlock 7 s.ctr.talk, ctrBlock 8 s.ctr.rule, ctrBlock 9 s.ctr.sent, ctrBlock 10 s.ctr.lstn]
    (fun _ t => replyOk c [] t) c s

def execSentenceCounters (via : Via) (s : State) : Out := .next (firmware 0x408 3 .observe cmdSentenceCounters via s)

/-! Groups (R205, R206, R397). -/

/-- A delivered CONTROL frame of an OP. -/
def withCtl (op : Nat) (f : RxMsg → State → State) (s : State) : State :=
  withMsg (fun m => m.hdr.ftype == ftControl && be m.payload 0 1 == op) f s

/-- One entry of a GROUP_MAP. -/
def mapSet (e : List Byte) (s : State) : State :=
  let g := be e 0 1
  s.onSent fun t => { t with gmaps := { num := g, mask := be e 4 8, mapped := natBit (be e 1 1) 1, remote := natBit (be e 1 1) 0 }
                                        :: t.gmaps.filter fun m => m.num != g }

/-- GROUP_MAP (R206): from the lead. -/
def groupMap (s : State) : State :=
  withCtl 0x10 (fun m t =>
    if m.hdr.adm != t.inaug.leadAdmit then t
    else each (List.range ((m.payload.length - 8) / 12)) (fun i => mapSet (part m.payload (8 + 12 * i) 12)) t) s

def execGroupMap (s : State) : Out := .next (groupMap s)

/-- Members of a group. -/
def membersOf (s : State) (g : Nat) : List (Nat × Nat) := match s.sent.groups.find? fun x => x.num == g with | some x => x.members | none => []

def setMembers (g : Nat) (ms : List (Nat × Nat)) (s : State) : State :=
  s.onSent fun t => { t with groups :=
    if (t.groups.any fun x => x.num == g) then (t.groups.map fun x => if x.num == g then { x with members := ms } else x)
    else t.groups ++ [{ num := g, members := ms }] }

/-- Every numbered car whose map of a group has changed is sent the new entry. -/
def sendChanged (old : State) (g : Nat) (s : State) : State :=
  each (s.inaug.numbering.filter fun e => mapEntry old e.badge g != mapEntry s e.badge g) (fun e => sendMap e.badge [g]) s

/-- GROUP_CHANGE (R205, R397): the reply waits for the copy of R113. -/
def cmdGroupChange (c : Ctx) (s : State) : State :=
  let w := wd c.words 1
  let g := natBits w 31 24
  let m := (wd64 c.words 2, natBits w 5 0)
  let ms := membersOf s g
  let go := fun ms' (t : State) =>
    let t1 := sendChanged t g (setMembers g ms' t)
    stateCopy (t1.onCmd fun q => { q with commitWait := some c, busy := some c })
  if natBits w 23 9 != 0 || natBits w 7 6 != 0 then badParam c 1 0 s
  else if !isLead s then stateError c s
  else if natBit w 8 then (if ms.contains m then go (ms.filter (· != m)) s else notFound c s)
  else if ms.contains m then replyOk c [] s
  else if 255 ≤ ms.length || 4096 ≤ (s.sent.groups.map fun x => x.members.length).sum then noSpace c 1 s
  else go (ms ++ [m]) s

def execGroupChange (via : Via) (s : State) : Out := .next (firmware 0x106 4 .config cmdGroupChange via s)

/-- A group record (R205). -/
def groupBytes (x : Group) : List Byte :=
  leBytes 4 (x.num * 2 ^ 24 + x.members.length % 256) ++ x.members.flatMap fun m => leBytes 8 m.1 ++ leBytes 4 m.2

/-- GROUP_READ. -/
def cmdGroupRead (c : Ctx) (s : State) : State :=
  if isLead s then writeItems 1 (s.sent.groups.map groupBytes) (fun _ t => replyOk c [1] t) c s
  else writeItems 1 ((List.range 256).map fun g =>
      let m := gmapOf s g
      leBytes 8 m.mask ++ leBytes 4 (b2n m.mapped * 2 + b2n m.remote)) (fun _ t => replyOk c [0] t) c s

def execGroupRead (via : Via) (s : State) : Out := .next (firmware 0x107 3 .observe cmdGroupRead via s)

end Sys2Proof.Machine
end

