-- ==== Sys2Proof/Machine/Bulk.lean ====
section
/-!
DEFINITION. BULK transfers between cars, history replay, counter snapshots and COUNTER_CLEAR (R56, R222, R349 to
R351, R400, R404, R406, R412).
-/

namespace Sys2Proof.Machine

open Sys2Proof

/-! Outbound transfers (R56, R406). -/

/-- 4 MiB. -/
def bulkMax : Nat := 4 * mib

/-- The BULK frames of a transfer, from an offset on. -/
def bulkFrames (dst xid total : Nat) : Nat → Nat → List Byte → List TxFrame
  | 0, _, _ => []
  | n + 1, off, p =>
    if p.isEmpty then []
    else
      { ftype := ftBulk, prio := (Config.prioOf ftBulk).toNat, grp := false, all := false, dst := dst, open_ := false, tag := .bulk xid,
        payload := beBytes 4 xid ++ beBytes 8 off ++ beBytes 4 total ++ p.take 1980 }
        :: bulkFrames dst xid total n (off + 1980) (p.drop 1980)

/-- A transfer is started; its frames wait for SHARED stalls. -/
def bulkStart (badge dst : Nat) (kind : XferKind) (c : Ctx) (recs : Nat) (p : List Byte) (s : State) : State :=
  let xid := s.lane.nextXfer
  let s1 := s.onLane fun l =>
    { l with
      nextXfer := (l.nextXfer + 1) % 2 ^ 32
      bulkOut := l.bulkOut ++ [{ xid := xid, badge := badge, dst := dst, kind := kind, ctx := c, started := trainTime s, recs := recs,
                                 len := p.length }] }
  each (bulkFrames dst xid p.length p.length 0 p) trainSend s1

/-- The badge of a numbered car. -/
def badgeOfCar (s : State) (sys : Nat) : Nat := match numbered s (sys % 64) with | some e => e.badge | none => 0

/-- Outbound transfers that count against the four of R406. -/
def bulkCount (s : State) : Nat :=
  (s.lane.bulkOut.filter fun b => match b.kind with | .push => true | .snapshot _ => true | .replay _ => false).length

/-- TRANSFER_DONE (R391). -/
def transferDone (c : Ctx) (xid status detail : Nat) (s : State) : State :=
  notifyVia c.via c.session [noteWords 0xE05 [xid, status + detail % 2 ^ 24 * 256]] s

/-- Records of a replay that fit one transfer. -/
def replayFit : Nat → List Sentence → Nat
  | _, [] => 0
  | room, x :: r => if recSize x ≤ room then replayFit (room - recSize x) r + 1 else 0

/-- The next transfer of a replay to another car, or its end (R222). -/
def replayAdvance (r : Replay) (c : Ctx) (s : State) : State :=
  match r.far.bind (carOfBadge s) with
  | none => replayDone r true s
  | some n =>
    if r.recs.isEmpty then replayDone r false s
    else
      let k := replayFit bulkMax r.recs
      let s1 := s.onSent fun t => { t with replays := t.replays.map fun x => if x.rid == r.rid then { x with recs := x.recs.drop k } else x }
      bulkStart (r.far.getD 0) (s.inaug.train * 64 + n) (.replay r.rid) c k ((r.recs.take k).flatMap fun x => sentenceBytes { x with replay := true }) s1

/-- A transfer ends, with its status and detail (R406). -/
def bulkEnd (b : BulkOut) (status detail : Nat) (s : State) : State :=
  let s1 := s.onLane fun l =>
    { l with bulkOut := l.bulkOut.filter fun x => x.xid != b.xid, txq := l.txq.filter fun f => f.tag != .bulk b.xid }
  match b.kind with
  | .push => transferDone b.ctx b.xid status detail s1
  | .snapshot seq => if status == 0 then replyOk b.ctx [b.len, seq] s1 else reply b.ctx status detail [] s1
  | .replay id =>
    match s1.sent.replays.find? fun r => r.rid == id with
    | none => s1
    | some r =>
      if status == 0 then
        let r' := { r with count := r.count + b.recs }
        replayAdvance r' b.ctx (s1.onSent fun t => { t with replays := t.replays.map fun x => if x.rid == id then r' else x })
      else replayDone r true s1

/-- BULK_STATUS (R406): from the destination. -/
def bulkStatus (s : State) : State :=
  withCtl 0x15 (fun m t =>
    let w := le m.payload 12 4
    match t.lane.bulkOut.find? fun b => b.xid == be m.payload 8 4 && b.dst == m.hdr.src with
    | none => t
    | some b => bulkEnd b (w % 256) (w / 256) t) s

def execBulkStatus (s : State) : Out := .next (bulkStatus s)

/-- PARCEL_TRANSFER_TIMEOUT (R406): two seconds, or the destination has left the numbering. -/
def parcelTransferTimeout (xid : Nat) (s : State) : State :=
  match s.lane.bulkOut.find? fun b => b.xid == xid with
  | none => s
  | some b =>
    if (carOfBadge s b.badge).isNone then bulkEnd b 11 (b.dst % 16384) s
    else match b.kind with
      | .replay _ => s
      | .push => if b.started + 2000000000 ≤ trainTime s then bulkEnd b 10 0 s else s
      | .snapshot _ => if b.started + 2000000000 ≤ trainTime s then bulkEnd b 10 0 s else s

def execParcelTransferTimeout (xid : Nat) (s : State) : Out := .next (parcelTransferTimeout xid s)

/-! Inbound transfers (R56). -/

/-- Every byte from `pos` to `total` is covered by the pieces. -/
def covered : Nat → List (Nat × Nat) → Nat → Nat → Bool
  | 0, _, pos, total => decide (total ≤ pos)
  | n + 1, got, pos, total =>
    if total ≤ pos then true
    else match got.find? fun g => decide (g.1 ≤ pos) && decide (pos < g.1 + g.2) with
      | some g => covered n got (g.1 + g.2) total
      | none => false

/-- The destination range lies in the host parcels region and overlaps no reservation (R406). -/
def bulkRangeOk (s : State) (a n : Nat) : Bool :=
  a % 4 == 0 && decide (regionBase s 5 ≤ a) && decide (a + n ≤ loftSize) && !(s.cmd.parcels.any fun p => overlap a n p.addr p.len)

/-- A BULK_STATUS leaves for the source. -/
def sendBulkStatus (dst xid status detail : Nat) (s : State) : State :=
  ctlSend dst .plain (ctlPayload 0x15 0 0 0 0 (beBytes 4 xid ++ leBytes 4 (status + detail * 256))) s

/-- Every record in a byte string, as far as it parses. -/
def allRecords (now : Nat) : Nat → List Byte → List Sentence
  | 0, _ => []
  | n + 1, p => match parseRecord now p with
    | none => []
    | some x => x.1 :: allRecords now n (p.drop x.2)

/-- The bytes of a transfer, by its pieces. -/
def bulkBytes (b : BulkIn) : List Byte := (sortBy (·.1) b.data).flatMap (·.2)

def putBulk (b : BulkIn) (s : State) : State :=
  s.onLane fun l => { l with bulkIn := b :: l.bulkIn.filter fun x => !(x.src == b.src && x.xid == b.xid) }

/-- A transfer has every byte: a replay's records go to their listener, and the source is told. -/
def bulkComplete (b : BulkIn) (sys slot : Nat) (isReplay : Bool) (s : State) : State :=
  let s1 := s.onLane fun l => { l with bulkIn := l.bulkIn.filter fun x => !(x.src == b.src && x.xid == b.xid) }
  let s2 := if isReplay then
      let xs := allRecords (trainTime s1) b.total (bulkBytes b)
      let old := match s1.sent.replayIn.find? fun r => r.1 == slot with | some r => r.2 | none => []
      replayFill slot 129 (if xs.isEmpty then s1 else s1.onSent fun t => { t with replayIn := (t.replayIn.filter fun r => r.1 != slot) ++ [(slot, old ++ xs)] })
    else s1
  sendBulkStatus sys b.xid 0 0 s2

/-- The pieces of a transfer: no piece crosses a 4 KiB boundary (R429). -/
def pieces : Nat → Nat → Nat → List (Nat × Nat)
  | 0, _, _ => []
  | k + 1, a, n => if n == 0 then [] else let m := min n (4096 - a % 4096); (a, m) :: pieces k (a + m) (n - m)

/-- The pieces of a transfer of n bytes, and the cuts between them. -/
def dmaPieces (a n : Nat) : List (Nat × Nat) := pieces (n / 4096 + 2) a n
def noteCuts (a n : Nat) (s : State) : State := cntStrmBy 9 ((dmaPieces a n).length - 1) s

/-- The bridge places bytes in the hayloft piece by piece, as master 3 (R429). -/
def bulkPlace (a : Nat) (p : List Byte) (s : State) : State :=
  each (dmaPieces a p.length) (fun x => loftWrite x.1 ((p.drop (x.1 - a)).take x.2) 3) (noteCuts a p.length s)

/-- One BULK frame (R56). A replay to a listener that is disabled is refused (R400; log 20). -/
def bulkFrameIn (m : RxMsg) (s : State) : State :=
  let p := m.payload
  let xid := be p 0 4
  let off := be p 4 8
  let total := be p 12 4
  let d := p.drop 16
  let tgt := Config.bulkTarget m.hdr.adm xid
  let isReplay := tgt % 2 == 1
  if p.length < 16 || total < off + d.length then s
  else
    let b : BulkIn := match s.lane.bulkIn.find? fun x => x.src == m.hdr.adm && x.xid == xid with
      | some x => x
      | none => { src := m.hdr.adm, xid := xid, total := total, got := [], data := [], bad := !isReplay && !bulkRangeOk s (tgt / 2) total }
    if b.bad then
      if b.got.isEmpty then sendBulkStatus m.hdr.src xid 3 0 (putBulk { b with got := [(off, d.length)] } s) else s
    else if isReplay && !lsEnable (s.sent.listeners.getD (tgt / 2 % 64) []) then
      sendBulkStatus m.hdr.src xid 5 (stateDetail s) (putBulk { b with got := (off, d.length) :: b.got, data := [], bad := true } s)
    else
      let b1 := { b with got := (off, d.length) :: b.got, data := if isReplay then (off, d) :: b.data else b.data }
      let s1 := putBulk b1 (if isReplay then s else bulkPlace (tgt / 2 + off) d s)
      if covered b1.got.length b1.got 0 total then bulkComplete b1 m.hdr.src (tgt / 2 % 64) isReplay s1 else s1

/-- BULK_RECEIVE. Placement in a parcel pauses under BRACED (R460). -/
def bulkReceive (s : State) : State :=
  withMsg (fun m => m.hdr.ftype == ftBulk && !(s.sys.braced && Config.bulkTarget m.hdr.adm (be m.payload 0 4) % 2 == 0)) bulkFrameIn s

def execBulkReceive (s : State) : Out := .next (bulkReceive s)

/-! PARCEL_PUSH (R404, R406). -/

def cmdParcelPush (c : Ctx) (s : State) : State :=
  let dst := wd c.words 1
  let dest := wd c.words 4
  if 16383 < dst then badParam c 1 0 s
  else if dst != sysAddr s && decide (bulkMax < wd c.words 3) then badParam c 3 0 s
  else readParcel 2 (fun p t =>
    if dst == sysAddr t then
      let xid := t.lane.nextXfer
      let t1 := replyOk c [xid] (t.onLane fun l => { l with nextXfer := (l.nextXfer + 1) % 2 ^ 32 })
      if bulkRangeOk t dest p.length then transferDone c xid 0 0 (loftWrite dest p coreId t1) else transferDone c xid 3 0 t1
    else if 4 ≤ bulkCount t then noSpace c 1 t
    else if !carKnown t dst then unreachable c dst t
    else
      let xid := t.lane.nextXfer
      let t1 := bulkStart (badgeOfCar t dst) dst .push c 0 p (replyOk c [xid] t)
      if p.isEmpty then (match t1.lane.bulkOut.find? fun b => b.xid == xid with | some b => bulkEnd b 0 0 t1 | none => t1) else t1) c s

def execParcelPush (via : Via) (s : State) : Out := .next (firmware 0xB06 5 .operate cmdParcelPush via s)

/-! REPLAY (R222, R399). -/

/-- Train time of a history record: the one that its stamp names nearest to its block's. -/
def recTime (b : HBlock) (x : Sentence) : Nat := tc 64 (extend b.time x.stamp.s32)

/-- The records of a selection, with their train times, in stored order. -/
def replaySelect (s : State) (t0 t1 ep : Nat) (mask : Option Nat) : List (Nat × Sentence) :=
  s.sent.history.flatMap fun b => (b.recs.map fun x => (recTime b x, x)).filter fun y =>
    y.2.stamp.ep == ep && decide (t0 ≤ y.1) && decide (y.1 ≤ t1) &&
      (match mask with | some m => natBit m y.2.slot | none => true)

/-- REPLAY (R222): a T0 in a block that has been overwritten, of the asked epoch or before the oldest block's, is told with
the train time of the oldest stored record. -/
def cmdReplay (c : Ctx) (s : State) : State :=
  let id := wd c.words 1
  let w6 := wd c.words 6
  let t0 := wd64 c.words 2
  let t1 := wd64 c.words 4
  if 0xFFFFF < id then badParam c 1 0 s
  else if t1 < t0 then badParam c 4 0 s
  else if 511 < w6 then badParam c 6 0 s
  else if 4 ≤ s.sent.replays.length then noSpace c 1 s
  else
    let here := id / 64 == sysAddr s
    if !here && !carKnown s (id / 64) then unreachable c (id / 64) s
    else
      let sel := replaySelect s t0 t1 (w6 % 256) (if natBit w6 8 then some (wd64 c.words 7) else none)
      let trunc := match s.sent.history.head? with
        | some b => decide (0 < b.seq) && (if b.ep == w6 % 256 then decide (t0 < b.time) else epochNewer b.ep (w6 % 256))
        | none => false
      let rid := s.sent.nextReplay
      let oldest := s.sent.history.head?.bind fun b => b.recs.head?.map (recTime b)
      let first := if trunc then oldest.getD 0 else (sel.head?.map (·.1)).getD 0
      let r : Replay := { rid := rid, listener := id, far := if here then none else some (badgeOfCar s (id / 64)), recs := sel.map (·.2),
                          count := 0, truncated := trunc, via := c.via, session := c.session }
      let s1 := s.onSent fun t => { t with nextReplay := (t.nextReplay + 1) % 2 ^ 32, replays := t.replays ++ [r] }
      let s2 := replyOk c [rid, b2n trunc, first % 2 ^ 32, first / 2 ^ 32] s1
      if here then
        if !lsEnable (s.sent.listeners.getD (id % 64) []) then replayDone r true s2
        else if sel.isEmpty then replayDone r false s2
        else replayFill (id % 64) 129 s2
      else replayAdvance r c s2

def execReplay (via : Via) (s : State) : Out := .next (firmware 0x407 9 .operate cmdReplay via s)

/-! Counter snapshots (R349 to R351, R412). -/

/-- The badge of an ADMIT as far as this car knows it: from the numbering, its own, the lead's, the master's, or what it holds of
cars as lead; zero when unknown (R85). -/
def badgeKnown (s : State) (adm : Nat) : Nat :=
  let known : List (Nat × Nat) := s.inaug.numbering.map (fun n => (n.adm, n.badge))
    ++ [(s.inaug.adm, s.sys.badge), (s.inaug.leadAdmit, s.inaug.leadBadge), (s.ref.madmit, s.ref.mbadge)]
    ++ s.ldr.roster.map (fun c => (c.adm, c.badge)) ++ s.ldr.guests.map (fun g => (g.adm, g.badge))
    ++ s.inaug.prevNumbers.map (fun n => (n.adm, n.badge))
  ((known.find? fun x => x.1 == adm).map (·.2)).getD 0

/-- One source status record (R85). -/
def srcWords (s : State) (e : SrcEntry) : List Nat :=
  let px := match e.path with | .unpaired => 0 | .paired => 1 | .missing y => if y then 1 else 2
  let py := match e.path with | .unpaired => 0 | .paired => 1 | .missing y => if y then 2 else 1
  let badge := if e.open_ then e.badge else badgeKnown s e.id
  [(if e.open_ then 0 else e.id % 65536) * 65536 + b2n e.open_ * 32768 + px * 8192 + py * 2048 + b2n e.x.valid * 1024
     + b2n e.y.valid * 512 + e.key % 16,
   badge % 2 ^ 32, badge / 2 ^ 32 % 2 ^ 32, e.x.top % 2 ^ 32, e.x.top / 2 ^ 32 % 65536, e.y.top % 2 ^ 32, e.y.top / 2 ^ 32 % 65536,
   e.acc, e.dup, e.stale, e.singleX, e.singleY]

/-- A block of the bank. -/
def bankBlock (type : Nat) (l : List Nat) : List Word := wordOf (type * 65536 + l.length) :: l.map wordOf

/-- The 128 source status records. -/
def srcBlock (s : State) : List Nat :=
  let l := (s.lane.src.take 128).flatMap (srcWords s)
  l ++ List.replicate (1536 - l.length) 0

/-- Every counter block, in the order of R412. -/
def bankBlocks (s : State) : List Word :=
  bankBlock 1 s.ctr.endA ++ bankBlock 2 s.ctr.endB ++ bankBlock 3 (srcBlock s) ++ bankBlock 4 s.ctr.inaug ++ bankBlock 5 s.ctr.time
    ++ bankBlock 6 s.ctr.stall ++ bankBlock 7 s.ctr.talk ++ bankBlock 8 s.ctr.rule ++ bankBlock 9 s.ctr.sent
    ++ bankBlock 10 s.ctr.lstn ++ bankBlock 11 s.ctr.serial ++ bankBlock 12 (s.ctr.chan ++ s.ctr.grp ++ s.ctr.fmod)
    ++ bankBlock 13 s.ctr.sec ++ bankBlock 14 s.ctr.yard ++ bankBlock 15 s.ctr.host ++ bankBlock 16 s.ctr.cmd
    ++ bankBlock 17 s.ctr.strm ++ bankBlock 18 s.ctr.ev ++ bankBlock 19 s.ctr.loft ++ [wordOf 0xFFFF0000]

/-- Every counter of the car restarts from zero, those of source entries too (R66, R349). -/
def clearCounters (s : State) : State :=
  (s.onCtr fun _ => Ctrs.reset).onLane fun l => { l with src := l.src.map fun e =>
    { e with acc := 0, dup := 0, stale := 0, singleX := 0, singleY := 0 } }

/-- A freeze (R349, R351). -/
def freeze (sid : Nat) (clear wide : Bool) (s : State) : State :=
  let q := (s.snap.seq + 1) % 2 ^ 32
  let t := trainTime s
  let hdr : List Word := [wordOf q, wordOf t, wordOf (t / 2 ^ 32),
    wordOf (s.clk.tepoch * 2 ^ 24 + b2n (synced s) * 2 ^ 23 + b2n clear * 2 ^ 22 + b2n wide * 2 ^ 21), wordOf sid, wordOf (errBoundWord s)]
    ++ List.replicate 9 0 ++ [wordOf q]
  let s1 := (noteStamp s).onSnap fun n => { n with bank := hdr ++ bankBlocks s, seq := q }
  raiseCode 70 1 1 0 (if clear then clearCounters s1 else s1)

/-- SNAPSHOT. -/
def cmdSnapshot (c : Ctx) (s : State) : State :=
  if 1 < wd c.words 1 then badParam c 1 0 s
  else
    let s1 := freeze 0 (bit c.words 1 0) false s
    replyOk c [s1.snap.seq] s1

def execSnapshot (via : Via) (s : State) : Out := .next (firmware 0x805 2 .operate cmdSnapshot via s)

/-- SNAPSHOT_DONE (R391). -/
def snapDone (c : Option Ctx) (code : Nat) (s : State) : State :=
  match c with
  | some x => notifyVia x.via x.session [noteWords 0xE06 [s.snap.seq, code]] s
  | none => s

/-- A car meets a train snapshot request (R350). -/
def snapRequest (r : SnapReq) (s : State) : State :=
  if s.snap.pend.isSome then snapDone r.ctx 3 (raiseCode 70 3 3 0 s)
  else if r.ts < trainTime s then snapDone r.ctx 2 (raiseCode 70 2 2 0 s)
  else s.onSnap fun n => { n with pend := some r }

/-- TRAIN_SNAPSHOT. -/
def cmdTrainSnapshot (c : Ctx) (s : State) : State :=
  let ts := wd64 c.words 1
  let sid := wd c.words 3
  if sid == 0 then badParam c 3 0 s
  else if 1 < wd c.words 4 then badParam c 4 0 s
  else if ts < trainTime s + 2000000 || trainTime s + 10000000000 < ts then timeoutError c s
  else
    let s1 := ctlSendAll (ctlPayload 0x13 (nextReq s) c.session c.priv.code 0 (beBytes 8 ts ++ beBytes 4 sid ++ leBytes 4 (b2n (bit c.words 4 0)))) (tookReq s)
    snapRequest { ts := ts, sid := sid, clear := bit c.words 4 0, ctx := some c } (replyOk c [] s1)

def execTrainSnapshot (via : Via) (s : State) : Out := .next (firmware 0x806 5 .operate cmdTrainSnapshot via s)

/-- SNAPSHOT_REQ (R350). -/
def snapshotReq (s : State) : State :=
  withCtl 0x13 (fun m t => snapRequest { ts := be m.payload 8 8, sid := be m.payload 16 4, clear := natBit (le m.payload 20 4) 0, ctx := none } t) s

def execSnapshotReq (s : State) : Out := .next (snapshotReq s)

/-- SNAPSHOT_FREEZE (R350): T_S has come. -/
def snapshotFreeze (s : State) : State :=
  match s.snap.pend with
  | some r =>
    if r.ts ≤ trainTime s then snapDone r.ctx 1 (freeze r.sid r.clear true (s.onSnap fun n => { n with pend := none })) else s
  | none => s

def execSnapshotFreeze (s : State) : Out := .next (snapshotFreeze s)

/-- COUNTER_CLEAR (R404). -/
def cmdCounterClear (c : Ctx) (s : State) : State := replyOk c [] (clearCounters s)

def execCounterClear (via : Via) (s : State) : Out := .next (firmware 0xA03 1 .operate cmdCounterClear via s)

/-- SNAPSHOT_SEND (R404, R406): to this car at once, to another by BULK with the reply at its end. -/
def cmdSnapshotSend (c : Ctx) (s : State) : State :=
  let dst := wd c.words 1
  let dest := wd c.words 2
  let p := (wordBytes s.snap.bank).take (wd c.words 3)
  if 16383 < dst then badParam c 1 0 s
  else if dest % 4 != 0 then badParam c 2 0 s
  else if dst != sysAddr s && decide (bulkMax < p.length) then badParam c 3 0 s
  else if dst == sysAddr s then
    if !inParcels s dest p.length then badParam c 2 0 s
    else if reservedByOther s c dest p.length then privError c s
    else replyOk c [p.length, s.snap.seq] (loftWrite dest p coreId s)
  else if !carKnown s dst then unreachable c dst s
  else if 4 ≤ bulkCount s then noSpace c 1 s
  else if p.isEmpty then replyOk c [0, s.snap.seq] s
  else bulkStart (badgeOfCar s dst) dst (.snapshot s.snap.seq) c 0 p s

def execSnapshotSend (via : Via) (s : State) : Out := .next (firmware 0x808 4 .observe cmdSnapshotSend via s)

end Sys2Proof.Machine
end

