-- ==== Sys2Proof/Machine/Field.lean ====
section
/-!
DEFINITION. The field section: the barrier link and its heartbeat, inputs, output protection and diagnostics, group
supplies, ownership and the field commands (R252 to R288, R401, R402).
-/

namespace Sys2Proof.Machine

open Sys2Proof

/-! Ownership (R270 to R274). -/

/-- The sender of a command as an owner. -/
def ownerOf (c : Ctx) : Owner := .host c.badge c.session

/-- The lease of a group has run out at a boundary (R273): the group counts as unowned from then on. -/
def leaseGone (s : State) (g : Nat) : Bool :=
  (match (grpOf s g).owner with | .host _ _ => true | .none => false | .firmware => false)
    && (grpOf s g).lease == 0 && grpLease s g != 0 && s.fld.leaseAt.isSome && !atBoundary s

/-- The group has an owner whose lease has not run out. -/
def hasOwner (s : State) (g : Nat) : Bool := (grpOf s g).owner != .none && !leaseGone s g

/-- The sender owns the group under a generation. -/
def ownsGen (c : Ctx) (g gen : Nat) (s : State) : Bool :=
  (grpOf s g).owner == ownerOf c && (grpOf s g).gen == gen && !leaseGone s g

/-- The lease of a group is live. -/
def leaseLive (s : State) (g : Nat) : Bool := (grpOf s g).owner != .none && (grpOf s g).lease != 0

/-- TAKE as the field island decides it (R271). -/
def takeDecide (c : Ctx) (g exp : Nat) (force : Bool) (s : State) : State :=
  let x := grpOf s g
  let other := leaseLive s g && x.owner != ownerOf c
  if exp != x.gen then staleGen c x.gen s
  else if other && !force then busyError c 0 s
  else if !ownerStates s.sys.dev then stateError c s
  else
    let gen := (x.gen + 1) % 65536
    let s1 := s.onFld fun d =>
      { d with
        image := (List.range 8).foldl (fun im i => let n := 8 * g + i
          im - b2n (natBit im n) * 2 ^ n + b2n (chanOf s n).drive * 2 ^ n) d.image
        ch := d.ch.zipIdx.map fun y => if y.2 / 8 == g then { y.1 with ownReq := y.1.drive } else y.1
        grp := d.grp.modify g fun y => { y with owner := ownerOf c, gen := gen, lease := grpLease s g } }
    let s2 := ownEvent g (if other then 4 else 1) (cntGrp g 2 (fieldSettle (logImage s1)))
    let s3 := if other then ownNotify x.owner g 2 s2 else s2
    replyOk c [gen] s3

/-- A command is discarded as stale (R272). -/
def staleCmd (c : Ctx) (g : Nat) (s : State) : State := staleGen c (grpOf s g).gen (cntGrp g 0 s)

/-- What a renewal loads (R273): accepted in the lane clock cycle of a boundary it counts before it, so that the boundary takes
one basic cycle off it. -/
def renewedLease (s : State) (g : Nat) : Nat := grpLease s g - b2n (atBoundary s)

/-- An accepted command renews the lease of an owned group (R272, R273). -/
def renew (g : Nat) (s : State) : State :=
  if hasOwner s g then modGrp g (fun x => { x with lease := renewedLease s g }) s else s

/-- FIELD_OUTPUT as it arrives at the field island, which checks the generation again (R272). -/
def outputDecide (c : Ctx) (g gen mask vals : Nat) (s : State) : State :=
  if (grpOf s g).gen == gen then replyOk c [] (fieldRequest g mask vals false (renew g s)) else staleCmd c g s

/-- RELEASE as it arrives at the field island (R253, R274). -/
def releaseDecide (c : Ctx) (g gen : Nat) (s : State) : State :=
  if (grpOf s g).gen == gen then replyOk c [] (endOwner g 2 0 s) else staleGen c (grpOf s g).gen s

/-- An event of a channel (R287). -/
def chEvent (n code data : Nat) (s : State) : State := raiseCode (16 + n) code data 0 s

/-- One channel's faults are cleared (R267). -/
def clearChan (n : Nat) (s : State) : State :=
  let x := chanOf s n
  let s1 := modChan n (fun y => { y with latched := none, rbLow := false, shed := false, retry := 0 }) s
  let s2 := when' (x.latched == some .retries) (chEvent n 0x16 0x10) s1
  let s3 := when' (x.latched == some .readbackLow) (chEvent n 0x16 0x13) s2
  when' x.shed (chEvent n 0x16 0x15) s3

/-- FAULT_CLEAR as it arrives at the field island (R253, R267). -/
def clearDecide (c : Ctx) (g gen mask : Nat) (s : State) : State :=
  if (grpOf s g).gen == gen then
    replyOk c [] (fieldSettle (each ((List.range 8).filter fun i => natBit mask i) (fun i => clearChan (8 * g + i)) s))
  else staleGen c (grpOf s g).gen s

/-- GROUP_SUPPLY events (R287). -/
def supplyEvent (g code : Nat) (s : State) : State := raise (48 + g) (((grpOf s g).vfield / 10) % 65536 * 65536 + code) s

/-- The supply condition of a restore holds (R269). -/
def restoreOk (s : State) (g : Nat) : Bool :=
  match (grpOf s g).inRange with | some a => decide (a + 100000000 ≤ s.clk.c) | none => false

/-- A group is restored. -/
def restoreGroup (g : Nat) (s : State) : State :=
  if (grpOf s g).uv || (grpOf s g).ov then
    supplyEvent g 6 (fieldSettle (modGrp g (fun y => { y with uv := false, ov := false }) s))
  else s

/-- REARM as it arrives at the field island (R253, R269). -/
def rearmDecide (c : Ctx) (g gen : Nat) (s : State) : State :=
  if (grpOf s g).gen != gen then staleGen c (grpOf s g).gen s
  else if !restoreOk s g then stateError c s
  else replyOk c [] (restoreGroup g s)

/-- A queued command crosses the barrier. -/
def crossBarrier (b : BarrierCmd) (s : State) : State :=
  match b with
  | .take c g exp force => takeDecide c g exp force s
  | .release c g gen => releaseDecide c g gen s
  | .output c g gen mask vals => outputDecide c g gen mask vals s
  | .clear c g gen mask => clearDecide c g gen mask s
  | .rearm c g gen => rearmDecide c g gen s

/-! The barrier link (R253 to R255). -/

/-- BARRIER (R287). -/
def barrierEvent (code : Nat) (s : State) : State := raise 52 code s

/-- BARRIER_FRAME_SEND (R253): each side sends a frame; every tenth is a STATE frame and a status frame. -/
def barrierFrameSend (s : State) : State :=
  if fieldPowered s then s.onFld fun d => { d with txIdx := (d.txIdx + 1) % 10, rxIdx := (d.rxIdx + 1) % 10 } else s

def execBarrierFrameSend (s : State) : Out := .next (barrierFrameSend s)

/-- A valid STATE frame (R255). -/
def stateFrame (s : State) : State :=
  let s1 := s.onFld fun d => { d with lastState := s.clk.c, stateRun := min (d.stateRun + 1) 10 }
  if s1.fld.hbLost && s1.fld.stateRun == 10 then
    endOwners 2 3 (barrierEvent 2 (fieldSettle (s1.onFld fun d => { d with hbLost := false })))
  else s1

/-- A valid status frame of the field side (R253): the sensed currents in it are measured, a free value (log 2). -/
def statusFrame (s : State) : State :=
  let s1 := tookFree (s.onFld fun d => { d with kept := d.ch, keptGrp := d.grp, keptHb := d.hbLost, keptCur := freeNat 352 s })
  if s.fld.linkError then barrierEvent 4 (s1.onFld fun d => { d with linkError := false, linkInvalid := false }) else s1

/-- The frame from the logic side: a STATE frame, or one with the queued commands, which go again when it fails (log 22). -/
def fieldReceives (ok : Bool) (s : State) : State :=
  if s.fld.txIdx == 0 then
    if s.fld.stateStop then s
    else if ok then stateFrame s
    else cntFmod 0 (s.onFld fun d => { d with stateRun := 0 })
  else if ok then each s.fld.cmds crossBarrier (s.onFld fun d => { d with cmds := [] })
  else cntFmod 0 s

/-- The frame from the field side: up to four edge reports, which go again when it fails (log 22), and every tenth frame the
status. -/
def logicReceives (ok : Bool) (s : State) : State :=
  if ok then
    when' (s.fld.rxIdx == 0) statusFrame
      (s.onFld fun d => { d with lastField := s.clk.c, arrived := d.arrived ++ d.edges.take 4, edges := d.edges.drop 4 })
  else cntFmod 0 s

/-- BARRIER_FRAME_RECEIVE (R253): the frames of the last interval, each of which passes or fails its CRC. -/
def barrierFrameReceive (crc : LinkCrc) (s : State) : State :=
  if fieldPowered s then logicReceives crc.toLogic (fieldReceives crc.toField s) else s

def execBarrierFrameReceive (crc : LinkCrc) (s : State) : Out := .next (barrierFrameReceive crc s)

/-- BARRIER_LINK_TIMEOUT (R253). -/
def barrierLinkTimeout (s : State) : State :=
  if fieldPowered s && !s.fld.linkError && decide (s.fld.lastField + 30000 ≤ s.clk.c) then
    barrierEvent 3 (s.onFld fun d => { d with linkError := true, linkInvalid := true })
  else s

def execBarrierLinkTimeout (s : State) : Out := .next (barrierLinkTimeout s)

/-- HEARTBEAT_CONFIRM (R254). -/
def heartbeatConfirm (s : State) : State :=
  if takesMsgs s then s.onFld fun d => { d with confirmAt := s.clk.c, stateStop := false } else s

def execHeartbeatConfirm (s : State) : Out := .next (heartbeatConfirm s)

/-- HEARTBEAT_MISSING (R254). -/
def heartbeatMissing (s : State) : State :=
  if fieldPowered s && decide (s.fld.confirmAt + 2000000 ≤ s.clk.c) then s.onFld fun d => { d with stateStop := true } else s

def execHeartbeatMissing (s : State) : Out := .next (heartbeatMissing s)

/-- HB_TIMEOUT (R255, R274). -/
def hbTimeoutAct (s : State) : State :=
  if fieldPowered s && !s.fld.hbLost && decide (s.fld.lastState + hbTimeout s ≤ s.clk.c) then
    endOwners 2 3 (barrierEvent 1 (cntFmod 1 (fieldSettle (s.onFld fun d => { d with hbLost := true, stateRun := 0 }))))
  else s

def execHbTimeout (s : State) : Out := .next (hbTimeoutAct s)

/-! Inputs (R258 to R260). -/

/-- INPUT_LEVEL_CHANGE (R258): a sample of a channel's comparator shows the other level, and a new run starts at it. Only one
sample falls in 50 ns. -/
def inputLevelChange (n : Nat) (level : Bool) (s : State) : State :=
  let x := chanOf s n
  let at_ := sampleAt s.clk.c
  if x.runLevel == level || decide (at_ < x.runStart) || (decide (at_ = x.runStart) && at_ != 0) then s
  else
    let s1 := modChan n (fun y => { y with runLevel := level, runStart := at_ }) s
    let short := decide (at_ < x.runStart + chDebounce s n)
    if fieldPowered s && chIsIn s n && !(grpOf s (n / 8)).under && short && (!x.known || x.runLevel != x.level) then cntChan n 1 s1
    else s1

def execInputLevelChange (ch : Nat) (level : Bool) (s : State) : Out := .next (inputLevelChange ch level s)

/-- An edge report joins the field side's queue, or is discarded (R259). -/
def queueEdge (e : EdgeRep) (s : State) : State :=
  if s.fld.edges.length < 256 then
    modChan e.ch (fun y => { y with overrun := false }) (s.onFld fun d => { d with edges := d.edges ++ [e] })
  else modChan e.ch (fun y => { y with overrun := true }) (cntChan e.ch 2 s)

/-- INPUT_TRANSITION_ACCEPT (R258, R260). -/
def inputTransitionAccept (n : Nat) (s : State) : State :=
  let x := chanOf s n
  let ready := fieldPowered s && decide (x.runStart + chDebounce s n ≤ s.clk.c) && (!x.known || x.runLevel != x.level)
  if !ready || !(chIsIn s n || chIsOut s n) then s
  else
    let s1 := modChan n (fun y => { y with level := y.runLevel, known := true, lastLevel := y.runLevel, hadLevel := true }) s
    if chIsOut s n then s1
    else if (grpOf s (n / 8)).under then s
    else
      let first := !x.known && (!x.hadLevel || x.lastLevel == x.runLevel)
      let back := !x.known && !first
      let e : EdgeRep := { ch := n, level := x.runLevel, at_ := if back then x.runStart + chDebounce s n else x.runStart - (25 + (Config.cmpDelay n).toNat),
                           overrun := x.overrun || back, starting := first }
      queueEdge e (when' (!first) (cntChan n 0) s1)

def execInputTransitionAccept (ch : Nat) (s : State) : Out := .next (inputTransitionAccept ch s)

/-- The firmware writes a rule's output (R275). -/
def ruleOutput (n : Nat) (level : Bool) (w : Word) (s : State) : State :=
  let r := w.toNat
  let o := natBits r 12 8
  if natBit r 31 && natBits r 20 16 == n && (grpOf s (o / 8)).owner == .firmware then
    fieldRequest (o / 8) (2 ^ (o % 8)) (b2n (level != natBit r 30) * 2 ^ (o % 8)) false s
  else s

/-- EDGE_REPORT_RECEIVE (R259, R275, R287). -/
def edgeReportReceive (s : State) : State :=
  match s.fld.arrived with
  | [] => s
  | e :: r =>
    let s1 := s.onFld fun d => { d with arrived := r, kept := d.kept.modify e.ch fun y => { y with level := e.level, known := true } }
    if e.starting then s1
    else
      let on := if e.level then bit (chRec s e.ch) 1 31 else bit (chRec s e.ch) 1 30
      let s2 := if on then raiseAt (stampAt s e.at_) (16 + e.ch) (if e.level then 1 else 2) (b2n e.overrun * 2 + b2n e.level) 0 s1 else noteStamp s1
      each s2.fld.ruleRec (ruleOutput e.ch e.level) s2

def execEdgeReportReceive (s : State) : Out := .next (edgeReportReceive s)

/-! Output protection and diagnostics (R262 to R267). -/

def chRetryMax (s : State) (n : Nat) : Nat := bits (chRec s n) 1 29 26

/-- LIMIT_MS in ns. -/
def chLimit (s : State) (n : Nat) : Nat := bits (chRec s n) 1 25 22 * 1000000

/-- CURRENT_LIMIT_TIMEOUT (R262): thermal shutdown, or a switch in current limit since C = `since` (from when it came on, at
the earliest). -/
def currentLimitTimeout (n : Nat) (since : Option Nat) (s : State) : State :=
  let x := chanOf s n
  let early := match since with | some c => decide (s.clk.c < max c x.onSince + chLimit s n) | none => false
  let thermal := since.isNone
  if !(fieldPowered s && chIsOut s n && x.drive) || early then s
  else
    let latch := chRetryMax s n != 15 && decide (chRetryMax s n ≤ x.retry)
    let s1 := modChan n (fun y =>
      { y with short := !latch, thermal := thermal, offAt := s.clk.c, latched := if latch then some .retries else y.latched }) s
    let s2 := chEvent n 0x10 (x.retry * 16 + b2n thermal) (cntChan n 3 (fieldSettle s1))
    if latch then chEvent n 0x11 1 (cntChan n 5 s2) else s2

def execCurrentLimitTimeout (ch : Nat) (since : Option Nat) (s : State) : Out := .next (currentLimitTimeout ch since s)

/-- SHORT_RETRY (R262). -/
def shortRetry (n : Nat) (s : State) : State :=
  let x := chanOf s n
  if fieldPowered s && x.short && decide (x.offAt + 100000000 ≤ s.clk.c) then
    fieldSettle (cntChan n 4 (modChan n (fun y => { y with short := false, retry := min (y.retry + 1) 15 }) s))
  else s

def execShortRetry (ch : Nat) (s : State) : Out := .next (shortRetry ch s)

/-- RETRY_COUNT_RESET (R262): `limited` says that the switch was in current limit in these 100 ms. -/
def retryCountReset (o : SwitchObs) (s : State) : State :=
  let n := o.ch
  let x := chanOf s n
  if fieldPowered s && !o.limited && x.drive && x.retry != 0 && decide (x.onSince + 100000000 ≤ s.clk.c) then
    chEvent n 0x16 0x10 (modChan n (fun y => { y with retry := 0 }) s)
  else s

def execRetryCountReset (ch : SwitchObs) (s : State) : Out := .next (retryCountReset ch s)

/-- C of the last shed for a group's sum, or for the module's. -/
def lastShed (s : State) (g : Nat) (mod : Bool) : Option Nat := if mod then s.fld.modShed else (grpOf s g).shedAt

/-- OVERLOAD_SHED (R263): the highest-numbered on channel of the affected group goes off, again after 10 ms. The sum it reports
is measured: a free value (log 2). -/
def overloadShed (g : Nat) (mod : Bool) (s : State) : State :=
  let soon := match lastShed s g mod with | some c => decide (s.clk.c < c + 10000000) | none => false
  match ((List.range 8).map fun i => 8 * g + 7 - i).find? fun n => chIsOut s n && (chanOf s n).drive with
  | none => s
  | some n =>
    if !fieldPowered s || soon then s
    else
      let s0 := if mod then s.onFld fun d => { d with modShed := some s.clk.c } else modGrp g (fun y => { y with shedAt := some s.clk.c }) s
      let s1 := fieldSettle (modChan n (fun y => { y with shed := true }) s0)
      let s2 := chEvent n 0x15 (freeNat 16 s1) (tookFree (cntChan n 6 s1))
      if mod then raise 54 1 s2 else supplyEvent g 8 s2

def execOverloadShed (g : Nat) (mod : Bool) (s : State) : Out := .next (overloadShed g mod s)

/-- The comparison of readback and switch has stood for how long (R264). -/
def cmpSince (s : State) (n : Nat) : Nat := max (chanOf s n).runStart (max (chanOf s n).onSince (chanOf s n).cmpFrom)

/-- An open-load test disturbs the pin: BACKFEED is not evaluated now (R266). -/
def testExempt (s : State) (n : Nat) : Bool :=
  (chanOf s n).testing
    || (decide (0 < (chanOf s n).testOver) && decide (s.clk.c < (chanOf s n).testOver + chDebounce s n))

/-- A BACKFEED is exempt: the partner is on, or an open-load test disturbs the pin (R265, R266). -/
def backfeedExempt (s : State) (n : Nat) : Bool :=
  (bit (chRec s n) 0 20 && (chanOf s (n / 8 * 8 + bits (chRec s n) 0 19 17)).drive) || testExempt s n

/-- READBACK_FAULT (R264): a switch in current limit is no READBACK_LOW. -/
def readbackFault (o : SwitchObs) (s : State) : State :=
  let n := o.ch
  let x := chanOf s n
  if !(fieldPowered s && chIsOut s n) || (grpOf s (n / 8)).suppress || x.runLevel == x.drive
      || decide (s.clk.c ≤ cmpSince s n + chDebounce s n) then s
  else if x.drive then
    if o.limited then s else
    let s1 := fieldSettle (modChan n (fun y => { y with rbLow := true, latched := some .readbackLow }) s)
    chEvent n 0x11 2 (chEvent n 0x13 0 (cntChan n 5 s1))
  else if x.backfeed || backfeedExempt s n then s
  else chEvent n 0x12 0 (cntChan n 7 (modChan n (fun y => { y with backfeed := true }) s))

def execReadbackFault (ch : SwitchObs) (s : State) : Out := .next (readbackFault ch s)

/-- READBACK_FAULT_END (R264). -/
def readbackFaultEnd (n : Nat) (s : State) : State :=
  let x := chanOf s n
  if fieldPowered s && x.backfeed && !testExempt s n && !(grpOf s (n / 8)).suppress && x.runLevel == x.drive && decide (cmpSince s n + chDebounce s n ≤ s.clk.c) then
    chEvent n 0x16 0x12 (modChan n (fun y => { y with backfeed := false }) s)
  else s

def execReadbackFaultEnd (ch : Nat) (s : State) : Out := .next (readbackFaultEnd ch s)

/-- OPEN_LOAD_TEST_START (R266): a test is due every 100 ms, at the multiples of C (log 22); one that cannot start then waits for
the next. -/
def openLoadTestStart (n : Nat) (s : State) : State :=
  let x := chanOf s n
  if fieldPowered s && chIsOut s n && bit (chRec s n) 0 21 && !x.drive && !x.testing && !(grpOf s (n / 8)).suppress && !x.runLevel
      && sampleAt s.clk.c % 100000000 == 0 then
    modChan n (fun y => { y with testing := true, testAt := s.clk.c }) s
  else s

def execOpenLoadTestStart (ch : Nat) (s : State) : Out := .next (openLoadTestStart ch s)

/-- OPEN_LOAD_TEST_END (R266): after 1 ms. A test during which DRIVE came on, or the group was suppressed, decides nothing
(log 22). -/
def openLoadTestEnd (n : Nat) (high : Bool) (s : State) : State :=
  let x := chanOf s n
  if !x.testing || !fieldPowered s || decide (s.clk.c < x.testAt + 1000000) then s
  else
    let s0 := modChan n (fun y => { y with testing := false, testOver := s.clk.c }) s
    let s1 := modChan n (fun y => { y with openLoad := high }) s0
    if x.drive || (grpOf s (n / 8)).suppress then s0
    else if high && !x.openLoad then chEvent n 0x14 0 (cntChan n 8 s1)
    else if !high && x.openLoad then chEvent n 0x16 0x14 s1
    else s1

def execOpenLoadTestEnd (ch : Nat) (high : Bool) (s : State) : Out := .next (openLoadTestEnd ch high s)

/-! Group supplies (R268, R269). -/

/-- The IN channels of a group become INVALID (R260). -/
def groupInvalid (g : Nat) (s : State) : State :=
  s.onFld fun d => { d with ch := d.ch.zipIdx.map fun x => if x.2 / 8 == g then { x.1 with known := false } else x.1 }

/-- The inputs of a group are debounced from now on (R260). -/
def runsRestart (g : Nat) (s : State) : State :=
  s.onFld fun d => { d with ch := d.ch.zipIdx.map fun x => if x.2 / 8 == g && chIsIn s x.2 then { x.1 with runStart := sampleAt s.clk.c } else x.1 }

/-- Mismatch timers of a group start again (R268). -/
def timersReset (g : Nat) (s : State) : State :=
  s.onFld fun d => { d with ch := d.ch.zipIdx.map fun x => if x.2 / 8 == g then { x.1 with cmpFrom := s.clk.c } else x.1 }

/-- UNDERVOLT or OVERVOLT latches the group. -/
def voltLatch (g code : Nat) (f : FGroup → FGroup) (s : State) : State :=
  supplyEvent g code (cntGrp g 3 (fieldSettle (groupInvalid g (modGrp g f s))))

/-- The supply is away from the range in which inputs are valid (R260, R268): a level held for 20 µs, else as before. -/
def supplyAway (x : FGroup) (v : SupplyObs) : Bool :=
  if v.held < 20000 then x.under
  else decide (v.mv < 12000) || decide (35000 < v.mv) || (x.under && x.ov && decide (32000 ≤ v.mv))

/-- GROUP_SUPPLY_CROSSING (R268): a crossing acts once it has held for its filter time; the counts of 10 ms and of 100 ms (R269)
run from the crossing itself. -/
def groupSupplyCrossing (g : Nat) (v : SupplyObs) (s : State) : State :=
  let mv := v.mv
  if !fieldPowered s then modGrp g (fun x => { x with vfield := mv }) s
  else
    let c := s.clk.c
    let from_ := c - v.held
    let x := grpOf s g
    let okRange := decide (18000 < mv) && (!x.ov || decide (mv < 32000))
    let away := supplyAway x v
    let f20 := decide (20000 ≤ v.held)
    let f50 := decide (50000 ≤ v.held)
    let s0 := when' (x.under && !away) (runsRestart g) (modGrp g (fun y =>
      { y with
        vfield := mv
        under := away
        above := if 15500 < mv then some (y.above.getD from_) else none
        inRange := if okRange then some (y.inRange.getD from_) else none }) s)
    let s1 := if f50 && mv < 19200 && !x.warn then supplyEvent g 1 (modGrp g (fun y => { y with warn := true }) s0)
      else if f50 && 19600 < mv && x.warn then supplyEvent g 2 (modGrp g (fun y => { y with warn := false }) s0) else s0
    let s2 := if f50 && mv < 15000 && !x.suppress then
        supplyEvent g 3 (cntGrp g 4 (timersReset g (modGrp g (fun y => { y with suppress := true }) s1)))
      else if x.suppress && decide (15500 < mv) && decide (x.above.getD from_ + 10000000 ≤ c) then
        supplyEvent g 4 (timersReset g (modGrp g (fun y => { y with suppress := false }) s1))
      else s1
    let s3 := if f20 && mv < 12000 && !x.uv then voltLatch g 5 (fun y => { y with uv := true }) s2 else s2
    if f20 && 35000 < mv && !x.ov then voltLatch g 7 (fun y => { y with ov := true, inRange := none }) s3
    else when' (f20 && (decide (mv < 12000) || decide (35000 < mv))) (groupInvalid g) s3

def execGroupSupplyCrossing (g : Nat) (v : SupplyObs) (s : State) : Out := .next (groupSupplyCrossing g v s)

/-- GROUP_AUTO_RESTORE (R269). -/
def groupAutoRestore (g : Nat) (s : State) : State :=
  if fieldPowered s && !grpRearm s g && restoreOk s g then restoreGroup g s else s

def execGroupAutoRestore (g : Nat) (s : State) : Out := .next (groupAutoRestore g s)

/-- FIELD_DIE_TEMP (R287). -/
def fieldDieTemp (t : Int) (s : State) : State :=
  let s1 := s.onSys fun x => { x with fieldTemp := t }
  let hot := decide (1250 < t)
  let s2 := s1.onFld fun d => { d with fieldHot := hot }
  if hot && !s.fld.fieldHot && fieldPowered s then raise 54 2 s2 else s2

def execFieldDieTemp (t : Int) (s : State) : Out := .next (fieldDieTemp t s)

/-- LEASE_EXPIRY (R273). -/
def leaseExpiry (g : Nat) (s : State) : State :=
  if (grpOf s g).owner != .none && (grpOf s g).lease == 0 then endOwner g 3 1 (cntGrp g 1 s) else s

def execLeaseExpiry (g : Nat) (s : State) : Out := .next (leaseExpiry g s)

/-- One pending timed apply at its time (R162, R278, R402): passed over, discarded, skipped, or carried out by the strobe that was issued for it
(R19, R277). A skip names no mark: the mark of its event is a free value (log 22). -/
def timedAct (x : Timed) (s : State) : State :=
  let s1 := s.onFld fun d => { d with timed := d.timed.filter fun y => y.slot != x.slot }
  let s2 := s1.onPlan fun p => { p with strobes := p.strobes.filter fun y => y.for_ != .timed x.slot }
  if x.ep == s.clk.tepoch && passedOver s x.at_ then s2
  else if !timedLive s x then cntGrp x.g 0 s2
  else if !synced s then raise 86 (freeNat 4 s2) (tookFree (cntStall 9 s2))
  else if s.plan.strobes.any fun y => y.for_ == .timed x.slot && y.at_ == x.at_ then fieldRequest x.g x.mask x.vals true s2
  else s2

/-- TIMED_APPLY_DUE (R278): the first pending apply whose time has come or whose time epoch has gone. -/
def timedApplyDue (s : State) : State :=
  match s.fld.timed.find? fun x => x.ep != s.clk.tepoch || decide (x.at_ ≤ trainTime s) with
  | some x => timedAct x s
  | none => s

def execTimedApplyDue (s : State) : Out := .next (timedApplyDue s)

/-! Owner commands (R401). -/

/-- TAKE (R271): it is decided at the field island. -/
def cmdTake (c : Ctx) (s : State) : State :=
  let w := wd c.words 1
  if natBits w 15 3 != 0 then badParam c 1 0 s
  else s.onFld fun d => { d with cmds := d.cmds ++ [.take c (natBits w 1 0) (natBits w 31 16) (natBit w 2)] }

def execTake (via : Via) (s : State) : Out := .next (firmware 0x606 2 .operate cmdTake via s)

/-- RELEASE (R274): it crosses in the ordered queue (R253). -/
def cmdRelease (c : Ctx) (s : State) : State :=
  let w := wd c.words 1
  if natBits w 15 2 != 0 then badParam c 1 0 s
  else if !ownsGen c (natBits w 1 0) (natBits w 31 16) s then staleGen c (grpOf s (natBits w 1 0)).gen s
  else s.onFld fun d => { d with cmds := d.cmds ++ [.release c (natBits w 1 0) (natBits w 31 16)] }

def execRelease (via : Via) (s : State) : Out := .next (firmware 0x607 2 .operate cmdRelease via s)

/-- FIELD_OUTPUT (R272, R273). -/
def cmdFieldOutput (c : Ctx) (s : State) : State :=
  let w := wd c.words 1
  let g := wd c.words 2
  if 3 < g then badParam c 2 0 s
  else if !hasOwner s g then stateError c s
  else if !ownsGen c g (natBits w 31 16) s then staleCmd c g s
  else s.onFld fun d => { d with cmds := d.cmds ++ [.output c g (natBits w 31 16) (natBits w 15 8) (natBits w 7 0)] }

def execFieldOutput (via : Via) (s : State) : Out := .next (firmware 0x608 3 .operate cmdFieldOutput via s)

/-- TIMED_APPLY (R278, R402). -/
def cmdTimedApply (c : Ctx) (s : State) : State :=
  let w := wd c.words 1
  let w2 := wd c.words 2
  let g := natBits w2 1 0
  let t := wd64 c.words 3
  if natBits w2 7 2 != 0 || natBits w2 31 16 != 0 || natBits w2 15 8 != s.clk.tepoch then badParam c 2 0 s
  else if !hasOwner s g then stateError c s
  else if !ownsGen c g (natBits w 31 16) s then staleCmd c g s
  else match (List.range 4).find? fun k => !(s.fld.timed.any fun x => x.slot == k) with
    | none => noSpace c 1 s
    | some k =>
      if t < trainTime s + 15000 then timeoutError c s
      else replyOk c [k] (s.onFld fun d => { d with timed := d.timed ++
        [{ slot := k, g := g, gen := natBits w 31 16, mask := natBits w 15 8, vals := natBits w 7 0, at_ := t, ep := s.clk.tepoch }] })

def execTimedApply (via : Via) (s : State) : Out := .next (firmware 0x609 5 .operate cmdTimedApply via s)

/-- FAULT_CLEAR (R267): it crosses in the ordered queue (R253). -/
def cmdFaultClear (c : Ctx) (s : State) : State :=
  let w := wd c.words 1
  let g := natBits w 1 0
  if natBits w 7 2 != 0 then badParam c 1 0 s
  else if !ownsGen c g (natBits w 31 16) s then staleGen c (grpOf s g).gen s
  else s.onFld fun d => { d with cmds := d.cmds ++ [.clear c g (natBits w 31 16) (natBits w 15 8)] }

def execFaultClear (via : Via) (s : State) : Out := .next (firmware 0x60A 2 .operate cmdFaultClear via s)

/-- REARM (R269): it crosses in the ordered queue (R253). -/
def cmdRearm (c : Ctx) (s : State) : State :=
  let w := wd c.words 1
  let g := natBits w 1 0
  if natBits w 15 2 != 0 then badParam c 1 0 s
  else if !ownsGen c g (natBits w 31 16) s then staleGen c (grpOf s g).gen s
  else s.onFld fun d => { d with cmds := d.cmds ++ [.rearm c g (natBits w 31 16)] }

def execRearm (via : Via) (s : State) : Out := .next (firmware 0x60B 2 .operate cmdRearm via s)

/-! Field status (R286). -/

/-- BY of R286: its reset value until a row has decided. -/
def rowBy (row : Nat) : Nat := if row == 0 then 0 else if row ≤ 2 then 3 else if row ≤ 4 then 1 else if row == 5 then 2 else 0

/-- The sensed current of a channel in mA, as the logic side last received it. -/
def keptCurrent (s : State) (n : Nat) : Nat := s.fld.keptCur / 2 ^ (11 * n) % 2048

/-- One channel status word: the field side's part is as the logic side last received it (R253), and the request is in the
image the logic side holds. CURRENT counts 2 mA. -/
def chStatus (s : State) (n : Nat) : Nat :=
  let x := s.fld.kept.getD n Chan.reset
  let inv := chIsIn s n && (!x.known || s.fld.linkInvalid)
  b2n x.level * 2 ^ 31 + b2n x.drive * 2 ^ 30 + b2n (natBit s.fld.image n) * 2 ^ 29 + rowBy x.row * 2 ^ 27
    + b2n x.latched.isSome * 2 ^ 26 + b2n x.short * 2 ^ 25 + b2n x.thermal * 2 ^ 24 + b2n x.backfeed * 2 ^ 23
    + b2n x.rbLow * 2 ^ 22 + b2n x.openLoad * 2 ^ 21 + b2n x.shed * 2 ^ 20 + b2n (s.fld.keptGrp.getD (n / 8) FGroup.reset).suppress * 2 ^ 19
    + b2n inv * 2 ^ 18 + x.retry % 16 * 2 ^ 14 + keptCurrent s n / 2 * 16

/-- The five words of a group: owner, GEN and lease are the logic side's, the rest as it last received them (R253). GCURRENT
is the sum of the group's currents. -/
def grpStatus (s : State) (g : Nat) : List Nat :=
  let x := grpOf s g
  let y := s.fld.keptGrp.getD g FGroup.reset
  let k := match x.owner with | .none => (0, 0, 0) | .host b n => (1, b, n) | .firmware => (2, 0, 0)
  [x.gen % 65536 * 65536 + k.1 * 16384 + b2n (leaseLive s g) * 8192 + b2n y.warn * 4096 + b2n y.suppress * 2048 + b2n y.uv * 1024
     + b2n y.ov * 512 + b2n s.fld.keptHb * 256,
   y.vfield / 10 % 65536 * 65536 + ((List.range 8).map fun i => keptCurrent s (8 * g + i)).sum, k.2.1 % 2 ^ 32, k.2.1 / 2 ^ 32 % 2 ^ 32, k.2.2 % 65536 * 65536 + x.lease % 65536]

/-- FIELD_STATUS. -/
def cmdFieldStatus (c : Ctx) (s : State) : State :=
  let item := (List.range 32).map (chStatus s) ++ (List.range 4).flatMap (grpStatus s)
  writeItems 1 [item.flatMap (leBytes 4)] (fun _ t => replyOk c [] t) c s

def execFieldStatus (via : Via) (s : State) : Out := .next (firmware 0x605 3 .observe cmdFieldStatus via s)

/-! Field records (R281 to R285). -/

def fcMode (r : List Word) : Nat := bits r 0 31 30
def fcWake (r : List Word) : Bool := bit r 0 16
def fcPair (r : List Word) : Bool := bit r 0 20
def fcPartner (r : List Word) : Nat := bits r 0 19 17

/-- The module record beside its channel records. -/
def fieldModCheck (chans : List (List Word)) (w : Word) : Option Nat :=
  firstBad [(natBits w.toNat 22 0 != 0 || (!natBit w.toNat 23 && chans.any fcWake), 0)]

/-- A group record beside the channel records. -/
def fieldGrpCheck (chans : List (List Word)) (g : Nat) (w : Word) : Option Nat :=
  let anyOut := (List.range 8).any fun i => fcMode (chans.getD (8 * g + i) []) == 2
  firstBad [(natBits w.toNat 29 16 != 0 || (anyOut && natBits w.toNat 15 0 == 0), 0)]

/-- A channel record beside the module, group and channel records. -/
def fieldChanCheck (module : Word) (groups : List Word) (chans : List (List Word)) (n : Nat) (r : List Word) : Option Nat :=
  let m := fcMode r
  let isIn := m == 1
  let isOut := m == 2
  let p := n / 8 * 8 + fcPartner r
  let pr := chans.getD p []
  firstBad [
    (m == 3 || (!isIn && bits r 0 29 29 != 0) || (!isOut && bits r 0 28 26 != 0) || bits r 0 28 27 == 3 || (!isOut && bits r 0 21 20 != 0)
      || (!isIn && fcWake r) || (fcWake r && !natBit module.toNat 23) || (m != 0 && bits r 0 15 0 == 0)
      || (isOut && natBits (groups.getD (n / 8) 0).toNat 15 0 == 0)
      || (fcPair r && (p == n || fcMode pr != 2 || !fcPair pr || n / 8 * 8 + fcPartner pr != n)), 0),
    ((!isIn && bits r 1 31 30 != 0) || (!isOut && bits r 1 29 22 != 0) || (isOut && bits r 1 25 22 == 0) || bits r 1 21 0 != 0, 1)]

/-- A rule record beside the group, channel and rule records. -/
def fieldRuleCheck (groups : List Word) (chans : List (List Word)) (rules : List Word) (i : Nat) (w : Word) : Option Nat :=
  let r := w.toNat
  let o := natBits r 12 8
  firstBad [(natBits r 29 21 != 0 || natBits r 15 13 != 0 || natBits r 7 0 != 0 ||
    (natBit r 31 && (fcMode (chans.getD (natBits r 20 16) []) != 1 || fcMode (chans.getD o []) != 2
      || !natBit (groups.getD (o / 8) 0).toNat 30
      || rules.zipIdx.any fun x => x.2 != i && natBit x.1.toNat 31 && natBits x.1.toNat 12 8 == o)), 0)]

/-- FIELD_MODULE_SET. -/
def cmdFieldModuleSet (c : Ctx) (s : State) : State :=
  let w := c.words.getD 1 0
  match fieldModCheck s.fld.chanRec w with
  | some _ => badParam c 1 0 s
  | none => replyOk c [] (s.onFld fun d => { d with module := w })

def execFieldModuleSet (via : Via) (s : State) : Out := .next (firmware 0x601 2 .config cmdFieldModuleSet via s)

/-- FIELD_GROUP_SET. -/
def cmdFieldGroupSet (c : Ctx) (s : State) : State :=
  let g := wd c.words 1
  let w := c.words.getD 2 0
  if 3 < g then badParam c 1 0 s
  else match fieldGrpCheck s.fld.chanRec g w with
    | some _ => badParam c 2 0 s
    | none => replyOk c [] (s.onFld fun d => { d with groupRec := d.groupRec.set g w })

def execFieldGroupSet (via : Via) (s : State) : Out := .next (firmware 0x602 3 .config cmdFieldGroupSet via s)

/-- The fields that change only in STOPPED (R281). -/
def fcFixed (r : List Word) : List Nat := [bits r 0 31 22, bits r 0 20 17, bits r 1 29 22]

/-- A channel record takes effect; a channel newly configured as IN has yet to accept a starting level (R258). -/
def chanApply (n : Nat) (r : List Word) (s : State) : State :=
  let fresh := fcMode r != fcMode (chRec s n)
  let s1 := s.onFld fun d => { d with chanRec := d.chanRec.set n r }
  let s2 := if fresh then modChan n (fun y => { y with known := false, hadLevel := false, overrun := false, runStart := sampleAt s.clk.c }) s1 else s1
  fieldSettle s2

/-- FIELD_CHANNEL_SET. -/
def cmdFieldChannelSet (c : Ctx) (s : State) : State :=
  let n := wd c.words 1
  let r := (c.words.drop 2).take 2
  if 31 < n then badParam c 1 0 s
  else match fieldChanCheck s.fld.module s.fld.groupRec (s.fld.chanRec.set n r) n r with
    | some i => badParam c (2 + i) 0 s
    | none =>
      if fcFixed r != fcFixed (chRec s n) && s.sys.dev != .stopped then stateError c s
      else replyOk c [] (chanApply n r s)

def execFieldChannelSet (via : Via) (s : State) : Out := .next (firmware 0x603 4 .config cmdFieldChannelSet via s)

/-- FIELD_RULE_SET. -/
def cmdFieldRuleSet (c : Ctx) (s : State) : State :=
  let i := wd c.words 1
  let w := c.words.getD 2 0
  if 31 < i then badParam c 1 0 s
  else match fieldRuleCheck s.fld.groupRec s.fld.chanRec s.fld.ruleRec i w with
    | some _ => badParam c 2 0 s
    | none => replyOk c [] (s.onFld fun d => { d with ruleRec := d.ruleRec.set i w })

def execFieldRuleSet (via : Via) (s : State) : Out := .next (firmware 0x604 3 .config cmdFieldRuleSet via s)

end Sys2Proof.Machine
end

