-- ==== Sys2Proof/Machine/Security.lean ====
section
/-!
DEFINITION. Key rotation, entropy, ownership, operators, service tokens, quotes, envelopes and zeroise (R289 to R329, R403).
-/

namespace Sys2Proof.Machine

open Sys2Proof

/-! Matrix-cycle boundaries (R161, R313, R314). -/

/-- The boundary with MATRIX count m has been reached. -/
def matrixReached (s : State) (m : Nat) : Bool := decide ((matrixOf s (trainTime s) + 2 ^ 32 - m) % 2 ^ 32 < 2 ^ 31)

/-- Train time of the boundary with MATRIX count m, once it has been reached. -/
def matrixStart (s : State) (m : Nat) : Nat :=
  let d := planNbc s * cycleP s
  (trainTime s / d - (matrixOf s (trainTime s) + 2 ^ 32 - m) % 2 ^ 32) * d

/-- Nanoseconds until that boundary, while it lies ahead. -/
def matrixAhead (s : State) (m : Nat) : Nat :=
  let d := planNbc s * cycleP s
  (m + 2 ^ 32 - matrixOf s (trainTime s)) % 2 ^ 32 * d - trainTime s % d

/-! Entropy (R291). -/

/-- ENTROPY_HEALTH_CHANGE (R291): what waited for random output goes on when it is restored. -/
def entropyHealthChange (ok : Bool) (s : State) : State :=
  if s.sys.dev == .off || s.sys.dev == .reset || s.sys.dev == .barn then s
  else if !ok then raise 103 1 (cntSec 8 (s.onSec fun x => { x with entropyOk := false }))
  else if s.sec.entropyOk then s
  else
    let s1 := raise 103 3 (s.onSec fun x => { x with entropyOk := true })
    let s2 := when' (isLead s1 && s1.ldr.nlDue) drawNl s1
    when' s2.sec.rotWait startRotation s2

def execEntropyHealthChange (ok : Bool) (s : State) : Out := .next (entropyHealthChange ok s)

/-! Rotation at the lead (R312, R313). -/

/-- KEY_LIFE_EXPIRY (R312). -/
def keyLifeExpiry (s : State) : State :=
  if isLead s && s.sec.rot.isNone && !s.sec.rotWait && decide (s.sec.switchAt + pKeyLife s ≤ trainTime s) then startRotation s else s

def execKeyLifeExpiry (s : State) : Out := .next (keyLifeExpiry s)

/-- The badge and system address of the carrier of a block: a numbered member, or a granted guest at car field 63. -/
def carrier (s : State) (b : RekeyBlk) : Option (Nat × Nat) :=
  match s.inaug.numbering.zipIdx.find? fun e => e.1.adm == b.adm with
  | some (e, n) => some (e.badge, s.inaug.train * 64 + n)
  | none => (s.ldr.guests.find? fun g => g.granted && g.adm == b.adm).map fun g => (g.badge, s.inaug.train * 64 + 63)

/-- The content of a REKEY block: NEXT_EPOCH, the key, ROTATION_ID and SWITCH_MATRIX. -/
def rekeyPlain (epoch key rid switchM : Nat) : Nat := ((epoch % 256 * 2 ^ 256 + key) * 2 ^ 32 + rid) * 2 ^ 32 + switchM

/-- Queue the REKEY of a block for the train. -/
def rekeySend (r : Rotation) (b : RekeyBlk) (s : State) : State :=
  match carrier s b with
  | none => s
  | some (badge, dst) =>
    ctlSend dst (.rekey b.adm) (ctlPayload 0x11 0 0 0 0 (beBytes 4 r.rid ++ [byteOf r.next, 0, 0, 0] ++ beBytes 4 r.switchM
      ++ (padTo 384 (Config.wrapKey (rekeyPlain r.next r.key r.rid r.switchM) badge)).take 384)) s

/-- One block of the rotation changed. -/
def modBlock (adm : Nat) (f : RekeyBlk → RekeyBlk) (s : State) : State :=
  s.onSec fun x => { x with rot := x.rot.map fun r => { r with blocks := r.blocks.map fun b => if b.adm == adm then f b else b } }

/-- REKEY_BLOCK_WRAPPED (R313, R327): the next block in numbering order. -/
def rekeyBlockWrapped (s : State) : State :=
  match s.sec.rot with
  | none => s
  | some r =>
    match r.blocks.find? fun b => !b.wrapped with
    | none => s
    | some b =>
      if !rsaTurn .rekeyWrap s then s
      else rekeySend r b (rsaBegin (wrapNext (rsaEnd false (modBlock b.adm (fun x => { x with wrapped := true }) s))))

def execRekeyBlockWrapped (s : State) : Out := .next (rekeyBlockWrapped s)

/-- REKEY_RESEND_TIMEOUT (R313): 20 ms after the launch, at most twice, never later than 5 ms before the switch. -/
def rekeyResendTimeout (adm : Nat) (s : State) : State :=
  match s.sec.rot with
  | none => s
  | some r =>
    match r.blocks.find? fun b => b.adm == adm with
    | none => s
    | some b =>
      match b.sentAt with
      | none => s
      | some t =>
        if b.wrapped && !b.acked && decide (b.resent < 2) && decide (t + 20000000 ≤ trainTime s) && !matrixReached s r.switchM
            && decide (5000000 ≤ matrixAhead s r.switchM) then
          rekeySend r b (modBlock adm (fun x => { x with sentAt := none, resent := x.resent + 1 }) s)
        else s

def execRekeyResendTimeout (adm : Nat) (s : State) : Out := .next (rekeyResendTimeout adm s)

/-- REKEY_ACK (R313). -/
def rekeyAck (s : State) : State :=
  withCtl 0x12 (fun m t =>
    match t.sec.rot with
    | none => t
    | some r =>
      if !isLead t || be m.payload 8 4 != r.rid || !(r.blocks.any fun b => b.adm == m.hdr.adm) then t
      else if part m.payload 12 16 == keyCheck r.next r.key then modBlock m.hdr.adm (fun b => { b with acked := true }) t
      else cntSec 9 t) s

def execRekeyAck (s : State) : Out := .next (rekeyAck s)

/-! Rotation at the other cars (R313, R314). -/

/-- REKEY_ACK leaves for the lead: car 0 of the train, as a member or as a granted guest. -/
def sendAck (i : Installed) (s : State) : State :=
  let train := if s.inaug.car.isNone then match s.inaug.beacon with | some b => bcTrain b.raw | none => s.inaug.train else s.inaug.train
  trainSend { ftype := ftControl, prio := (Config.prioOf ftControl).toNat, grp := false, all := false, dst := train * 64, open_ := false,
              tag := .plain, payload := ctlPayload 0x12 0 0 0 0 (beBytes 4 i.rid ++ keyCheck i.epoch i.key) } s

/-- The message comes from the current lead (R313): under its ADMIT or, as a granted guest that has heard no LEAD_STATUS yet, from
car 0 of the train that granted it (DEDUCED, log 23). -/
def fromLead (m : RxMsg) (s : State) : Bool :=
  m.hdr.adm == s.inaug.leadAdmit ||
    (s.inaug.guest == .done && s.inaug.leadAdmit == 0 &&
      (match s.inaug.beacon with | some b => m.hdr.src == bcTrain b.raw * 64 | none => false))

/-- A REKEY is accepted (R312, R313): it waits for the private unit. A member discards the key it had been given for the rotation
that this one replaces; a granted guest cannot yet tell whose block it is, and tries every one. -/
def rekeyAccept (u : Installed) (s : State) : State :=
  if s.sec.unwrap.contains u then s
  else if s.inaug.guest == .done then
    if s.sec.unwrap.length < 16 then rsaBegin (s.onSec fun x => { x with unwrap := x.unwrap ++ [u] }) else s
  else
    let s1 := s.onSec fun x => { x with unwrap := [u] }
    if s.sec.inst.isNone then rsaBegin s1
    else rsaBegin (releaseEntries (s1.onSec fun x => { x with inst := none, keys := x.keys.filter fun k => k.epoch == x.cur }))

/-- REKEY (R313): from the ADMIT of the current lead; an installed key is acknowledged at once. The unwrap keeps the whole block
in `key` until it is done. -/
def rekey (s : State) : State :=
  withCtl 0x11 (fun m t =>
    let u : Installed := { rid := be m.payload 8 4, epoch := be m.payload 12 1 % 16, switchM := be m.payload 16 4,
                           key := Config.unwrapKey t.sec.idKey (part m.payload 20 384) }
    if isLead t || t.sec.keys.isEmpty || !fromLead m t then t
    else
      match t.sec.inst with
      | some i => if i.rid == u.rid && i.epoch == u.epoch && i.switchM == u.switchM then sendAck i t else rekeyAccept u t
      | none => rekeyAccept u t) s

def execRekey (s : State) : Out := .next (rekey s)

/-- REKEY_UNWRAPPED (R313, R327): the first that waits; the block must match the clear fields, and the key replaces one given
before. -/
def rekeyUnwrapped (s : State) : State :=
  match s.sec.unwrap with
  | [] => s
  | u :: r =>
    let key := u.key / 2 ^ 64 % 2 ^ 256
    let s1 := rsaBegin (rsaEnd true (s.onSec fun x => { x with unwrap := r }))
    if !rsaTurn .rekeyOpen s then s
    else if u.key != rekeyPlain u.epoch key u.rid u.switchM || u.epoch == s.sec.cur then s1
    else
      let i : Installed := { u with key := key }
      let s2 := s1.onSec fun x =>
        { x with inst := some i, keys := (x.keys.filter fun k => k.epoch == x.cur) ++ [{ epoch := u.epoch, key := key }] }
      sendAck i (raise 97 (u.epoch * 256 + 2) (releaseEntries s2))

def execRekeyUnwrapped (s : State) : Out := .next (rekeyUnwrapped s)

/-- The ADMITs of the members, and of the guests that were granted the key, count as issued under an epoch (R107, R315). -/
def carryIssued (epoch : Nat) (s : State) : State :=
  s.onLdr fun l =>
    let adms := s.inaug.numbering.map (·.adm) ++ (l.guests.filter (·.granted)).map (·.adm)
    { l with issued := l.issued ++ ((adms.map fun a => (epoch, a)).eraseDups.filter fun x => !l.issued.contains x) }

/-- A lead draws its NL anew, and the lead-car state is copied whether or not a draw has to wait (R104, R113, R291). -/
def drawAndCopy (s : State) : State := if s.sec.entropyOk then drawNl s else stateCopy (drawNl s)

/-- KEY_SWITCH (R314): at the boundary launches change to the new epoch, or the car notes that it has no key for it. -/
def keySwitch (s : State) : State :=
  if s.sec.oldKey.isSome then s else
  match s.sec.inst, s.sec.unwrap with
  | some i, _ =>
    if !matrixReached s i.switchM then s
    else
      let s1 := s.onSec fun x =>
        { x with cur := i.epoch, oldKey := some x.cur, switchM := some i.switchM, switchAt := matrixStart s i.switchM, inst := none,
                 unwrap := [], rot := none, takeRank := 0 }
      let s2 := raise 97 (i.epoch * 256 + 3) (cntSec 5 s1)
      let own := match s.sec.rot with | some r => r.next == i.epoch | none => false
      when' (isLead s2) (fun t => drawAndCopy (carryIssued i.epoch (t.onLdr fun l => { l with rekeyedSelf := l.rekeyedSelf || own }))) s2
  | none, u :: _ =>
    if !matrixReached s u.switchM then s
    else raise 97 (u.epoch * 256 + 5) (s.onSec fun x =>
      { x with oldKey := some x.cur, switchM := some u.switchM, switchAt := matrixStart s u.switchM, unwrap := [] })
  | none, [] => s

def execKeySwitch (s : State) : Out := .next (keySwitch s)

/-- OLD_KEY_ERASE (R314): 1 ms after the boundary. A car without the new key loses membership; a rotation that waited starts. -/
def oldKeyErase (s : State) : State :=
  match s.sec.oldKey with
  | none => s
  | some e =>
    if trainTime s < s.sec.switchAt + 1000000 then s
    else
      let s1 := releaseEntries (s.onSec fun x => { x with keys := x.keys.filter fun k => k.epoch != e, oldKey := none })
      let s2 := raise 97 (e * 256 + 4) (s1.onLdr fun l => { l with issued := l.issued.filter fun x => x.1 != e })
      if s2.sec.cur == e then loseAndSeek s2
      else when' s2.sec.rotWait startRotation (when' (isLead s2) (fun t => stateCopy (takeAdmits t)) s2)

def execOldKeyErase (s : State) : Out := .next (oldKeyErase s)

/-! Sessions and privilege (R317, R318, R320, R321). -/

/-- The sender's session belongs to a port of this car and is still open. -/
def ownSession (c : Ctx) (s : State) : Bool :=
  c.session != 0 &&
    match c.via with
    | .manger n => if n < 10 then s.host.session == c.session else if n < 12 then s.strm.session == c.session else false
    | .yard k => (sessOf s k).map (·.id) == some c.session

/-- A session's privilege after a grant: SERVICE lasts until reset or zeroise, so OPERATE comes beside it (R318, R321; log 12). -/
def privAfter (old new : Priv) : Priv := if old == .service then .service else new

/-- The sender's session gains a privilege: OPERATE with its operator key, SERVICE with its scope beside what it has. A session of
another car is kept there (R320; log 23). -/
def setPriv (c : Ctx) (p : Priv) (scope key : Nat) (s : State) : State :=
  let keyOf := fun (old : Nat) => if p == .operate then key else old
  if !ownSession c s then s
  else match c.via with
    | .manger n =>
      if n < 10 then s.onHost fun h => { h with priv := privAfter h.priv p, scope := h.scope ||| scope, operKey := keyOf h.operKey }
      else s.onStrm fun t => { t with priv := privAfter t.priv p, scope := t.scope ||| scope, operKey := keyOf t.operKey }
    | .yard k => s.onYard fun d => { d with sess := d.sess.modify k fun y =>
        { y with priv := privAfter y.priv p, scope := y.scope ||| scope, operKey := keyOf y.operKey } }

/-- The session has gained OPERATE (R318), whether or not SERVICE came beside it. -/
def operHeld (p : Priv) (key : Nat) : Bool := p == .operate || key != 0

/-- The end of OPERATE is reported (R318). -/
def operEnd (was : Bool) (s : State) : State := if was then raise 98 3 s else s

/-- Sessions that meet a condition on privilege and operator key lose OPERATE and, with `all`, SERVICE too; without any they are at
OBSERVE (R318, R323). -/
def demote (cond : Priv → Nat → Bool) (all : Bool) (s : State) : State :=
  let low := fun (p : Priv) => if p == .service && !all then .service else .observe
  let sc := fun (n : Nat) => if all then 0 else n
  let y := s.yard.sess.filter fun x => cond x.priv x.operKey
  let s1 := when' (cond s.host.priv s.host.operKey) (fun u => operEnd (operHeld s.host.priv s.host.operKey)
    (u.onHost fun x => { x with priv := low x.priv, scope := sc x.scope, operKey := 0 })) s
  let s2 := when' (cond s.strm.priv s.strm.operKey) (fun u => operEnd (operHeld s.strm.priv s.strm.operKey)
    (u.onStrm fun x => { x with priv := low x.priv, scope := sc x.scope, operKey := 0 })) s1
  let s3 := s2.onYard fun d =>
    { d with
      sess := d.sess.map fun x => if cond x.priv x.operKey then { x with priv := low x.priv, scope := sc x.scope, operKey := 0 } else x }
  each y (fun x => operEnd (operHeld x.priv x.operKey)) s3

/-- MACsec secures the yard port (R317, R324). -/
def yardSecured (s : State) : Bool := s.sec.sak && s.sec.macOpen

/-- An owner is enrolled (R296). -/
def owned (s : State) : Bool := (enrolled s).isSome

/-- A 32-byte nonce as the words of a reply (R9). -/
def nonceWords (n : Nat) : List Nat := (bytesWords (beBytes 32 n)).map (·.toNat)

/-! The RSA units (R326, R327). -/

/-- A host command asks a unit for an operation, or replies BUSY when 16 wait, internal requests among them. -/
def rsaPut (priv : Bool) (job : RsaJob) (data : List Byte) (c : Ctx) (s : State) : State :=
  let j : Job := Job.mk c job data
  if 16 ≤ rsaWaiting priv s then busyError c (rsaWaiting priv s) s
  else rsaBegin (s.onSec fun x => if priv then { x with rsaPriv := x.rsaPriv ++ [j] } else { x with rsaPub := x.rsaPub ++ [j] })

/-- A serialised command goes on after its take (R393). -/
def holdSerial (c : Ctx) (s : State) : State := s.onCmd fun q => { q with busy := some c }

/-- It has ended. -/
def serialDone (s : State) : State := s.onCmd fun q => { q with busy := none }

/-! The operator challenge (R318). -/

/-- A challenge failure: counted and reported, and after 8 within 60 s challenges are refused for 60 s. -/
def challengeFail (s : State) : State :=
  let now := s.clk.c
  let f := now :: s.sec.fails.filter fun t => decide (now < t + 60000000000)
  let s1 := raise 98 2 (cntSec 0 s)
  if 8 ≤ f.length then raise 98 4 (s1.onSec fun x => { x with fails := [], lockout := some (now + 60000000000) })
  else s1.onSec fun x => { x with fails := f }

/-- CHALLENGE_LOCKOUT_END (R318). -/
def challengeLockoutEnd (s : State) : State :=
  match s.sec.lockout with
  | none => s
  | some t => if s.clk.c < t then s else s.onSec fun x => { x with lockout := none }

def execChallengeLockoutEnd (s : State) : Out := .next (challengeLockoutEnd s)

/-- A challenge during the lockout is refused (log 23). -/
def lockedOut (c : Ctx) (s : State) : State := privError c (raise 98 2 s)

/-- OPERATOR_CHALLENGE (R318): valid for 10 s; it takes the place of the session's earlier one (log 23). -/
def cmdOperatorChallenge (c : Ctx) (s : State) : State :=
  match c.via with
  | .yard _ =>
    if s.sec.lockout.isSome then lockedOut c s
    else if !yardSecured s then privError c s
    else issue s
  | .manger _ => if s.sec.lockout.isSome then lockedOut c s else issue s
where
  /-- The nonce is drawn and kept. -/
  issue (s : State) : State :=
    let n := freeNat 256 s
    let k := sessKey s c
    replyOk c (nonceWords n) ((tookFree s).onSec fun x =>
      { x with operChal := { session := k, nonce := n, until_ := s.clk.c + 10000000000 } :: x.operChal.filter fun y => y.session != k })

/-- Without random output a challenge waits in its slot (R291; log 23). -/
def execOperatorChallenge (via : Via) (s : State) : Out :=
  .next (if s.sec.entropyOk then firmware 0x005 1 .observe cmdOperatorChallenge via s else s)

/-- The key is listed, and a yard session may use it (R317, R318). -/
def operListed (c : Ctx) (key : List Byte) (s : State) : Bool :=
  let isYard := match c.via with | .yard _ => true | .manger _ => false
  s.sec.operators.any fun o => o.1 == shaNat key && (!isYard || (o.2 && yardSecured s))

/-- A response that fails. -/
def operRefuse (unlisted : Bool) (c : Ctx) (s : State) : State :=
  if unlisted then privError c (challengeFail s) else sigError c (challengeFail s)

/-- OPERATOR_RESPONSE (R318): the key must be listed, from a yard session with its YARD flag, and the nonce current. A key that is
not listed replies PRIVILEGE, any other failure SIGNATURE (log 23). -/
def cmdOperatorResponse (c : Ctx) (s : State) : State :=
  let n := wd c.words 3
  if 65536 ≤ n || n == 0 then badParam c 3 0 s
  else readParcel 1 (fun p t =>
    let k := sessKey t c
    let nonce := t.sec.operChal.any fun y => y.session == k && decide (t.clk.c < y.until_)
    let listed := operListed c (p.take n) t
    let t1 := t.onSec fun x => { x with operChal := x.operChal.filter fun y => y.session != k }
    if p.length ≤ n then badParam c 3 0 t
    else if t.sec.lockout.isSome then lockedOut c t
    else if !listed then operRefuse true c t1
    else if !nonce then operRefuse false c t1
    else rsaPut false .operResponse (p.take n) c t1) c s

def execOperatorResponse (via : Via) (s : State) : Out := .next (firmware 0x006 4 .observe cmdOperatorResponse via s)

/-- The signature of a response has been checked: OPERATE is granted if the key is listed and the yard port secured still, unless
the session has ended. -/
def operDone (c : Ctx) (key : List Byte) (ok : Bool) (s : State) : State :=
  if !operListed c key s then operRefuse true c s
  else if !ok then operRefuse false c s
  else if !ownSession c s then replyOk c [c.priv.code * 256] s
  else replyOk c [256] (raise 98 1 (setPriv c .operate 0 (shaNat key) s))

/-! Quotes and certificates (R303, R304, R403). -/

/-- QUOTE (R304). -/
def cmdQuote (c : Ctx) (s : State) : State :=
  withParcel 9 (fun _ n t =>
    if n < 538 then noSpace c (538 - n) t else rsaPut true .quote (wordBytes ((c.words.drop 1).take 8)) c t) c s

def execQuote (via : Via) (s : State) : Out := .next (firmware 0x701 11 .observe cmdQuote via s)

/-- The quote is signed and written. -/
def quoteDone (c : Ctx) (body : List Byte) (s : State) : State :=
  replyOk c [538] (loftWrite (wd c.words 9) (quoteSigned s.sec.idKey body) coreId s)

/-- CERT_READ (R403). -/
def cmdCertRead (c : Ctx) (s : State) : State :=
  let i := wd c.words 1
  let cert := if i == 0 then s.sec.devCert else if i ≤ 8 then s.sec.certs.getD (i - 1) []
    else ((enrolled s).map (·.cert)).getD []
  if 8 < i && i != 0xFE then badParam c 1 0 s
  else if cert.isEmpty then withParcel 2 (fun _ _ t => notFound c t) c s
  else writeItems 2 [cert] (fun _ t => replyOk c [cert.length] t) c s

def execCertRead (via : Via) (s : State) : Out := .next (firmware 0x702 4 .observe cmdCertRead via s)

/-! Ownership (R296 to R298). -/

/-- OWN_CHALLENGE (R297): valid for 60 s. -/
def cmdOwnChallenge (c : Ctx) (s : State) : State :=
  let n := freeNat 256 s
  replyOk c (nonceWords n) ((tookFree s).onSec fun x => { x with ownChal := some (n, s.clk.c + 60000000000) })

def execOwnChallenge (via : Via) (s : State) : Out :=
  .next (if s.sec.entropyOk then firmware 0x703 1 .observe cmdOwnChallenge via s else s)

/-- An owner parcel: its certificate and COSIGN_REQUIRED; `none` when the layout of R403 or the key is not right. -/
def ownerParcel (p : List Byte) : Option (List Byte × Bool) :=
  let n := le p 0 2
  let cert := (p.drop 4).take n
  if p.length == 4 + n + 384 && decide (0 < n) && decide (le p 2 2 < 2) && Config.keyBits cert == 3072 then some (cert, le p 2 2 == 1)
  else none

/-- A new owner enrolment record (R296 to R298). -/
def enrolSet (cert : List Byte) (cosign : Bool) (s : State) : State :=
  s.onSec fun x =>
    { x with enrol := some (sealed s { cert := cert, hash := shaNat cert, cosign := cosign, envSeq := 0, floor := 0, sealMac := 0 })
             enrolBad := false }

/-- The ceremony is open: STOPPED, OWN_PRESENT_N low since reset release, and none has taken place (R297). -/
def ceremonyOpen (s : State) : Bool := s.sys.dev == .stopped && s.sys.ownLow && !s.sys.ceremony

/-- TAKE_OWNERSHIP (R297). -/
def cmdTakeOwnership (c : Ctx) (s : State) : State :=
  if !ceremonyOpen s then privError c s
  else readParcel 1 (fun p t =>
    match ownerParcel p with
    | none => badParam c 1 0 t
    | some _ =>
      if owned t then stateError c t
      else match t.sec.ownChal with
        | none => sigError c t
        | some (_, until_) =>
          if until_ ≤ t.clk.c then sigError c t
          else rsaPut false .takeOwnership p c (if rsaWaiting false t < 16 then holdSerial c t else t)) c s

def execTakeOwnership (via : Via) (s : State) : Out := .next (firmware 0x704 3 .proof cmdTakeOwnership via s)

/-- The signature of the ceremony has been checked. -/
def takeOwnershipDone (c : Ctx) (p : List Byte) (ok : Bool) (s0 : State) : State :=
  let s := serialDone s0
  match ownerParcel p with
  | none => sigError c s
  | some (cert, cosign) =>
    if !ok then sigError c s
    else
      let s1 := (enrolSet cert cosign s).onSys fun x => { x with ceremony := true }
      replyOk c [] (raise 102 1 (s1.onSec fun x => { x with ownChal := none }))

/-- OWN_PRESENT_RELEASE (R297). -/
def ownPresentRelease (s : State) : State := s.onSys fun x => { x with ownLow := false }

def execOwnPresentRelease (s : State) : Out := .next (ownPresentRelease s)

/-- OWNER_TRANSFER (R298), inside an envelope. -/
def cmdOwnerTransfer (c : Ctx) (s : State) : State :=
  readParcel 1 (fun p t =>
    match ownerParcel p with
    | none => badParam c 1 0 t
    | some _ => rsaPut false .transfer p c (if rsaWaiting false t < 16 then holdSerial c t else t)) c s

def execOwnerTransfer (via : Via) (s : State) : Out := .next (firmware 0x708 3 .config cmdOwnerTransfer via s)

/-- The new owner's signature has been checked. -/
def transferDone' (c : Ctx) (p : List Byte) (ok : Bool) (s0 : State) : State :=
  let s := serialDone s0
  match ownerParcel p with
  | none => sigError c s
  | some (cert, cosign) => if !ok then sigError c s else replyOk c [] (raise 102 2 (enrolSet cert cosign s))

/-! Rotation, rollback and zeroise (R301, R312, R323). -/

/-- ROTATE (R312). -/
def cmdRotate (c : Ctx) (s : State) : State :=
  if !isLead s || s.sec.keys.isEmpty then stateError c s else replyOk c [] (startRotation s)

def execRotate (via : Via) (s : State) : Out := .next (firmware 0x706 1 .config cmdRotate via s)

/-- ROLLBACK_COMMIT (R301). -/
def cmdRollbackCommit (c : Ctx) (s : State) : State :=
  let n := max s.sec.arb s.sys.fwArb
  replyOk c [n] (s.onSec fun x => { x with arb := n })

def execRollbackCommit (via : Via) (s : State) : Out := .next (firmware 0x707 1 .config cmdRollbackCommit via s)

/-- Segmented sends end because the device leaves the states of R29 (R339). -/
def segLeave (s : State) : State :=
  match s.yard.seg with
  | none => s
  | some g =>
    each (g :: s.yard.segQ) (fun x t => raise 71 0 (reply x.ctx 5 x.sent [] t)) (s.onYard fun d => { d with seg := none, segQ := [] })

/-- The car leaves the train at once and enters STOPPED (R26, R520). What waited to be inserted is dropped, replays to other cars
end, and a test configuration is discarded. -/
def stopNow (s : State) : State :=
  let unloop := fun (b : Bool) (t : State) => if (endOf t b).st == .loopback then endUpdate b (setEnd b .down t) else t
  let s1 := (loseMembership s).onInaug fun x => { x with cold := .off }
  let s2 := s1.onLane fun l => { l with txq := [], copies := [], silenced := false }
  let s3 := s2.onSys fun x => { x with bypassA := .high, bypassB := .high }
  let s4 := s3.onEnds fun e => { e with a := { e.a with prbs := false }, b := { e.b with prbs := false } }
  unloop true (unloop false (setDev .stopped (segLeave (replayLeave s4))))

/-- The keys and rights that a zeroise takes at once, with membership (R26, R323; under BRACED: log 13). -/
def zeroKeys (s : State) : State :=
  let s1 := if ownerStates s.sys.dev then stopNow s else if s.inaug.role == .none then eraseKeys s else loseMembership s
  demote (fun p _ => p != .observe) true (s1.onSec fun x => { x with cak := none, sak := false, txSas := [], rxSas := [], macOpen := false, operators := [] })

/-- ZEROISE (R323): in an envelope, or in RECOVERY with OWN_PRESENT_N low since reset release. Under BRACED the flash erasure
waits, and the command is not judged again when it goes on. That STOPPED is entered at once with the key erasure, which does not
wait, though R27 holds a command that asks for a transition, is a DESIGN CHOICE (log 13). -/
def cmdZeroise (c : Ctx) (s : State) : State :=
  if !c.config && !s.sys.ownLow then privError c s
  else if s.sys.braced then (zeroKeys s).onCmd fun q => { q with busy := some c, held := q.held ++ [{ c with config := true }] }
  else
    let s1 := (zeroKeys s).onSec fun x => { x with enrol := none, enrolBad := false }
    replyOk c [] (raise 102 3 s1)

def execZeroise (via : Via) (s : State) : Out := .next (firmware 0x709 1 .config cmdZeroise via s)

/-! Service tokens (R321, R322). -/

/-- SERVICE_CHALLENGE (R321). -/
def cmdServiceChallenge (c : Ctx) (s : State) : State :=
  let n := freeNat 256 s
  replyOk c (nonceWords n) ((tookFree s).onSec fun x =>
    { x with svcChal := { session := sessKey s c, nonce := n, until_ := s.clk.c + 60000000000 }
                          :: x.svcChal.filter fun y => decide (s.clk.c < y.until_) })

def execServiceChallenge (via : Via) (s : State) : Out :=
  .next (if s.sec.entropyOk then firmware 0x70A 1 .observe cmdServiceChallenge via s else s)

/-- SERVICE_TOKEN (R321): the layout and the target first, then the nonce, which is used up, then the signatures. -/
def cmdServiceToken (c : Ctx) (s : State) : State :=
  readParcel 1 (fun p t =>
    let now := t.clk.c
    if p.length != (if owned t then 816 else 432) then badParam c 2 0 t
    else if part p 0 4 != ascii [0x4B, 0x4E, 0x53, 0x56] || le p 4 2 != 1 || decide (8 ≤ le p 6 2) || le p 8 8 != t.sys.badge then
      badParam c 1 0 t
    else
      let n := be p 16 32
      let t1 := t.onSec fun x => { x with svcChal := x.svcChal.filter fun y => y.nonce != n }
      if t.sec.svcChal.any fun y => y.nonce == n && decide (now < y.until_) then rsaPut false .serviceToken p c t1 else sigError c t1) c s

def execServiceToken (via : Via) (s : State) : Out := .next (firmware 0x70B 3 .proof cmdServiceToken via s)

/-- The debug port opens (R322). -/
def debugOpen (s : State) : State :=
  let s1 := s.onSec fun x => { x with debug := true }
  raise 101 2 (if onTrain s then loseAndSeek s1 else if s.inaug.role == .none then eraseKeys s1 else loseMembership s1)

/-- The signatures of a token have been checked; an owned car checked two (R321). -/
def tokenDone (c : Ctx) (p : List Byte) (ok : Bool) (s0 : State) : State :=
  let s := when' (p.length == 816) (cntSec 7) s0
  if !ok then sigError c s
  else
    let scope := le p 6 2
    let s1 := raise 101 1 (setPriv c .service scope 0 s)
    replyOk c [scope] (when' (natBit scope 0 && !s1.sec.debug) debugOpen s1)

/-! Envelopes (R305). -/

/-- The parameter word that names a command's parcel. -/
def parcelWord (code : Nat) : Option Nat :=
  if [0x006, 0x102, 0x103, 0x107, 0x301, 0x302, 0x304, 0x305, 0x408, 0x605, 0x704, 0x705, 0x708, 0x70B, 0x801, 0x902].contains code then some 1
  else if [0x403, 0x404, 0x405, 0x406, 0x503, 0x702, 0x807, 0xB04, 0xB06].contains code then some 2
  else if code == 0x701 then some 9
  else if code == 0xA01 then some 4
  else none

/-- The command words of an envelope. -/
def envWords (p : List Byte) : List Word := bytesWords (part p 60 64)

/-- The envelope keeps the layout of R305. -/
def envForm (p : List Byte) : Bool :=
  part p 0 4 == ascii [0x4B, 0x4E, 0x45, 0x56] && le p 4 2 == 1 && decide (le p 6 2 < 2) && decide (1 ≤ le p 56 2)
    && decide (le p 56 2 ≤ 16) && le p 58 2 == 0 && ((envWords p).drop (le p 56 2)).all (· == 0)
    && (le p 6 2 == 0 || le p 8 8 == 0)

/-- The first check of R305 that fails, as a status and a detail; the order is R305's, and a broken layout counts with the second. -/
def envCheck (p : List Byte) (ok : Bool) (s : State) : Option (Nat × Nat) :=
  let last := ((enrolled s).map (·.envSeq)).getD 0
  let ws := envWords p
  let hash := be p 24 32
  if !owned s || !ok then some (9, 0)
  else if !envForm p || (le p 6 2 == 0 && le p 8 8 != s.sys.badge) then some (3, 65536)
  else if le p 16 8 ≤ last then some (8, last % 65536)
  else match parcelWord (msgCode ws) with
    | none => if hash == 0 then none else some (12, 0)
    | some i =>
      if loftSize < wd ws i + wd ws (i + 1) then some (12, 0)
      else if !(loftCheck (wd ws i) (wd ws (i + 1)) coreId s).1 then some (12, 1)
      else if shaNat (loftBytes (wd ws i) (wd ws (i + 1)) s) == hash then none
      else some (12, 0)

/-- An envelope is refused. -/
def envRefuse (status detail : Nat) (c : Ctx) (s : State) : State :=
  reply c status detail [] (raise 99 (status * 256 + 2) (cntSec 2 s))

/-- ENVELOPE (R305): the signature is checked by the public unit. -/
def cmdEnvelope (c : Ctx) (s : State) : State :=
  readParcel 1 (fun p t =>
    if p.length != 508 then badParam c 2 0 t
    else if !owned t then envRefuse 9 0 c t
    else rsaPut false .envelope p c (if rsaWaiting false t < 16 then holdSerial c t else t)) c s

def execEnvelope (via : Via) (s : State) : Out := .next (firmware 0x705 3 .proof cmdEnvelope via s)

/-- ENV_SEQ_LAST is written (R305). -/
def envAccept (p : List Byte) (s : State) : State :=
  raise 99 1 (cntSec 1 (s.onSec fun x => { x with enrol := x.enrol.map fun e => sealed s { e with envSeq := le p 16 8 } }))

/-- The command of an accepted envelope: CONFIGURE privilege, its reply under CODE 0x705, and its parcel as the hash check read
it (R305, R389). -/
def envCtx (c : Ctx) (p : List Byte) (s : State) : Ctx :=
  let ws := envWords p
  { c with
    config := true, rcode := 0x705, words := ws
    copy := (parcelWord (msgCode ws)).map fun i => loftBytes (wd ws i) (wd ws (i + 1)) s }

end Sys2Proof.Machine
end

