-- ==== Sys2Proof/Machine/Yard.lean ====
section
/-!
DEFINITION. The yard port: its link, MAC, IP services, datagrams, sessions, segmented sends and records (R330 to R354, R404, R511).
An IPv4 address is its 32-bit number; an IPv6 address is its 128-bit number plus 2^128.
-/

namespace Sys2Proof.Machine

open Sys2Proof

/-! The yard port record (R352). -/

def yMode (s : State) : Nat := bits s.yard.record 0 31 30
def ySteer (s : State) : Bool := bit s.yard.record 0 29
def yMacsec (s : State) : Bool := bit s.yard.record 0 28
def yV6En (s : State) : Bool := bit s.yard.record 0 27
def yRelayEn (s : State) : Bool := bit s.yard.record 0 26
def yIp4 (s : State) : Nat := wd s.yard.record 1
def yGateway (s : State) : Nat := wd s.yard.record 3
def ySessPort (s : State) : Nat := bits s.yard.record 8 15 0
def yRelayPeer (s : State) : Nat := wd64 s.yard.record 9
/-- An IPv6 address in four words, first bytes first. -/
def ip6Of (r : List Word) (i : Nat) : Nat := 2 ^ 128 + ((wd r i * 2 ^ 32 + wd r (i + 1)) * 2 ^ 32 + wd r (i + 2)) * 2 ^ 32 + wd r (i + 3)
def yIp6 (s : State) : Nat := ip6Of s.yard.record 4
/-- The MAC address in use (R333). -/
def yMac (s : State) : Nat :=
  if bit s.yard.record 12 31 then wd s.yard.record 11 + 2 ^ 32 * bits s.yard.record 12 15 0 else s.sys.mac
/-- The link-local address formed from the MAC address (R340). -/
def yLinkLocal (s : State) : Nat :=
  let m := yMac s
  let top := m / 2 ^ 24
  2 ^ 128 + 0xFE80 * 2 ^ 112 + (top + (if natBit m 41 then 0 else 2 ^ 17) - (if natBit m 41 then 2 ^ 17 else 0)) * 2 ^ 40
    + 0xFFFE * 2 ^ 24 + m % 2 ^ 24
def isV6 (a : Nat) : Bool := decide (2 ^ 128 ≤ a)
/-- BUF_SIZE of a receive queue in bytes, and NDESC. -/
def yBuf (s : State) (q : Nat) : Nat := bits s.yard.record (14 + q) 15 8 * 64
/-- The tag settings of a transmit queue; 6 and 7 take those of queue 0. -/
def txTag (s : State) (q : Nat) : Option Nat :=
  let i := 22 + (if q < 6 then q else 0)
  if bit s.yard.record i 31 then
    some (bits s.yard.record i 30 28 * 8192 + bits s.yard.record i 27 27 * 4096 + bits s.yard.record i 26 15)
  else none

/-- The firmware or the RECOVERY loader serves the yard port. -/
def yardServed (s : State) : Bool := fwRuns s || s.sys.dev == .recovery

/-! The link (R331, R511). -/

/-- The link is held down. -/
def yardHeld (s : State) : Bool := yMode s == 0 || s.yard.modAbs || s.yard.los

/-- The SAK goes and the controlled port closes (R289, R324). -/
def macClose (s : State) : State :=
  let s1 := s.onSec fun x => { x with sak := false, txSas := [], rxSas := [], macOpen := false }
  if s.sec.macOpen then raise 67 2 s1 else s1

/-- The link goes down; a frame in progress is lost with its claim. -/
def linkDown (s : State) : State :=
  let s1 := s.onYard fun d => { d with link := false, pcs := false, rx := none }
  if s.yard.link then macClose (raise 64 2 s1) else s1

/-- YARD_TX_DISABLE follows the mode and the pins (R331). -/
def txPin (s : State) : State :=
  s.onYard fun d => { d with txDisable := if s.sys.dev == .off || s.sys.dev == .reset then .hiZ else if yardHeld s then .high else .low }

/-- YARD_LINK_CHANGE (R331): up after lock and 100 ms of quiet pins, or down. -/
def yardLinkChange (up : Bool) (s : State) : State :=
  if !up then linkDown s
  else if s.yard.link || yardHeld s || !yardServed s || decide (s.clk.c < s.yard.quietAt + 100000000) then s
  else raise 64 1 (s.onYard fun d => { d with link := true, pcs := true })

def execYardLinkChange (up : Bool) (s : State) : Out := .next (yardLinkChange up s)

/-- YARD_MODULE_PIN_CHANGE (R511): the levels accepted after 1 ms. -/
def yardModulePinChange (modAbs los : Bool) (s : State) : State :=
  if modAbs == s.yard.modAbs && los == s.yard.los then s
  else
    let s1 := s.onYard fun d => { d with modAbs := modAbs, los := los, quietAt := s.clk.c }
    let s2 := when' (modAbs != s.yard.modAbs) (raise 65 (if modAbs then 2 else 1)) s1
    let s3 := txPin (when' (los != s.yard.los) (raise 65 (if los then 3 else 4)) s2)
    if yardHeld s3 then linkDown s3 else s3

def execYardModulePinChange (modAbs los : Bool) (s : State) : Out := .next (yardModulePinChange modAbs los s)

/-! MACsec (R324, R353). -/

/-- The SA that a new SAK brings: the next association number, and packet numbers from 1 on (IEEE 802.1AE; log 23). -/
def newSa (key : Nat) (old : List MacSa) : List MacSa :=
  { an := (match old with | a :: _ => (a.an + 1) % 4 | [] => 0), key := key, pn := 1 } :: old.take 1

/-- MACSEC_SAK_INSTALL (R324): MKA, with the CAK of the recipe. The SAK, the cipher suite, the confidentiality offset and the replay
window are what MKA agrees on: free values (log 23). The channels keep the SA before it for the rekey. -/
def macsecSakInstall (s : State) : State :=
  if fwRuns s && s.yard.link && yMacsec s && s.sec.cak.isSome then
    let v := freeNat 320 s
    raise 67 1 ((tookFree s).onSec fun x =>
      { x with
        sak := true, macOpen := true, macXpn := natBit v 256, macOffset := [0, 30, 50].getD (natBits v 264 257 % 3) 0
        macWindow := natBits v 319 265 % (2 ^ 30 + 1), txSas := newSa (v % 2 ^ 256) x.txSas, rxSas := newSa (v % 2 ^ 256) x.rxSas })
  else s

def execMacsecSakInstall (s : State) : Out := .next (macsecSakInstall s)

/-- MKA_PEER_LOST (R353). -/
def mkaPeerLost (s : State) : State := if s.sec.macOpen then macClose (raise 67 3 s) else s

def execMkaPeerLost (s : State) : Out := .next (mkaPeerLost s)

/-- EtherType of EAPOL, which alone passes the uncontrolled port (R324). -/
def etEapol : Nat := 0x888E

/-! The MAC, receive side (R332 to R337). -/

/-- The tag of a frame and the EtherType behind it; hdr runs to the EtherType (R335). -/
def hdrTci (hdr : List Byte) : Option Nat := if be hdr 12 2 == 0x8100 then some (be hdr 14 2) else none
def hdrType (hdr : List Byte) : Nat := if be hdr 12 2 == 0x8100 then be hdr 16 2 else be hdr 12 2

/-- The first steering rule that matches: DROP and QUEUE (R334). -/
def steerOf (s : State) (tci : Option Nat) (etype : Nat) : Option (Bool × Nat) :=
  let vid := (tci.getD 0) % 4096
  let pcp := (tci.getD 0) / 8192
  (s.yard.steer.find? fun r => bit r 0 31 && (!bit r 0 30 || bits r 0 23 12 == vid) && (!bit r 0 29 || bits r 0 11 9 == pcp)
    && (!bit r 0 28 || bits r 1 31 16 == etype)).map fun r => (bit r 0 27, bits r 0 26 24)

/-- The receive queue of a frame whose address is accepted; `none` when it is filtered (R333, R334). -/
def rxQueue (s : State) (hdr : List Byte) : Option Nat :=
  let dst := be hdr 0 6
  let group := natBit (be hdr 0 1) 0
  let h := (crc32 (hdr.take 6)).toNat / 2 ^ 23
  let hit := dst == yMac s || dst == 0xFFFFFFFFFFFF || (group && (ySteer s || bit s.yard.hash (h / 32) (h % 32)))
  if !hit then none
  else if ySteer s then
    match steerOf s (hdrTci hdr) (hdrType hdr) with
    | none => some 0
    | some (drop, q) => if drop then none else some q
  else some ((hdrTci hdr).getD 0 / 8192)

/-! The receive rings (R336, R337): in the frame-queue region the buffers of the queues stand first, then their descriptors, each in
order (DESIGN CHOICE, log 24). -/

/-- First byte of buffer i of receive queue q. -/
def rxBuf (s : State) (q i : Nat) : Nat :=
  regionBase s 1 + ((List.range q).map fun k => rxNdesc s.yard.record k * yBuf s k).sum + i * yBuf s q

/-- First byte of descriptor i of receive ring q. -/
def rxDescAt (s : State) (q i : Nat) : Nat :=
  regionBase s 1 + ((List.range 8).map fun k => rxNdesc s.yard.record k * yBuf s k).sum
    + 16 * (((List.range q).map fun k => rxNdesc s.yard.record k).sum + i)

/-- Word k of a descriptor, as it stands. -/
def rxWord (s : State) (q i k : Nat) : Nat := le (loftBytes (rxDescAt s q i + 4 * k) 4 s) 0 4

/-- Descriptor i of receive ring q (R337). -/
def rxDescriptor (s : State) (q i : Nat) : List Nat := (List.range 4).map (rxWord s q i)

/-- OWN: the descriptor is free for the MAC. -/
def rxFree (s : State) (q i : Nat) : Bool := natBit (rxWord s q i 1) 31

/-- The k-th descriptor from the next one of a ring on. -/
def rxIdx (s : State) (q k : Nat) : Nat := (s.yard.rings.getD q 0 + k) % rxNdesc s.yard.record q

/-- The next n descriptors of a ring are free (R336). -/
def rxClaim (s : State) (q n : Nat) : Bool :=
  decide (n ≤ rxNdesc s.yard.record q) && (List.range n).all fun k => rxFree s q (rxIdx s q k)

/-- The rings begin anew: every descriptor points to its buffer and is free. -/
def rxInit (s : State) : State :=
  each (List.range 8) (fun q t => each (List.range (rxNdesc s.yard.record q)) (fun i =>
    loftWrite (rxDescAt s q i) ([rxBuf s q i, 2 ^ 31, 0, 0].flatMap (leBytes 4)) coreId) t)
    (s.onYard fun d => { d with rx := none, inbox := [], rings := List.replicate 8 0 })

/-- Descriptor k of those that hold a frame (R337): ADDR, then FIRST, LAST, TAGGED, QUEUE and LEN with OWN cleared, the stamp, TCI. -/
def rxDescOf (s : State) (f : YFrame) (k : Nat) : List Nat :=
  let size := yBuf s f.queue
  [rxWord s f.queue (rxIdx s f.queue k) 0,
   b2n (k == 0) * 2 ^ 30 + b2n (k + 1 == f.used) * 2 ^ 29 + b2n f.tagged * 2 ^ 28 + f.queue * 2 ^ 25 + min size (f.bytes.length - k * size),
   if k == 0 then f.stamp.s32 else 0,
   (if k == 0 then f.stamp.ep * 2 ^ 24 + b2n f.stamp.sync * 2 ^ 23 else 0) + f.tci]

/-- The bytes of a frame go to the buffers of the next descriptors of its ring. -/
def rxBytes (f : YFrame) (s : State) : State :=
  let size := yBuf s f.queue
  each (List.range f.used) (fun k => loftWrite (rxWord s f.queue (rxIdx s f.queue k) 0) ((f.bytes.drop (k * size)).take size) 0) s

/-- A whole frame is handed over: its descriptors are written, and the ring goes on behind them. -/
def rxHand (f : YFrame) (s : State) : State :=
  (each (List.range f.used) (fun k =>
    loftWrite (rxDescAt s f.queue (rxIdx s f.queue k)) ((rxDescOf s f k).flatMap (leBytes 4)) 0) s).onYard fun d =>
      { d with rings := d.rings.modify f.queue fun n => (n + f.used) % rxNdesc d.record f.queue }

/-- A frame's descriptors return to the ring. -/
def ringBack (f : YFrame) (s : State) : State :=
  each (List.range f.used) (fun k =>
    loftWrite (rxDescAt s f.queue ((f.first + k) % rxNdesc s.yard.record f.queue) + 4) (leBytes 4 (2 ^ 31)) coreId) s

/-- YARD_FRAME_START (R330, R332, R336): the frame's first bytes up to the EtherType, and its length with the FCS. A MAC control frame
is judged after the length (log 24). -/
def yardFrameStart (hdr : List Byte) (len : Nat) (s0 : State) : State :=
  if !s0.yard.link || s0.yard.rx.isSome then s0
  else
    let s := noteStamp s0
    if len < 64 then cntYard 1 s
    else if yardMaxlen s + (if (hdrTci hdr).isSome then 4 else 0) < len then cntYard 2 s
    else if hdrType hdr == 0x8808 then cntYard 6 s
    else match rxQueue s hdr with
      | none => cntYard 3 s
      | some q =>
        let n := if yBuf s q == 0 then 0 else (yardMaxlen s - 4 + yBuf s q - 1) / yBuf s q
        if !rxClaim s q n then raiseFirst 6600 66 (q * 256) (cntYard 4 s)
        else s.onYard fun d =>
          { d with
            rx := some { queue := q, claimed := n, stamp := stampNow s, tagged := (hdrTci hdr).isSome, tci := (hdrTci hdr).getD 0,
                         hdr := hdr, len := len } }

def execYardFrameStart (hdr : List Byte) (len : Nat) (s : State) : Out := .next (yardFrameStart hdr len s)

/-- The frame without its outer tag. -/
def untag (hdr rest : List Byte) : List Byte :=
  if (hdrTci hdr).isSome then hdr.take 12 ++ hdr.drop 16 ++ rest else hdr ++ rest

/-! IP (R340). -/

/-- Sum of 16-bit words. -/
def sum16 : List Byte → Nat
  | a :: b :: r => a.toNat * 256 + b.toNat + sum16 r
  | [a] => a.toNat * 256
  | [] => 0

/-- Folded to 16 bits. -/
def fold16 (n : Nat) : Nat := let m := n % 65536 + n / 65536; m % 65536 + m / 65536

/-- The internet checksum. -/
def csum (p : List Byte) : Nat := 65535 - fold16 (sum16 p)

/-- An address as bytes. -/
def addrBytes (a : Nat) : List Byte := if isV6 a then beBytes 16 (a - 2 ^ 128) else beBytes 4 a

/-- The pseudo-header of a transport checksum. -/
def pseudo (src dst proto len : Nat) : List Byte :=
  if isV6 dst then addrBytes src ++ addrBytes dst ++ beBytes 4 len ++ [0, 0, 0, byteOf proto]
  else addrBytes src ++ addrBytes dst ++ [0, byteOf proto] ++ beBytes 2 len

/-- A received IP packet. -/
structure Ip where
  proto : Nat
  src   : Nat
  dst   : Nat
  frag  : Bool
  hdr   : List Byte
  data  : List Byte
deriving DecidableEq, Repr

/-- The protocol behind the extension headers of an IPv6 packet that end at its destination or at a hop, and what follows: hop-by-hop
options, routing and destination options; a fragment header (44) ends the walk. -/
def ip6Skip : Nat → Nat → List Byte → Nat × List Byte
  | 0, nh, p => (nh, p)
  | k + 1, nh, p => if nh == 0 || nh == 43 || nh == 60 then ip6Skip k (be p 0 1) (p.drop (8 * (1 + be p 1 1))) else (nh, p)

/-- The IP packet in a frame. -/
def ipOf (b : List Byte) : Option Ip :=
  let p := b.drop 14
  match be b 12 2 with
  | 0x0800 =>
    let n := be p 0 1 % 16 * 4
    let total := be p 2 2
    if be p 0 1 / 16 != 4 || n < 20 || total < n || p.length < total || csum (p.take n) != 0 then none
    else some { proto := be p 9 1, src := be p 12 4, dst := be p 16 4, frag := be p 6 2 % 16384 != 0, hdr := p.take n,
                data := (p.take total).drop n }
  | 0x86DD =>
    let len := be p 4 2
    if be p 0 1 / 16 != 6 || p.length < 40 + len then none
    else
      let body := (p.drop 40).take len
      let x := ip6Skip body.length (be p 6 1) body
      some { proto := x.1, src := 2 ^ 128 + be p 8 16, dst := 2 ^ 128 + be p 24 16, frag := x.1 == 44, hdr := p.take 40, data := x.2 }
  | _ => none

/-- A unicast address of this car on the Yard Ethernet. -/
def ownIp (s : State) (a : Nat) : Bool :=
  if isV6 a then (yV6En s && a == yIp6 s) || a == yLinkLocal s else a == yIp4 s && a != 0

/-- A received UDP datagram. -/
structure Udp where
  src   : Nat
  dst   : Nat
  sport : Nat
  dport : Nat
  data  : List Byte
deriving DecidableEq, Repr

/-- The UDP datagram in a frame. -/
def udpOf (b : List Byte) : Option Udp :=
  match ipOf b with
  | none => none
  | some i =>
    let n := be i.data 4 2
    if i.frag || i.proto != 17 || n < 8 || i.data.length < n then none
    else if (be i.data 6 2 != 0 || isV6 i.dst) && fold16 (sum16 (pseudo i.src i.dst 17 n ++ i.data.take n)) != 65535 then none
    else some { src := i.src, dst := i.dst, sport := be i.data 0 2, dport := be i.data 2 2, data := (i.data.take n).drop 8 }

/-- The PTP message in a frame, over any of its transports (R150). -/
def ptpOf (b : List Byte) : Option (List Byte) :=
  if be b 12 2 == 0x88F7 then some (b.drop 14)
  else match udpOf b with
    | some u => if u.dport == 319 || u.dport == 320 then some u.data else none
    | none => none

/-- A protected frame is accepted: its ICV holds under an SA that is installed, and its packet number lies within the replay window
(R324). -/
def macAccepts (s : State) (m : MacTag) : Bool :=
  s.sec.macOpen && m.icvOk && s.sec.rxSas.any fun a => a.an == m.an && decide (a.pn ≤ m.pn + s.sec.macWindow)

/-- The received frame may pass to the firmware (R324). -/
def portPasses (s : State) (etype : Nat) (m : MacTag) : Bool := !yMacsec s || etype == etEapol || macAccepts s m

/-- The receive SA goes on behind the packet number that it accepted. -/
def macTook (etype : Nat) (m : MacTag) (s : State) : State :=
  if !yMacsec s || etype == etEapol then s
  else s.onSec fun x => { x with rxSas := x.rxSas.map fun a => if a.an == m.an then { a with pn := max a.pn (m.pn + 1) } else a }

/-- A received PTP message is relayed to the peer's car (R348). -/
def relayOut (f : YFrame) (s : State) : State :=
  match ptpOf f.bytes, carOfBadge s (yRelayPeer s) with
  | some m, some n =>
    if yRelayEn s && admitted s then
      ctlSend (s.inaug.train * 64 + n) .plain
        (ctlPayload 0x14 0 0 0 0 (beBytes 4 f.stamp.s32 ++ [byteOf f.stamp.ep, 0, 0, 0] ++ m)) s
    else s
  | _, _ => s

/-- A received frame goes to the firmware, which discards a fragment and relays PTP (R340, R348), or in its place to stream channel 57
for a queue of YARD_RXQ, and its descriptors return (R421, R434). -/
def yardHand (f : YFrame) (s : State) : State :=
  if bit s.strm.cfg 3 f.queue then
    ringBack f (strmPush { ch := 57, seq := 0, param := if f.tagged then f.tci else 0, payload := f.bytes } s)
  else if ((ipOf f.bytes).map (·.frag)).getD false then cntYard 7 (ringBack f s)
  else relayOut f (s.onYard fun d => { d with inbox := d.inbox ++ [f] })

/-- The frame whose last byte has come: without its tag, and how many descriptors of its ring it fills (R335, R337). -/
def tailFrame (r : YRx) (rest : List Byte) (s : State) : YFrame :=
  let b := untag r.hdr rest
  { queue := r.queue, used := if yBuf s r.queue == 0 then 0 else (b.length + yBuf s r.queue - 1) / yBuf s r.queue, stamp := r.stamp
    tagged := r.tagged, tci := r.tci, bytes := b, first := rxIdx s r.queue 0, seen := [] }

/-- YARD_FRAME_TAIL (R332, R336, R340): the rest of the frame, its FCS, and what MACsec finds of it. -/
def yardFrameTail (rest : List Byte) (fcsOk : Bool) (m : MacTag) (s : State) : State :=
  match s.yard.rx with
  | none => s
  | some r =>
    let s1 := s.onYard fun d => { d with rx := none }
    let f := tailFrame r rest s
    if !fcsOk then cntYard 5 (rxBytes f s1)
    else if !portPasses s (hdrType r.hdr) m then s1
    else yardHand f (rxHand f (rxBytes f (cntYard 0 (macTook (hdrType r.hdr) m s1))))

def execYardFrameTail (rest : List Byte) (fcsOk : Bool) (icvOk : MacTag) (s : State) : Out := .next (yardFrameTail rest fcsOk icvOk s)

/-- The received frame that is next: the first in the highest queue, whatever service it is for (R335). -/
def headYard (s : State) : Option YFrame :=
  s.yard.inbox.foldl (fun b x => match b with
    | none => some x
    | some y => if y.queue < x.queue then some x else b) none

/-- The frame that a row acts on: the next one, if it meets the row's condition. -/
def firstYard (p : YFrame → Bool) (s : State) : Option YFrame := (headYard s).filter p

/-- A received frame has been taken, and its descriptors have returned. -/
def takenYard (f : YFrame) (s : State) : State := ringBack f (s.onYard fun d => { d with inbox := d.inbox.erase f })

/-- The firmware takes a frame that satisfies a condition (R335). -/
def yardTake (p : YFrame → Bool) (f : YFrame → State → State) (s : State) : State :=
  match firstYard p s with
  | none => s
  | some x => f x (takenYard x s)

/-! Sending (R338, R340). -/

/-- A frame from its destination address on. -/
def ethFrame (s : State) (dst etype : Nat) (p : List Byte) : List Byte := beBytes 6 dst ++ beBytes 6 (yMac s) ++ beBytes 2 etype ++ p

/-- The TTL or hop limit to use; 0 stands for that of the yard port record, and 0 there for 64. -/
def hopOf (s : State) (h : Nat) : Nat := if h != 0 then h else if bits s.yard.record 8 23 16 != 0 then bits s.yard.record 8 23 16 else 64

/-- The car's address towards a destination. -/
def srcFor (s : State) (dst : Nat) : Nat :=
  if !isV6 dst then yIp4 s
  else if yV6En s && dst / 2 ^ 118 != 2 ^ 10 + 0x3FA && dst / 2 ^ 112 != 2 ^ 16 + 0xFF02 then yIp6 s else yLinkLocal s

/-- An IP packet: header and data (log 24: identification 0, no flags). -/
def ipPacket (src dst proto hop id : Nat) (p : List Byte) : List Byte :=
  if isV6 dst then [0x60, 0, 0, 0] ++ beBytes 2 p.length ++ [byteOf proto, byteOf hop] ++ addrBytes src ++ addrBytes dst ++ p
  else
    let h := fun c => [0x45, 0] ++ beBytes 2 (20 + p.length) ++ beBytes 2 id ++ [0, 0, byteOf hop, byteOf proto] ++ beBytes 2 c
      ++ addrBytes src ++ addrBytes dst
    h (csum (h 0)) ++ p

/-- A UDP datagram, with or without a checksum, computed over `sumData` in place of the data. -/
def udpSummed (src dst sport dport : Nat) (withSum : Bool) (sumData p : List Byte) : List Byte :=
  let n := 8 + p.length
  let h := fun c => beBytes 2 sport ++ beBytes 2 dport ++ beBytes 2 n ++ beBytes 2 c
  let c := csum (pseudo src dst 17 n ++ h 0 ++ sumData)
  h (if withSum then (if c == 0 then 65535 else c) else 0) ++ p

/-- A UDP datagram, with or without a checksum. -/
def udpPacket (src dst sport dport : Nat) (withSum : Bool) (p : List Byte) : List Byte :=
  udpSummed src dst sport dport withSum p p

/-- Where a packet for an address goes first (R340). -/
inductive Hop where
  | mac (m : Nat)
  | ask (a : Nat)
  | none
deriving DecidableEq, Repr

/-- Two addresses share a prefix. -/
def samePrefix (w p a b : Nat) : Bool := a / 2 ^ (w - p) == b / 2 ^ (w - p)

/-- A resolved address, or one to be asked for. -/
def hopVia (s : State) (a : Nat) : Hop :=
  match s.yard.arp.find? fun e => e.1 == a && decide (s.clk.c < e.2.2) with
  | some e => .mac e.2.1
  | none => .ask a

/-- The next hop towards an address. -/
def nextHop (s : State) (a : Nat) : Hop :=
  if isV6 a then
    if a / 2 ^ 120 == 2 ^ 8 + 0xFF then .mac (0x3333 * 2 ^ 32 + a % 2 ^ 32)
    else if a / 2 ^ 118 == 2 ^ 10 + 0x3FA || (yV6En s && samePrefix 128 (bits s.yard.record 8 31 24) a (yIp6 s)) then hopVia s a
    else match s.yard.router6 with | some r => hopVia s r | none => .none
  else if a == 0xFFFFFFFF then .mac 0xFFFFFFFFFFFF
  else if a / 2 ^ 28 == 14 then .mac (0x01005E * 2 ^ 24 + a % 2 ^ 23)
  else if samePrefix 32 (bits s.yard.record 2 31 24) a (yIp4 s) then hopVia s a
  else if yGateway s == 0 then .none else hopVia s (yGateway s)

/-- An ICMPv6 message with its checksum. -/
def icmp6 (src dst : Nat) (p : List Byte) : List Byte :=
  p.take 2 ++ beBytes 2 (csum (pseudo src dst 58 p.length ++ p)) ++ p.drop 4

/-- An ICMP or IGMP message with its checksum. -/
def icmp4 (p : List Byte) : List Byte := p.take 2 ++ beBytes 2 (csum p) ++ p.drop 4

/-- The request that resolves a next hop (R340). -/
def askFrame (s : State) (a : Nat) : List Byte :=
  if isV6 a then
    let dst := 2 ^ 128 + 0xFF0200000000000000000001FF000000 + a % 2 ^ 24
    let src := srcFor s a
    ethFrame s (0x3333FF * 2 ^ 24 + a % 2 ^ 24) 0x86DD (ipPacket src dst 58 255 0
      (icmp6 src dst ([135, 0, 0, 0, 0, 0, 0, 0] ++ addrBytes a ++ [1, 1] ++ beBytes 6 (yMac s))))
  else ethFrame s 0xFFFFFFFFFFFF 0x0806 ([0, 1, 8, 0, 6, 4, 0, 1] ++ beBytes 6 (yMac s) ++ beBytes 4 (yIp4 s) ++ beBytes 6 0 ++ beBytes 4 a)

/-- A whole frame waits in a transmit queue. -/
def rawSend (q : Nat) (b : List Byte) (s : State) : State :=
  s.onYard fun d => { d with txq := d.txq ++ [{ queue := q, udp := none, sport := 0, hop := 0, bytes := b, timed := none, tsub := 0, relayed := none }] }

/-- A UDP datagram waits in a transmit queue. -/
def udpSend (q dst sport dport hop : Nat) (p : List Byte) (s : State) : State :=
  s.onYard fun d => { d with txq := d.txq ++ [{ queue := q, udp := some (dst, dport), sport := sport, hop := hop, bytes := p,
                                                timed := none, tsub := 0, relayed := none }] }

/-- A message that adds into correctionField, at byte 8 of a PTP message, in flight (R153, R154). -/
def addCorr (corr : Int) (oneStep : Bool) (m : List Byte) : List Byte :=
  let m1 := m.take 8 ++ beBytes 8 (tc 64 (sx 64 (be m 8 8) + corr)) ++ m.drop 16
  if oneStep then m1.take 6 ++ [byteOf (be m1 6 1 - b2n (natBit (be m1 6 1) 1) * 2)] ++ m1.drop 7 else m1

/-- A frame leaves: tag, padding, and TX_OK. -/
def macSend (q : Nat) (b : List Byte) (oneStep : Bool) (corr : Int) (s : State) : State :=
  let t := match txTag s q with
    | some tci => b.take 12 ++ [0x81, 0x00] ++ beBytes 2 tci ++ b.drop 12
    | none => b
  cntYard 8 (s.onYard fun d => { d with lastTx := some { queue := q, bytes := padTo 60 t, oneStep := oneStep, corr := corr } })

/-- The 2-byte checksum-compensation trailer: with it a message that was changed in flight sums to what the firmware's message
with a zero trailer sums to (R153). -/
def ptpTrailer (before after : List Byte) : List Byte :=
  let v := fold16 (fold16 (sum16 before) + (65535 - fold16 (sum16 after)))
  if after.length % 2 == 0 then beBytes 2 v else leBytes 2 v

/-- The frame of a UDP message to a MAC address; `m` is the message as it leaves. A PTP message over Annex C goes without a UDP
checksum; over Annex D the firmware appends the trailer and the device writes it (R153). -/
def udpFrame (s : State) (x : YTx) (dst dport mac : Nat) (m : List Byte) : List Byte :=
  let src := srcFor s dst
  let ptp := x.timed.isSome || x.relayed.isSome
  let data := if ptp && isV6 dst then udpSummed src dst x.sport dport true (x.bytes ++ [0, 0]) (m ++ ptpTrailer x.bytes m)
    else udpPacket src dst x.sport dport (!ptp) m
  ethFrame s mac (if isV6 dst then 0x86DD else 0x0800) (ipPacket src dst 17 (hopOf s x.hop) 0 data)

/-- PLANT with code 3, for the first overflow in a second (R158). -/
def tsqOverflow (s : State) : State :=
  let sec := trainTime s / 1000000000
  if s.ev.firsts.contains (7803, sec) then s
  else raise 78 3 (s.onEv fun v => { v with firsts := (7803, sec) :: v.firsts.filter fun x => x.1 != 7803 })

/-- What R152 to R154 do to a timed or relayed message as it starts, and how far they changed it. -/
def timedMsg (x : YTx) (m : List Byte) (s : State) : List Byte × Bool × Int × State :=
  let now := trainTime s
  match x.relayed with
  | some t =>
    let c : Int := ((now : Int) - (t : Int)) * 65536
    (addCorr c false m, false, c, cntTime 12 (noteStamp s))
  | none =>
    match x.timed with
    | none => (m, false, 0, s)
    | some id =>
      if s.teth.tsq.length < 32 then (m, false, 0, (noteStamp s).onTeth fun t => { t with tsq := t.tsq ++ [(id, now)] })
      else
        let c : Int := ((now : Int) - (x.tsub : Int)) * 65536
        (addCorr c true m, true, c, tsqOverflow (cntTime 11 (noteStamp s)))

/-- Some bytes of a list replaced. -/
def patch (off : Nat) (v p : List Byte) : List Byte := p.take off ++ v ++ p.drop (off + v.length)

/-- A train time as a PTP timestamp: 48 bits of seconds and 32 of nanoseconds. -/
def ptpTime (t : Nat) : List Byte := beBytes 6 (t / 1000000000) ++ beBytes 4 (t % 1000000000)

/-- A two-step Pdelay_Resp has left: the firmware reads the entry of its stamp and sends the Pdelay_Resp_Follow_Up with it (R150,
R152; log 24). -/
def pdelayFollow (x : YTx) (s : State) : State :=
  let m := match x.udp with | some _ => x.bytes | none => x.bytes.drop 14
  match x.timed, s.teth.tsq.getLast? with
  | some id, some e =>
    if be m 0 1 % 16 == 3 && e.1 == id then
      let f := patch 34 (ptpTime e.2) (patch 8 (beBytes 8 0) (patch 6 [0, 0] (patch 0 [0x0A] m)))
      (s.onTeth fun t => { t with tsq := t.tsq.dropLast }).onYard fun d =>
        { d with txq := d.txq ++ [{ x with udp := x.udp.map fun u => (u.1, 320), sport := 320, timed := none,
                                           bytes := match x.udp with | some _ => f | none => x.bytes.take 14 ++ f }] }
    else s
  | _, _ => s

/-- A waiting message leaves, or its next hop is asked for. -/
def sendOne (x : YTx) (s : State) : State :=
  match x.udp with
  | none =>
    let r := timedMsg x (x.bytes.drop 14) s
    when' (!r.2.1) (pdelayFollow x) (macSend x.queue (x.bytes.take 14 ++ r.1) r.2.1 r.2.2.1 r.2.2.2)
  | some (dst, dport) =>
    match nextHop s dst with
    | .mac m =>
      let r := timedMsg x x.bytes s
      when' (!r.2.1) (pdelayFollow x) (macSend x.queue (udpFrame s x dst dport m r.1) r.2.1 r.2.2.1 r.2.2.2)
    | .ask a => macSend x.queue (askFrame s a) false 0 (s.onYard fun d => { d with txq := d.txq ++ [x] })
    | .none => s

/-! Segmented sends (R339). -/

/-- Length of the headers of a segmented send: Ethernet, IP and UDP; `none` when they are not those of one UDP datagram. -/
def segHdr (p : List Byte) : Option Nat :=
  match be p 12 2 with
  | 0x0800 =>
    let n := be p 14 1 % 16 * 4
    if be p 14 1 / 16 == 4 && decide (20 ≤ n) && be p 23 1 == 17 && decide (14 + n + 8 ≤ p.length) then some (14 + n + 8) else none
  | 0x86DD => if be p 14 1 / 16 == 6 && be p 20 1 == 17 && decide (62 ≤ p.length) then some 62 else none
  | _ => none

/-- One segment: lengths, identification and checksums set. -/
def segFrame (h : List Byte) (id : Nat) (data : List Byte) : List Byte :=
  let v6 := be h 12 2 == 0x86DD
  let ipLen := h.length - 14 - 8
  let ip := (h.drop 14).take ipLen
  let src := if v6 then 2 ^ 128 + be ip 8 16 else be ip 12 4
  let dst := if v6 then 2 ^ 128 + be ip 24 16 else be ip 16 4
  let udp := udpPacket src dst (be h (14 + ipLen) 2) (be h (14 + ipLen + 2) 2) true data
  let ip1 := if v6 then patch 4 (beBytes 2 udp.length) ip
    else
      let a := patch 10 [0, 0] (patch 4 (beBytes 2 id) (patch 2 (beBytes 2 (ipLen + udp.length)) ip))
      patch 10 (beBytes 2 (csum a)) a
  h.take 14 ++ ip1 ++ udp

/-- One segment leaves, and with the last one the command replies. -/
def segSend (g : SegSend) (s : State) : State :=
  let s1 := cntYard 9 (macSend g.queue (segFrame g.hdr g.ipId (g.left.take g.mss)) false 0 s)
  let rest := g.left.drop g.mss
  if rest.isEmpty then replyOk g.ctx [g.sent + 1] (s1.onYard fun d => { d with seg := d.segQ.head?, segQ := d.segQ.tail })
  else s1.onYard fun d => { d with seg := some { g with left := rest, sent := g.sent + 1, ipId := (g.ipId + 1) % 65536 } }

/-- A segmented send begins, or waits for those before it. -/
def segStart (g : SegSend) (s : State) : State :=
  s.onYard fun d => if d.seg.isSome then { d with segQ := d.segQ ++ [g] } else { d with seg := some g }

/-- SEGMENT_SEND (R339): a datagram of up to 4 MiB, UDP header and all. The parcel begins with the Ethernet header (log 24). -/
def cmdSegmentSend (c : Ctx) (s : State) : State :=
  let w := wd c.words 1
  let mss := w / 65536
  if w % 65536 ≥ 6 || mss < 256 || 8952 < mss then badParam c 1 0 s
  else readParcel 2 (fun p t =>
    match segHdr p with
    | none => badParam c 2 0 t
    | some n =>
      if 4194304 < p.length - (n - 8) then badParam c 3 0 t
      else if !(s.sys.dev == .startup || s.sys.dev == .test || s.sys.dev == .recovery) then stateError c t
      else segStart { ctx := c, mss := mss, queue := w % 8, hdr := p.take n, left := p.drop n, sent := 0, ipId := be p 18 2 } t) c s

def execSegmentSend (via : Via) (s : State) : Out :=
  .next (firmware 0x807 4 (if s.sys.dev == .recovery then .observe else .operate) cmdSegmentSend via s)

/-- The next frame to leave: of those that wait, the first in the highest queue (R338). -/
def firstYardOut (s : State) : Option YTx :=
  s.yard.txq.foldl (fun b x => match b with
    | none => some x
    | some y => if y.queue < x.queue then some x else b) none

/-- A frame can leave: in clear, or under a transmit SA whose packet numbers are not used up (R324; log 23). -/
def macReady (s : State) : Bool :=
  !yMacsec s || (s.sec.macOpen && (match s.sec.txSas with | a :: _ => decide (a.pn < 2 ^ (if s.sec.macXpn then 64 else 32)) | [] => false))

/-- A protected frame takes the next packet number of the newest transmit SA. -/
def macSent (s : State) : State :=
  if yMacsec s then s.onSec fun x => { x with txSas := match x.txSas with | a :: r => { a with pn := a.pn + 1 } :: r | [] => [] } else s

/-- YARD_FRAME_TRANSMIT (R338): the next frame by strict priority; a segmented send takes its turn behind the frames of its queue. -/
def yardFrameTransmit (s : State) : State :=
  if !s.yard.link || !yardServed s || !macReady s then s
  else
    match firstYardOut s, s.yard.seg with
    | some x, some g =>
      if x.queue < g.queue then segSend g (macSent s) else sendOne x (macSent (s.onYard fun d => { d with txq := d.txq.erase x }))
    | some x, none => sendOne x (macSent (s.onYard fun d => { d with txq := d.txq.erase x }))
    | none, some g => segSend g (macSent s)
    | none, none => s

def execYardFrameTransmit (s : State) : Out := .next (yardFrameTransmit s)

/-! IP services (R340). Their frames leave on queue 0 (log 24). -/

/-- A resolved address is cached: 64 entries a family, 60 s each. -/
def arpLearn (a mac : Nat) (s : State) : State :=
  s.onYard fun d =>
    let rest := d.arp.filter fun e => e.1 != a && decide (s.clk.c < e.2.2)
    let fam := rest.filter fun e => isV6 e.1 == isV6 a
    let rest' := if 64 ≤ fam.length then rest.erase (fam.headD (0, 0, 0)) else rest
    { d with arp := rest' ++ [(a, mac, s.clk.c + 60000000000)] }

/-- ARP: a request for the car's address is answered, a reply is learned. -/
def arpService (b : List Byte) (s : State) : State :=
  let p := b.drop 14
  let s1 := if be p 6 2 == 2 then arpLearn (be p 14 4) (be p 8 6) s else s
  if be p 6 2 == 1 && be p 24 4 == yIp4 s && yIp4 s != 0 then
    rawSend 0 (ethFrame s (be p 8 6) 0x0806 ([0, 1, 8, 0, 6, 4, 0, 2] ++ beBytes 6 (yMac s) ++ beBytes 4 (yIp4 s) ++ beBytes 6 (be p 8 6)
      ++ beBytes 4 (be p 14 4))) s1
  else s1

/-- An IP packet back to the sender of a frame. -/
def ipBack (b : List Byte) (i : Ip) (proto hop : Nat) (p : List Byte) (s : State) : State :=
  let src := if ownIp s i.dst then i.dst else srcFor s i.src
  rawSend 0 (ethFrame s (be b 6 6) (be b 12 2) (ipPacket src i.src proto (hopOf s hop) 0 p)) s

/-- An echo reply, at most 100 per second. -/
def echoReply (b : List Byte) (i : Ip) (s : State) : State :=
  let recent := s.yard.echoes.filter fun t => decide (s.clk.c < t + 1000000000)
  if 100 ≤ recent.length then s
  else
    let s1 := s.onYard fun d => { d with echoes := s.clk.c :: recent }
    if isV6 i.dst then ipBack b i 58 0 (icmp6 i.dst i.src ([129, 0, 0, 0] ++ i.data.drop 4)) s1
    else ipBack b i 1 0 (icmp4 ([0, 0, 0, 0] ++ i.data.drop 4)) s1

/-- Destination unreachable (port). -/
def portClosed (b : List Byte) (i : Ip) (s : State) : State :=
  if isV6 i.dst then
    ipBack b i 58 0 (icmp6 i.dst i.src ([1, 4, 0, 0, 0, 0, 0, 0] ++ (i.hdr ++ i.data).take 1232)) s
  else ipBack b i 1 0 (icmp4 ([3, 3, 0, 0, 0, 0, 0, 0] ++ i.hdr ++ i.data.take 8)) s

def subRec (s : State) (k : Nat) : List Word := s.yard.subs.getD k []
/-- The address of an endpoint or subscription record (R345). -/
def recAddr6 (r : List Word) : Nat := if bit r 0 30 then ip6Of r 2 else wd r 2
def recPort (r : List Word) : Nat := bits r 1 31 16

/-- The groups of the enabled subscriptions of a family. -/
def joined (s : State) (v6 : Bool) : List Nat := ((s.yard.subs.filter fun r => bit r 0 31 && bit r 0 30 == v6).map recAddr6).dedup

/-- A membership report for the groups of a family (IGMPv3, MLDv2). -/
def memberReport (v6 : Bool) (s : State) : State :=
  let gs := joined s v6
  if gs.isEmpty then s
  else if v6 then
    let dst := 2 ^ 128 + 0xFF020000000000000000000000000016
    let src := yLinkLocal s
    rawSend 0 (ethFrame s 0x333300000016 0x86DD (ipPacket src dst 58 1 0
      (icmp6 src dst ([143, 0, 0, 0, 0, 0] ++ beBytes 2 gs.length ++ gs.flatMap fun g => [2, 0, 0, 0] ++ addrBytes g)))) s
  else
    rawSend 0 (ethFrame s 0x01005E000016 0x0800 (ipPacket (yIp4 s) 0xE0000016 2 1 0
      (icmp4 ([0x22, 0, 0, 0, 0, 0] ++ beBytes 2 gs.length ++ gs.flatMap fun g => [2, 0, 0, 0] ++ addrBytes g)))) s

/-- ICMP and ICMPv6, neighbour discovery, IGMP and MLD queries. -/
def icmpService (b : List Byte) (i : Ip) (s : State) : State :=
  let ty := be i.data 0 1
  if i.proto == 1 then (if ty == 8 && ownIp s i.dst then echoReply b i s else s)
  else if i.proto == 2 then (if ty == 0x11 then memberReport false s else s)
  else if i.proto == 58 then
    let target := 2 ^ 128 + be i.data 8 16
    match ty with
    | 128 => if ownIp s i.dst then echoReply b i s else s
    | 130 => memberReport true s
    | 134 => s.onYard fun d => { d with router6 := some i.src }
    | 135 =>
      if ownIp s target then
        rawSend 0 (ethFrame s (be b 6 6) 0x86DD (ipPacket target i.src 58 255 0
          (icmp6 target i.src ([136, 0, 0, 0, 0x60, 0, 0, 0] ++ addrBytes target ++ [2, 1] ++ beBytes 6 (yMac s))))) s
      else s
    | 136 => if be i.data 24 1 == 2 then arpLearn target (be i.data 26 6) s else s
    | _ => s
  else s

/-- The subscriptions that accept the datagram in a frame and have not taken it yet. -/
def subsLeft (s : State) (f : YFrame) : List Nat :=
  match udpOf f.bytes with
  | none => []
  | some u => (List.range 8).filter fun k =>
      let r := subRec s k; bit r 0 31 && recAddr6 r == u.dst && recPort r == u.dport && !f.seen.contains k

/-- A datagram for the session port. -/
def isSess (s : State) (u : Udp) : Bool := ySessPort s != 0 && u.dport == ySessPort s && ownIp s u.dst

/-- A frame with a datagram for a subscription. -/
def isSubFrame (s : State) (k : Nat) (f : YFrame) : Bool := (subsLeft s f).contains k

/-- A subscription has taken a datagram (R343): the frame stays for the others that its group and port name. -/
def takenSub (k : Nat) (f : YFrame) (s : State) : State :=
  if subsLeft s f == [k] then takenYard f s
  else s.onYard fun d => { d with inbox := d.inbox.map fun x => if x == f then { x with seen := k :: x.seen } else x }

/-- A frame with a datagram for the session port. -/
def isSessFrame (s : State) (f : YFrame) : Bool :=
  match udpOf f.bytes with | some u => isSess s u && !(ptpOf f.bytes).isSome | none => false

/-- A frame that another row takes: a session, or while the firmware runs PTP or a subscription. -/
def otherRow (s : State) (f : YFrame) : Bool :=
  (fwRuns s && ((ptpOf f.bytes).isSome || !(subsLeft s f).isEmpty)) || isSessFrame s f

/-- YARD_IP_SERVICE (R340): the next frame that no other service takes. -/
def yardIpService (s : State) : State :=
  if !yardServed s then s else
  yardTake (fun f => !otherRow s f) (fun f t =>
    if be f.bytes 12 2 == 0x0806 then arpService f.bytes t
    else match ipOf f.bytes with
      | none => t
      | some i =>
        if i.proto == 17 then (if ownIp t i.dst && (udpOf f.bytes).isSome then portClosed f.bytes i t else t)
        else icmpService f.bytes i t) s

def execYardIpService (s : State) : Out := .next (yardIpService s)

/-! Datagrams (R341 to R343). -/

/-- DATAGRAM_SEND (R342): full, or PACK_US after the first record. -/
def datagramSend (e : Nat) (s : State) : State :=
  let r := epRec s e
  let p := s.yard.epSt.getD e ⟨[], 0, 0, 0⟩
  let full := match (lqOf s (32 + e)).q with | x :: _ => !epFits s e x | [] => false
  if !epEnable r || p.pack.isEmpty || (!full && decide (s.clk.c < p.first + bits r 0 25 16 * 1000)) then s
  else
    let h := [0x4B, 0x4E, 0x59, 0x53, 1, byteOf p.pack.length] ++ beBytes 2 (sysAddr s) ++ [byteOf e, 0, byteOf s.flash.bootCount, byteOf p.runs]
      ++ beBytes 4 p.dseq
    let s1 := each p.pack (fun _ => cntLstn (32 + e) 1) (cntYard 10 s)
    let s2 := s1.onYard fun d => { d with epSt := d.epSt.modify e fun x => { x with pack := [], dseq := (x.dseq + 1) % 2 ^ 32 } }
    udpSend (bits r 0 28 26) (recAddr6 r) (recPort r) (recPort r) (bits r 0 7 0) (h ++ p.pack.flatMap sentenceBytes) s2

def execDatagramSend (ep : Nat) (s : State) : Out := .next (datagramSend ep s)

/-- Records go to the yard talkers of a subscription (R197). -/
def yardTalk (k : Nat) (x : Sentence) (s : State) : State :=
  each ((List.range' 56 8).filter fun n => let r := s.sent.talkers.getD n []; tkEnable r && bits r 5 31 24 == k) (fun n t =>
    let r := t.sent.talkers.getD n []
    if tkMaxlen r < x.body.length then cntTalk n 2 t
    else
      let y := { x with slot := 56 + k, yard := true, key := keyOf (t.sent.talkers.getD (56 + k) []) x.talker x.body, arrived := trainTime t }
      let t1 := cntTalk n 0 t
      if t1.sent.inq.length < 1024 then t1.onSent fun v => { v with inq := v.inq ++ [y] } else cntTalk n 5 t1) s

/-- A datagram is accepted (R343). -/
def dgramAccept (k : Nat) (gap : Bool) (xs : List Sentence) (s : State) : State :=
  each (if gap then markGap xs else xs) (yardTalk k) (cntYard 11 s)

/-- The pairs of a subscription. -/
def modPairs (k : Nat) (f : List DPair → List DPair) (s : State) : State := s.onYard fun d => { d with pairs := d.pairs.modify k f }

/-- DSEQ and RUN of a datagram against its pair (R343). -/
def dgramTrack (k src e run dseq : Nat) (xs : List Sentence) (s : State) : State :=
  let ps := s.yard.pairs.getD k []
  let now := s.clk.c
  let next := (dseq + 1) % 2 ^ 32
  let put := fun (t : State) => modPairs k (fun l => l.map fun p => if p.src == src && p.ep == e then
    { p with run := run, next := next, heard := now } else p) t
  match ps.find? fun p => p.src == src && p.ep == e with
  | none =>
    if ps.length < 64 then dgramAccept k false xs (modPairs k (fun l => l ++ [{ src := src, ep := e, run := run, next := next, heard := now }]) s)
    else dgramAccept k false xs s
  | some p =>
    let ahead := (dseq + 2 ^ 32 - p.next) % 2 ^ 32
    if p.heard + 10000000000 ≤ now then dgramAccept k false xs (put s)
    else if p.run != run then dgramAccept k true xs (cntYard 15 (put s))
    else if ahead == 0 then dgramAccept k false xs (put s)
    else if ahead < 2 ^ 31 then
      dgramAccept k true xs (raiseFirst 6900 69 (k * 256) (cntYardBy 14 ahead (put s)))
    else cntYard 14 (modPairs k (fun l => l.map fun q => if q.src == src && q.ep == e then { q with heard := now } else q) s)

/-- DATAGRAM_RECEIVE (R343). -/
def datagramReceive (k : Nat) (s : State) : State :=
  if !fwRuns s then s else
  match firstYard (isSubFrame s k) s with
  | none => s
  | some f =>
    let t := takenSub k f s
    match udpOf f.bytes with
    | none => t
    | some u =>
      let p := u.data
      let r := subRec t k
      let src := be p 6 2
      match (if be p 5 1 == 0 then none else parseRecords (trainTime t) (be p 5 1) (p.drop 16)) with
      | none => cntYard 12 t
      | some xs =>
        if p.length < 16 || be p 0 4 != 0x4B4E5953 || be p 4 1 != 1 || 16384 ≤ src || 32 ≤ be p 8 1 || be p 9 1 != 0
            || (bit r 0 29 && src / 64 != bits r 0 15 8) then cntYard 12 t
        else if t.inaug.car.isSome && src / 64 == t.inaug.train then cntYard 13 t
        else dgramTrack k src (be p 8 1) (be p 10 2) (be p 12 4) xs t

def execDatagramReceive (sub : Nat) (s : State) : Out := .next (datagramReceive sub s)

/-- DATAGRAM_PAIR_FORGET (R343): 10 s of silence. -/
def datagramPairForget (k src e : Nat) (s : State) : State :=
  modPairs k (fun l => l.filter fun p => !(p.src == src && p.ep == e && decide (p.heard + 10000000000 ≤ s.clk.c))) s

def execDatagramPairForget (sub src ep : Nat) (s : State) : Out := .next (datagramPairForget sub src ep s)

/-! Yard sessions (R346, R347). -/

/-- A session slot that is free. -/
def noSess : YSess :=
  { id := 0, addr := 0, port := 0, mseq := 0, reply := [], heard := 0, priv := .observe, scope := 0, operKey := 0, inbox := none }

def sessLive (y : YSess) : Bool := y.port != 0

/-- The MSEQ that follows another: 0 is skipped. -/
def mseqNext (n : Nat) : Nat := if n == 0xFFFFFFFF then 1 else n + 1

/-- The first free session slot. -/
def sessFree (s : State) : Option Nat := (List.range 4).find? fun k => match sessOf s k with | some y => !sessLive y | none => true

def putSess (k : Nat) (y : YSess) (s : State) : State :=
  s.onYard fun d => { d with sess := if k < d.sess.length then d.sess.set k y else d.sess ++ List.replicate (k - d.sess.length) noSess ++ [y] }

/-- A cached reply is sent again. -/
def resend (y : YSess) (s : State) : State := if y.reply.isEmpty then s else yardSend y y.mseq y.reply s

/-- An open request (R346, R347, R413): the message waits in a new session, or BUSY goes back. -/
def sessOpenReq (u : Udp) (mseq : Nat) (ws : List Word) (s : State) : State :=
  match s.yard.sess.find? fun y => sessLive y && y.addr == u.src && y.port == u.sport && y.mseq == mseq with
  | some y => cntYard 16 (resend y s)
  | none =>
    let y := { noSess with addr := u.src, port := u.sport, mseq := mseq, heard := s.clk.c, inbox := some ws }
    match sessFree s with
    | some k => putSess k y s
    | none => yardSend y mseq [word0 (bits ws 0 23 16) 0x003 2, 1] (cntCmd 1 s)

/-- A message as it enters the command interface: SENDER is stamped (R347, R384). -/
def sentBy (who : Nat) (ws : List Word) : List Word :=
  match ws with
  | w :: r => wordOf (who * 2 ^ 24 + w.toNat % 2 ^ 24) :: r
  | [] => []

/-- YARD_SESSION_DATAGRAM (R347): the next message is executed once the last one has been answered. -/
def yardSessionDatagram (s : State) : State :=
  if !yardServed s then s else
  yardTake (isSessFrame s) (fun f t =>
    match udpOf f.bytes with
    | none => t
    | some u =>
      let p := u.data
      let ws := sentBy coreId (bytesWords (p.drop 8))
      let mseq := be p 4 4
      let id := be p 0 2
      if p.length < 12 || 72 < p.length || p.length % 4 != 0 || be p 2 2 != 0 then cntYard 16 t
      else if id == 0 then
        if mseq == 0 || msgCode ws != 0x003 then cntYard 16 t else sessOpenReq u mseq ws t
      else match t.yard.sess.findIdx? fun y => sessLive y && y.id == id && y.addr == u.src && y.port == u.sport with
        | none => t
        | some k =>
          match sessOf t k with
          | none => t
          | some y =>
            let t1 := putSess k { y with heard := t.clk.c } t
            if mseq == y.mseq then cntYard 16 (resend y t1)
            else if mseq == mseqNext y.mseq && y.inbox.isNone && !y.reply.isEmpty then
              putSess k { y with heard := t.clk.c, mseq := mseq, inbox := some ws, reply := [] } t1
            else cntYard 16 t1) s

def execYardSessionDatagram (s : State) : Out := .next (yardSessionDatagram s)

/-- A session slot is freed: OPERATE ends with it and its reservations go (R318, R390). -/
def sessClose (k : Nat) (s : State) : State :=
  match sessOf s k with
  | none => s
  | some y =>
    operEnd (operHeld y.priv y.operKey)
      (((putSess k noSess s).onCmd fun q => { q with parcels := q.parcels.filter fun p => p.session != y.id }).onHost fun h =>
        { h with order := h.order.filter fun e => e.ch != 16 + k })

/-- YARD_SESSION_TIMEOUT (R346): 10 s without a datagram. -/
def yardSessionTimeout (k : Nat) (s : State) : State :=
  match sessOf s k with
  | none => s
  | some y => if sessLive y && decide (y.heard + 10000000000 ≤ s.clk.c) then raise 68 3 (sessClose k s) else s

def execYardSessionTimeout (k : Nat) (s : State) : Out := .next (yardSessionTimeout k s)

/-! Yard commands (R404). -/

/-- A yard port record (R352): the first offending word. Ranges are asked of a port that is not OFF. -/
def yardCheck (r : List Word) : Option Nat :=
  let on := bits r 0 31 30 != 0
  let mac := wd r 11 + 2 ^ 32 * bits r 12 15 0
  firstBad ([(bits r 0 31 30 == 3 || bits r 0 25 16 != 0 || (on && (decide (bits r 0 15 0 < 1518) || decide (9216 < bits r 0 15 0))), 0),
      (decide (32 < bits r 2 31 24) || bits r 2 23 0 != 0, 2), (decide (128 < bits r 8 31 24), 8),
      (bits r 12 30 16 != 0 || (bit r 12 31 && (natBit mac 40 || !natBit mac 41)), 12), rsv r 13 31 0]
    ++ (List.range 8).map (fun q => (bits r (14 + q) 7 0 != 0 || (on && (decide (rxNdesc r q < 16) || decide (4096 < rxNdesc r q)
          || decide (bits r (14 + q) 15 8 < 4) || decide (145 < bits r (14 + q) 15 8))), 14 + q))
    ++ (List.range 6).map (fun q => rsv r (22 + q) 14 0))

/-- What changes only in STOPPED (R352): MODE, MAXLEN and the receive queues. -/
def yardFixed (r : List Word) : List Nat := bits r 0 31 30 :: bits r 0 15 0 :: (List.range 8).map fun q => wd r (14 + q)

/-- A yard port record and hash table take effect. -/
def yardApply (r hash : List Word) (s : State) : State :=
  let old := s.yard.record
  let s1 := s.onYard fun d => { d with record := r, hash := hash }
  let s2 := if yardFixed old == yardFixed r then s1 else rxInit s1
  let s3 := txPin s2
  let s4 := if bits old 0 31 30 != bits r 0 31 30 || yardHeld s3 then linkDown s3 else s3
  when' (!yMacsec s4 && s4.sec.sak) macClose s4

/-- YARD_SET (R352). -/
def cmdYardSet (c : Ctx) (s : State) : State :=
  if wd c.words 2 != 176 then badParam c 2 0 s
  else readParcel 1 (fun p t =>
    let r := bytesWords (p.take 112)
    match yardCheck r with
    | some i => badParam c i 0 t
    | none =>
      if t.sys.dev != .stopped && yardFixed r != yardFixed t.yard.record then stateError c t
      else if regionSize t 1 < ringBytes r + ringsKib (t.ports.map (·.rec_)) * 1024 then
        noSpace c (ringBytes r + ringsKib (t.ports.map (·.rec_)) * 1024 - regionSize t 1) t
      else replyOk c [] (yardApply r (bytesWords (p.drop 112)) t)) c s

def execYardSet (via : Via) (s : State) : Out := .next (firmware 0x801 3 .config cmdYardSet via s)

/-- A steering rule (R334). -/
def steerCheck (r : List Word) : Option Nat := firstBad [rsv r 0 8 0, rsv r 1 15 0]

/-- STEER_SET (R334). -/
def cmdSteerSet (c : Ctx) (s : State) : State :=
  let r := (c.words.drop 2).take 2
  if 63 < wd c.words 1 then badParam c 1 0 s
  else match steerCheck r with
    | some i => badParam c (2 + i) 0 s
    | none => replyOk c [] (s.onYard fun d => { d with steer := d.steer.set (wd c.words 1) r })

def execSteerSet (via : Via) (s : State) : Out := .next (firmware 0x802 4 .config cmdSteerSet via s)

/-- A multicast address. -/
def isGroup (a : Nat) : Bool := if isV6 a then a / 2 ^ 120 == 2 ^ 8 + 0xFF else a / 2 ^ 28 == 14

/-- An endpoint or subscription record (R345). `v6` is V6_EN of the yard port record. -/
def endpointCheck (isSub v6 : Bool) (r : List Word) : Option Nat :=
  let on := bit r 0 31
  firstBad [
    ((bit r 0 30 && !v6) || (if isSub then bits r 0 28 16 != 0 || bits r 0 7 0 != 0
      else bit r 0 29 || bits r 0 15 8 != 0 || decide (1000 < bits r 0 25 16)), 0),
    (bits r 1 15 0 != 0 || (on && recPort r == 0), 1),
    (on && isSub && !isGroup (recAddr6 r), 2),
    (!bit r 0 30 && wd r 3 != 0, 3), (!bit r 0 30 && wd r 4 != 0, 4), (!bit r 0 30 && wd r 5 != 0, 5)]

/-- An endpoint record takes effect: DSEQ starts at 0 when it is enabled (R341). -/
def endpointApply (e : Nat) (r : List Word) (s : State) : State :=
  let was := epEnable (epRec s e)
  s.onYard fun d =>
    { d with
      eps := d.eps.set e r
      epSt := d.epSt.modify e fun x =>
        if bit r 0 31 && !was then { pack := [], first := 0, dseq := 0, runs := (x.runs + 1) % 256 }
        else if !bit r 0 31 then { x with pack := [] } else x }

/-- A subscription record takes effect, with a membership report when it is enabled. -/
def subApply (k : Nat) (r : List Word) (s : State) : State :=
  let was := bit (subRec s k) 0 31
  let s1 := s.onYard fun d => { d with subs := d.subs.set k r, pairs := if bit r 0 31 && was then d.pairs else d.pairs.set k [] }
  when' (bit r 0 31) (memberReport (bit r 0 30)) s1

/-- ENDPOINT_SET (R345). -/
def cmdEndpointSet (c : Ctx) (s : State) : State :=
  let w := wd c.words 1
  let isSub := natBit w 5
  let i := w % 32
  let r := (c.words.drop 2).take 6
  if 63 < w || (isSub && 8 ≤ i) then badParam c 1 0 s
  else match endpointCheck isSub (yV6En s) r with
    | some j => badParam c (2 + j) 0 s
    | none => replyOk c [] (if isSub then subApply i r s else endpointApply i r s)

def execEndpointSet (via : Via) (s : State) : Out := .next (firmware 0x803 8 .config cmdEndpointSet via s)

/-- YARD_STATUS (R404). -/
def cmdYardStatus (c : Ctx) (s : State) : State :=
  replyOk c [yMode s * 2 ^ 30 + b2n s.yard.link * 2 ^ 29 + b2n s.sec.sak * 2 ^ 28 + (s.yard.sess.filter sessLive).length * 2 ^ 25,
    yIp4 s, yMac s % 2 ^ 32, yMac s / 2 ^ 32] s

def execYardStatus (via : Via) (s : State) : Out := .next (firmware 0x804 1 .observe cmdYardStatus via s)

end Sys2Proof.Machine
end

