-- ==== Sys2Proof/Machine/Ptp.lean ====
section
/-!
DEFINITION. PTP on the yard port: plant time at the master, monitoring elsewhere, the relay between two cars, and the time commands
(R137, R150 to R154, R348, R160, R398). What IEEE 1588 computes from the messages stands in the operands (log 8).
-/

namespace Sys2Proof.Machine

open Sys2Proof

/-! The plant servo (R131, R132, R137, R151). -/

/-- The slewing branch of R131 for plant time: RATE changes by at most 2 ppm in a basic cycle (R151). -/
def plantSlew (th : Int) (s : State) : State :=
  let p : Int := cycleP s
  let f := clamp (ppmRate 200) (s.clk.freq + th * 2 ^ 24 / (32 * p))
  let ph := clamp (ppmRate (pSlewPpm s)) (th * 2 ^ 24 / (4 * p))
  (plantRate (f + ph) s).onClk fun k => { k with freq := f, phase := ph }

/-- Train time follows a plant offset: a forward error beyond 1 ms is stepped, a backward one into a new epoch (R132). -/
def plantServo (th : Int) (s : State) : State :=
  let s1 :=
    if decide (ms1 < th) then stepBy th s
    else if decide (th < -ms1) then inEpoch ((s.clk.tepoch + 1) % 256) (stepBy th) s
    else plantSlew th s
  s1.onClk fun k => { k with theta := th, lastTheta := th, slewing := decide (us1 < th.natAbs) }

/-- RATE_HISTORY (R137): F within 5 ppm over 1 s, and within 10 ppm of its mean over 1,000 s. -/
def rateHistory (s : State) : State :=
  let now := s.clk.c
  let old := s.ref.freqs.filter fun x => decide (now < x.1 + 1000000000000)
  let f := s.clk.freq
  let fast := old.any fun x => decide (now < x.1 + 1000000000) && decide (ppmRate 5 < ((f - x.2).natAbs : Int))
  let mean := (old.map (·.2)).sum / (old.length : Int)
  let far := !old.isEmpty && decide (ppmRate 10 < ((f - mean).natAbs : Int))
  let s1 := s.onRef fun r => { r with freqs := old ++ [(now, f)] }
  if fast || far then selfCheckFail 2 1000 s1 else selfCheckPass 2 s1

/-- A measured offset: plant time less train time, in units of 2^-16 ns. -/
def plantMeasure (off : Int) (locked : Bool) (s : State) : State :=
  let s1 := s.onTeth fun t => { t with plantOff := some (clamp (2 ^ 31 - 1) (off / 65536)) }
  if s1.clk.st != .master || !pPlantPtp s1 then s1
  else if !locked then (if s1.teth.plant == .none then s1.onTeth fun t => { t with plant := .acquiring } else s1)
  else
    let bound := freeNat 32 s1
    let s2 := (tookFree s1).onTeth fun t => { t with plant := .locked, mbound := bound }
    let s3 := if s1.teth.plant == .locked then s2 else raise 78 1 s2
    rateHistory (plantServo off s3)

/-- PTP_SERVO_LOCK_LOSS (R151): F is held and MBOUND grows. -/
def ptpServoLockLoss (s : State) : State :=
  if s.clk.st == .master && s.teth.plant == .locked then
    raise 78 2 ((plantRate s.clk.freq s).onTeth fun t => { t with plant := .holdover, plantAt := s.clk.c })
  else s

def execPtpServoLockLoss (s : State) : Out := .next (ptpServoLockLoss s)

/-! Messages (R150, R152). -/

/-- messageType, and whether it is an event message. -/
def ptpType (m : List Byte) : Nat := be m 0 1 % 16
def ptpEvent (m : List Byte) : Bool := decide (ptpType m < 4)

/-- The transport a frame came over, as PTP_TRANSPORT counts them. -/
def ptpOver (b : List Byte) : Nat :=
  match udpOf b with
  | some u => if isV6 u.dst then 1 else 0
  | none => 2

/-- A message of this car's domain, over its transport (R150). -/
def ptpMine (s : State) (b m : List Byte) : Bool :=
  decide (34 ≤ m.length) && be m 1 1 % 16 == 2 && be m 4 1 == pPtpDomain s && ptpOver b == pPtpTransport s

/-- The sender's port identity. -/
def ptpSender (m : List Byte) : Nat := be m 20 10

/-- 2 to the logMessageInterval, in ns. -/
def ptpInterval (m : List Byte) : Nat :=
  let l := sx 8 (be m 33 1)
  if 0 ≤ l then 1000000000 * 2 ^ l.toNat else 1000000000 / 2 ^ (-l).toNat

/-- The order of the default BMCA over Announce messages: priority1, clock quality, priority2, grandmaster, steps removed, then
the sender (R150; log 24). Lower is better. -/
def ptpRank (m : List Byte) : Nat := be m 47 16 * 2 ^ 80 + ptpSender m

/-- The master that the default BMCA chooses among those heard within three of their announce intervals. -/
def ptpBest (s : State) : Option PtpMaster :=
  (s.teth.ptpMasters.filter fun x => decide (s.clk.c < x.until_)).foldl (fun b x => match b with
    | none => some x
    | some y => if x.rank < y.rank then some x else b) none

/-- A message comes from the chosen master. -/
def ptpFromBest (s : State) (m : List Byte) : Bool :=
  match ptpBest s with | some x => x.port == ptpSender m | none => false

/-- An Announce is noted; that of the chosen master carries the UTC offset. -/
def ptpAnnounce (m : List Byte) (s : State) : State :=
  let x : PtpMaster := { port := ptpSender m, rank := ptpRank m, until_ := s.clk.c + 3 * ptpInterval m }
  let s1 := s.onTeth fun t => { t with ptpMasters := x :: t.ptpMasters.filter fun y => y.port != x.port && decide (s.clk.c < y.until_) }
  when' (ptpFromBest s1 m) (fun t => t.onTeth fun y => { y with utc := sx 16 (be m 44 2) }) s1

/-- The clock identity, from the MAC address. -/
def ptpIdentity (s : State) : List Byte := beBytes 3 (yMac s / 2 ^ 24) ++ [0xFF, 0xFE] ++ beBytes 3 (yMac s) ++ [0, 1]

/-- A Delay_Req or a Pdelay_Req. -/
def delayReqMsg (s : State) (id : Nat) : List Byte :=
  let peer := pPtpPeer s
  [if peer then 2 else 1, 2] ++ beBytes 2 (if peer then 54 else 44) ++ [byteOf (pPtpDomain s), 0, 0, 0] ++ beBytes 8 0 ++ beBytes 4 0
    ++ ptpIdentity s ++ beBytes 2 id ++ [if peer then 5 else 1, 0x7F] ++ beBytes (if peer then 20 else 10) 0

/-- Where a message goes: the MAC address, and the address over UDP, of the peer-delay messages or of the others. -/
def ptpGroup (s : State) (peer : Bool) : Nat × Nat :=
  let v6 := pPtpTransport s == 1
  if peer then (0x0180C200000E, if v6 then 2 ^ 128 + 0xFF02000000000000000000000000006B else 0xE000006B)
  else (0x011B19000000, if v6 then 2 ^ 128 + 0xFF0E0000000000000000000000000181 else 0xE0000181)

/-- A peer-delay message: Pdelay_Req, Pdelay_Resp or its Follow_Up. -/
def ptpPdelay (m : List Byte) : Bool := ptpType m == 2 || ptpType m == 3 || ptpType m == 10

/-- A PTP message waits in queue 7, over the car's transport, to the group of its kind (R150; log 24). -/
def ptpSend (m : List Byte) (timed : Option Nat) (tsub : Nat) (relayed : Option Nat) (s : State) : State :=
  let g := ptpGroup s (ptpPdelay m)
  let port := if ptpEvent m then 319 else 320
  let x : YTx := { queue := 7, udp := none, sport := port, hop := 0, bytes := ethFrame s g.1 0x88F7 m, timed := timed,
                   tsub := tsub, relayed := relayed }
  s.onYard fun d => { d with txq := d.txq ++ [if pPtpTransport s == 2 then x else { x with udp := some (g.2, port), bytes := m }] }

/-- A Delay_Req or Pdelay_Req follows each Sync, with a two-step request (log 24). -/
def delayReq (s0 : State) : State :=
  let id := (s0.teth.ptpSeq + 1) % 65536
  let s := s0.onTeth fun t => { t with ptpSeq := id }
  ptpSend (delayReqMsg s id) (some id) (trainTime s) none s

/-- The Pdelay_Resp to a peer's Pdelay_Req: it carries the time of receipt, the request's correction and the requester's port
identity. It is two-step, and its Follow_Up brings the time of departure (R150, R152; log 24). -/
def pdelayResp (f : YFrame) (m : List Byte) (s : State) : State :=
  let t2 := tc 64 (extend (trainTime s) f.stamp.s32)
  let r := [3, 2] ++ beBytes 2 54 ++ [byteOf (pPtpDomain s), 0, 2, 0] ++ part m 8 8 ++ beBytes 4 0 ++ ptpIdentity s ++ part m 30 2
    ++ [5, 0x7F] ++ ptpTime t2 ++ part m 20 10
  ptpSend r (some (be m 30 2)) t2 none s

/-- A response names this car and its request; the entry of the request's stamp is read from the queue (R152). -/
def delayResp (m : List Byte) (s : State) : State :=
  if part m 44 10 == ptpIdentity s then s.onTeth fun x => { x with tsq := x.tsq.filter fun e => e.1 != be m 30 2 } else s

/-- A Sync of the chosen master, at an interval that is accepted (R150). -/
def syncOk (s : State) (m : List Byte) : Bool :=
  let l := sx 8 (be m 33 1)
  ptpFromBest s m && decide (-7 ≤ l) && decide (l ≤ 1)

/-- An accepted Sync: a one-step one completes a measurement, a two-step one waits for its Follow_Up. -/
def ptpSyncIn (m : List Byte) (off : Int) (locked : Bool) (s : State) : State :=
  let two := natBit (be m 6 1) 1
  let t := (delayReq s).onTeth fun x => { x with ptpSync := if two then some (ptpSender m, be m 30 2) else none }
  if two then t else plantMeasure off locked t

/-- The Follow_Up of the accepted two-step Sync completes a measurement; one of another Sync does nothing. -/
def ptpFollowIn (m : List Byte) (off : Int) (locked : Bool) (s : State) : State :=
  if s.teth.ptpSync == some (ptpSender m, be m 30 2) && ptpFromBest s m then
    plantMeasure off locked (s.onTeth fun x => { x with ptpSync := none })
  else s

/-- PTP_MESSAGE_RECEIVE (R150, R151): an Announce enters the choice of the master; the chosen master's Sync asks for a Delay_Req or
Pdelay_Req, whose response takes the entry of its stamp from the queue; a peer's Pdelay_Req is answered; a one-step Sync or a
Follow_Up completes a measurement, whose offset and lock are the operands. -/
def ptpMessageReceive (off : Int) (locked : Bool) (s : State) : State :=
  if !fwRuns s then s else
  yardTake (fun f => (ptpOf f.bytes).isSome) (fun f t =>
    match ptpOf f.bytes with
    | none => t
    | some m =>
      if !ptpMine t f.bytes m then t
      else match ptpType m with
        | 0 => if syncOk t m then ptpSyncIn m off locked t else t
        | 2 => if pPtpPeer t then pdelayResp f m t else t
        | 3 => if pPtpPeer t then delayResp m t else t
        | 8 => ptpFollowIn m off locked t
        | 9 => if pPtpPeer t || !ptpFromBest t m then t else delayResp m t
        | 11 => ptpAnnounce m t
        | _ => t) s

def execPtpMessageReceive (off : Int) (locked : Bool) (s : State) : Out := .next (ptpMessageReceive off locked s)

/-- PTP_RELAY (R154, R348): the two cars must name each other. An event message is corrected as it leaves; the ingress stamp is extended
by the train time of now (R122). The CONTROL frame does not say over which transport the message came: it leaves over the
egress car's own (DESIGN CHOICE, log 24). -/
def ptpRelay (s : State) : State :=
  withCtl 0x14 (fun m t =>
    let msg := m.payload.drop 16
    let from_ := match numbered t (m.hdr.src % 64) with | some e => e.badge | none => 0
    if !yRelayEn t || from_ != yRelayPeer t then t
    else
      let at_ := tc 64 (extend (trainTime t) (be m.payload 8 4))
      ptpSend msg none 0 (if ptpEvent msg then some at_ else none) t) s

def execPtpRelay (s : State) : Out := .next (ptpRelay s)

/-! Time commands (R160, R398). -/

/-- TIME_READ. -/
def cmdTimeRead (c : Ctx) (s : State) : State :=
  let t := trainTime s
  replyOk c [t % 2 ^ 32, t / 2 ^ 32, s.clk.tepoch * 2 ^ 24 + s.clk.st.code * 2 ^ 20 + b2n (synced s) * 2 ^ 19] s

def execTimeRead (via : Via) (s : State) : Out := .next (firmware 0x201 1 .observe cmdTimeRead via s)

/-- LSUM of a direction in 0.1 ns, measured by a drive car in DC_LOCKED (R128, R148). -/
def lsumOf (s : State) (dirY : Bool) : Nat :=
  match driveLink s dirY with
  | some l => tc 32 (l * 10 / 65536)
  | none => if dirY then s.ref.lsumY else s.ref.lsumX

/-- The time status record (R160). -/
def timeRecord (s : State) : List Nat :=
  let t := trainTime s
  let o := tc 64 (s.clk.offset / 65536)
  [s.clk.tepoch * 2 ^ 24 + s.clk.st.code * 2 ^ 20 + s.teth.dc.code * 2 ^ 18 + s.teth.plant.code * 2 ^ 16 + (if s.clk.st == .master then ownMrole s else s.ref.mrole) % 256 * 256
      + s.ref.fit % 8 * 32 + b2n s.clk.slewing * 16 + b2n s.teth.tfault * 8 + b2n s.teth.tether * 4,
   s.ref.mbadge % 2 ^ 32, s.ref.mbadge / 2 ^ 32, t % 2 ^ 32, t / 2 ^ 32, tc 32 s.clk.rate, errBoundWord s,
   tc 32 (max (-2 ^ 31) (min (2 ^ 31 - 1) (s.clk.lastTheta / 256))), s.ref.nlX % 256 * 2 ^ 24 + s.ref.nlY % 256 * 2 ^ 16, lsumOf s false, lsumOf s true,
   o % 2 ^ 32, o / 2 ^ 32, match s.teth.plantOff with | some n => tc 32 n | none => 0x80000000]

/-- TIME_STATUS. -/
def cmdTimeStatus (c : Ctx) (s : State) : State := replyOk c (timeRecord s) s

def execTimeStatus (via : Via) (s : State) : Out := .next (firmware 0x202 1 .observe cmdTimeStatus via s)

end Sys2Proof.Machine
end

