-- ==== Sys2Proof/Machine/HostPort.lean ====
section
/-!
DEFINITION. The host control port: transactions word by word, the status byte, the register map, manger channels, bells, locks,
the interrupt controller, the hayloft window and the host reset (R355 to R372, R377 to R381).
-/

namespace Sys2Proof.Machine

open Sys2Proof

/-! Transactions (R355 to R359). -/

/-- The port follows HOST_CS_N: not in OFF or RESET, and not while HOST_RST_N is low (R378, R478). -/
def portAnswers (s : State) : Bool := s.sys.dev != .off && s.sys.dev != .reset && !s.sys.hostRst

/-- The status byte for the outcome of a transaction (R357). -/
def statusByte (s : State) (t : TxnStat) : Nat :=
  1 + b2n t.bus * 64 + (if t.bus then t.kind % 4 else 0) * 16 + b2n t.retry * 8 + b2n (irqAsserted s) * 4 + b2n t.partial_ * 2

/-- The serial island is clocked again: each receiver waits for one character time of idle-high (R247, R490). -/
def portsWake (s : State) : State := s.onPorts fun ps => ps.map fun p => { p with lowAt := s.clk.c }

/-- A wake source has fired: it is latched, and a device asleep wakes (R489). -/
def wakeLatch (src idx : Nat) (s : State) : State :=
  (when' (s.sys.barn == .asleep) portsWake s).onSys fun x =>
    { x with
      wakeSrc := x.wakeSrc ||| 2 ^ src
      wakeIdx := if src < 2 then some (min idx (x.wakeIdx.getD idx)) else x.wakeIdx
      barn := if x.barn == .asleep then .waking else x.barn }

/-- The fall of HOST_CS_N that begins a transaction wakes a device in BARN (R359, R489). -/
def selectFalls (s : State) : State := if s.sys.dev == .barn then wakeLatch 3 0 s else s

/-- A transaction begins: the device drives the outcome of the previous one, and a new page applies (R357, R362). -/
def beginTxn (s : State) : State :=
  (selectFalls s).onHost fun h =>
    { h with prevTxn := h.txn, txn := TxnStat.clear, pageNow := h.page, out := wordOf (statusByte s h.txn), nextAddr := none }

/-- The word at an address can come next: as the first of a transaction, or at the address to which the burst has advanced (R355). -/
def wordComes (newTxn : Bool) (a : Nat) (s : State) : Bool := portAnswers s && (newTxn || s.host.nextAddr == some a)

/-- The transaction in which n words from an address on are transferred: each advances the address by 4 (R355). -/
def openWords (newTxn : Bool) (a n : Nat) (s : State) : State :=
  (if newTxn then beginTxn s else s).onHost fun h => { h with nextAddr := some (a + 4 * n) }

/-- The bits of a word in the order in which a single lane carries them: bytes ascending, the most significant bit of each first
(R355). -/
def laneBits (w : Word) : List Bool := (List.range 32).map fun i => natBit w.toNat (i / 8 * 8 + 7 - i % 8)

/-- The nibbles of a word in the order in which four lanes carry them: bytes ascending, the high nibble first (R355). -/
def quadNibbles (w : Word) : List Nat := (List.range 8).map fun i => w.toNat / 16 ^ (i / 2 * 2 + 1 - i % 2) % 16

/-- A word is driven to the host. -/
def driveOut (w : Nat) (s : State) : State := s.onHost fun h => { h with out := wordOf w }

/-- A word is rejected: only the first of a transaction is recorded (R359). -/
def rejectWord (kind addr : Nat) (s : State) : State :=
  let s1 := if s.host.txn.bus then s else s.onHost fun h =>
    { h with txn := { h.txn with bus := true, kind := kind }, errAddr := addr % 2 ^ 24, errKind := kind }
  raiseFirst 11500 115 (kind * 2 ^ 24 + addr % 2 ^ 24)
    (cntHost 0 (s1.onHost fun h => { h with busErr := true, out := 0 }))

/-- The address lies in a range that R360 lists. -/
def mapped (a : Nat) : Bool :=
  decide (a < 0x2180) || (decide (0x2200 ≤ a) && decide (a < 0x2300)) || (decide (0x3000 ≤ a) && decide (a < 0x3110))
    || (decide (0x10000 ≤ a) && decide (a < 0x20000))
    || (decide (0x100000 ≤ a) && decide (a < 0x500000)
        && (decide (a % 0x10000 < 0x40) || (decide (0x1000 ≤ a % 0x10000) && decide (a % 0x10000 < 0x1400))))
    || (decide (0x800000 ≤ a) && decide (a < 0x1000000))

/-- Why the port rejects any access to an address, if it does (R359). -/
def rejects (s : State) (a : Nat) : Option Nat :=
  if s.sys.dev == .barn then some 2
  else if s.sys.dev == .boot && decide (0x40 ≤ a) then some 2
  else if a % 4 != 0 || !mapped a then some 1
  else none

/-- Words of a burst that are rejected, each of them counted; a read returns zeros for them (R359, R383). -/
def rejectWords (kind a n : Nat) (s : State) : State :=
  each (List.range n) (fun i => rejectWord kind (a + 4 * i)) (s.onHost fun h => { h with burst := h.burst ++ List.replicate n 0 })

/-- n words of a transaction from an address on: f is what accepted words do. -/
def hostWords (newTxn : Bool) (a n : Nat) (f : State → State) (s : State) : State :=
  if !wordComes newTxn a s then s else
  let s1 := openWords newTxn a n s
  let k := if s1.host.txn.bus then some s1.host.txn.kind else rejects s1 a
  match k with
  | some k => rejectWords k a n (s1.onHost fun h => { h with burst := [] })
  | none => f s1

/-- One word of a transaction: f is what an accepted word does. -/
def hostWord (newTxn : Bool) (a : Nat) (f : State → State) (s : State) : State :=
  if !wordComes newTxn a s then s else
  let s1 := openWords newTxn a 1 s
  if s1.host.txn.bus then rejectWord s1.host.txn.kind a s1
  else match rejects s1 a with
    | some k => rejectWord k a s1
    | none => f s1

/-- STATUS (R356, R357): a transaction of its own that collects the outcome of the one before. In BARN it is rejected as any access is
(R359), at an address that its row does not give. -/
def execStatus (s : State) : Out :=
  .next (if !portAnswers s then s else if s.sys.dev == .barn then tookFree (rejectWord 2 (freeNat 24 s) (beginTxn s)) else beginTxn s)

/-! Reads with a side effect (R12, R367). -/

/-- The provisional read of a register. -/
def provOf (s : State) (r : RcWord) : Option Prov := s.host.prov.find? fun p => p.reg == r

/-- The address phase has ended: the value is taken, and the side effect is held provisionally. A lock is held for the host port
at once, and a read-clear counter restarts in its shadow (R367). -/
def holdRead (r : RcWord) (v : Nat) (s : State) : State :=
  let s1 := s.onHost fun h => { h with prov := { reg := r, val := v } :: h.prov }
  match r with
  | .outCommit _ => s1
  | .proxyOut _ _ => s1
  | .lock n => if v == 0 then s1.onHost fun h => { h with locks := h.locks.set n 1 } else s1
  | .drop ch => modMang ch (fun m => { m with inDrop := 0, outDrop := 0 }) s1
  | .overflow => s1.onHost fun h => { h with overflow := 0 }

/-- A reply taken from a proxy returns it to IDLE (R374). -/
def proxyIdle (k c : Nat) (s : State) : State :=
  s.onHost fun h => { h with proxies := h.proxies.map fun p => if p.k == k && p.c == c then { p with st := .idle } else p }

/-- The last bit has been transferred: the side effect takes place (R12). -/
def commitRead (r : RcWord) (v : Nat) (s : State) : State :=
  let s1 := s.onHost fun h => { h with prov := h.prov.filter fun p => p.reg != r }
  match r with
  | .outCommit ch =>
    if natBit v 31 then modMang ch (fun m => { m with outFull := false, outSender := 0, outSession := 0 }) s1 else s1
  | .proxyOut k c => if natBit v 31 then proxyIdle k c s1 else s1
  | .lock _ => s1
  | .drop _ => s1
  | .overflow => s1

/-- A read that has been cut short: what was held is released (R367). -/
def releaseRead (p : Prov) (s : State) : State :=
  match p.reg with
  | .outCommit _ => s
  | .proxyOut _ _ => s
  | .lock n => if p.val == 0 then s.onHost fun h => { h with locks := h.locks.set n 0 } else s
  | .drop ch =>
    modMang ch (fun m => { m with inDrop := min (m.inDrop + p.val / 65536) 0xFFFF, outDrop := min (m.outDrop + p.val % 65536) 0xFFFF }) s
  | .overflow => s.onHost fun h => { h with overflow := min (h.overflow + natBits p.val 23 16) 255 }

def releaseReads (s : State) : State := each s.host.prov releaseRead (s.onHost fun h => { h with prov := [] })

/-- A read of such a register. `last` is false for a read that has reached the end of its address phase only, and true for one
whose last bit has been transferred, at once or after that. -/
def rcRead (newTxn : Bool) (a : Nat) (r : RcWord) (value : State → Nat) (last : Bool) (s : State) : State :=
  match provOf s r with
  | some p => if last then commitRead r p.val s else s
  | none =>
    hostWord newTxn a (fun t =>
      let v := value t
      let t1 := holdRead r v (driveOut v t)
      if last then commitRead r v t1 else t1) s

/-- HOST_TRANSACTION_ABORT (R358, R367): a word of the transaction in progress is cut short, or the first of a new one when none has
an address at which it could go on (log 25). The transaction is over. -/
def hostTransactionAbort (s : State) : State :=
  if !portAnswers s then s
  else
    let s1 := if s.host.nextAddr.isNone then beginTxn s else s
    cntHost 1 ((releaseReads s1).onHost fun h => { h with txn := { h.txn with partial_ := true }, nextAddr := none })

def execHostTransactionAbort (s : State) : Out := .next (hostTransactionAbort s)

/-! Manger channels (R363 to R366). -/

def mangAddr (ch off : Nat) : Nat := 0x1000 + 0x100 * ch + off

/-- A commit to an inbound slot, as one step (R365). -/
def commitIn (ch sender session : Nat) (p : Priv) (s : State) : State :=
  modMang ch (fun m => { m with
    inFull := true, inSender := sender, inSession := session, inPriv := p
    inMsg := m.inMsg.modify 0 fun w => wordOf (sender * 2 ^ 24 + w.toNat % 2 ^ 24) }) s

/-- A write to an inbound slot: only by the class of the channel, and only while it is not FULL (R359, R363). -/
def inWrite (ch a : Nat) (f : State → State) (s : State) : State :=
  if 10 ≤ ch then rejectWord 1 a s else if (mangOf s ch).inFull then rejectWord 0 a s else f s

/-- A word of an inbound slot. -/
def inMsgWord (ch off : Nat) (w : Word) (s : State) : State :=
  inWrite ch (mangAddr ch (4 * off)) (modMang ch (fun m => { m with inMsg := m.inMsg.set off w })) s

/-- The host's commit. -/
def inCommitWord (ch : Nat) (s : State) : State :=
  inWrite ch (mangAddr ch 0x40) (fun t => commitIn ch 1 t.host.session t.host.priv t) s

def execInMsgWrite (newTxn : Bool) (ch off : Nat) (w : Word) (s : State) : Out :=
  .next (hostWord newTxn (mangAddr ch (4 * off)) (inMsgWord ch off w) s)

def execInCommit (newTxn : Bool) (ch : Nat) (s : State) : Out := .next (hostWord newTxn (mangAddr ch 0x40) (inCommitWord ch) s)

/-- The word at offset 0xC0 (R364). -/
def outCommitVal (ch : Nat) (s : State) : Nat :=
  let m := mangOf s ch
  b2n m.outFull * 2 ^ 31 + m.outSender % 256 * 65536 + m.outSession % 65536

/-- The word at offset 0x48 (R364). -/
def dropVal (ch : Nat) (s : State) : Nat := (mangOf s ch).inDrop * 65536 + (mangOf s ch).outDrop

def execOutCommitRead (newTxn : Bool) (ch : Nat) (last : Bool) (s : State) : Out :=
  .next (rcRead newTxn (mangAddr ch 0xC0) (.outCommit ch) (outCommitVal ch) last s)

def execDropCountRead (newTxn : Bool) (ch : Nat) (last : Bool) (s : State) : Out :=
  .next (rcRead newTxn (mangAddr ch 0x48) (.drop ch) (dropVal ch) last s)

/-- OUTBOUND_HELD_DELIVER (R366). -/
def outboundHeldDeliver (ch : Nat) (s : State) : State :=
  if !takesMsgs s || (mangOf s ch).outFull then s
  else match (mangOf s ch).held with
    | [] => s
    | m :: r => commitOut ch m.words m.session (modMang ch (fun x => { x with held := r }) s)

def execOutboundHeldDeliver (ch : Nat) (s : State) : Out := .next (outboundHeldDeliver ch s)

/-! Bells, locks and the interrupt controller (R368 to R372). -/

/-- Bits of a 1 in w cleared (W1C). -/
def clearBits (v w : Nat) : Nat := v ^^^ (v &&& w)

/-- Word k of a wide register set. -/
def setWord32 (v k w : Nat) : Nat := v / 2 ^ (32 * (k + 1)) * 2 ^ (32 * (k + 1)) + w % 2 ^ 32 * 2 ^ (32 * k) + v % 2 ^ (32 * k)

def hostBellClear (w : Nat) (s : State) : State := s.onHost fun h => { h with hostBell := clearBits h.hostBell w }
def fwBellSet (w : Nat) (s : State) : State := s.onHost fun h => { h with fwBell := h.fwBell ||| w % 2 ^ 31 }
def eventPendClear (k w : Nat) (s : State) : State := s.onHost fun h => { h with evPend := clearBits h.evPend (w * 2 ^ (32 * k)) }
def busErrClr (w : Nat) (s : State) : State := if natBit w 3 then s.onHost fun h => { h with busErr := false } else s
def berrClear (w : Nat) (s : State) : State :=
  s.onHost fun h => { h with errLog := h.errLog.zipIdx.map fun x => if natBit w x.2 then { x.1 with valid := false } else x.1 }

def execHostBellClear (newTxn : Bool) (w : Word) (s : State) : Out := .next (hostWord newTxn 0x2000 (hostBellClear w.toNat) s)
def execFwBellSet (newTxn : Bool) (w : Word) (s : State) : Out := .next (hostWord newTxn 0x2008 (fwBellSet w.toNat) s)
def execEventPendClear (newTxn : Bool) (k : Nat) (w : Word) (s : State) : Out :=
  .next (hostWord newTxn (0x2210 + 4 * k) (eventPendClear k w.toNat) s)
def execBusErrClr (newTxn : Bool) (s : State) : Out := .next (hostWord newTxn 0x2208 (busErrClr 8) s)
def execBerrClear (newTxn : Bool) (w : Word) (s : State) : Out := .next (hostWord newTxn 0x3004 (berrClear w.toNat) s)

/-- FW_BELL_TAKE (R369): bell 31 carries the notice of a host reset and raises nothing. -/
def fwBellTake (n : Nat) (s : State) : State :=
  if !takesMsgs s || !natBit s.host.fwBell n then s
  else
    let s1 := s.onHost fun h => { h with fwBell := clearBits h.fwBell (2 ^ n) }
    if n < 31 then raise2 113 n 0 s1 else s1

def execFwBellTake (n : Nat) (s : State) : Out := .next (fwBellTake n s)

/-- COUNT and OVERFLOW of the error log (R377). -/
def overflowVal (s : State) : Nat := (s.host.errLog.filter (·.valid)).length * 2 ^ 24 + min s.host.overflow 255 * 65536

def execOverflowRead (newTxn last : Bool) (s : State) : Out := .next (rcRead newTxn 0x3000 .overflow overflowVal last s)

/-- What a read of LOCK[n] returns (R370). -/
def lockVal (n : Nat) (s : State) : Nat := if s.host.locks.getD n 0 == 0 then 0 else 0x80 + s.host.locks.getD n 0

/-- A master of R22 that may hold a lock beside the host port, and is running: the stream port, a service core, the security core. -/
def lockMaster (s : State) (id : Nat) : Bool :=
  match s.sys.dev with
  | .off => false
  | .reset => false
  | _ => id == 2 || id == 31 || (decide (16 ≤ id) && decide (id ≤ 19) && takesMsgs s)

/-- Other masters read LOCK[n] in one fabric cycle: a free lock goes to the lowest ID; a lock that the host port has won is
held from the end of the address phase on (R367, R370, R371). -/
def lockTake (n : Nat) (ids : List Nat) (s : State) : State :=
  let m := ids.filter (lockMaster s)
  match m.min? with
  | none => s
  | some w =>
    if s.host.locks.getD n 1 != 0 then s
    else when' (decide (1 < m.length)) (cntHost 2) (s.onHost fun h => { h with locks := h.locks.set n w })

/-- LOCK_READ (R370, R371): the host port's ID is the lowest, so it wins a free lock against every other reader. -/
def lockRead (newTxn : Bool) (n : Nat) (readers : LockReaders) (last : Bool) (s : State) : State :=
  if !readers.host then lockTake n readers.others s
  else
    let first := (provOf s (.lock n)).isNone && wordComes newTxn (0x2100 + 4 * n) s && (rejects s (0x2100 + 4 * n)).isNone
      && (newTxn || !s.host.txn.bus)
    let s1 := if first && readers.others.any (lockMaster s) && lockVal n s == 0 then cntHost 2 s else s
    rcRead newTxn (0x2100 + 4 * n) (.lock n) (lockVal n) last (if first then s1 else lockTake n readers.others s1)

def execLockRead (newTxn : Bool) (n : Nat) (readers : LockReaders) (last : Bool) (s : State) : Out :=
  .next (lockRead newTxn n readers last s)

/-- A write to LOCK[n] by a master (R370). -/
def lockWrite (id n w : Nat) (s : State) : State :=
  if s.host.locks.getD n 0 == id && w == id && id != 0 then s.onHost fun h => { h with locks := h.locks.set n 0 }
  else raise 116 (n * 256 + 1) (cntHost 3 s)

/-- LOCK_WRITE: by the host port as a word of a transaction, by another master directly. -/
def execLockWrite (newTxn : Bool) (n : Nat) (w : LockWriter) (s : State) : Out :=
  .next (if w.id == 1 then hostWord newTxn (0x2100 + 4 * n) (lockWrite 1 n w.val.toNat) s
    else if lockMaster s w.id then lockWrite w.id n w.val.toNat s else s)

/-! The hayloft window (R362). -/

/-- Word n of an image control block (R181). -/
def ctlWord (i : Image) (n : Nat) : Nat :=
  match n with
  | 0 => i.flips % 65536 * 65536 + i.ready % 4 * 16384 + (if i.out then 0 else i.fill % 4) * 4096 + i.pend % 4 * 1024 + b2n i.stale * 8
      + b2n i.absent * 4 + b2n i.never * 2 + b2n i.out
  | 1 => i.hostBuf % 4 * 16384 + b2n i.hostValid * 8192
  | 2 => i.stamp.s32
  | 3 => i.stamp.ep % 256 * 2 ^ 24 + i.cycle % 64 * 2 ^ 18 + b2n i.stamp.sync * 2 ^ 17 + i.adm % 65536
  | 4 => i.pubSeq % 2 ^ 32
  | 5 => i.len % 65536 * 65536 + i.entry % 65536
  | _ => 0

/-- The image whose 32-byte control block holds a hayloft byte. -/
def ctlBlockAt (s : State) (b : Nat) : Option Image :=
  s.plan.images.find? fun i => decide (imgAddr s i.entry i.out ≤ b) && decide (b < imgAddr s i.entry i.out + 32)

/-- What the window reads at an aligned hayloft byte: control blocks are the images' own, and the layout of the history region is
not given (log 2). -/
def windowWord (s : State) (b : Nat) : Nat :=
  if regionOf s b == 2 then le ((List.range 4).map fun i => Config.historyByte (b + i) s.free) 0 4
  else match ctlBlockAt s b with
    | some i => ctlWord i ((b - imgAddr s i.entry i.out) / 4)
    | none => le (loftBytes b 4 s) 0 4

/-- The access a region permits to a session of some privilege (R362). -/
def windowAllows (s : State) (p : Priv) (b : Nat) (write : Bool) : Bool :=
  match regionOf s b with
  | 0 => false
  | 1 => false
  | 2 => !write
  | 3 => !write
  | 4 => !write || p == .operate || p == .service
  | _ => true

/-- A word written by a master. In a control block only W1 takes it (R181). -/
def windowWrite (who b w : Nat) (s : State) : State :=
  match ctlBlockAt s b with
  | some i =>
    if b - imgAddr s i.entry i.out == 4 then
      modImg i.entry i.out (fun x => { x with hostBuf := natBits w 15 14, hostValid := natBit w 13 }) (loftWrite b (leBytes 4 w) who s)
    else s
  | none => loftWrite b (leBytes 4 w) who s

/-- Words read ahead, at most to the end of the 4 KiB page: how many is a free value. An error in them sets no status (R433). -/
def prefetch (b who : Nat) (s : State) : State :=
  if b % 4096 == 0 then s else (loftCheck b (4 * (freeNat 10 s % ((4096 - b % 4096) / 4 + 1))) who (tookFree s)).2

/-- One word of the window: a read, or a write of a word (R362, R458). -/
def windowAccess (off : Nat) (wr : Option Word) (s : State) : State :=
  let b := s.host.pageNow * (8 * mib) + off
  if !windowAllows s s.host.priv b wr.isSome then rejectWord 1 (0x800000 + off) s
  else match wr with
    | some w => windowWrite 1 b w.toNat s
    | none =>
      let r := loftCheck b 4 1 s
      if !r.1 then rejectWord 1 (0x800000 + off) r.2
      else prefetch (b + 4) 1 (driveOut (windowWord r.2 b) (if regionOf s b == 2 then tookFree r.2 else r.2))

def execHayloftWindowAccess (newTxn : Bool) (off : Nat) (wr : Option Word) (s : State) : Out :=
  .next (hostWord newTxn (0x800000 + off) (windowAccess off wr) s)

/-! Host reset (R378, R380, R381). -/

/-- Messages that a reset of the sender would clear. -/
def outCount (s : State) (ch : Nat) : Nat := b2n (mangOf s ch).outFull + (mangOf s ch).held.length + heldBack s ch

/-- They are cleared and counted in OUT_DROP. -/
def resetOut (ch : Nat) (s : State) : State :=
  (modMang ch (fun x => { x with outFull := false, outSender := 0, outSession := 0, held := [], outDrop := min (x.outDrop + outCount s ch) 0xFFFF })
    s).onHost fun h => { h with order := h.order.filter fun e => !(e.ch == ch && e.done.isSome) }

/-- A message that the fence discards. -/
def fenceIn (ch : Nat) (s : State) : State :=
  if (mangOf s ch).inFull then cntHost 6 (modMang ch (fun x => { x with inFull := false, inDrop := min (x.inDrop + 1) 0xFFFF }) s) else s

/-- MANGER_DROP, when something was dropped (R382). -/
def dropEvent (n cause : Nat) (s : State) : State := if n == 0 then s else raise 114 (n % 65536 * 65536 + cause) s

/-- The effects of a host reset. -/
def hostReset (s : State) : State :=
  let chans := List.range 10
  let old := s.host.session
  let outs := (chans.map (outCount s)).sum
  let ins := (chans.filter fun ch => (mangOf s ch).inFull).length
  let s1 := each chans resetOut (releaseReads s)
  let s2 := if s.host.fence then each chans fenceIn s1 else s1
  let s3 := s2.onHost fun h =>
    { h with
      session := 0, priv := .observe, scope := 0, operKey := 0, notify := 0
      dead := if old == 0 || h.dead.contains old then h.dead else old :: h.dead
      locks := h.locks.map fun o => if o == 1 then 0 else o
      proxies := []
      hostBell := 0, hostBellMask := 0, irqEn := 0, evMask := 0
      fwBell := h.fwBell ||| 2 ^ 31
      errLog := List.replicate 8 ErrEnt.reset, overflow := 0, page := 0, pageNow := 0
      prevTxn := TxnStat.clear, txn := TxnStat.clear, out := 0, nextAddr := none }
  let s4 := s3.onCmd fun q => { q with parcels := q.parcels.filter fun p => old == 0 || p.session != old }
  let s5 := operEnd (operHeld s.host.priv s.host.operKey) s4
  raise 112 (old * 65536 + 3) (dropEvent (if s.host.fence then ins else 0) 3 (dropEvent outs 2 s5))

/-- HOST_RESET (R378, R478): the pin is low and the port ignores HOST_CS_N. The host island is reset in RESET too. -/
def hostResetPin (s : State) : State :=
  if s.sys.dev == .off then s.onSys fun x => { x with hostRst := true }
  else hostReset (s.onSys fun x => { x with hostRst := true })

def execHostReset (s : State) : Out := .next (hostResetPin s)

def execHostResetRelease (s : State) : Out := .next (s.onSys fun x => { x with hostRst := false })

/-- A write to 0x01C (R361): SESSION_FENCE can only be set here, and SOFT_RST performs a host reset. -/
def softRst (w : Nat) (s : State) : State :=
  let s1 := s.onHost fun h => { h with fence := h.fence || natBit w 0 }
  if natBit w 31 then hostReset s1 else s1

def execSoftRst (newTxn : Bool) (w : Word) (s : State) : Out := .next (hostWord newTxn 0x1C (softRst w.toNat) s)

/-! Registers without side effects (R361, R364, R368, R372, R377). -/

/-- The registers at 0x000 to 0x03F (R361). In BOOT what the firmware fills reads 0. -/
def idReg (s : State) (a : Nat) : Nat :=
  if a == 0 then 0x0640A101
  else if a == 4 then (if s.sys.dev == .boot then 0 else s.sys.fwVersion)
  else if a == 8 then (if s.sys.dev == .boot then 0 else s.sys.badge % 2 ^ 32)
  else if a == 12 then (if s.sys.dev == .boot then 0 else s.sys.badge / 2 ^ 32)
  else if a == 0x10 then regState s
  else if a == 0x14 then regEpochs s
  else if a == 0x18 then regSession s
  else if a == 0x1C then b2n s.host.fence
  else if a == 0x20 then s.host.errKind % 4 * 2 ^ 28 + s.host.errAddr % 2 ^ 24
  else if a == 0x24 then s.host.page
  else if a == 0x28 then trainTime s % 2 ^ 32
  else if a == 0x2C then s.sys.bootCode
  else 0

/-- A register of a manger channel, read without side effect. -/
def mangReg (s : State) (ch off : Nat) : Nat :=
  let m := mangOf s ch
  if off == 0x44 then b2n m.inFull * 2 ^ 31 + m.inSender * 65536 + m.inSession
  else if off == 0x48 then dropVal ch s
  else if 0x80 ≤ off ∧ off < 0xC0 then wd m.outMsg ((off - 0x80) / 4)
  else if off == 0xC0 then outCommitVal ch s
  else if off == 0xC4 then b2n m.outFull * 2 ^ 31
  else 0

/-- A register of the bells and of the interrupt controller. BUS_ERR_CLR, which only clears, reads zero (log 25). -/
def bellReg (s : State) (a : Nat) : Nat :=
  if a == 0x2000 then s.host.hostBell
  else if a == 0x2004 then s.host.hostBellMask
  else if a == 0x200C then s.host.fwBell
  else if a == 0x2010 then s.host.fwBellMask
  else if a == 0x2014 then inFullMap s * 65536 + outFullMap s
  else if 0x2020 ≤ a ∧ a < 0x2040 then remotePend s / 2 ^ (8 * (a - 0x2020)) % 2 ^ 32
  else if a == 0x2200 then irqCause s
  else if a == 0x2204 then s.host.irqEn
  else if 0x2210 ≤ a ∧ a < 0x2220 then s.host.evPend / 2 ^ (8 * (a - 0x2210)) % 2 ^ 32
  else if 0x2220 ≤ a ∧ a < 0x2230 then s.host.evMask / 2 ^ (8 * (a - 0x2220)) % 2 ^ 32
  else 0

/-- A word of an error log entry (R377). -/
def errWord (e : ErrEnt) (n : Nat) : Nat :=
  match n with
  | 0 => b2n e.valid * 2 ^ 31 + e.addr % 2 ^ 24
  | 1 => e.master % 256 * 2 ^ 24 + e.status % 256 * 65536 + e.remote % 16384
  | 2 => e.stamp.s32
  | _ => e.stamp.ep % 256 * 2 ^ 24 + b2n e.stamp.sync * 2 ^ 23

/-- A register of the error log and of the snapshot status. BERR_CLEAR, which only clears, reads zero (log 25). -/
def logReg (s : State) (a : Nat) : Nat :=
  if a == 0x3000 then overflowVal s
  else if 0x3010 ≤ a ∧ a < 0x3090 then errWord (s.host.errLog.getD ((a - 0x3010) / 16) ErrEnt.reset) ((a - 0x3010) / 4 % 4)
  else match s.snap.pend with
    | none => 0
    | some r =>
      if a == 0x3100 then 2 ^ 31 else if a == 0x3104 then r.ts % 2 ^ 32 else if a == 0x3108 then r.ts / 2 ^ 32
      else if a == 0x310C then r.sid else 0

/-- A register of the map below the remote windows, as a read without side effect returns it; those of the proxies are `proxyReg`. -/
def hostReg (s : State) (a : Nat) : Nat :=
  if a < 0x1000 then idReg s a
  else if a < 0x2000 then mangReg s ((a - 0x1000) / 256) (a % 256)
  else if a < 0x2100 then bellReg s a
  else if a < 0x2180 then lockVal ((a - 0x2100) / 4) s
  else if a < 0x3000 then bellReg s a
  else if a < 0x4000 then logReg s a
  else if 0x10000 ≤ a ∧ a < 0x20000 then wd s.snap.bank ((a - 0x10000) / 4)
  else 0

/-- A read at the address has a row of its own: it has a side effect, or goes through a window. -/
def ownReadRow (a : Nat) : Bool :=
  decide (0x100000 ≤ a) || a == 0x3000 || (decide (0x2100 ≤ a) && decide (a < 0x2180))
    || (decide (0x1000 ≤ a) && decide (a < 0x2000) && (a % 256 == 0x48 || a % 256 == 0xC0))

/-- READ, QREAD or QREAD_FAST of one word (R356, R359, R360): a register without side effect, or an address that is rejected. -/
def plainRead (addr : Nat) (s : State) : State :=
  if wordComes true addr s && ownReadRow addr && (rejects s addr).isNone then s
  else hostWord true addr (fun t => driveOut (hostReg t addr) t) s

/-- UNKNOWN_OPCODE (R356): an address error without data. In BARN the port is not ready (R359). With an opcode of the table the command
is a transaction that has no row of its own (log 25): a plain read, the address phase of a write, or STATUS. -/
def unknownOpcode (op addr : Nat) (s : State) : State :=
  if !portAnswers s then s
  else if [0x03, 0x6B, 0xEB].contains op then plainRead addr s
  else if s.sys.dev == .barn then rejectWord 2 addr (beginTxn s)
  else if op == 0x05 then beginTxn s
  else if [0x02, 0x32].contains op then openWords true addr 0 s
  else rejectWord 1 addr (beginTxn s)

def execUnknownOpcode (op addr : Nat) (s : State) : Out := .next (unknownOpcode op addr s)

end Sys2Proof.Machine
end

