-- ==== Sys2Proof/Machine/Bridge.lean ====
section
/-!
DEFINITION. Remote windows and the bridge: proxies, the remote read buffer, what the far car does with a message and a read, the
error log (R373 to R377, R428 to R432), and a host write to any address of the map (R11, R359, R360).
-/

namespace Sys2Proof.Machine

open Sys2Proof

/-! The error log (R377, R432, R436). -/

/-- The bridge logs an error: entries fill in order, and one that finds no room counts in OVERFLOW. -/
def logError (addr master status far : Nat) (s : State) : State :=
  match s.host.errLog.findIdx? fun e => !e.valid with
  | none => raise 119 (2 ^ 31 + status * 65536 + far % 16384) (s.onHost fun h => { h with overflow := min (h.overflow + 1) 255 })
  | some i =>
    let e : ErrEnt := { valid := true, addr := addr % 2 ^ 24, master := master, status := status, remote := far % 16384, stamp := stampNow s }
    raise 119 (status * 65536 + far % 16384) ((noteStamp s).onHost fun h => { h with errLog := h.errLog.set i e })

/-! Proxies (R374, R376). -/

def winAddr (k off : Nat) : Nat := 0x100000 + 0x10000 * k + off
def proxyAddr (k c off : Nat) : Nat := winAddr k (0x1000 + 0x100 * c + off)

/-- A proxy that has not been used yet. -/
def proxyNew (k c : Nat) : Proxy :=
  { k := k, c := c, st := .idle, inMsg := List.replicate 16 0, outMsg := List.replicate 16 0, session := 0, reqId := 0, at_ := 0, far := 0 }

def proxyOf (s : State) (k c : Nat) : Proxy := (s.host.proxies.find? fun p => p.k == k && p.c == c).getD (proxyNew k c)

def putProxy (p : Proxy) (s : State) : State :=
  s.onHost fun h => { h with proxies := p :: h.proxies.filter fun q => !(q.k == p.k && q.c == p.c) }

/-- Car k of the numbering adopted by this car. -/
def farCar (s : State) (k : Nat) : Option Nat := if (numbered s k).isSome && admitted s then some (s.inaug.train * 64 + k) else none

/-- IN_FULL of a proxy (R374). -/
def proxyInFull (p : Proxy) : Bool := p.st == .sent || p.st == .accepted

/-- An IN_MSG word of a proxy stays local, and is rejected while IN_FULL is set (R365, R374). -/
def proxyWord (k c off : Nat) (w : Word) (s : State) : State :=
  let p := proxyOf s k c
  if proxyInFull p then rejectWord 0 (proxyAddr k c (4 * off)) s
  else putProxy { p with inMsg := p.inMsg.set off w } s

/-- The commit of a proxy: the message leaves as MSG_COMMIT, or the far car is unreachable (R374). -/
def proxyCommit (k c : Nat) (s : State) : State :=
  let p := proxyOf s k c
  let a := proxyAddr k c 0x40
  if p.st != .idle then rejectWord 0 a s
  else match farCar s k with
    | none => logError a 1 0x0B (s.inaug.train * 64 + k) s
    | some far =>
      let s1 := putProxy { p with st := .sent, session := s.host.session, reqId := nextReq s, at_ := s.clk.c, far := far } (tookReq s)
      ctlSendIn s.inaug.epoch far
        (ctlPayload 1 (nextReq s) s.host.session s.host.priv.code (12 + c) (wordBytes (p.inMsg.take (msgWords p.inMsg)))) s1

def execProxyInCommit (newTxn : Bool) (k c : Nat) (s : State) : Out :=
  .next (hostWord newTxn (proxyAddr k c 0x40) (proxyCommit k c) s)

/-- The word at offset 0xC0 of a proxy. OUT_SENDER is the far core, which stands in word 0 of the reply. -/
def proxyOutVal (k c : Nat) (s : State) : Nat :=
  let p := proxyOf s k c
  if p.st == .replied then 2 ^ 31 + bits p.outMsg 0 31 24 * 65536 + p.session % 65536 else 0

def execProxyOutCommitRead (newTxn : Bool) (k c : Nat) (last : Bool) (s : State) : Out :=
  .next (rcRead newTxn (proxyAddr k c 0xC0) (.proxyOut k c) (proxyOutVal k c) last s)

/-- PROXY_NO_ANSWER (R374): 2 ms from the commit without an answer. -/
def proxyNoAnswer (k c : Nat) (s : State) : State :=
  let p := proxyOf s k c
  if p.st == .sent && decide (p.at_ + 2000000 ≤ s.clk.c) then
    logError (proxyAddr k c 0x40) 1 0x0B p.far (putProxy { p with st := .idle } s)
  else s

def execProxyNoAnswer (k c : Nat) (s : State) : Out := .next (proxyNoAnswer k c s)

/-- The proxy that waits for an answer with a REQ_ID. -/
def proxyWaiting (s : State) (id : Nat) : Option Proxy :=
  s.host.proxies.find? fun p => p.reqId == id && (p.st == .sent || p.st == .accepted)

/-- MSG_ACCEPT (R374). -/
def msgAccept (s : State) : State :=
  withCtl 2 (fun m t =>
    match proxyWaiting t (be m.payload 2 2) with
    | some p => putProxy { p with st := .accepted } t
    | none => t) s

def execMsgAccept (s : State) : Out := .next (msgAccept s)

/-- MSG_STATUS (R374, R432). -/
def msgStatus (s : State) : State :=
  withCtl 3 (fun m t =>
    match proxyWaiting t (be m.payload 2 2) with
    | some p => logError (proxyAddr p.k p.c 0x40) 1 (le m.payload 8 1) p.far (putProxy { p with st := .idle } t)
    | none => t) s

def execMsgStatus (s : State) : Out := .next (msgStatus s)

/-- MSG_REPLY (R374, R380): the reply enters OUT_MSG, or finds its session ended. -/
def msgReply (s : State) : State :=
  withCtl 4 (fun m t =>
    match proxyWaiting t (be m.payload 2 2) with
    | some p =>
      let ws := bytesWords (m.payload.drop 8)
      ringHost 30 (putProxy { p with st := .replied, outMsg := ws ++ p.outMsg.drop ws.length, session := be m.payload 4 2 } t)
    | none => if be m.payload 4 2 == t.host.session then t else dropEvent 1 4 (cntHost 5 t)) s

def execMsgReply (s : State) : Out := .next (msgReply s)

/-! Messages at the far car (R374, R376, R430). -/

/-- The badge that carries an ADMIT in the current numbering (R320). -/
def carrierOfAdmit (s : State) (a : Nat) : Option Nat := (s.inaug.numbering.find? fun e => e.adm == a).map (·.badge)

/-- The privilege a message carries (R428); 3 is reserved. -/
def privOfCode (n : Nat) : Option Priv :=
  match n with
  | 0 => some .observe
  | 1 => some .operate
  | 2 => some .service
  | _ => none

/-- An answer to a message. -/
def msgAnswer (h : HeldCommit) (status : Nat) (s : State) : State :=
  ctlSend h.sys .plain (ctlPayload 3 h.reqId h.session 0 h.win (leBytes 4 status)) s

/-- The far bridge acts on a message: it commits it as master 3 and accepts it, or answers with a status. -/
def commitFar (h : HeldCommit) (s : State) : State :=
  match privOfCode h.priv, carrierOfAdmit s h.origin with
  | some p, some badge =>
    if (mangOf s h.win).inFull then msgAnswer h 1 s
    else
      let s1 := modMang h.win (fun m => { m with inMsg := h.words ++ m.inMsg.drop h.words.length }) s
      let s2 := commitIn h.win 3 h.session p s1
      let s3 := s2.onBrg fun b => { b with origin := b.origin ++
        [{ ch := h.win, origin := h.sys, badge := badge, reqId := h.reqId, session := h.session }] }
      ctlSend h.sys (.accept h.win) (ctlPayload 2 h.reqId h.session 0 h.win []) s3
  | some _, none => msgAnswer h 4 s
  | none, _ => msgAnswer h 4 s

/-- The next REQ_ID expected of an origin, if one has been acted on. -/
def expectOf (s : State) (origin : Nat) : Option Nat := (s.brg.expect.find? fun x => x.1 == origin).map (·.2)

/-- Act on a message, and note what comes next from its origin. -/
def actCommit (h : HeldCommit) (s : State) : State :=
  commitFar h (s.onBrg fun b => { b with
    expect := (h.origin, (h.reqId + 1) % 65536) :: b.expect.filter fun x => x.1 != h.origin
    held := b.held.filter fun x => !(x.origin == h.origin && x.reqId == h.reqId) })

/-- Messages that were held for a gap follow once it is filled. -/
def drainCommits (origin : Nat) : Nat → State → State
  | 0, s => s
  | n + 1, s =>
    match s.brg.held.find? fun h => h.origin == origin && some h.reqId == expectOf s origin with
    | none => s
    | some h => drainCommits origin n (actCommit h s)

/-- MSG_COMMIT (R430): in REQ_ID order of its origin; an early one waits, and one below is discarded and counted. -/
def msgCommit (s : State) : State :=
  withCtl 1 (fun m t =>
    let h : HeldCommit := { origin := m.hdr.adm, sys := m.hdr.src, reqId := be m.payload 2 2, at_ := trainTime t, session := be m.payload 4 2,
                            priv := be m.payload 6 1, win := be m.payload 7 1, words := bytesWords (m.payload.drop 8) }
    match expectOf t h.origin with
    | none => drainCommits h.origin 64 (actCommit h t)
    | some e =>
      if e == h.reqId then drainCommits h.origin t.brg.held.length (actCommit h t)
      else if decide ((h.reqId + 65536 - e) % 65536 < 32768) then t.onBrg fun b => { b with held := b.held ++ [h] }
      else cntStrm 11 t) s

def execMsgCommit (s : State) : Out := .next (msgCommit s)

/-- Of the messages held of an origin, the one whose REQ_ID comes first (R430). -/
def firstHeld (origin : Nat) (s : State) : Option HeldCommit :=
  let dist := fun (h : HeldCommit) => (h.reqId + 65536 - (expectOf s origin).getD 0) % 65536
  (s.brg.held.filter fun h => h.origin == origin).foldl (fun b x => match b with
    | none => some x
    | some y => if dist x < dist y then some x else b) none

/-- MSG_COMMIT_REORDER_EXPIRY (R430): the gap did not fill within TRANSIT_T. What is held is acted on in REQ_ID order. -/
def msgCommitReorderExpiry (s : State) : State :=
  match s.brg.held.find? fun h => decide (h.at_ + pTransit s ≤ trainTime s) with
  | none => s
  | some h => drainCommits h.origin s.brg.held.length (actCommit ((firstHeld h.origin s).getD h) (cntStrm 11 s))

def execMsgCommitReorderExpiry (s : State) : Out := .next (msgCommitReorderExpiry s)

/-! Remote reads (R375, R431, R432). -/

def setRdBuf (r : RdBuf) (s : State) : State := s.onHost fun h => { h with rdBuf := r }

/-- The read returns n zeros and the host is to repeat it. -/
def remoteRetry (n : Nat) (s : State) : State :=
  cntHost 4 (s.onHost fun h => { h with out := 0, burst := List.replicate n 0, txn := { h.txn with retry := true } })

/-- An idle buffer starts the request. Without a numbered car k there is no frame to send, and the request times out. -/
def remoteStart (k off n : Nat) (s : State) : State :=
  let id := nextReq s
  match farCar s k with
  | none => setRdBuf (.waiting k off n id (some (trainTime s)) (s.inaug.train * 64 + k)) (cntStrm 12 (tookReq s))
  | some far =>
    ctlSend far (.readReq id) (ctlPayload 5 id s.host.session s.host.priv.code 0 (leBytes 4 (n * 65536 + off)))
      (setRdBuf (.waiting k off n id (if far == sysAddr s then some (trainTime s) else none) far) (cntStrm 12 (tookReq s)))

/-- A burst of n words of window k (R375). -/
def remoteRead (k off n : Nat) (s : State) : State :=
  match s.host.rdBuf with
  | .idle => remoteRetry n (remoteStart k off n s)
  | .waiting _ _ _ _ _ _ => remoteRetry n s
  | .data k' off' n' ws _ =>
    if k == k' && off == off' && n == n' then
      setRdBuf .idle (s.onHost fun h => { h with burst := ws, out := ws.getLastD 0 })
    else remoteRetry n s
  | .timedOut k' off' n' =>
    if k == k' && off == off' && n == n' then rejectWords 3 (winAddr k off) n (setRdBuf .idle (s.onHost fun h => { h with burst := [] }))
    else remoteRetry n s

/-- A register of a proxy as a read without side effect returns it (R364, R374). Only the host port commits to a proxy. -/
def proxyReg (s : State) (k c off : Nat) : Nat :=
  let p := proxyOf s k c
  let used := p.reqId != 0 || p.far != 0
  if off == 0x44 then b2n (proxyInFull p) * 2 ^ 31 + b2n used * 65536 + p.session % 65536
  else if 0x80 ≤ off ∧ off < 0xC0 then wd p.outMsg ((off - 0x80) / 4)
  else if off == 0xC0 then proxyOutVal k c s
  else if off == 0xC4 then b2n (p.st == .replied) * 2 ^ 31
  else 0

/-- One word of a burst over the proxies of window k; a whole read of OUT_COMMIT takes the reply (R374). -/
def proxyReadWord (k off : Nat) (s : State) : State :=
  let c := (off - 0x1000) / 0x100
  if s.host.txn.bus then rejectWords s.host.txn.kind (winAddr k off) 1 s
  else if 0x1400 ≤ off then rejectWords 1 (winAddr k off) 1 s
  else
    let v := proxyReg s k c (off % 0x100)
    let s1 := driveOut v (s.onHost fun h => { h with burst := h.burst ++ [wordOf v] })
    if off % 0x100 == 0xC0 && natBit v 31 then proxyIdle k c s1 else s1

/-- REMOTE_REGISTER_READ: the burst ends at 0x003F, and a word beyond it is rejected (R373); at the proxies it reads what this car
holds. -/
def remoteRegisterRead (newTxn : Bool) (k off cnt : Nat) (s : State) : State :=
  let n := min cnt ((0x40 - off) / 4)
  hostWords newTxn (winAddr k off) cnt (fun t =>
    if 0x1000 ≤ off then each (List.range cnt) (fun i => proxyReadWord k (off + 4 * i)) (t.onHost fun h => { h with burst := [] })
    else
      let t1 := if n == 0 then t.onHost fun h => { h with burst := [] } else remoteRead k off n t
      rejectWords (if t1.host.txn.bus then t1.host.txn.kind else 1) (winAddr k 0x40) (cnt - n) t1) s

def execRemoteRegisterRead (newTxn : Bool) (k off cnt : Nat) (s : State) : Out := .next (remoteRegisterRead newTxn k off cnt s)

/-- Requests of other cars that wait for their answer to leave (R431). -/
def inboundReads (s : State) : Nat := (s.lane.txq.filter fun f => f.ftype == ftControl && be f.payload 0 1 == 6).length

/-- READ_REQ (R431): the far bridge reads its own registers and answers; a seventeenth request finds no room. -/
def readReq (s : State) : State :=
  withCtl 5 (fun m t =>
    let id := be m.payload 2 2
    let w := le m.payload 8 4
    let off := w % 65536
    let n := natBits w 20 16
    if 16 ≤ inboundReads t then ctlSend m.hdr.src .plain (ctlPayload 7 id (be m.payload 4 2) 0 0 (leBytes 4 1)) t
    else ctlSend m.hdr.src .plain
      (ctlPayload 6 id (be m.payload 4 2) 0 0 ((List.range n).flatMap fun i => leBytes 4 (idReg t (off + 4 * i)))) t) s

def execReadReq (s : State) : Out := .next (readReq s)

/-- READ_DATA (R375, R431). -/
def readData (s : State) : State :=
  withCtl 6 (fun m t =>
    match t.host.rdBuf with
    | .waiting k off n id _ _ =>
      if id == be m.payload 2 2 then setRdBuf (.data k off n (bytesWords (m.payload.drop 8)) t.clk.c) t else cntStrm 14 t
    | .idle => cntStrm 14 t
    | .data _ _ _ _ _ => cntStrm 14 t
    | .timedOut _ _ _ => cntStrm 14 t) s

def execReadData (s : State) : Out := .next (readData s)

/-- READ_STATUS (R431, R432): the read ends, and the buffer is free for another try. -/
def readStatus (s : State) : State :=
  withCtl 7 (fun m t =>
    match t.host.rdBuf with
    | .waiting k off _ id _ far =>
      if id == be m.payload 2 2 then logError (winAddr k off) 1 (le m.payload 8 1) far (setRdBuf .idle t) else cntStrm 14 t
    | .idle => cntStrm 14 t
    | .data _ _ _ _ _ => cntStrm 14 t
    | .timedOut _ _ _ => cntStrm 14 t) s

def execReadStatus (s : State) : Out := .next (readStatus s)

/-- REMOTE_READ_TIMEOUT (R431): 100 µs + 2 × TRANSIT_T from the launch of READ_REQ. -/
def remoteReadTimeout (s : State) : State :=
  match s.host.rdBuf with
  | .waiting k off n _ (some t) far =>
    if t + 100000 + 2 * pTransit s ≤ trainTime s then
      logError (winAddr k off) 1 0x0A far (cntStrm 13 (setRdBuf (.timedOut k off n) s))
    else s
  | .waiting _ _ _ _ none _ => s
  | .idle => s
  | .data _ _ _ _ _ => s
  | .timedOut _ _ _ => s

def execRemoteReadTimeout (s : State) : Out := .next (remoteReadTimeout s)

/-- REMOTE_READ_DATA_DISCARD (R375): data that no read claims within 1 ms. -/
def remoteReadDataDiscard (s : State) : State :=
  match s.host.rdBuf with
  | .data _ _ _ _ t => if t + 1000000 ≤ s.clk.c then setRdBuf .idle s else s
  | .waiting _ _ _ _ _ _ => s
  | .idle => s
  | .timedOut _ _ _ => s

def execRemoteReadDataDiscard (s : State) : Out := .next (remoteReadDataDiscard s)

/-! A write to any address of the map (R11, R359, R360). -/

/-- A word written to the identification and status registers. -/
def writeId (a w : Nat) (s : State) : State :=
  if a == 0x1C then softRst w s else if a == 0x24 then s.onHost fun h => { h with page := w % 16 } else s

/-- A word written to a manger channel: read-only offsets ignore it. -/
def writeMang (ch off : Nat) (w : Word) (s : State) : State :=
  if off < 0x40 then inMsgWord ch (off / 4) w s else if off == 0x40 then inCommitWord ch s else s

/-- A word written to the bells, the locks or the interrupt controller. -/
def writeBell (a w : Nat) (s : State) : State :=
  if a == 0x2000 then hostBellClear w s
  else if a == 0x2004 then s.onHost fun h => { h with hostBellMask := w }
  else if a == 0x2008 then fwBellSet w s
  else if 0x2100 ≤ a ∧ a < 0x2180 then lockWrite 1 ((a - 0x2100) / 4) w s
  else if a == 0x2204 then s.onHost fun h => { h with irqEn := w % 64 }
  else if a == 0x2208 then busErrClr w s
  else if 0x2210 ≤ a ∧ a < 0x2220 then eventPendClear ((a - 0x2210) / 4) w s
  else if 0x2220 ≤ a ∧ a < 0x2230 then s.onHost fun h => { h with evMask := setWord32 h.evMask ((a - 0x2220) / 4) w }
  else s

/-- A word written to a remote window: only the proxies take one (R373, R374). -/
def writeWindow (a : Nat) (w : Word) (s : State) : State :=
  let k := (a - 0x100000) / 0x10000
  let off := (a - 0x100000) % 0x10000
  let c := (off - 0x1000) / 0x100
  if off < 0x40 then rejectWord 1 a s
  else if off % 0x100 < 0x40 then proxyWord k c (off % 0x100 / 4) w s
  else if off % 0x100 == 0x40 then proxyCommit k c s
  else s

/-- The effect of an accepted write word. -/
def hostWrite (a : Nat) (w : Word) (s : State) : State :=
  if a < 0x1000 then writeId a w.toNat s
  else if a < 0x2000 then writeMang ((a - 0x1000) / 256) (a % 256) w s
  else if a < 0x3000 then writeBell a w.toNat s
  else if a == 0x3004 then berrClear w.toNat s
  else if a < 0x100000 then s
  else if a < 0x800000 then writeWindow a w s
  else windowAccess (a - 0x800000) (some w) s

def execRegisterWrite (newTxn : Bool) (addr : Nat) (w : Word) (s : State) : Out :=
  .next (hostWord newTxn addr (hostWrite addr w) s)

end Sys2Proof.Machine
end

