-- ==== Sys2Proof/Machine/Stream.lean ====
section
/-!
DEFINITION. The stream port: direction states, credits, the choice of the next frame, inbound frames by channel, the stream
session, and its commands (R415 to R429, R434 to R437, R402).
-/

namespace Sys2Proof.Machine

open Sys2Proof

/-! What waits to be sent (R418, R424, R426). -/

/-- The port is enabled and the device drives it: STARTUP and later states, not BARN or RECOVERY (R417, R434). -/
def strmLive (s : State) : Bool := fwRuns s && bit s.strm.cfg 0 31

/-- The SEQ of the next frame of a channel (R420). -/
def txSeqOf (s : State) (ch : Nat) : Nat := ((s.strm.txSeq.find? fun x => x.1 == ch).map (·.2)).getD 0

/-- 256-byte units a frame occupies (R418). -/
def frameUnits (f : SFrame) : Nat := (sfSize f + 255) / 256

/-- A MESSAGE frame that waits on channel 60 or 61 (R424). -/
def messageWaiting (s : State) (ch : Nat) : Option SFrame :=
  let m := mangOf s (ch - 50)
  if m.outFull then some { ch := ch, seq := 0, param := m.outSession, payload := wordBytes (m.outMsg.take (msgWords m.outMsg)) } else none

/-- The sentence that waits on a channel 32 to 47 (R216). -/
def sentenceWaiting (s : State) (ch : Nat) : Option SFrame :=
  ((lqOf s (ch - 16)).emitting).map fun x => { ch := ch, seq := 0, param := 0, payload := (formBytes s (ch - 16) x).1 }

/-- What waits on a channel that is enabled. -/
def frameOn (s : State) (ch : Nat) : Option SFrame :=
  if !strmEnabled s ch then none
  else if ch == 63 then s.strm.status.head?
  else if ch == 60 || ch == 61 then messageWaiting s ch
  else if 32 ≤ ch ∧ ch ≤ 47 then sentenceWaiting s ch
  else s.strm.queue.find? fun f => f.ch == ch

/-- The order of R426; the sentence channels take turns. -/
def sendOrder (s : State) : List Nat :=
  [63, 60, 61, 49, 50, 51, 48, 52, 53, 54, 55] ++ (List.range 16).map (fun i => 32 + (s.strm.robin + i) % 16) ++ [57, 59]

/-- The next frame starts: it takes its SEQ and leaves the place where it waited, and its first unit takes a credit. A message stays
in its slot, and a sentence in its listener, until the last word has gone. -/
def startFrame (f : SFrame) (s : State) : State :=
  let q := txSeqOf s f.ch
  s.onStrm fun t =>
    { t with
      cur := some { f with seq := q }, curLeft := frameUnits f - 1, credits := t.credits - 1
      txSeq := (f.ch, (q + 1) % 65536) :: t.txSeq.filter fun x => x.1 != f.ch
      robin := if 32 ≤ f.ch ∧ f.ch ≤ 47 then (f.ch - 32 + 1) % 16 else t.robin
      status := if f.ch == 63 then t.status.drop 1 else t.status
      queue := t.queue.eraseP fun g => g.ch == f.ch }

/-- Something waits to be sent. -/
def strmPending (s : State) : Bool :=
  s.strm.cur.isSome && s.strm.curLeft != 0 || s.strm.cur.isNone && (sendOrder s).any fun ch => (frameOn s ch).isSome

/-- CREDIT_TMO runs while something waits without a credit (R419). -/
def noteStarve (s : State) : State := if strmPending s then strmWait s else s.onStrm fun t => { t with starved := none }

/-! Directions (R416, R417). -/

/-- A direction changes state (R417, R436). -/
def setLink (inward : Bool) (l : LinkSt) (s : State) : State :=
  if (if inward then s.strm.si else s.strm.so) == l then s
  else
    let s1 := s.onStrm fun t =>
      if inward then { t with si := l, siDownAt := if t.si == .up then s.clk.c else t.siDownAt } else { t with so := l }
    raise2 117 (b2n inward * 16 + l.code) 0 s1

/-- The frame being sent is lost, and a record that waited for its end takes effect (R434). A MESSAGE frame is sent again, because its
slot is still full (R419). -/
def dropCurrent (s : State) : State :=
  match s.strm.cur with
  | none => s
  | some f =>
    let s1 := s.onStrm fun t => { t with cur := none, curLeft := 0, cfg := t.cfgNext.getD t.cfg, cfgNext := none }
    if 32 ≤ f.ch ∧ f.ch ≤ 47 then modLq (f.ch - 16) (fun l => { l with emitting := none }) s1 else s1

/-- A direction restarts: credits and SEQ begin anew, and a frame in progress is discarded (R417, R418, R420). The
receive buffer is empty between commands, so its 32 credits go back to the stream host at once (log 28). -/
def strmRestart (inward : Bool) (s : State) : State :=
  if inward then s.onStrm fun t => { t with rxSeq := [], crdOut := 32 }
  else (dropCurrent s).onStrm fun t => { t with credits := 0, crdAt := none, starved := none, txSeq := [] }

/-- A direction of a port that is not driven is DOWN; SI enters TRAINING once the port is live and its clock is present (R417). -/
def strmDir (inward : Bool) (s : State) : State :=
  let l := if inward then s.strm.si else s.strm.so
  if !strmLive s then (if l == .down then s else setLink inward .down (strmRestart inward s))
  else if inward && s.strm.siClk && l == .down then setLink inward .training (strmRestart inward s)
  else s

/-- Both directions follow the port's enable, its clock and the device state, and CREDIT_TMO what waits (R417, R419). -/
def strmSettle (s : State) : State :=
  let s1 := strmDir true (strmDir false s)
  if strmLive s1 then noteStarve s1 else s1.onStrm fun t => { t with starved := none }

/-- STREAM_CLOCK_CHANGE (R417). The clock of SI is there or not whatever the device does; that of SO is the device's own. -/
def streamClockChange (inward present : Bool) (s : State) : State :=
  let s1 := if inward then s.onStrm fun t => { t with siClk := present } else s
  if !strmLive s1 then s1
  else if !present then strmSettle (setLink inward .down (strmRestart inward s1))
  else if (if inward then s1.strm.si else s1.strm.so) == .down then strmSettle (setLink inward .training (strmRestart inward s1))
  else s1

def execStreamClockChange (inward present : Bool) (s : State) : Out := .next (streamClockChange inward present s)

/-- STREAM_ALIGNED (R417). -/
def streamAligned (inward : Bool) (s : State) : State :=
  if strmLive s && (if inward then s.strm.si else s.strm.so) == .training then setLink inward .up s else s

def execStreamAligned (inward : Bool) (s : State) : Out := .next (streamAligned inward s)

/-- STREAM_RESTART (R417). -/
def streamRestart (inward : Bool) (s : State) : State :=
  if strmLive s && (if inward then s.strm.si else s.strm.so) != .down then strmSettle (strmRestart inward s) else s

def execStreamRestart (inward : Bool) (s : State) : Out := .next (streamRestart inward s)

/-- STREAM_FRAMING_ERROR (R416). -/
def streamFramingError (s : State) : State :=
  if !strmLive s || s.strm.si == .down then s
  else setLink true .training (raiseFirst 11802 118 2 (cntStrm 3 s))

def execStreamFramingError (s : State) : Out := .next (streamFramingError s)

/-! Credits (R418, R419). -/

/-- CREDIT_TRANSITION (R418): counted at least 12.8 ns after the one before. -/
def creditTransition (s : State) : State :=
  let late := match s.strm.crdAt with | some t => decide (t + 128 ≤ 10 * s.clk.c) | none => true
  if strmLive s && late then
    s.onStrm fun t => { t with credits := min 32 (t.credits + 1), crdAt := some (10 * s.clk.c), starved := none }
  else s

def execCreditTransition (s : State) : Out := .next (creditTransition s)

/-- CREDIT_TIMEOUT (R419). -/
def creditTimeout (s : State) : State :=
  match s.strm.starved with
  | none => s
  | some t =>
    if strmLive s && s.strm.credits == 0 && decide (t + bits s.strm.cfg 0 15 8 * 1000000 ≤ s.clk.c) then
      raise 118 (((s.strm.cur.map (·.ch)).getD 0) * 256 + 4) (cntStrm 8 (strmSettle (strmRestart false s)))
    else s

def execCreditTimeout (s : State) : Out := .next (creditTimeout s)

/-! Sending (R418, R424, R426). -/

/-- STREAM_FRAME_SEND (R418, R426): the next unit of the frame in progress, or the first of the next frame. -/
def streamFrameSend (s : State) : State :=
  if !strmLive s || s.strm.so != .up || s.strm.credits == 0 then s
  else match s.strm.cur with
    | some _ =>
      if s.strm.curLeft == 0 then s
      else noteStarve (s.onStrm fun t => { t with curLeft := t.curLeft - 1, credits := t.credits - 1 })
    | none =>
      match (sendOrder s).findSome? (frameOn s) with
      | none => s
      | some f => noteStarve (startFrame f s)

def execStreamFrameSend (s : State) : Out := .next (streamFrameSend s)

/-- TYPE of an outbound channel (R421). -/
def strmType (ch : Nat) : Nat :=
  if ch < 32 then 1 else if ch < 48 then 2 else if ch == 48 then 3 else if ch < 52 then 4 else if ch < 56 then 5 else if ch < 58 then 6
  else if ch == 58 then 7 else if ch == 59 then 8 else if ch < 62 then 9 else 10

/-- The bytes of a frame: header, payload padded to words, and the CRC-32 of both (R420). -/
def sframeBytes (f : SFrame) : List Byte :=
  let body := leBytes 4 (f.ch % 64 * 2 ^ 26 + strmType f.ch * 2 ^ 22 + f.payload.length % 32768) ++ leBytes 4 (f.seq % 65536 * 65536 + f.param % 65536)
    ++ padTo (roundUp f.payload.length 4) f.payload
  body ++ leBytes 4 (crc32 body).toNat

/-- STREAM_FRAME_END (R424, R434): the LAST word has gone. A record that waited for the end takes effect. -/
def streamFrameEnd (s : State) : State :=
  match s.strm.cur with
  | none => s
  | some f =>
    if s.strm.curLeft != 0 then s
    else
      let s1 := cntStrm 1 (s.onStrm fun t => { t with cur := none, cfg := t.cfgNext.getD t.cfg, cfgNext := none, lastFrame := sframeBytes f })
      let s2 := if f.ch == 60 || f.ch == 61 then modMang (f.ch - 50) (fun m => { m with outFull := false, outSender := 0, outSession := 0 }) s1
        else if 32 ≤ f.ch ∧ f.ch ≤ 47 then cntLstn (f.ch - 16) 1 (modLq (f.ch - 16) (fun l => { l with emitting := none }) s1)
        else s1
      strmSettle (if f.ch == 48 then cntEvBy 5 f.param s2 else s2)

def execStreamFrameEnd (s : State) : Out := .next (streamFrameEnd s)

/-! Receiving (R420, R421, R425). -/

/-- Channels that some inbound row serves. -/
def inChannel (ch : Nat) : Bool :=
  decide (ch < 32) || (decide (52 ≤ ch) && decide (ch ≤ 56)) || ch == 58 || ch == 59 || ch == 60 || ch == 61

/-- The units of a received frame have left the buffer, and their credits go back (R418, R419). -/
def giveCredits (f : SHdr) (s : State) : State := s.onStrm fun t => { t with crdOut := t.crdOut + (12 + (f.len + 3) / 4 * 4 + 255) / 256 }

/-- The SEQ of an inbound frame is noted, and a gap counts (R420). Its credits go back, whatever its channel does with it (R419). -/
def noteSeq (f : SHdr) (s0 : State) : State :=
  let s := giveCredits f s0
  let e := ((s.strm.rxSeq.find? fun x => x.1 == f.ch).map (·.2)).getD 0
  let s1 := s.onStrm fun t => { t with rxSeq := (f.ch, (f.seq + 1) % 65536) :: t.rxSeq.filter fun x => x.1 != f.ch }
  if f.seq == e then s1 else cntStrm 4 s1

/-- A frame is refused with a status. -/
def strmRefuse (f : SHdr) (status detail : Nat) (s : State) : State := strmStatus f.ch f.seq status detail s

/-- A frame is accepted. -/
def strmAccept (s : State) : State := cntStrm 0 s

/-- The stream session has the privilege to change what the train or the yard sees (R421). -/
def strmOperate (s : State) : Bool := s.strm.priv == .operate || s.strm.priv == .service

/-- A received frame: its CRC, its SEQ, the checks common to every channel, then what its own channel does with it. `own` tells the
channels of the row; `params` is the limit of PARAM. A STATUS frame of the stream host needs nothing done. -/
def strmIn (own : Nat → Bool) (type minLen : Nat) (param0 : Bool) (body : SHdr → List Byte → State → State)
    (f : SHdr) (p : List Byte) (crcOk : Bool) (s : State) : State :=
  if !strmLive s || s.strm.si != .up || (inChannel f.ch && !own f.ch) then s
  else if !crcOk then strmStatus f.ch 0 0x0C 0 (raiseFirst 11801 118 (f.ch * 256 + 1) (cntStrm 2 (giveCredits f s)))
  else
    let s1 := noteSeq f s
    if f.ch == 63 && f.type == 0xA && f.len == 8 && strmEnabled s 63 then strmAccept s1
    else if !own f.ch || !strmEnabled s f.ch || f.type != type || f.rsv != 0 || f.len != p.length || f.len < minLen || 16384 < f.len
        || (param0 && f.param != 0) then strmRefuse f 3 0 s1
    else body f p s1

/-- STREAM_SUBMIT (R195, R421). -/
def streamSubmit (f : SHdr) (p : List Byte) (crcOk : Bool) (s : State) : State :=
  strmIn (fun ch => decide (ch < 32)) 1 0 true (fun f p t =>
    let i := parseItems p.length p
    if !i.2 then strmRefuse f 3 0 t
    else if !strmOperate t then strmRefuse f 4 0 t
    else if !tkEnable (t.sent.talkers.getD (16 + f.ch) []) then strmRefuse f 5 0 t
    else strmAccept (submitAll (16 + f.ch) i.1 t)) f p crcOk s

def execStreamSubmit (f : SHdr) (payload : List Byte) (crcOk : Bool) (s : State) : Out := .next (streamSubmit f payload crcOk s)

/-- The HOST frame of an inbound HOST stream frame (R55, R423). -/
def hostFrame (s : State) (w : Nat) (data : List Byte) : TxFrame :=
  let all := natBit w 31
  { ftype := ftHost, prio := bits s.strm.cfg 3 31 29, grp := false, all := all, dst := if all then 0x3FFF else w % 16384,
    open_ := false, tag := .plain, payload := beBytes 2 s.strm.session ++ beBytes 2 (natBits w 29 24) ++ data }

/-- STREAM_HOST_IN (R423). -/
def streamHostIn (f : SHdr) (p : List Byte) (crcOk : Bool) (s : State) : State :=
  strmIn (fun ch => decide (52 ≤ ch) && decide (ch ≤ 55)) 5 4 true (fun f p t =>
    let w := le p 0 4
    if 1996 < p.length || natBits w 29 24 < 52 || 55 < natBits w 29 24 || natBit w 30 || natBits w 23 14 != 0 then strmRefuse f 3 0 t
    else if !strmOperate t then strmRefuse f 4 0 t
    else if !(onTrain t && admitted t) then strmRefuse f 5 0 t
    else strmAccept (trainSend (hostFrame t w (p.drop 4)) t)) f p crcOk s

def execStreamHostIn (f : SHdr) (payload : List Byte) (crcOk : Bool) (s : State) : Out := .next (streamHostIn f payload crcOk s)

/-- STREAM_YARD_IN (R421). -/
def streamYardIn (f : SHdr) (p : List Byte) (crcOk : Bool) (s : State) : State :=
  strmIn (fun ch => ch == 56) 6 14 false (fun f p t =>
    if 5 < f.param then strmRefuse f 3 0 t
    else if !strmOperate t then strmRefuse f 4 0 t
    else if !t.yard.link then strmRefuse f 5 0 t
    else strmAccept (rawSend f.param p t)) f p crcOk s

def execStreamYardIn (f : SHdr) (payload : List Byte) (crcOk : Bool) (s : State) : Out := .next (streamYardIn f payload crcOk s)

/-! DMA (R421, R425, R429). -/

/-- The stream session may access a piece (R362). -/
def dmaAllows (s : State) (write : Bool) (a n : Nat) : Bool := decide (a + n ≤ loftSize) && windowAllows s s.strm.priv a write

/-- Data written word by word from an address on, as master 2. -/
def dmaPut (a : Nat) : List Byte → State → State
  | b0 :: b1 :: b2 :: b3 :: r, s => dmaPut (a + 4) r (windowWrite 2 a (le [b0, b1, b2, b3] 0 4) s)
  | [], s => s
  | p, s => loftWrite a p 2 s

/-- The pieces of a write, up to the first that fails. -/
def dmaWriteAll (f : SHdr) (p : List Byte) (base : Nat) : List (Nat × Nat) → State → State
  | [], s => strmAccept s
  | (a, n) :: r, s =>
    if !dmaAllows s true a n then strmRefuse f 4 0 s
    else dmaWriteAll f p base r (dmaPut a ((p.drop (a - base)).take n) s)

/-- DMA_WRITE. -/
def dmaWrite (f : SHdr) (p : List Byte) (crcOk : Bool) (s : State) : State :=
  strmIn (fun ch => ch == 58) 7 5 true (fun f p t =>
    let a := le p 0 4
    if a % 4 != 0 then strmRefuse f 3 0 t
    else dmaWriteAll f (p.drop 4) a (dmaPieces a (p.length - 4)) (noteCuts a (p.length - 4) t)) f p crcOk s

def execDmaWrite (f : SHdr) (payload : List Byte) (crcOk : Bool) (s : State) : Out := .next (dmaWrite f payload crcOk s)

/-- Reads in progress: their data frames have not gone yet. -/
def dmaReads (s : State) : Nat :=
  (s.strm.queue.filter fun f => f.ch == 59).length + b2n ((s.strm.cur.map (·.ch)) == some 59)

/-- The words of a range, as the window reads them. -/
def windowBytes (s : State) (a n : Nat) : List Byte := (List.range (n / 4)).flatMap fun i => leBytes 4 (windowWord s (a + 4 * i))

/-- The pieces of a read, up to the first that fails: the bytes, or the status. -/
def dmaReadAll : List (Nat × Nat) → List Byte → State → (List Byte ⊕ Nat × Nat) × State
  | [], acc, s => (.inl acc, s)
  | (a, n) :: r, acc, s =>
    if !dmaAllows s false a n then (.inr (4, 0), s)
    else
      let x := loftCheck a n 2 s
      if !x.1 then (.inr (0x0C, 1), x.2)
      else dmaReadAll r (acc ++ windowBytes x.2 a n) (if regionOf s a == 2 then tookFree x.2 else x.2)

/-- DMA_READ. -/
def dmaRead (f : SHdr) (p : List Byte) (crcOk : Bool) (s : State) : State :=
  strmIn (fun ch => ch == 59) 8 8 true (fun f p t =>
    let a := le p 0 4
    let n := le p 4 4
    if p.length != 8 || a % 4 != 0 || n % 4 != 0 || n < 4 || 16384 < n then strmRefuse f 3 0 t
    else if 4 ≤ dmaReads t then strmRefuse f 1 0 t
    else
      let r := dmaReadAll (dmaPieces a n) [] (noteCuts a n t)
      match r.1 with
      | .inl d => strmPush { ch := 59, seq := 0, param := f.seq, payload := d } (strmAccept (prefetch (a + n) 2 r.2))
      | .inr e => strmRefuse f e.1 e.2 r.2) f p crcOk s

def execDmaRead (f : SHdr) (payload : List Byte) (crcOk : Bool) (s : State) : Out := .next (dmaRead f payload crcOk s)

/-! Messages and the stream session (R424). -/

/-- STREAM_MESSAGE_IN (R424). -/
def streamMessageIn (f : SHdr) (p : List Byte) (crcOk : Bool) (s : State) : State :=
  strmIn (fun ch => ch == 60 || ch == 61) 9 4 false (fun f p t =>
    let ch := f.ch - 50
    let ws := bytesWords p
    let own := f.param != 0 && f.param == t.strm.session
    if p.length % 4 != 0 || 64 < p.length then strmRefuse f 3 0 t
    else if !own && !(f.param == 0 && sessionFree.contains (msgCode ws)) then strmRefuse f 5 0 t
    else if (mangOf t ch).inFull then strmRefuse f 1 0 t
    else strmAccept (commitIn ch 2 f.param (if own then t.strm.priv else .observe)
      (modMang ch (fun m => { m with inMsg := ws ++ m.inMsg.drop ws.length }) t))) f p crcOk s

def execStreamMessageIn (f : SHdr) (payload : List Byte) (crcOk : Bool) (s : State) : Out := .next (streamMessageIn f payload crcOk s)

/-- STREAM_SESSION_TIMEOUT (R424): as a host reset, with the fence (R380, R381). -/
def streamSessionTimeout (s : State) : State :=
  let old := s.strm.session
  if old == 0 || s.strm.si == .up || s.clk.c < s.strm.siDownAt + 10000000000 then s
  else
    let chans := [10, 11]
    let outs := (chans.map (outCount s)).sum
    let ins := (chans.filter fun ch => (mangOf s ch).inFull).length
    let s1 := each chans fenceIn (each chans resetOut s)
    let s2 := s1.onStrm fun t => { t with session := 0, priv := .observe, scope := 0, operKey := 0 }
    let s3 := s2.onHost fun h =>
      { h with
        dead := if h.dead.contains old then h.dead else old :: h.dead
        locks := h.locks.map fun o => if o == 2 then 0 else o
        fwBell := h.fwBell ||| 2 ^ 31 }
    let s4 := s3.onCmd fun q => { q with parcels := q.parcels.filter fun p => p.session != old }
    raise 112 (old * 65536 + 3) (dropEvent ins 3 (dropEvent outs 2 (operEnd (operHeld s.strm.priv s.strm.operKey) s4)))

def execStreamSessionTimeout (s : State) : Out := .next (streamSessionTimeout s)

/-! Commands (R402, R434, R435). -/

/-- The checks of the stream record: the first word that offends (R434). -/
def strmCheck (r : List Word) : Option Nat :=
  firstBad [rsv r 0 30 16, rsv r 0 7 0, (bit r 0 31 && bits r 0 15 8 == 0, 0), (bit r 2 30, 2), (bit r 0 31 && !bit r 2 31, 2), rsv r 3 28 8]

/-- A stream record takes effect at once, or after the frame in progress when it disables its channel or the port (R434). -/
def strmApply (r : List Word) (s : State) : State :=
  let off := match s.strm.cur with
    | some f => !(bit r 0 31 && (if f.ch < 32 then bit r 1 f.ch else bit r 2 (f.ch - 32)))
    | none => false
  strmSettle (s.onStrm fun t => if off then { t with cfgNext := some r } else { t with cfg := r, cfgNext := none })

/-- STREAM_SET. -/
def cmdStreamSet (c : Ctx) (s : State) : State :=
  if wd c.words 2 != 16 then badParam c 2 0 s
  else readParcel 1 (fun p t =>
    match strmCheck (bytesWords p) with
    | some i => badParam c i 0 t
    | none => replyOk c [] (strmApply (bytesWords p) t)) c s

def execStreamSet (via : Via) (s : State) : Out := .next (firmware 0x902 3 .config cmdStreamSet via s)

/-- STREAM_STATUS (R435). -/
def cmdStreamStatus (c : Ctx) (s : State) : State :=
  replyOk c [s.strm.so.code * 2 ^ 30 + s.strm.si.code * 2 ^ 28 + s.strm.credits % 64 * 2 ^ 22 + s.strm.session % 65536,
    ((List.range 32).map fun n => b2n (frameOn s (32 + n)).isSome * 2 ^ n).sum] s

def execStreamStatus (via : Via) (s : State) : Out := .next (firmware 0x901 1 .observe cmdStreamStatus via s)

end Sys2Proof.Machine
end

