-- ==== Sys2Proof/Machine/Events.lean ====
section
/-!
DEFINITION. Events that come and go: the stream frame of events, EVENT frames of other cars, the recorder's collector, and the
commands RECORDER_READ and ROUTE_SET (R442 to R454).
-/

namespace Sys2Proof.Machine

open Sys2Proof

/-- The hayloft and the recorder work: the device is out of OFF, RESET and BARN, and past the initialisation in BOOT. -/
def loftRuns (s : State) : Bool := fwRuns s || s.sys.dev == .recovery

/-- EVENT_STREAM_FRAME_CLOSE (R445). -/
def eventStreamFrameClose (s : State) : State :=
  if !s.strm.evFrame.isEmpty && (decide (255 ≤ s.strm.evFrame.length) || decide (s.strm.evFirst + 1000 ≤ s.clk.c)) then strmCloseEvents s
  else s

def execEventStreamFrameClose (s : State) : Out := .next (eventStreamFrameClose s)

/-! EVENT frames (R446). -/

/-- The record of an EVENT frame at an offset, with its ESEQ. -/
def eventAt (p : List Byte) (off : Nat) : Event × Nat :=
  let w0 := le p off 4
  ({ sysSrc := w0 % 2 ^ 21, code := le p (off + 4) 4 / 2 ^ 24, data := le p (off + 12) 4, data2 := le p (off + 16) 4, remote := true,
     stamp := { s32 := le p (off + 8) 4, ep := w0 / 2 ^ 24, sync := natBit w0 23 } }, le p (off + 20) 4)

/-- The payload of an EVENT frame keeps its layout. -/
def eventFrameOk (p : List Byte) : Bool :=
  let n := be p 0 1
  decide (1 ≤ n) && decide (n ≤ 83) && zeros p 1 3 && p.length == 4 + 24 * n
    && (List.range n).all fun i => !natBit (le p (4 + 24 * i) 4) 21 && le p (8 + 24 * i) 4 % 2 ^ 24 == 0

/-- One remote event by the remote word: stream, recorder and bell, and nothing else. -/
def remoteEvent (x : Event × Nat) (s : State) : State :=
  let w := s.ev.remote.toNat
  let s1 := cntEv 7 s
  let s2 := when' (natBit w 30 && decide (natBits w 28 24 < 24)) (ringHost (natBits w 28 24)) s1
  let s3 := when' (natBit w 23) (fun t => let u := evToStream x.1 x.2 t; if 255 ≤ u.strm.evFrame.length then strmCloseEvents u else u) s2
  when' (natBit w 22) (recordEvent x.1) s3

/-- EVENT_FRAME_RECEIVE. -/
def eventFrameReceive (s : State) : State :=
  withMsg (fun m => m.hdr.ftype == ftEvent) (fun m t =>
    if !eventFrameOk m.payload then cntEv 9 t
    else each ((List.range (be m.payload 0 1)).map fun i => eventAt m.payload (4 + 24 * i)) remoteEvent t) s

def execEventFrameReceive (s : State) : Out := .next (eventFrameReceive s)

/-! The recorder (R449, R451). -/

/-- A LOST record (R448). -/
def lostRec (s : State) (src n : Nat) : Rec :=
  { seq := 0, kind := 2, remote := false, source := sysSource s 0, code := 0, rep := min n 0xFFFFFF, data := src % 2 ^ 21, touch := 0, data2 := 0 }

/-- The oldest entry is folded or written. -/
def takeEntry (c : ColEntry) (s : State) : State :=
  match c with
  | .event e n => recFold e (n + 1) s
  | .lost src n => recWrite (lostRec s src n) s
  | .mark r => recWrite r s

/-- An entry has freed: what was lost since the collector filled takes its place (R451, R453). -/
def placeLost (s : State) : State :=
  if s.ev.lostN == 0 || 256 ≤ colCount s.ev.collector then s
  else
    let n := s.ev.lostN
    raiseCode 127 1 (min n 0xFFFFFF) 0 (s.onEv fun v => { v with collector := v.collector ++ [.lost v.lostSrc n], lostN := 0 })

/-- RECORDER_TAKE (R451). -/
def recorderTake (s : State) : State :=
  if !loftRuns s then s
  else match s.ev.collector with
    | [] => s
    | c :: r => placeLost (takeEntry c (s.onEv fun v => { v with collector := r }))

def execRecorderTake (s : State) : Out := .next (recorderTake s)

/-- The collector is written out, as on entry to BRACED and to BARN (R475, R488). -/
def flushCollector : Nat → State → State
  | 0, s => s
  | n + 1, s =>
    match s.ev.collector with
    | [] => s
    | c :: r => flushCollector n (placeLost (takeEntry c (s.onEv fun v => { v with collector := r })))

/-- Events that wait for their routes, and the collector, are written out before the device goes on (R451, R475, R488). -/
def writeOut (s : State) : State :=
  let t := flushEvents s
  flushEvents (flushCollector (2 * t.ev.collector.length + 2) t)

/-! RECORDER_READ and ROUTE_SET (R404). -/

/-- The records that are retained: the first sequence number and how many (R447). -/
def retained (s : State) : Nat × Nat :=
  let n := min s.ev.recCount (regionSize s 3 / 32)
  (s.ev.recSeq - n, n)

/-- Records from a sequence number on, at most k; one that cannot be read is left out (R458). -/
def readRecords (seq : Nat) : Nat → State → List (Nat × List Byte) × State
  | 0, s => ([], s)
  | k + 1, s =>
    if s.ev.recSeq ≤ seq then ([], s)
    else
      let r := loftCheck (recAddr s seq) 32 coreId s
      if r.1 then
        let x := readRecords (seq + 1) k r.2
        ((seq, loftBytes (recAddr s seq) 32 s) :: x.1, x.2)
      else readRecords (seq + 1) k r.2

/-- RECORDER_READ. The sequence number of the first record copied is a free value when none is (log 27). -/
def cmdRecorderRead (c : Ctx) (s : State) : State :=
  withParcel 4 (fun _ n t =>
    let first := max (wd64 c.words 1) (retained t).1
    let x := readRecords first (min (wd c.words 3) (n / 32 + 1)) t
    writeItems 4 (x.1.map (·.2)) (fun k u =>
      let seq := match x.1 with | y :: _ => if k == 0 then freeNat 64 u else y.1 | [] => freeNat 64 u
      replyOk c [seq % 2 ^ 32, seq / 2 ^ 32 % 2 ^ 32, k, (t.ev.recSeq - 1) % 2 ^ 32, (t.ev.recSeq - 1) / 2 ^ 32]
        (if k == 0 then tookFree u else u)) c x.2) c s

def execRecorderRead (via : Via) (s : State) : Out := .next (firmware 0xA01 6 .observe cmdRecorderRead via s)

/-- A routing word is refused (R442, R444). -/
def routeBad (dest w : Nat) : Bool :=
  natBit w 29 || natBits w 18 0 != 0 || decide (23 < natBits w 28 24) || (natBits w 20 19 == 3 && dest == 0)

/-- ROUTE_SET (R442): events raised before it go by the old word. -/
def cmdRouteSet (c : Ctx) (s : State) : State :=
  if 127 < wd c.words 1 then badParam c 1 0 s
  else if routeBad s.ev.dest (wd c.words 2) then badParam c 2 0 s
  else replyOk c [] ((flushEvents s).onEv fun v => { v with routes := v.routes.set (wd c.words 1) (wordOf (wd c.words 2)) })

def execRouteSet (via : Via) (s : State) : Out := .next (firmware 0xA02 3 .config cmdRouteSet via s)

end Sys2Proof.Machine
end

