-- ==== Sys2Proof/Machine/Loft.lean ====
section
/-!
DEFINITION. The hayloft's write-back and patrol scrub, parcels, flash slots and operations, and the diagnostic commands
(R389, R390, R404, R405, R455 to R469).
-/

namespace Sys2Proof.Machine

open Sys2Proof

/-! Write-back and scrub (R457, R459, R460). -/

/-- HAYLOFT_WRITE_BACK (R457): paused while BRACED is set (R460). -/
def hayloftWriteBack (s : State) : State :=
  if !loftRuns s || s.sys.braced then s
  else match s.loft.writeBack with
    | [] => s
    | cw :: r => s.onLoft fun l => { l with writeBack := r, damage := l.damage.filter fun d => !(d.1 == cw && d.2 == .one) }

def execHayloftWriteBack (s : State) : Out := .next (hayloftWriteBack s)

/-- Codewords of the hayloft. -/
def codewordCount : Nat := loftSize / 16

/-- Damage that a codeword has suffered: 1 = one symbol, 2 = two symbols. A poisoned or worse codeword stays so. -/
def suffer (cw found : Nat) (l : LoftSt) : LoftSt :=
  match found, l.damage.find? fun d => d.1 == cw with
  | 0, _ => l
  | 1, none => { l with damage := (cw, .one) :: l.damage }
  | 1, some _ => l
  | _, none => { l with damage := (cw, .two) :: l.damage }
  | _, some (_, .one) => { l with damage := (cw, .two) :: l.damage.filter fun d => d.1 != cw }
  | _, some (_, .two) => l
  | _, some (_, .poisoned) => l

/-- The scrub reads its codeword: a correction waits for its write-back, and an uncorrectable one is reported with the scrub as
reader (DATA2 [8], R468). -/
def scrubWord (cw : Nat) (s : State) : State := (loftCheck (16 * cw) 16 256 s).2

/-- SCRUB_READ (R459): the next codeword, and at the last one the end of the pass. -/
def scrubRead (found : Nat) (s : State) : State :=
  if !loftRuns s || s.sys.braced then s
  else
    let cw := s.loft.scrubPos
    let s1 := scrubWord cw (s.onLoft (suffer cw found))
    if cw + 1 < codewordCount then s1.onLoft fun l => { l with scrubPos := cw + 1 }
    else
      let n := satAdd 1 s1.loft.passes
      raise 106 (n % 2 ^ 24 * 256 + 1)
        (cntLoft 14 (s1.onLoft fun l => { l with scrubPos := 0, scrubAt := s.clk.c, overdue := false, passes := n }))

def execScrubRead (found : Nat) (s : State) : Out := .next (scrubRead found s)

/-- SCRUB_OVERDUE (R459): 1.25 × SCRUB_H after the pass began. -/
def scrubOverdue (s : State) : State :=
  if loftRuns s && !s.loft.overdue && decide (s.loft.scrubAt + s.loft.scrubH * 4500000000000 ≤ s.clk.c) then
    raise 106 (s.loft.passes % 2 ^ 24 * 256 + 2) (s.onLoft fun l => { l with overdue := true })
  else s

def execScrubOverdue (s : State) : Out := .next (scrubOverdue s)

/-- HAYLOFT_STATUS (R467). -/
def cmdHayloftStatus (c : Ctx) (s : State) : State :=
  let mibs := fun r => regionSize s r / mib
  replyOk c [b2n s.loft.dflt * 2 ^ 31 + b2n s.sys.braced * 2 ^ 30 + s.loft.scrubPos * 65536 / codewordCount, s.loft.passes,
    mibs 0 * 2 ^ 24 + mibs 1 * 2 ^ 16 + mibs 2 * 256 + mibs 3, mibs 4 * 2 ^ 24 + mibs 5 * 2 ^ 16, s.loft.lastUe] s

def execHayloftStatus (via : Via) (s : State) : Out := .next (firmware 0xB03 1 .observe cmdHayloftStatus via s)

/-! Parcels (R390, R404). -/

/-- The ranges between reservations: start and length. -/
def gapsFrom (at_ stop : Nat) : List Parcel → List (Nat × Nat)
  | [] => [(at_, stop - at_)]
  | p :: r => (at_, p.addr - at_) :: gapsFrom (p.addr + p.len) stop r

/-- The ranges of the host parcels region that no session has reserved. -/
def parcelGaps (s : State) : List (Nat × Nat) := gapsFrom (regionBase s 5) loftSize (sortBy (·.addr) s.cmd.parcels)

/-- Places for n bytes at 64-byte steps, counted through the gaps. -/
def placesIn (n : Nat) (g : Nat × Nat) : Nat := if n ≤ g.2 then (g.2 - n) / 64 + 1 else 0

/-- The k-th place. -/
def placeAt (n : Nat) : Nat → List (Nat × Nat) → Option Nat
  | _, [] => none
  | k, g :: r => if k < placesIn n g then some (g.1 + 64 * k) else placeAt n (k - placesIn n g) r

/-- PARCEL_ALLOC (R390): which free range it takes is not stated, so the place is a free value (log 27). -/
def cmdParcelAlloc (c : Ctx) (s : State) : State :=
  let n := wd c.words 1
  let gaps := parcelGaps s
  let total := (gaps.map (placesIn n)).sum
  if n == 0 || n % 64 != 0 then badParam c 1 0 s
  else match placeAt n (freeNat 32 s % total) gaps with
    | none => noSpace c (n - gaps.foldl (fun a g => max a g.2) 0) s
    | some a =>
      replyOk c [a] ((tookFree s).onCmd fun q => { q with parcels := { addr := a, len := n, session := sessKey s c } :: q.parcels })

def execParcelAlloc (via : Via) (s : State) : Out := .next (firmware 0xB01 2 .operate cmdParcelAlloc via s)

/-- PARCEL_FREE. -/
def cmdParcelFree (c : Ctx) (s : State) : State :=
  let mine := fun (p : Parcel) => p.addr == wd c.words 1 && p.session == sessKey s c
  if s.cmd.parcels.any mine then replyOk c [] (s.onCmd fun q => { q with parcels := q.parcels.filter fun p => !mine p })
  else notFound c s

def execParcelFree (via : Via) (s : State) : Out := .next (firmware 0xB02 2 .operate cmdParcelFree via s)

/-! Diagnostics (R404). -/

/-- DIAG_READ. -/
def cmdDiagRead (c : Ctx) (s : State) : State := replyOk c [tc 32 s.sys.dieTemp, s.sys.vin, tc 32 s.sys.fieldTemp] s

def execDiagRead (via : Via) (s : State) : Out := .next (firmware 0xF01 1 .observe cmdDiagRead via s)

/-- A bypass output takes a level. -/
def setBypass (endB : Bool) (l : PinLevel) (s : State) : State :=
  s.onSys fun x => if endB then { x with bypassB := l } else { x with bypassA := l }

/-- LOOPBACK (R25, R39): the coupler under test is bypassed. -/
def cmdLoopback (c : Ctx) (s : State) : State :=
  let w := wd c.words 1
  let b := natBit w 0
  if 3 < w then badParam c 1 0 s
  else if s.sys.dev != .test then stateError c s
  else if natBit w 1 then replyOk c [] (setBypass b .low (setEnd b .loopback s))
  else if (endOf s b).st != .loopback then replyOk c [] s
  else replyOk c [] (endUpdate b (setBypass b .high (setEnd b .down (onEnd b (fun e => { e with prbs := false }) s))))

def execLoopback (via : Via) (s : State) : Out := .next (firmware 0xF02 2 .service cmdLoopback via s)

/-- LANE_PRBS: the bits checked and the errors are what the lane finds, free values of the model (log 2). -/
def cmdLanePrbs (c : Ctx) (s : State) : State :=
  let w := wd c.words 1
  let b := natBit w 0
  if 3 < w then badParam c 1 0 s
  else if s.sys.dev != .test || (endOf s b).st != .loopback then stateError c s
  else if natBit w 1 then replyOk c [0, 0, 0] (onEnd b (fun e => { e with prbs := true }) s)
  else if !(endOf s b).prbs then replyOk c [0, 0, 0] s
  else
    let f := freeNat 96 s
    replyOk c [f % 2 ^ 32, f / 2 ^ 32 % 2 ^ 32, f / 2 ^ 64] (tookFree (onEnd b (fun e => { e with prbs := false }) s))

def execLanePrbs (via : Via) (s : State) : Out := .next (firmware 0xF03 2 .service cmdLanePrbs via s)

/-! Flash slots (R299, R300, R306, R307, R404, R405, R464 to R466). -/

/-- What stands in a slot. -/
def slotOf (s : State) (n : Nat) : Slot := s.flash.slots.getD n { valid := false, words := [] }

/-- The first flash byte of a slot (R464). -/
def slotAddr (n : Nat) : Nat := if n == 0 then 0 else if n == 1 then 0x400000 else if n == 2 then 0x800000 else 0xA00000

/-- The size of a slot. -/
def slotSize (n : Nat) : Nat := if n < 2 then 4 * mib else 2 * mib

/-- The bytes a firmware measurement covers: header and body (R299). -/
def imageCore (p : List Byte) : List Byte := p.take (32 + le p 12 4)

/-- A firmware image keeps the layout of R299. -/
def imageForm (p : List Byte) : Bool :=
  let co := natBit (le p 8 4) 0
  decide (32 ≤ p.length) && le p 0 4 == 0x57464E4B && decide (le p 8 4 / 2 ^ 24 ≤ 64) && natBits (le p 8 4) 23 1 == 0 && zeros p 16 16
    && p.length == 32 + le p 12 4 + 384 + b2n co * 384 && decide (p.length ≤ 4 * mib)

/-- The floor of recipe sequences that the enrolment record holds (R296, R307). -/
def recipeFloor (s : State) : Nat := ((enrolled s).map (·.floor)).getD 0

/-- A container's header as far as SLOT_WRITE needs it: its length is that of the parcel. -/
def containerForm (p : List Byte) : Bool :=
  decide (416 ≤ p.length) && le p 0 4 == 0x43524E4B && le p 6 2 == 1 && le p 8 4 == p.length && decide (p.length ≤ 2 * mib)

/-- Why an image or container is refused before its signature is known, if it is: SIGNATURE or STALE_GENERATION (R405), in RECOVERY always SIGNATURE (R302). -/
def slotRefusal (s : State) (n : Nat) (p : List Byte) : Option (Nat × Nat) :=
  if n < 2 then
    if !imageForm p then some (9, 0)
    else if le p 8 4 / 2 ^ 24 < s.sec.arb then some (if s.sys.dev == .recovery then (9, 0) else (8, s.sec.arb))
    else if ((enrolled s).map (·.cosign)).getD false && !natBit (le p 8 4) 0 then some (9, 0)
    else none
  else if !containerForm p then some (9, 0)
  else if le p 12 4 < recipeFloor s then some (8, recipeFloor s % 65536)
  else none

/-- The slot holds what runs or is loaded (R405). -/
def slotInUse (s : State) (n : Nat) : Bool :=
  if n < 2 then s.sys.running == some (n == 1) else s.rcp.loaded && s.rcp.slotB == (n == 3)

/-- SLOT_WRITE (R405): the signatures are checked by the public unit before anything is written. -/
def cmdSlotWrite (c : Ctx) (s : State) : State :=
  let n := wd c.words 1
  if 3 < n then badParam c 1 0 s
  else readParcel 2 (fun p t =>
    if slotInUse t n || (t.sys.dev == .recovery && 2 ≤ n) then stateError c t
    else match slotRefusal t n p with
      | some (st, d) => reply c st d [] t
      | none => rsaPut false .slotWrite p c (if rsaWaiting false t < 16 then holdSerial c t else t)) c s

def execSlotWrite (via : Via) (s : State) : Out := .next (firmware 0xB04 4 .config cmdSlotWrite via s)

/-- A flash operation begins; none starts while BRACED is set (R466). -/
def flashStart (o : FlashOp) (s : State) : State := s.onFlash fun f => { f with op := some o }

/-- The signatures of an image or container have been checked (R405): the co-signature of an image is an operation of its own
(R329). -/
def slotWriteDone (c : Ctx) (p : List Byte) (ok : Bool) (s0 : State) : State :=
  let n := wd c.words 1
  let s := when' (decide (n < 2) && natBit (le p 8 4) 0) (cntSec 7) s0
  if !ok then sigError c (serialDone s)
  else flashStart { erase := true, addr := slotAddr n, retried := false, started := !s.sys.braced, slot := n, words := bytesWords p, ctx := some c } s

/-- The measurement of what a slot holds; zero for an empty slot. -/
def slotMeas (n : Nat) (p : List Byte) : Nat :=
  if p.isEmpty then 0 else if n < 2 then shaNat (imageCore p) else shaNat (p.take (le p 8 4 - 384))

/-- SLOT_INFO. -/
def cmdSlotInfo (c : Ctx) (s : State) : State :=
  let n := wd c.words 1
  if 3 < n then badParam c 1 0 s
  else
    let x := slotOf s n
    let two := if n < 2 then [wd x.words 1, bits x.words 2 31 24] else [wd x.words 3, wd x.words 4]
    replyOk c ([b2n x.valid] ++ two ++ nonceWords (slotMeas n (wordBytes x.words))) s

def execSlotInfo (via : Via) (s : State) : Out := .next (firmware 0xB05 2 .observe cmdSlotInfo via s)

/-- RESERVE_SECTOR_ERASE (R486): in the background, once STOPPED has been reached. -/
def reserveSectorErase (s : State) : State :=
  if s.sys.dev == .stopped && !s.flash.reserve && s.flash.op.isNone && !s.sys.braced then
    flashStart { erase := true, addr := 0xCC0000, retried := false, started := true, slot := 4, words := [], ctx := none } s
  else s

def execReserveSectorErase (s : State) : Out := .next (reserveSectorErase s)

/-- What an erase or program that verified leads to. The program after an erase does not start while BRACED is set. -/
def flashOk (o : FlashOp) (s : State) : State :=
  if o.slot == 4 then s.onFlash fun f => { f with op := none, reserve := true }
  else if o.erase then
    (s.onFlash fun f => { f with slots := f.slots.set o.slot { valid := false, words := [] }, op := some { o with erase := false, retried := false, started := !s.sys.braced } })
  else
    let s1 := s.onFlash fun f => { f with slots := f.slots.set o.slot { valid := true, words := o.words }, op := none }
    match o.ctx with
    | some c => replyOk c [] (serialDone s1)
    | none => s1

/-- A second failure: the slot holds nothing valid, and the command replies INTEGRITY (R466; log 27). -/
def flashFailed (o : FlashOp) (s : State) : State :=
  let s1 := s.onFlash fun f => { f with op := none, slots := if o.slot < 4 then f.slots.set o.slot { valid := false, words := [] } else f.slots }
  let s2 := raise 107 (o.addr % 2 ^ 24 * 256 + (if o.erase then 2 else 1)) (cntLoft 15 s1)
  match o.ctx with
  | some c => integrityError c 0 (serialDone s2)
  | none => s2

end Sys2Proof.Machine
end

