-- ==== Sys2Proof/Machine/Device.lean ====
section
/-!
DEFINITION. The train, plan and image commands, sessions, and the commands that ask for a state transition (R26, R392, R396 to R398).
-/

namespace Sys2Proof.Machine

open Sys2Proof

/-! Train commands (R397). -/

/-- TRAIN_STATUS. -/
def cmdTrainStatus (c : Ctx) (s : State) : State :=
  replyOk c [s.inaug.numbering.length % 256 * 2 ^ 24 + topology s * 2 ^ 22 + s.inaug.epoch % 4096 * 1024 + s.sec.cur % 16 * 64,
    s.inaug.leadBadge % 2 ^ 32, s.inaug.leadBadge / 2 ^ 32, s.inaug.adm] s

def execTrainStatus (via : Via) (s : State) : Out := .next (firmware 0x101 1 .observe cmdTrainStatus via s)

/-- The 12 bytes of a NUMBERING entry (R90). -/
def numEntryBytes (e : NumEntry) : List Byte := beBytes 8 e.badge ++ beBytes 2 e.adm ++ [byteOf e.role, byteOf e.prev]

/-- ROSTER_READ. -/
def cmdRosterRead (c : Ctx) (s : State) : State :=
  writeItems 1 (s.inaug.numbering.map numEntryBytes) (fun k t => replyOk c [k] t) c s

def execRosterRead (via : Via) (s : State) : Out := .next (firmware 0x102 3 .observe cmdRosterRead via s)

/-- SOURCE_READ: the records of the used source entries (R85). -/
def cmdSourceRead (c : Ctx) (s : State) : State :=
  writeItems 1 (s.lane.src.map fun e => (srcWords s e).flatMap (leBytes 4)) (fun k t => replyOk c [k] t) c s

def execSourceRead (via : Via) (s : State) : Out := .next (firmware 0x103 3 .observe cmdSourceRead via s)

/-- COUPLER_STATUS. -/
def cmdCouplerStatus (c : Ctx) (s : State) : State :=
  let a := s.ends.a.nbr.getD 0
  let b := s.ends.b.nbr.getD 0
  replyOk c [endsByte s, a % 2 ^ 32, a / 2 ^ 32, b % 2 ^ 32, b / 2 ^ 32] s

def execCouplerStatus (via : Via) (s : State) : Out := .next (firmware 0x104 1 .observe cmdCouplerStatus via s)

/-- ADMISSION_RETRY: a guest in INTEGRATING seeks admission at the next BEACON. -/
def cmdAdmissionRetry (c : Ctx) (s : State) : State :=
  if s.sys.dev == .integrating && s.inaug.role == .guest then replyOk c [] (s.onInaug fun x => { x with retryAsked := true })
  else stateError c s

def execAdmissionRetry (via : Via) (s : State) : Out := .next (firmware 0x105 1 .operate cmdAdmissionRetry via s)

/-! Plan and image commands (R398, R184). -/

/-- PLAN_READ: header and entries as whole items, as many as fit (R389); NENT is the plan's (R164). -/
def cmdPlanRead (c : Ctx) (s : State) : State :=
  if !planLoaded s then withParcel 1 (fun _ _ t => notFound c t) c s
  else writeItems 1 (wordBytes s.plan.hdr :: s.plan.entries.map wordBytes) (fun _ t => replyOk c [bits t.plan.hdr 1 15 0, planId t] t) c s

def execPlanRead (via : Via) (s : State) : Out := .next (firmware 0x301 3 .observe cmdPlanRead via s)

/-- IMAGE_DIRECTORY. -/
def cmdImageDirectory (c : Ctx) (s : State) : State :=
  writeItems 1 (s.plan.images.map fun i => leBytes 4 (i.entry * 65536 + b2n i.out * 32768) ++ leBytes 4 (imgAddr s i.entry i.out))
    (fun k t => replyOk c [k] t) c s

def execImageDirectory (via : Via) (s : State) : Out := .next (firmware 0x302 3 .observe cmdImageDirectory via s)

/-- The first word of a mark record that offends, against a plan header (R184). -/
def markCheck (hdr r : List Word) : Option Nat :=
  firstBad [rsv r 0 5 0,
    (decide (bits hdr 1 31 16 ≤ bits r 0 31 16) || decide (bits hdr 0 23 16 < bits r 0 9 7) || decide (2 ^ bits r 0 9 7 ≤ bits r 0 15 10), 0),
    rsv r 1 31 24, rsv r 1 19 14, rsv r 1 2 0,
    (bit r 1 3 && !(decide (49 ≤ bits r 1 13 8) && decide (bits r 1 13 8 ≤ 51)), 1)]

/-- The first word of a mark record that offends whatever the plan is (R14, R184). -/
def markFixed (r : List Word) : Option Nat :=
  firstBad [rsv r 0 5 0, rsv r 1 31 24, rsv r 1 19 14, rsv r 1 2 0,
    (bit r 1 3 && !(decide (49 ≤ bits r 1 13 8) && decide (bits r 1 13 8 ≤ 51)), 1)]

/-- The first binding that offends, against the entries of a plan (R184). -/
def bindCheck (entries : List (List Word)) (bs : List Word) : Option Nat :=
  let bad := fun (x : Word × Nat) =>
    let e := natBits x.1.toNat 31 16
    natBits x.1.toNat 15 3 != 0 || !(match entries[e]? with | some r => enCyclic r | none => false)
      || (bs.take x.2).any fun w => natBits w.toNat 31 16 == e
  (bs.zipIdx.find? bad).map (·.2)

/-- MARK_SET: the record first, then the state (R386). -/
def cmdMarkSet (c : Ctx) (s : State) : State :=
  let r := (c.words.drop 2).take 2
  if 15 < wd c.words 1 then badParam c 1 0 s
  else match (if planLoaded s then markCheck s.plan.hdr r else markFixed r) with
    | some i => badParam c (2 + i) 0 s
    | none =>
      if s.sys.dev != .stopped || !planLoaded s then stateError c s
      else replyOk c [] (s.onPlan fun p => { p with marks := p.marks.set (wd c.words 1) r })

def execMarkSet (via : Via) (s : State) : Out := .next (firmware 0x303 4 .config cmdMarkSet via s)

/-- The first binding with a reserved bit set, or with the ENTRY of one before it (R14, R184). -/
def bindFixed (bs : List Word) : Option Nat :=
  (bs.zipIdx.find? fun x => natBits x.1.toNat 15 3 != 0
    || (bs.take x.2).any fun w => natBits w.toNat 31 16 == natBits x.1.toNat 31 16).map (·.2)

/-- The bindings are replaced. An image that is no longer in MARK coupling is frozen no longer, and its PEND is none (R181, R183,
R184; log 46). -/
def setBinds (bs : List Word) (s : State) : State :=
  let t := s.onPlan fun q => { q with binds := bs }
  t.onPlan fun q => { q with images := q.images.map fun i => if (imgBind t i.entry).1 then i else { i with frozen := false, pend := 3, pendIn := none } }

/-- BINDING_SET: a count word, then the bindings. -/
def cmdBindingSet (c : Ctx) (s : State) : State :=
  readParcel 1 (fun p t =>
    let n := le p 0 4
    let bs := (bytesWords (p.drop 4)).take n
    if p.length < 4 || (n ≤ 1024 && p.length < 4 + 4 * n) then badParam c 2 0 t
    else match (if planLoaded t && decide (n ≤ 1024) then bindCheck t.plan.entries bs else bindFixed bs) with
      | some i => badParam c 0 i t
      | none =>
        if t.sys.dev != .stopped || !planLoaded t then stateError c t
        else if 1024 < n then noSpace c (n - 1024) t
        else replyOk c [] (setBinds bs t)) c s

def execBindingSet (via : Via) (s : State) : Out := .next (firmware 0x304 3 .config cmdBindingSet via s)

/-- COUPLING_READ: the mark records, then the bindings. -/
def cmdCouplingRead (c : Ctx) (s : State) : State :=
  writeItems 1 ((List.range 16).map (fun m => wordBytes [(markRec s m).getD 0 0, (markRec s m).getD 1 0]) ++ s.plan.binds.map fun w => wordBytes [w])
    (fun k t => replyOk c [k - 16] t) c s

def execCouplingRead (via : Via) (s : State) : Out := .next (firmware 0x305 3 .observe cmdCouplingRead via s)

/-! Device commands (R396). -/

/-- DEVICE_ID. -/
def cmdDeviceId (c : Ctx) (s : State) : State :=
  replyOk c [idReg s 0, idReg s 4, s.sys.badge % 2 ^ 32, s.sys.badge / 2 ^ 32, s.sys.bootCode % 256] s

def execDeviceId (via : Via) (s : State) : Out := .next (firmware 0x001 1 .observe cmdDeviceId via s)

/-- DEVICE_STATUS. -/
def cmdDeviceStatus (c : Ctx) (s : State) : State :=
  replyOk c [regState s, regEpochs s, regSession s, b2n s.rcp.loaded * 2 ^ 31 + b2n s.rcp.slotB * 2 ^ 30, s.rcp.rseq, planId s, s.sec.arb] s

def execDeviceStatus (via : Via) (s : State) : Out := .next (firmware 0x002 1 .observe cmdDeviceStatus via s)

/-! Sessions (R346, R392). -/

/-- The next session number: 1 to 65,535. -/
def nextSession (s : State) : Nat := s.cmd.sessCtr % 65535 + 1

/-- A number is given out: it is no longer that of an ended session. -/
def giveSession (s : State) : State :=
  (s.onCmd fun q => { q with sessCtr := nextSession s }).onHost fun h => { h with dead := h.dead.filter fun x => x != nextSession s }

/-- The session that a port holds, as its number; a remote host's session is kept at its own car. -/
def portSession (c : Ctx) (s : State) : Nat :=
  match c.via with
  | .manger n => if n < 10 then s.host.session else if n < 12 then s.strm.session else c.session
  | .yard k => ((sessOf s k).map (·.id)).getD 0

/-- SESSION_OPEN. -/
def cmdSessionOpen (c : Ctx) (s : State) : State :=
  let n := nextSession s
  let hostPort := onHostPort c
  if (hostPort && 9 < wd c.words 1) || (!hostPort && wd c.words 1 != 0) then badParam c 1 0 s
  else if portSession c s != 0 then reply c 5 (portSession c s % 65536) [] s
  else match c.via with
    | .manger m =>
      if m < 10 then
        replyOk { c with session := n } [n] (raise 112 (n * 65536 + 1)
          ((giveSession s).onHost fun h => { h with session := n, priv := .observe, scope := 0, operKey := 0, notify := wd c.words 1 }))
      else if m < 12 then
        replyOk { c with session := n } [n] (raise 112 (n * 65536 + 1)
          ((giveSession s).onStrm fun t => { t with session := n, priv := .observe, scope := 0, operKey := 0 }))
      else stateError c s
    | .yard k =>
      replyOk { c with session := n } [n] (raise 68 1 ((giveSession s).onYard fun d => { d with sess := d.sess.modify k fun y => { y with id := n } }))

/-- A yard session whose open request was refused is free again (R346). -/
def openCleanup (via : Via) (s : State) : State :=
  match via with
  | .manger _ => s
  | .yard k =>
    match sessOf s k with
    | some y => if y.id == 0 && sessLive y && y.inbox.isNone then putSess k noSess s else s
    | none => s

def execSessionOpen (via : Via) (s : State) : Out := .next (openCleanup via (firmware 0x003 2 .observe cmdSessionOpen via s))

/-- The reservations of a session end with it (R390). -/
def freeParcels (session : Nat) (s : State) : State :=
  s.onCmd fun q => { q with parcels := q.parcels.filter fun p => p.session != session }

/-- SESSION_CLOSE: the reply is placed first where the session's place goes with it. -/
def cmdSessionClose (c : Ctx) (s : State) : State :=
  if !ownSession c s then stateError c s
  else match c.via with
    | .manger m =>
      if m < 10 then
        let s1 := s.onHost fun h => { h with session := 0, priv := .observe, scope := 0, operKey := 0 }
        replyOk c [] (raise 112 (c.session * 65536 + 2) (operEnd (operHeld s.host.priv s.host.operKey) (freeParcels c.session s1)))
      else
        let s1 := s.onStrm fun t => { t with session := 0, priv := .observe, scope := 0, operKey := 0 }
        replyOk c [] (raise 112 (c.session * 65536 + 2) (operEnd (operHeld s.strm.priv s.strm.operKey) (freeParcels c.session s1)))
    | .yard k => raise 68 2 (sessClose k (replyOk c [] s))

def execSessionClose (via : Via) (s : State) : Out := .next (firmware 0x004 1 .observe cmdSessionClose via s)

/-! State transitions (R26). -/

/-- A channel in MARKED mode whose mark would never apply it (R278). -/
def markedWithoutMark (s : State) : Bool :=
  (List.range 32).any fun n => chIsOut s n && chMarked s n && !(markEnabled (markRec s (chMark s n)) && markApply (markRec s (chMark s n)))

/-- The conditions of R26 for START. -/
def startReady (s : State) : Bool := s.sys.dev == .stopped && s.rcp.loaded && planLoaded s

/-- INTEGRATING is entered without membership: the car listens (R92). -/
def startNow (s : State) : State :=
  setDev .integrating (setRole .guest 0 false (s.onInaug fun x => { x with cold := .listening (trainTime s), guest := .idle, beacon := none }))

/-- START: a parameter of the configuration comes before the state (R278, R386). -/
def cmdStart (c : Ctx) (s : State) : State :=
  if markedWithoutMark s then badParam c 0 0 s
  else if !startReady s then stateError c s
  else replyOk c [] (startNow s)

def execStart (via : Via) (s : State) : Out := .next (firmware 0x007 1 .operate cmdStart via s)

/-- STOP: insertion ends at the next basic-cycle boundary, and the reply follows it. In TEST the configuration of the test is
discarded at once. -/
def cmdStop (c : Ctx) (s : State) : State :=
  if onTrain s then (holdSerial c s).onCmd fun q => { q with stopping := some (c, s.plan.cycle) }
  else if s.sys.dev == .test then replyOk c [] (stopNow s)
  else stateError c s

def execStop (via : Via) (s : State) : Out := .next (firmware 0x008 1 .operate cmdStop via s)

/-- The boundary has come: STOP takes effect and replies (R26, R396). -/
def finishStop (s : State) : State :=
  match s.cmd.stopping with
  | none => s
  | some (c, cycle) =>
    let s1 := serialDone (s.onCmd fun q => { q with stopping := none })
    if s.plan.cycle == cycle then s
    else if onTrain s1 then replyOk c [] (stopNow s1) else stateError c s1

/-- BARN: the reply goes out, and the entry begins (R488). -/
def cmdBarn (c : Ctx) (s : State) : State :=
  if s.sys.dev != .stopped then stateError c s
  else (replyOk c [] s).onSys fun x => { x with barn := .entering, barnAt := s.clk.c, wakeTimer := wd c.words 1, wakeSrc := 0, wakeIdx := none }

def execBarn (via : Via) (s : State) : Out := .next (firmware 0x009 2 .operate cmdBarn via s)

/-- TEST. -/
def cmdTest (c : Ctx) (s : State) : State :=
  if s.sys.dev != .stopped then stateError c s else replyOk c [] (setDev .test (setRole .none 0 false s))

def execTest (via : Via) (s : State) : Out := .next (firmware 0x00A 1 .serviceTest cmdTest via s)

end Sys2Proof.Machine
end

