-- ==== Sys2Proof/Machine/Checks.lean ====
section
/-!
DEFINITION. The checks of a recipe's records: the stall plan (R87, R164 to R166, R316) and the records of R306 to R309, R408, R409,
R205, R444 and R462 that no command carries.
-/

namespace Sys2Proof.Machine

open Sys2Proof

/-! The stall plan. -/

/-- F(n) in units of 100 ns, rounded up (R166). -/
def wireUnits (n : Nat) : Nat := (wireTime n + 999) / 1000

/-- The shortest length of an entry (R166). -/
def enMinLen (guard : Nat) (e : List Word) : Nat :=
  if enType e == tyReference then guard + 19
  else if enType e == tyShadow then guard + 18
  else if enCyclic e then guard + wireUnits (8 + enImgLen e)
  else guard + 1

/-- The first word of a plan header that offends (R164). -/
def planHdrCheck (h : List Word) (n : Nat) : Option Nat :=
  firstBad [(bits h 0 31 24 != 1 || decide (6 < bits h 0 23 16) || bits h 0 7 0 != 0, 0),
    (decide (bits h 1 31 16 < 250) || bits h 1 15 0 != n || n == 0 || decide (8192 < n), 1), (wd h 3 != 0, 3)]

/-- The stall index has the type that R166 gives it. -/
def indexTypeOk (e : List Word) : Bool :=
  if enStall e == 0 then enType e == tyReference
  else if enStall e < 4 then enType e == tyShadow
  else enType e != tyReference && enType e != tyShadow

/-- CONF is set on a stall that may not have it (R316). -/
def confBad (e : List Word) : Bool :=
  enConf e && (enType e == tyReference || enType e == tyShadow || enType e == tyGuest)

/-- The first word of a stall entry that offends by itself (R165, R166, R316). -/
def entryCheck (h e : List Word) : Option Nat :=
  let owned := enType e == tyOwned
  let cyc := enCyclic e
  firstBad [
    (decide (bits h 0 23 16 < enRepeat e) || decide (2 ^ enRepeat e ≤ enFirst e) || decide (5 < enType e)
      || (if owned then decide (2 < enKind e) else enKind e != 0) || confBad e || bits e 0 8 0 != 0 || !indexTypeOk e, 0),
    (decide (bits h 1 31 16 < enStart e + enLength e) || decide (enLength e < enMinLen (bits h 0 15 8) e)
      || (enStall e == 0 && enStart e != 0), 1),
    (if owned then enOwner e == 0 else wd e 2 != 0, 2),
    (!owned && wd e 3 != 0, 3),
    ((if cyc then decide (enImgLen e < 4) || decide (1988 < enImgLen e) || enImgLen e % 4 != 0 else enImgLen e != 0)
      || (if cyc then enDest e == 0 || enDest e == 3 else enDest e != 0) || bits e 4 13 8 != 0 || (enDest e != 2 && enGroup e != 0), 4),
    (wd e 5 != 0, 5), (wd e 6 != 0, 6), (wd e 7 != 0, 7)]

/-- Two entries share a basic cycle. -/
def enMeet (e f : List Word) : Bool :=
  let m := 2 ^ min (enRepeat e) (enRepeat f)
  enFirst e % m == enFirst f % m

/-- The word of entry e that offends beside an earlier entry f (R166). -/
def pairCheck (e f : List Word) : Option Nat :=
  if !enMeet e f then none
  else firstBad [
    (enStall e == enStall f, 0),
    (decide (enStall e < enStall f) != decide (enStart e < enStart f)
      || (decide (enStart e < enStart f + enLength f) && decide (enStart f < enStart e + enLength e)), 1),
    (enDelay e && enDelay f && enOwner e == enOwner f, 2)]

/-- The first entry and word that offend. -/
def entriesCheck (h : List Word) (es : List (List Word)) : Option (Nat × Nat) :=
  es.zipIdx.findSome? fun x =>
    match entryCheck h x.1 with
    | some w => some (x.2, w)
    | none => ((es.take x.2).findSome? (pairCheck x.1)).map fun w => (x.2, w)

/-- The stall indices of a basic cycle are 0 to m − 1 with m at least 4 and at most 128. -/
def cycleFull (es : List (List Word)) (c : Nat) : Bool :=
  let used := es.filter fun e => enApplies e c
  decide (4 ≤ used.length) && decide (used.length ≤ 128) && used.all fun e => decide (enStall e < used.length)

/-- The starts of the entries that meet a condition, over one matrix cycle, in ascending order. -/
def startsOf (h : List Word) (es : List (List Word)) (ok : List Word → Bool) : List Nat :=
  sortBy id ((List.range (2 ^ bits h 0 23 16)).flatMap fun c =>
    (es.filter fun e => ok e && enApplies e c).map fun e => c * bits h 1 31 16 + enStart e)

/-- No two starts in a row lie further apart than a limit. -/
def spaced (lim : Nat) : List Nat → Bool
  | a :: b :: r => decide (b ≤ a + lim) && spaced lim (b :: r)
  | [_] => true
  | [] => true

/-- There is a start, and none comes later than the limit after the one before it, across matrix cycles too (R87). -/
def recurs (h : List Word) (lim : Nat) (l : List Nat) : Bool :=
  match l, l.getLast? with
  | a :: _, some z => decide (a + 2 ^ bits h 0 23 16 * bits h 1 31 16 ≤ z + lim) && spaced lim l
  | _, _ => false

/-- The EXPRESS and GUEST stalls that count for R87. -/
def r87Holds (h : List Word) (es : List (List Word)) : Bool :=
  recurs h 2500 (startsOf h es fun e => enType e == tyExpress && decide (bits h 0 15 8 + 24 ≤ enLength e))
    && recurs h 10000 (startsOf h es fun e => enType e == tyGuest && decide (80 ≤ enLength e))

/-- A fault in a part that is no entry (R410). -/
def noEntry : Nat := 0xFFFFFFFF

/-- The first fault of a plan: entry and word. What only the whole plan breaks is laid to the header (log 29). -/
def planCheck (h : List Word) (es : List (List Word)) : Option (Nat × Nat) :=
  match planHdrCheck h es.length with
  | some w => some (noEntry, w)
  | none =>
    match entriesCheck h es with
    | some x => some x
    | none =>
      if (List.range (2 ^ bits h 0 23 16)).all (cycleFull es) && r87Holds h es then none else some (noEntry, 0)

/-! Images (R180). -/

/-- A fresh image of an entry (R180, R181). -/
def freshImage (entry : Nat) (out : Bool) (len : Nat) : Image where
  entry := entry
  out := out
  flips := 0
  ready := 0
  fill := 1
  pend := 3
  stale := false
  absent := false
  never := true
  hostBuf := 0
  hostValid := false
  stamp := Stamp.zero
  cycle := 0
  adm := 0
  pubSeq := 0
  len := len
  frozen := false
  copying := none
  pendIn := none
  got := []
  checked := none

/-- The images of a plan at the car with a badge. -/
def imagesOf (badge : Nat) (es : List (List Word)) : List Image :=
  (es.zipIdx.filter fun x => enCyclic x.1).map fun x => freshImage x.2 (enOwner x.1 == badge) (enImgLen x.1)

/-- The first entry whose image no longer fits n bytes. -/
def imagesOver (n : Nat) : List Image → Option Nat
  | [] => none
  | i :: r => if imgSize i ≤ n then imagesOver (n - imgSize i) r else some i.entry

/-! Records of single sections. -/

/-- HAYLOFT (R461, R462). -/
def loftCheckRec (r : List Word) : Option Nat :=
  let fq := bits r 0 31 24
  let hist := bits r 0 23 16
  let rec_ := bits r 0 15 8
  let img := bits r 0 7 0
  firstBad [
    (decide (fq < 4) || decide (64 < fq) || decide (96 < hist) || decide (rec_ < 1) || decide (32 < rec_) || decide (img < 1)
      || decide (16 < img) || decide (108 < fq + hist + rec_ + img), 0),
    (decide (bits r 1 31 24 < 1) || decide (168 < bits r 1 31 24) || bits r 1 23 0 != 0, 1)]

/-- TRAIN (R78, R86, R157, R408). `p` is the basic cycle of the recipe's plan in 100 ns units, 0 without a plan. -/
def trainCheck (p : Nat) (r : List Word) : Option Nat :=
  let n := bits r 0 3 0
  let pair := bits r 1 15 0
  firstBad ([
    (decide (4 < bits r 0 19 17) || decide (4 < bits r 0 16 14) || bits r 0 13 12 == 3 || decide (8 < n), 0),
    (decide (bits r 1 31 24 < 1) || decide (100 < bits r 1 31 24) || decide (bits r 1 23 16 < 120) || decide (140 < bits r 1 23 16)
      || decide (pair < 20) || decide (2000 < pair) || (p != 0 && decide (p < pair)), 1),
    rsv r 2 7 2,
    (decide (bits r 3 31 22 < 1) || decide (1000 < bits r 3 31 22) || decide (bits r 3 21 13 < 1) || decide (500 < bits r 3 21 13)
      || decide (bits r 3 12 8 < 1) || decide (24 < bits r 3 12 8) || bits r 3 7 0 != 0, 3),
    (decide (bits r 4 31 16 < 30) || decide (500 < bits r 4 31 16) || bits r 4 15 0 != 0, 4)]
    ++ (List.range 16).map fun i => (decide (n ≤ i / 2) && wd r (5 + i) != 0, 5 + i))

/-- EVENTS (R442, R444, R446). -/
def eventsCheck (r : List Word) : Option Nat :=
  firstBad ((List.range 128).map (fun i => (routeBad (wd64 r 130) (wd r i), i))
    ++ [(bits r 128 31 31 != 0 || bits r 128 29 29 != 0 || bits r 128 21 0 != 0 || decide (23 < bits r 128 28 24), 128), rsv r 129 28 0])

/-- POLICY (R309). -/
def policyCheck (r : List Word) : Option Nat :=
  firstBad [(bits r 0 31 24 != 1 || decide (bits r 0 23 16 < 1) || decide (32 < bits r 0 23 16) || decide (64 < bits r 0 15 8)
    || bits r 0 7 0 != 0, 0)]

/-! Lists of records. -/

/-- A list cut into records of n words; `fuel` bounds their number. -/
def cutRecs (n : Nat) : Nat → List Word → List (List Word)
  | 0, _ => []
  | fuel + 1, l => if l.isEmpty then [] else l.take n :: cutRecs n fuel (l.drop n)

/-- The records of n words in a list. -/
def recsOf (n : Nat) (l : List Word) : List (List Word) := cutRecs n l.length l

/-- The first record that offends, and its word. `base` is the entry index of the first. -/
def recsCheck (base : Nat) (f : Nat → List Word → Option Nat) (rs : List (List Word)) : Option (Nat × Nat) :=
  rs.zipIdx.findSome? fun x => (f x.2 x.1).map fun w => (base + x.2, w)

/-- The group records of a GROUPS section, each with its members (R205); `fuel` bounds their number. -/
def cutGroups : Nat → List Word → List (List Word)
  | 0, _ => []
  | fuel + 1, l => if l.isEmpty then [] else
      let n := 1 + 3 * bits l 0 7 0
      l.take n :: cutGroups fuel (l.drop n)

/-- A group record: its reserved bits, and its length. -/
def groupCheck (r : List Word) : Option Nat :=
  firstBad ([(bits r 0 23 8 != 0 || r.length != 1 + 3 * bits r 0 7 0, 0)]
    ++ (List.range (bits r 0 7 0)).map fun i => rsv r (3 + 3 * i) 31 6)

/-- The record with which the members pass 4,096 in total. -/
def groupsOver (n i : Nat) : List (List Word) → Option Nat
  | [] => none
  | r :: rest => if bits r 0 7 0 ≤ n then groupsOver (n - bits r 0 7 0) (i + 1) rest else some i

/-- GROUPS (R205). -/
def groupsCheck (rs : List (List Word)) : Option (Nat × Nat) :=
  match recsCheck 0 (fun _ => groupCheck) rs with
  | some x => some x
  | none => (groupsOver 4096 0 rs).map fun i => (i, 0)

/-- The members of a group record. -/
def groupOf (r : List Word) : Group :=
  { num := bits r 0 31 24,
    members := (List.range (bits r 0 7 0)).map fun i => (wd64 r (1 + 3 * i), bits r (3 + 3 * i) 5 0) }

/-- The port record with which the rings pass n bytes (R249). -/
def portsOver (n i : Nat) : List (List Word) → Option Nat
  | [] => none
  | r :: rest =>
    let k := if poEnable r then poRingKib r * 1024 else 0
    if k ≤ n then portsOver (n - k) (i + 1) rest else some i

end Sys2Proof.Machine
end

