-- ==== Sys2Proof/Machine/Recipe.lean ====
section
/-!
DEFINITION. Recipes: the container and its directory (R306, R410), the checks of its sections (R407), loading and RECIPE_ACTIVATE
(R307, R308, R410, R411, R463).
-/

namespace Sys2Proof.Machine

open Sys2Proof

/-! The container (R306). -/

/-- The header words of a container. -/
def ctHdr (p : List Byte) : List Word := bytesWords (part p 0 32)
def ctNsect (p : List Byte) : Nat := bits (ctHdr p) 1 15 0
def ctLength (p : List Byte) : Nat := wd (ctHdr p) 2
def ctRseq (p : List Byte) : Nat := wd (ctHdr p) 3
def ctFloor (p : List Byte) : Nat := wd (ctHdr p) 4

/-- The directory entries. -/
def ctDir (p : List Byte) : List (List Word) := recsOf 4 (bytesWords (part p 32 (16 * ctNsect p)))

/-- The section types of R407. -/
def sectTypes : List Nat := List.range' 1 14 ++ [0x10, 0x11, 0x12]

/-- The bytes of a section. -/
def sectBytes (p : List Byte) (t : Nat) : Option (List Byte) :=
  ((ctDir p).find? fun e => bits e 0 31 16 == t).map fun e => part p (wd e 1) (wd e 2)

/-- The words of a section; none for one that is absent. -/
def sectWords (p : List Byte) (t : Nat) : List Word := bytesWords ((sectBytes p t).getD [])

/-- The first word of the header that offends. -/
def ctHdrCheck (p : List Byte) : Option Nat :=
  let h := ctHdr p
  firstBad [(wd h 0 != 0x43524E4B, 0), (bits h 1 31 16 != 1 || decide (ctNsect p < 1) || decide (32 < ctNsect p), 1),
    (decide (ctLength p < 416 + 16 * ctNsect p) || decide (p.length < ctLength p), 2), (decide (ctRseq p < ctFloor p), 4),
    (wd h 5 != 0, 5), (wd h 6 != 0, 6), (wd h 7 != 0, 7)]

/-- The first word of a directory entry that offends beside those before it. -/
def dirEntryCheck (p : List Byte) (before : List (List Word)) (e : List Word) : Option Nat :=
  firstBad [
    (bits e 0 15 0 != 0 || !sectTypes.contains (bits e 0 31 16) || before.any fun f => bits f 0 31 16 == bits e 0 31 16, 0),
    (decide (ctLength p < wd e 1), 1), (decide (ctLength p < wd e 1 + wd e 2), 2), (wd e 3 != 0, 3)]

/-- Step 2 of R410: entry and word of the first fault. A missing TRAIN or POLICY is a fault of NSECT (log 29). -/
def dirCheck (p : List Byte) : Option (Nat × Nat) :=
  match ctHdrCheck p with
  | some w => some (noEntry, w)
  | none =>
    match (ctDir p).zipIdx.findSome? fun x => (dirEntryCheck p ((ctDir p).take x.2) x.1).map fun w => (x.2, w) with
    | some x => some x
    | none => if (sectBytes p 2).isSome && (sectBytes p 0x10).isSome then none else some (noEntry, 1)

/-! The sections (R407, step 3 of R410). -/

/-- The length of a section in bytes is one it can have. -/
def sectLenOk (t n : Nat) (r : List Word) : Bool :=
  match t with
  | 1 => n == 8
  | 2 => n == 84
  | 3 => n % 20 == 0 && decide (n ≤ 2560)
  | 4 => decide (16 ≤ n) && (n - 16) % 32 == 0
  | 5 => decide (132 ≤ n) && n == 132 + 4 * wd r 32 && decide (wd r 32 ≤ 1024)
  | 6 => n == 384
  | 7 => n == 3072
  | 8 => n % 68 == 0 && decide (n ≤ 139264)
  | 9 => n == 512
  | 10 => n % 4 == 0
  | 11 => n == 404
  | 12 => n == 1648
  | 13 => n == 16
  | 14 => n == 528
  | 16 => n == 36 + 32 * bits r 0 23 16
  | 17 => n % 36 == 0 && decide (n ≤ 576)
  | 18 => n % 392 == 0 && decide (n ≤ 25088)
  | _ => false

/-- The bytes of the frame-queue and image regions of the allocation that a recipe gives. -/
def ctFqBytes (p : List Byte) : Nat := (if (sectBytes p 1).isSome then bits (sectWords p 1) 0 31 24 else 8) * mib
def ctImgBytes (p : List Byte) : Nat := (if (sectBytes p 1).isSome then bits (sectWords p 1) 0 7 0 else 8) * mib

/-- The plan header and entries of a recipe. -/
def ctPlanHdr (p : List Byte) : List Word := (sectWords p 4).take 4
def ctPlanEntries (p : List Byte) : List (List Word) := recsOf 8 ((sectWords p 4).drop 4)

/-- The port records of a recipe. -/
def ctPorts (p : List Byte) : List (List Word) := recsOf 6 (sectWords p 6)

/-- A section that is a single entry. -/
def single (x : Option Nat) : Option (Nat × Nat) := x.map fun w => (0, w)

/-- PLAN: its own checks, then the room for the images (R166, R180, R462). -/
def sectPlan (p : List Byte) : Option (Nat × Nat) :=
  match planCheck (ctPlanHdr p) (ctPlanEntries p) with
  | some x => some x
  | none => (imagesOver (ctImgBytes p) (imagesOf 0 (ctPlanEntries p))).map fun e => (e, 4)

/-- COUPLING: marks, then bindings (R184). -/
def sectCoupling (p : List Byte) (r : List Word) : Option (Nat × Nat) :=
  match recsCheck 0 (fun _ => markCheck (ctPlanHdr p)) (recsOf 2 (r.take 32)) with
  | some x => some x
  | none => (bindCheck (ctPlanEntries p) (r.drop 33)).map fun i => (16 + i, 0)

/-- PORTS: the records, then the room for their rings (R248, R249, R462). -/
def sectPorts (p : List Byte) : Option (Nat × Nat) :=
  match recsCheck 0 (fun _ => portCheck) (ctPorts p) with
  | some x => some x
  | none => (portsOver (ctFqBytes p) 0 (ctPorts p)).map fun i => (i, 4)

/-- A RULES entry: its index word, then the rule (R201). -/
def ruleEntryCheck (r : List Word) : Option Nat :=
  if bits r 0 31 11 != 0 then some 0 else (ruleCheck (bits r 0 10 0) (r.drop 1)).map (· + 1)

/-- FIELD: module, groups, channels, rules (R281 to R284). -/
def sectField (r : List Word) : Option (Nat × Nat) :=
  let grps := (r.drop 1).take 4
  let chans := recsOf 2 ((r.drop 5).take 64)
  let rules := r.drop 69
  match fieldModCheck chans (r.getD 0 0) with
  | some w => some (0, w)
  | none =>
    match grps.zipIdx.findSome? fun x => (fieldGrpCheck chans x.2 x.1).map fun w => (1 + x.2, w) with
    | some x => some x
    | none =>
      match recsCheck 5 (fieldChanCheck (r.getD 0 0) grps chans) chans with
      | some x => some x
      | none => rules.zipIdx.findSome? fun x => (fieldRuleCheck grps chans rules x.2 x.1).map fun w => (37 + x.2, w)

/-- YARD: port record with the room for its rings, steering rules, endpoints, subscriptions (R334, R345, R352, R462). -/
def sectYard (p : List Byte) (r : List Word) : Option (Nat × Nat) :=
  let rec_ := r.take 28
  let v6 := bit rec_ 0 27
  match yardCheck rec_ with
  | some w => some (0, w)
  | none =>
    if ctFqBytes p < ringBytes rec_ + ringsKib (ctPorts p) * 1024 then some (0, 14)
    else
      match recsCheck 2 (fun _ => steerCheck) (recsOf 2 ((r.drop 44).take 128)) with
      | some x => some x
      | none =>
        match recsCheck 66 (fun _ => endpointCheck false v6) (recsOf 6 ((r.drop 172).take 192)) with
        | some x => some x
        | none => recsCheck 98 (fun _ => endpointCheck true v6) (recsOf 6 (r.drop 364))

/-- The first fault of a section: entry and word. A wrong length is a fault in no entry (log 29). -/
def sectCheck (p : List Byte) (t : Nat) : Option (Nat × Nat) :=
  match sectBytes p t with
  | none => none
  | some b =>
    let r := bytesWords b
    if !sectLenOk t b.length r then some (noEntry, 0) else
    match t with
    | 1 => single (loftCheckRec r)
    | 2 => single (trainCheck (bits (ctPlanHdr p) 1 31 16) r)
    | 3 => recsCheck 0 (fun _ e => firstBad [rsv e 4 7 0]) (recsOf 5 r)
    | 4 => sectPlan p
    | 5 => sectCoupling p r
    | 6 => sectPorts p
    | 7 => recsCheck 0 (talkerCheck (ctPorts p)) (recsOf 12 r)
    | 8 => recsCheck 0 (fun _ => ruleEntryCheck) (recsOf 17 r)
    | 9 => recsCheck 0 listenerCheck (recsOf 2 r)
    | 10 => groupsCheck (cutGroups r.length r)
    | 11 => sectField r
    | 12 => sectYard p r
    | 13 => single (strmCheck r)
    | 14 => single (eventsCheck r)
    | 16 => single (policyCheck r)
    | 17 => recsCheck 0 (fun _ e => firstBad [rsv e 8 31 1]) (recsOf 9 r)
    | _ => none

/-- Steps 2 and 3 of R410: section TYPE, entry and word of the first fault. -/
def recipeFault (p : List Byte) : Option (Nat × Nat × Nat) :=
  match dirCheck p with
  | some x => some (0, x)
  | none => sectTypes.findSome? fun t => (sectCheck p t).map fun x => (t, x)

/-- The block of SECRETS for a badge (R308). -/
def ownSecret (badge : Nat) (p : List Byte) : Option (List Byte) :=
  ((recsOf 98 (sectWords p 0x12)).find? fun r => wd64 r 0 == badge).map fun r => wordBytes (r.drop 2)

/-- The CKN and the CAK of a SECRETS block (R308): CKN length, CKN padded with zeros to 32 bytes, CAK. -/
def secretCak (key : Nat) (b : List Byte) : Option MacCak :=
  match Config.secretPlain key b with
  | none => none
  | some v =>
    let p := beBytes 65 (BitVec.toNat v)
    let n := be p 0 1
    if 1 ≤ n ∧ n ≤ 32 ∧ (part p (1 + n) (32 - n)).all (· == 0) then some { ckn := part p 1 n, cak := be p 33 32 } else none

/-- Steps 1 to 4 of R410: the status, detail and result words of a refusal. With which status a SECRETS block that does not decrypt is
refused is not stated: a free value of R388's failures (log 29). -/
def recipeRefusal (p : List Byte) (sig : Bool) (s : State) : Option (Nat × Nat × List Nat) :=
  if !owned s || !sig || p.isEmpty then some (9, 0, [0, 0, 0])
  else if ctRseq p < recipeFloor s then some (8, recipeFloor s % 65536, [0, 0, 0])
  else match recipeFault p with
    | some (t, e, w) => some (3, 0, [t, e, w])
    | none =>
      match ownSecret s.sys.badge p with
      | some b => if (secretCak s.sec.idKey b).isSome then none else some (1 + freeNat 32 s % 12, 0, [0, 0, 0])
      | none => none

/-- The recipe brings a plan that R87, R166 or R316 refuses, whatever else is wrong with it. -/
def planRefused (p : List Byte) : Bool :=
  (dirCheck p).isNone && (sectBytes p 4).isSome && (planCheck (ctPlanHdr p) (ctPlanEntries p)).isSome

/-- What a refusal raises (R166, R307). -/
def refusalEvents (p : List Byte) (r : Nat × Nat × List Nat) (s : State) : State :=
  if r.1 == 9 then raise 100 2 s
  else if r.1 == 8 then raise 100 3 s
  else if r.1 == 3 && (planRefused p || r.2.2.headD 0 == 4) then raise2 80 2 (wd (ctPlanHdr p) 2) s
  else s

/-! Applying a recipe (step 5 of R410). -/

/-- A range of the hayloft is zeroed, with valid check symbols (R463). -/
def zeroRange (a n : Nat) (s : State) : State :=
  s.onLoft fun l =>
    { l with
      mem := memZero l.mem a n
      damage := l.damage.filter fun d => !(decide (a ≤ 16 * d.1) && decide (16 * d.1 + 16 ≤ a + n))
      writeBack := l.writeBack.filter fun w => !(decide (a ≤ 16 * w) && decide (16 * w + 16 ≤ a + n)) }

/-- A region whose base or size has changed is zeroed and reinitialised (R463). -/
def regionAnew (old : State) (r : Nat) (s : State) : State :=
  if regionBase old r == regionBase s r && regionSize old r == regionSize s r then s
  else
    let s1 := zeroRange (regionBase s r) (regionSize s r) s
    match r with
    | 1 => rxInit (s1.onPorts fun ps => ps.map fun x => { x with ring := [], cur := none, framed := 0, stalled := false })
    | 2 => s1.onSent fun t => { t with history := [] }
    | 3 =>
      let s2 := resumeRecord 2 (s1.onEv fun v => { v with recCount := 0, newest := none })
      raiseCode 127 4 s1.ev.recSeq 0 s2
    | _ => s1

/-- HAYLOFT, or the default allocation (R461 to R463). Every reservation ends, but one that a firmware reset has kept goes on over the
load at start-up while its region stays (R378, R390; log 30). -/
def applyLoft (p : List Byte) (s : State) : State :=
  let r := sectWords p 1
  let s1 := s.onLoft fun l =>
    if r.isEmpty then { l with fq := 8, hist := 64, recr := 8, img := 8, scrubH := 24, dflt := true }
    else { l with fq := bits r 0 31 24, hist := bits r 0 23 16, recr := bits r 0 15 8, img := bits r 0 7 0, scrubH := bits r 1 31 24, dflt := false }
  let keep := s.sys.dev == .startup && regionBase s 5 == regionBase s1 5
  each (List.range' 1 5) (regionAnew s) (s1.onCmd fun q => { q with parcels := if keep then q.parcels else [] })

/-- TRAIN and COUPLER_DELAY; an end without a presence switch counts as coupled (R34). -/
def applyTrain (p : List Byte) (s : State) : State :=
  endUpdate true (endUpdate false (s.onRcp fun r => { r with train := sectWords p 2, delays := recsOf 5 (sectWords p 3) }))

/-- PLAN: every image is created with NEVER set and its buffers zeroed (R180), and the load is reported. -/
def applyPlan (p : List Byte) (s : State) : State :=
  let es := ctPlanEntries p
  let imgs := imagesOf s.sys.badge es
  let s1 := s.onPlan fun x =>
    { x with
      hdr := ctPlanHdr p, entries := es, images := imgs, mapped := false, fired := List.replicate 16 0
      cycle := trainTime s / (bits (ctPlanHdr p) 1 31 16 * 100) }
  when' (!(ctPlanHdr p).isEmpty) (raise2 80 1 (wd (ctPlanHdr p) 2)) (zeroRange (regionBase s1 4) ((imgs.map imgSize).sum) s1)

/-- COUPLING. -/
def applyCoupling (p : List Byte) (s : State) : State :=
  let r := sectWords p 5
  s.onPlan fun x => { x with marks := if r.isEmpty then List.replicate 16 [0, 0] else recsOf 2 (r.take 32), binds := r.drop 33 }

/-- Records of n words, or as many zero records as there are places. -/
def recsOrZero (p : List Byte) (t n places : Nat) : List (List Word) :=
  if (sectBytes p t).isSome then recsOf n (sectWords p t) else List.replicate places (List.replicate n 0)

/-- Apply every record of a list at its place. -/
def eachRec (f : Nat → List Word → State → State) (rs : List (List Word)) (s : State) : State :=
  each rs.zipIdx (fun x => f x.2 x.1) s

/-- PORTS, TALKERS, RULES, LISTENERS and GROUPS. -/
def applySentences (p : List Byte) (s : State) : State :=
  let s1 := eachRec talkerApply (recsOrZero p 7 12 64) (eachRec portApply (recsOrZero p 6 6 16) s)
  let s2 := each (recsOf 17 (sectWords p 8)) (fun r => putRule (bits r 0 10 0) (r.drop 1)) (s1.onSent fun t => { t with rules := [] })
  let s3 := eachRec listenerApply (recsOrZero p 9 2 64) s2
  let gs := (cutGroups (sectWords p 10).length (sectWords p 10)).map groupOf
  each gs (fun g => setMembers g.num g.members) (s3.onSent fun t => { t with groups := [] })

/-- FIELD. -/
def applyField (p : List Byte) (s : State) : State :=
  let r := sectWords p 11
  let get := fun i => r.getD i 0
  let s1 := s.onFld fun d =>
    { d with
      module := get 0
      groupRec := (List.range 4).map fun g => get (1 + g)
      ruleRec := (List.range 32).map fun i => get (69 + i) }
  each (List.range 32) (fun n => chanApply n [get (5 + 2 * n), get (6 + 2 * n)]) (fieldSettle s1)

/-- YARD. -/
def applyYard (p : List Byte) (s : State) : State :=
  let r := sectWords p 12
  let get := fun off n => (List.range n).map fun i => r.getD (off + i) 0
  let s1 := (yardApply (get 0 28) (get 28 16) s).onYard fun d => { d with steer := (List.range 64).map fun i => get (44 + 2 * i) 2 }
  let s2 := each (List.range 32) (fun e => endpointApply e (get (172 + 6 * e) 6)) s1
  each (List.range 8) (fun k => subApply k (get (364 + 6 * k) 6)) s2

/-- STREAM and EVENTS. -/
def applyStream (p : List Byte) (s : State) : State :=
  let r := sectWords p 13
  let e := sectWords p 14
  (flushEvents (strmApply (if r.isEmpty then List.replicate 4 0 else r) s)).onEv fun v =>
    if e.isEmpty then { v with routes := List.replicate 128 0x00400000, remote := 0, prio := 0, dest := 0 }
    else { v with routes := e.take 128, remote := e.getD 128 0, prio := bits e 129 31 29, dest := wd64 e 130 }

/-- POLICY, OPERATORS and SECRETS: sessions whose operator key is no longer listed lose OPERATE (R318), and a car without a CAK has no
SAK (R324). -/
def applySecurity (p : List Byte) (s : State) : State :=
  let ops := (recsOf 9 (sectWords p 0x11)).map fun r => (be (wordBytes (r.take 8)) 0 32, bit r 8 0)
  let block := ownSecret s.sys.badge p
  let own := block.bind (secretCak s.sec.idKey)
  let s1 := (s.onRcp fun r => { r with policy := sectWords p 0x10 }).onSec fun x => { x with operators := ops, cak := own }
  let s2 := demote (fun q k => operHeld q k && !(ops.any fun o => o.1 == k)) false s1
  when' (own.isNone && s2.sec.sak) macClose s2

/-- A recipe that has passed every check takes effect in ascending type order (R307, R410). -/
def recipeApply (slotB : Bool) (p : List Byte) (s : State) : State :=
  let s1 := applySecurity p <| applyStream p <| applyYard p <| applyField p <| applySentences p <| applyCoupling p <| applyPlan p <|
    applyTrain p <| applyLoft p s
  let s2 := s1.onRcp fun r =>
    { r with loaded := true, slotB := slotB, rseq := ctRseq p, meas := shaNat (p.take (ctLength p - 384)) }
  raise 100 1 (s2.onSec fun x => { x with enrol := x.enrol.map fun e => sealed s2 { e with floor := max e.floor (ctFloor p) } })

/-- What a recipe slot holds. -/
def recipeBytes (s : State) (slotB : Bool) : List Byte := wordBytes (slotOf s (2 + b2n slotB)).words

/-- RECIPE_ACTIVATE (R396, R410): the owner signature goes to the public unit. After a failed self-test no recipe loads (R292): it
is refused like one in a wrong state (log 29). -/
def cmdRecipeActivate (c : Ctx) (s : State) : State :=
  if 1 < wd c.words 1 then badParam c 1 0 s
  else if s.sys.dev != .stopped || s.sys.katFail then stateError c s
  else rsaPut false .recipeActivate [] c (if rsaWaiting false s < 16 then holdSerial c s else s)

def execRecipeActivate (via : Via) (s : State) : Out := .next (firmware 0x00C 2 .config cmdRecipeActivate via s)

/-- The check of a recipe comes to the block of SECRETS, which the private unit decrypts (R307, R308). -/
def secretsTried (p : List Byte) (sig : Bool) (s : State) : Bool :=
  owned s && sig && !p.isEmpty && decide (recipeFloor s ≤ ctRseq p) && (recipeFault p).isNone && (ownSecret s.sys.badge p).isSome

/-- The signature has been checked: the recipe is refused as a whole, or applied, and ACTIVE_SLOT is written before the reply. -/
def recipeActivateDone (c : Ctx) (sig : Bool) (s0 : State) : State :=
  let slotB := natBit (wd c.words 1) 0
  let p := recipeBytes s0 slotB
  let s := when' (secretsTried p sig s0) (cntSec 6) (serialDone s0)
  match recipeRefusal p sig s with
  | some r => reply c r.1 r.2.1 r.2.2 (refusalEvents p r (tookFree s))
  | none =>
    let s1 := journalEntry ((recipeApply slotB p s).onFlash fun f => { f with activeB := slotB })
    replyOk c [0, 0, 0] s1

/-- At STARTUP a recipe is loaded without a command (R411). A refusal by a record has no code of R307: its CODE is a free value
(log 29). -/
def recipeAtStart (slotB sig : Bool) (s : State) : Bool × State :=
  let p := recipeBytes s slotB
  let s1 := when' (secretsTried p sig s) (cntSec 6) (when' (owned s && !p.isEmpty) (cntSec 7) s)
  match recipeRefusal p sig s1 with
  | none => (true, recipeApply slotB p s1)
  | some r =>
    let s2 := tookFree (refusalEvents p r s1)
    if r.1 == 9 || r.1 == 8 then (false, s2) else (false, tookFree (raise 100 (freeNat 8 s2) s2))

end Sys2Proof.Machine
end

