-- ==== Sys2Proof/Machine/Power.lean ====
section
/-!
DEFINITION. Supply, resets, BRACED, temperature, boot, start-up and barn mode (R25 to R27, R36, R118, R292, R299, R300, R302, R378, R379,
R439, R447, R463 to R466, R470 to R492).
-/

namespace Sys2Proof.Machine

open Sys2Proof

/-! VIN_LOGIC (R473, R493, R494). -/

/-- VIN_LOGIC above its absolute rating stops the model: the manual then states no behaviour of any output (R493, R494). -/
def withVin (mv : Nat) (f : State → State) (s : State) : Out := if 3800 < mv then .fault .outsideRatings else .next (f s)

/-- The device is powered and out of RESET. -/
def alive (s : State) : Bool := s.sys.dev != .off && s.sys.dev != .reset

/-- SUPPLY_THRESHOLD (R473, R492). Every threshold is accurate to 30 mV. -/
def supplyThreshold (mv : Nat) (s : State) : State :=
  let code := if 3435 < mv then 1 else if mv < 3165 then 2 else 0
  if !alive s || code == 0 then s
  else
    let s1 := s.onSys fun x => { x with vin := mv }
    if s.sys.supplyOut == code then
      s1.onSys fun x => { x with supplyExt := if code == 1 then max x.supplyExt mv else min x.supplyExt mv }
    else raise 120 (mv * 65536 + code) (s1.onSys fun x => { x with supplyOut := code, supplyExt := mv })

def execSupplyThreshold (mv : Nat) (s : State) : Out := withVin mv (supplyThreshold mv) s

/-- SUPPLY_RETURNED (R473): with the extreme of the excursion. -/
def supplyReturned (mv : Nat) (s : State) : State :=
  if !alive s || s.sys.supplyOut == 0 || decide (mv ≤ 3105) || decide (3495 ≤ mv) then s
  else raise 120 (s.sys.supplyExt * 65536 + 3) (s.onSys fun x => { x with vin := mv, supplyOut := 0 })

def execSupplyReturned (mv : Nat) (s : State) : Out := withVin mv (supplyReturned mv) s

/-! Entry into RESET (R26, R377 to R379, R477, R481). -/

/-- The order in which coinciding causes are reported (R481). -/
def causeOrder : Cause → Nat
  | .unlisted _ => 7
  | c => c.code

/-- The reset kinds that the host island's table calls a firmware reset (R378, R477). -/
def isFirmware (c : Cause) : Bool :=
  match c with
  | .supply => false
  | .porst => false
  | .thermal => true
  | .watchdog => true
  | .command => true
  | .recoveryExit => true
  | .unlisted _ => true

/-- The cause that is reported. -/
def causeOf (c : Cause) (s : State) : Cause :=
  if s.sys.dev == .reset && decide (causeOrder s.sys.cause < causeOrder c) then s.sys.cause else c

/-- A manger channel at a firmware reset: what the firmware held behind a slot is lost; channels 10 to 15 are cleared (R378; log 30). -/
def mangFw (ch : Nat) (m : Manger) : Manger :=
  if ch < 10 then { m with held := [] }
  else { Manger.reset with inDrop := min (m.inDrop + b2n m.inFull) 0xFFFF, outDrop := m.outDrop }

/-- The locks that a firmware reset frees: those of 0x02, 0x10 to 0x13 and 0x1F (R378). -/
def lockFw (o : Nat) : Nat := if o == 2 || (16 ≤ o && o ≤ 19) || o == 31 then 0 else o

/-- The remote read buffer: train time starts anew, and so does a timeout that runs (log 30). -/
def rdBufFw (b : RdBuf) : RdBuf :=
  match b with
  | .waiting k off n reqId (some _) far => .waiting k off n reqId (some 0) far
  | .waiting k off n reqId none far => .waiting k off n reqId none far
  | .idle => .idle
  | .data k off n words _ => .data k off n words 0
  | .timedOut k off n => .timedOut k off n

/-- The host island at a firmware reset (R378). SERVICE lasts until a reset (R321). -/
def hostFw (h : HostSt) : HostSt :=
  let serv := h.priv == .service
  { h with
    mang := h.mang.zipIdx.map fun x => mangFw x.2 x.1
    order := []
    priv := if serv then .observe else h.priv
    scope := 0
    locks := h.locks.map lockFw
    proxies := h.proxies.map fun p => { p with at_ := 0 }
    rdBuf := rdBufFw h.rdBuf }

/-- The inbound slots that are full (R379). -/
def fullSlots (s : State) : List Nat := (List.range 16).filter fun ch => (mangOf s ch).inFull

/-- A flash operation that a reset cuts short leaves no valid slot; the journals keep their previous entry (R465, R476). -/
def flashCut (torn : Bool) (f : FlashSt) : FlashSt :=
  { f with
    op := none
    torn := f.torn || torn
    slots := match f.op with
      | some o => if o.slot < 4 then f.slots.set o.slot { valid := false, words := [] } else f.slots
      | none => f.slots }

/-- A codeword of a record is uncorrectable. -/
def recBroken (seq : Nat) (s : State) : Bool :=
  s.loft.damage.any fun d => d.2 != .one && (16 * d.1 == recAddr s seq || 16 * d.1 == recAddr s seq + 16)

/-- How many of the newest records are not intact; each has a damaged codeword of its own. -/
def brokenEnd : Nat → Nat → State → Nat
  | 0, _, _ => 0
  | n + 1, k, s => if k < s.ev.recCount && recBroken (s.ev.recSeq - 1 - k) s then brokenEnd n (k + 1) s + 1 else 0

/-- The recorder as it survives a reset, going on from the newest intact record, or as it restarts at the persistent boot count (R447). -/
def recorderKeep (c : Cause) (s : State) : EvSt :=
  let k := brokenEnd (s.loft.damage.length + 1) 0 s
  if c == .supply then { EvSt.reset with recSeq := s.flash.bootCount * 2 ^ 40 }
  else { EvSt.reset with newest := if k == 0 then s.ev.newest else none, recSeq := s.ev.recSeq - k, recCount := s.ev.recCount - k }

/-- The hayloft as it survives a reset; a supply reset zeroes it with the default allocation (R463, R477). -/
def loftKeep (c : Cause) (l : LoftSt) : LoftSt :=
  if c == .supply then LoftSt.reset
  else { l with scrubPos := 0, scrubAt := 0, overdue := false, passes := 0, lastUe := 0 }

/-- The device enters RESET: everything but what R378, R447, R463 and R477 keep, the flash and fuses, the levels of the input pins and
the model's own fields takes its reset value. The collector is written out first, as no event placed in it is ever lost (R451;
log 30). -/
def enterReset (c : Cause) (torn : Bool) (s0 : State) : State :=
  let s := if c == .supply then s0 else writeOut s0
  let fw := isFirmware c
  let sup := c == .supply
  let slots : List Nat := if !fw then [] else if s.sys.dev == .reset then s.sys.slotsFull else fullSlots s
  let sys : Sys :=
    { Sys.reset with
      dev := .reset, cause := causeOf c s, vin := s.sys.vin, vinLow := s.sys.vin, slotsFull := slots
      pendThermal := if fw then s.sys.pendThermal else none
      dieTemp := s.sys.dieTemp, fieldTemp := s.sys.fieldTemp, thermalHold := s.sys.thermalHold, hostRst := s.sys.hostRst
      porst := s.sys.porst, bypassA := .hiZ, bypassB := .hiZ, badge := s.sys.badge, mac := s.sys.mac }
  { State.reset with
    sys := sys
    ends := { Ends.reset with a := { CplEnd.reset with pin := s.ends.a.pin }, b := { CplEnd.reset with pin := s.ends.b.pin } }
    teth := { TethSt.reset with tetherPin := s.teth.tetherPin }
    yard := { YardSt.reset with modAbs := s.yard.modAbs, los := s.yard.los, txDisable := .hiZ }
    sec := { Sec.reset with enrol := s.sec.enrol, enrolBad := s.sec.enrolBad, fuseKey := s.sec.fuseKey, idKey := s.sec.idKey, identity := s.sec.identity, arb := s.sec.arb, certs := s.sec.certs, devCert := s.sec.devCert }
    host := if fw then hostFw s.host else HostSt.reset
    strm := { StreamSt.reset with siClk := s.strm.siClk }
    cmd :=
      { CmdSt.reset with
        sessCtr := if fw then s.cmd.sessCtr else 0
        parcels := if fw then s.cmd.parcels.filter fun p => s.host.session != 0 && p.session == s.host.session else [] }
    sent := if sup then Sent.reset else { Sent.reset with history := s.sent.history, histSeq := s.sent.histSeq }
    ev := recorderKeep c s
    loft := loftKeep c s.loft
    flash := flashCut torn s.flash
    ctr := if sup then Ctrs.reset else s.ctr
    free := s.free
    pending := s.pending }

/-- VIN_LOGIC_RISE (R26). -/
def vinLogicRise (mv : Nat) (s : State) : State :=
  if s.sys.dev == .off then s.onSys fun x => { x with dev := .reset, cause := .supply, vin := mv } else s

def execVinLogicRise (mv : Nat) (s : State) : Out := withVin mv (vinLogicRise mv) s

/-- SUPPLY_RESET (R26, R473, R477): below the 0.3 V from which a ramp starts the device is OFF (R470; log 30). -/
def supplyReset (mv : Nat) (torn : Bool) (s : State) : State :=
  if s.sys.dev == .off || decide (2930 ≤ mv) then s
  else (enterReset .supply torn s).onSys fun x => { x with vin := mv, dev := if mv < 300 then .off else .reset }

def execSupplyReset (mv : Nat) (torn : Bool) (s : State) : Out := withVin mv (supplyReset mv torn) s

/-- PIN_RESET (R26, R477, R478). -/
def pinReset (torn : Bool) (s : State) : State :=
  if s.sys.dev == .off then s else (enterReset .porst torn s).onSys fun x => { x with porst := true }

def execPinReset (torn : Bool) (s : State) : Out := .next (pinReset torn s)

/-- The watchdog can expire: not in OFF, RESET or BARN, nor in TEST while the debug port is open, and not within 100 ms of the release
(R479). -/
def watchdogRuns (s : State) : Bool :=
  alive s && s.sys.dev != .barn && !(s.sys.dev == .test && s.sec.debug) && decide (100000000 ≤ s.clk.c)

/-- WATCHDOG_EXPIRY (R479). -/
def watchdogExpiry (s : State) : State := if watchdogRuns s then enterReset .watchdog false s else s

def execWatchdogExpiry (s : State) : Out := .next (watchdogExpiry s)

/-- The firmware reads its region as it executes: a codeword that is uncorrectable there resets it (R458). Whether that codeword is read
in this nanosecond is a free value (log 30). -/
def fwFetch (s : State) : State :=
  match s.loft.damage.find? fun d => d.2 != .one && decide (d.1 < mib) with
  | none => s
  | some d =>
    if !fwRuns s then s
    else if freeNat 1 s == 0 then tookFree s
    else
      let s1 := (loftCheck (16 * d.1) 16 coreId (tookFree s)).2
      enterReset (.unlisted (freeNat 8 s1)) false (tookFree s1)

/-- RESET (R396): the reply goes out, and the firmware reset follows 1 ms later, BRACED or not (R27; log 30). -/
def cmdReset (c : Ctx) (s : State) : State := (replyOk c [] s).onSys fun x => { x with resetAt := x.resetAt.orElse fun _ => some s.clk.c }

/-- The firmware reset of a RESET command, when its time has come. -/
def commandReset (s : State) : State :=
  match s.sys.resetAt with
  | some t => if t + 1000000 ≤ s.clk.c then enterReset .command false s else s
  | none => s

def execReset (via : Via) (s : State) : Out := .next (firmware 0x00B 1 .operate cmdReset via s)

/-- DIE_TEMPERATURE_SAMPLE (R480, R492), in units of 0.1 °C. -/
def dieTemperatureSample (t : Int) (s0 : State) : State :=
  let s := s0.onSys fun x => { x with dieTemp := t }
  if s0.sys.dev == .off then s0
  else if s0.sys.dev == .reset then
    s.onSys fun x => { x with thermalHold := x.thermalHold && decide (1150 ≤ t) }
  else if 1350 ≤ t then (enterReset .thermal false s).onSys fun x => { x with thermalHold := true, pendThermal := some t }
  else if 1150 < t && !s.sys.thermalWarn then raise 122 (tc 16 t * 65536 + 1) (s.onSys fun x => { x with thermalWarn := true })
  else if t < 1100 && s.sys.thermalWarn then raise 122 (tc 16 t * 65536 + 2) (s.onSys fun x => { x with thermalWarn := false })
  else s

def execDieTemperatureSample (t : Int) (s : State) : Out := .next (dieTemperatureSample t s)

/-! BRACED (R26, R27, R473, R475, R492). -/

/-- BRACED_ENTRY (R475): the collector first. -/
def bracedEntry (mv : Nat) (s : State) : State :=
  if !alive s || s.sys.dev == .barn || s.sys.braced || decide (3080 ≤ mv) then s
  else
    let s1 := writeOut s
    let s2 := fieldSettle (s1.onSys fun x => { x with braced := true, bracedAt := s.clk.c, vinLow := mv, vin := mv })
    notifyState s.sys.dev.code (raise2 121 1 mv s2)

def execBracedEntry (mv : Nat) (s : State) : Out := withVin mv (bracedEntry mv) s

/-! Start of the field die and of the yard port (R252, R255, R302, R331). -/

/-- The field die is powered from now on. -/
def fieldOn (s : State) : State :=
  fieldSettle (s.onFld fun d =>
    { d with
      lastState := s.clk.c, lastField := s.clk.c, confirmAt := s.clk.c
      ch := d.ch.map fun x => { x with runStart := sampleAt s.clk.c, cmpFrom := s.clk.c } })

/-- The RECOVERY loader brings the yard port up with the record of the recipe in ACTIVE_SLOT, when that verifies (R302). -/
def recoveryYard (sig : Bool) (s : State) : State :=
  let p := recipeBytes s s.flash.activeB
  let r := sectWords p 12
  if !owned s || p.isEmpty then s else
  let s := cntSec 7 s
  if sig && decide (recipeFloor s ≤ ctRseq p) && (dirCheck p).isNone && r.length == 412 && (yardCheck r).isNone then
    yardApply (r.take 28) ((r.drop 28).take 16) s
  else s

/-- The slots that were full at a firmware reset are flushed (R379). Those of channels 10 to 15 were cleared and counted in it. -/
def flushSlots (s : State) : State :=
  let full := s.sys.slotsFull.filter fun ch => decide (10 ≤ ch) || (mangOf s ch).inFull
  let s1 := each (full.filter fun ch => decide (ch < 10)) (fun ch => modMang ch fun m => { m with inFull := false, inDrop := min (m.inDrop + 1) 0xFFFF }) s
  dropEvent full.length 1 (ringHost 31 (s1.onSys fun x => { x with slotsFull := [] }))

/-- RECOVERY is entered with a BOOT code (R26, R300). The loader executes nothing that was committed before a firmware reset (R379; log 30). -/
def enterRecovery (code : Nat) (sig : Bool) (s : State) : State :=
  let s1 := s.onSys fun x => { x with dev := .recovery, bootCode := code, bypassA := .low, bypassB := .low }
  let s2 := if isFirmware s.sys.cause then flushSlots s1 else s1
  txPin (recoveryYard sig (raise 96 code (fieldOn s2)))

/-- What the security core reads from flash and fuses at reset release: the identity key gives the badge (R293), and the owner
enrolment record counts as absent when its MAC fails (R296). -/
def securityStart (s : State) : State :=
  let bad := match s.sec.enrol with | some e => e.sealMac != enrolSeal s e | none => false
  let s1 := (s.onSys fun x => { x with badge := (Config.badgeOf s.sec.identity).toNat }).onSec fun x => { x with enrolBad := bad }
  when' bad (raise 102 4) s1

/-- RESET_RELEASE (R26, R118, R293, R296, R297, R472, R474, R478): VIN_LOGIC is above RESTORE and no thermal hold remains. The pins are sampled, and
C is 0. -/
def resetRelease (mv : Nat) (recov own pinA pinB sig : Bool) (s : State) : State :=
  if s.sys.dev != .reset || s.sys.thermalHold || decide (mv ≤ 3070) then s
  else
    let s1 := (s.onSys fun x =>
      { x with dev := .boot, vin := mv, vinLow := mv, porst := false, ownLow := own, ceremony := false, bypassA := .low, bypassB := .low }).onEnds fun e =>
        { e with a := { e.a with pin := pinA }, b := { e.b with pin := pinB } }
    if recov then enterRecovery 3 sig (securityStart s1) else txPin (securityStart s1)

def execResetRelease (mv : Nat) (recov own pinA pinB sig : Bool) (s : State) : Out :=
  withVin mv (resetRelease mv recov own pinA pinB sig) s

/-! Boot (R299, R300, R485). -/

/-- An image is accepted: its signatures verify, ARB is at or above the fuse count, and it is co-signed where that is required. -/
def imageOk (p : List Byte) (ok : Bool) (s : State) : Bool :=
  ok && imageForm p && decide (s.sec.arb ≤ le p 8 4 / 2 ^ 24) && (!(((enrolled s).map (·.cosign)).getD false) || natBit (le p 8 4) 0)

/-- The image is copied into the firmware region (log 30), and the firmware can start. -/
def startImage (slotB : Bool) (p : List Byte) (s : State) : State :=
  let s1 := loftPoke 0 p (zeroRange 0 (16 * mib) s)
  let s2 := s1.onSys fun x =>
    { x with
      running := some slotB, bootCode := 1 + b2n slotB, fwArb := le p 8 4 / 2 ^ 24, fwCosigned := natBit (le p 8 4) 0
      fwVersion := le p 4 4, fwMeas := shaNat (imageCore p) }
  raise 96 (1 + b2n slotB) s2

/-- BOOT_IMAGE_VERIFIED (R300, R329): each signature that the image carries is an operation. Slot A, then slot B; RECOVERY when neither verifies. -/
def bootImageVerified (ok sig : Bool) (s0 : State) : State :=
  if s0.sys.dev != .boot || s0.sys.running.isSome then s0
  else
    let p := wordBytes (slotOf s0 (b2n s0.sys.triedA)).words
    let s := when' (imageForm p && natBit (le p 8 4) 0) (cntSec 7) (when' (imageForm p) (cntSec 7) s0)
    if imageOk p ok s then startImage s.sys.triedA p s
    else if !s.sys.triedA then s.onSys fun x => { x with triedA := true }
    else enterRecovery 4 sig s

def execBootImageVerified (ok sig : Bool) (s : State) : Out := .next (bootImageVerified ok sig s)

/-! STARTUP (R26, R36, R292, R379, R439, R447, R466, R481, R485, R487). -/

/-- The first record after STARTUP begins is a RESUME (R447, R448, R453). -/
def resumeStart (s : State) : State :=
  if s.sys.cause == .supply then
    let s1 := s.onEv fun v => { v with recSeq := s.flash.bootCount * 2 ^ 40, recCount := 0, newest := none }
    raiseCode 127 3 (s.flash.bootCount % 2 ^ 32) 0 (resumeRecord 2 s1)
  else raiseCode 127 2 s.ev.recSeq 0 (resumeRecord 1 s)

/-- The events of BOOT are raised now, with the stamp of this moment (R439). -/
def raisePending (s : State) : State :=
  each s.ev.bootPend (fun e => raiseCode e.1 e.2.1 e.2.2.1 e.2.2.2) (s.onEv fun v => { v with bootPend := [] })

/-- A thermal shutdown is reported (R492). -/
def raiseShutdown (s : State) : State :=
  match s.sys.pendThermal with
  | some t => raise 122 (tc 16 t * 65536 + 3) (s.onSys fun x => { x with pendThermal := none })
  | none => s

/-- An entry cut short by the reset is reported with the sector of the persistent counters (R465; log 30). -/
def raiseTorn (s : State) : State :=
  if s.flash.torn then raise 107 (0xCC0000 * 256 + 3) (s.onFlash fun f => { f with torn := false }) else s

/-- STARTUP_BEGIN: the boot count is written first, which waits for the end of BRACED (R466). The known-answer tests take two private
operations, one of a signature and one of OAEP (R292, R329; log 23). -/
def startupBegin (katOk : Bool) (s : State) : State :=
  if s.sys.dev != .boot || s.sys.running.isNone || s.sys.braced then s
  else
    let s1 := journalEntry (s.onFlash fun f => { f with bootCount := (f.bootCount + 1) % 2 ^ 32 })
    let s2 := fieldOn (setDev .startup (cntSec 6 (cntSec 6 (s1.onSys fun x => { x with katFail := !katOk }))))
    let s3 := resumeStart s2
    let s4 := if isFirmware s.sys.cause then flushSlots s3 else s3
    let s5 := (raiseTorn (raiseShutdown (raisePending s4))).onTeth fun t => { t with plantOff := none }
    when' (!katOk) (raise 103 2) s5

def execStartupBegin (katOk : Bool) (s : State) : Out := .next (startupBegin katOk s)

/-- BYPASS_RELEASE (R36): both lanes have block lock on the looped path, and the PCS self-test has passed. -/
def bypassRelease (pcsOk : Bool) (s : State) : State :=
  if s.sys.dev == .startup && s.ends.a.lock && s.ends.b.lock && pcsOk then
    s.onSys fun x => { x with bypassA := .high, bypassB := .high, recipeDone := true }
  else s

def execBypassRelease (pcsOk : Bool) (s : State) : Out := .next (bypassRelease pcsOk s)

/-- AUTO_START acts on a START, which BRACED holds (R26, R27, R278). -/
def autoStart (s : State) : State :=
  if !(pAutoStart s && startReady s) then s
  else if s.sys.braced then s.onSys fun x => { x with autoHeld := true }
  else if markedWithoutMark s then s
  else startNow s

/-- Steps 8 and 9 of R485: the recipe in ACTIVE_SLOT, else the other one. -/
def loadAtStart (sigActive sigOther : Bool) (s : State) : State :=
  if s.sys.katFail then s
  else
    let r := recipeAtStart s.flash.activeB sigActive s
    if r.1 then r.2 else (recipeAtStart (!s.flash.activeB) sigOther r.2).2

/-- STARTUP_DONE (R26, R411, R485, R487). -/
def startupDone (sigActive sigOther : Bool) (s : State) : State :=
  if s.sys.dev != .startup || !s.sys.recipeDone then s
  else
    let s1 := segLeave (setDev .stopped (loadAtStart sigActive sigOther s))
    let s2 := s1.onSys fun x => { x with recipeDone := false }
    autoStart (raisePending (raise 123 (s.flash.bootCount % 2 ^ 24 * 256 + s.sys.cause.code) s2))

def execStartupDone (sigActive sigOther : Bool) (s : State) : Out := .next (startupDone sigActive sigOther s)

/-! BARN (R247, R252, R488 to R491). -/

/-- A serial port as it halts, its shifters idle. What its transmitter has still to send stays for the time after BARN
(log 21). -/
def portHalt (c : Nat) (p : PortSt) : PortSt := { p with phase := .waitIdle, lowAt := c, txPhase := .idle, de := false, echo := false }

/-- A shifter of the port still holds a character. -/
def portBusy (p : PortSt) : Bool := p.phase == .character || p.txCh.isSome

/-- An end whose lane is taken down. -/
def endHalt (c : Nat) (e : CplEnd) : CplEnd :=
  { e with lock := false, hiBer := false, absentAt := if e.signal then none else some c }

/-- The field die loses its supply: channels and group state start anew. -/
def fieldOff (s : State) : State :=
  s.onFld fun d => { d with ch := d.ch.map (fun x => { Chan.reset with runLevel := x.runLevel }), modShed := none, grp := d.grp.map fun g => { FGroup.reset with gen := g.gen }, edges := [], cmds := [] }

/-- BARN_ENTRY_DONE (R488): in the order of the rule, once each serial shifter has completed its character. -/
def barnEntryDone (s : State) : State :=
  if s.sys.dev != .stopped || s.sys.barn != .entering || s.ports.any portBusy then s
  else
    let s1 := writeOut (s.onPorts fun ps => ps.map (portHalt s.clk.c))
    let s2 := strmSettle (setDev .barn s1)
    let s3 := endUpdate true (endUpdate false (s2.onEnds fun e => { e with a := endHalt s.clk.c e.a, b := endHalt s.clk.c e.b }))
    let s4 := if barnWatch s3 then s3 else fieldOff s3
    s4.onSys fun x => { x with barn := if x.wakeSrc == 0 then .asleep else .waking, barnIn := s.clk.c }

def execBarnEntryDone (s : State) : Out := .next (barnEntryDone s)

/-- An end gives the coupler source: signal detect has been absent for 1 ms after entry (R489). -/
def couplerWakes (s : State) (e : CplEnd) : Bool :=
  match e.absentAt with
  | some a => s.sys.dev == .barn && decide (max a s.sys.barnIn + 1000000 ≤ s.clk.c)
  | none => false

/-- The condition of a wake source: 0 serial, 1 field, 2 coupler, 3 host, 4 timer (R489). -/
def wakeAllowed (src idx : Nat) (s : State) : Bool :=
  match src with
  | 0 => bit (portOf s idx).rec_ 1 21
  | 1 => barnWatch s && fcMode (chRec s idx) == 1 && fcWake (chRec s idx)
  | 2 => couplerWakes s s.ends.a || couplerWakes s s.ends.b
  | 3 => true
  | 4 => s.sys.wakeTimer != 0 && decide (s.sys.barnAt + s.sys.wakeTimer * 1000000 ≤ s.clk.c)
  | _ => false

/-- BARN_WAKE (R489): a source that fires during entry is latched. -/
def barnWake (src idx : Nat) (s : State) : State :=
  if !(s.sys.barn == .entering || s.sys.dev == .barn) || !wakeAllowed src idx s then s
  else wakeLatch src idx s

def execBarnWake (src idx : Nat) (s : State) : Out := .next (barnWake src idx s)

/-- WAKE_DONE (R36, R490, R492): a mismatch of the firmware's hash is a firmware reset, for which R492 lists no cause. STOPPED is entered
once both lanes have block lock. -/
def wakeDone (hashOk : Bool) (s : State) : State :=
  if s.sys.dev != .barn || s.sys.barn != .waking then s
  else if !hashOk then enterReset (.unlisted (freeNat 8 s)) false (tookFree s)
  else if !(s.ends.a.lock && s.ends.b.lock) then s
  else
    let ms := min ((s.clk.c - s.sys.barnIn) / 1000000) 0xFFFFFFFF
    let s1 := setDev .stopped (s.onSys fun x => { x with barn := .awake, wakeSrc := 0, wakeIdx := none, wakeTimer := 0, bypassA := .high, bypassB := .high })
    let s2 := endUpdate true (endUpdate false ((if barnWatch s then fieldSettle s1 else fieldOn s1).onTeth fun t => { t with tether := t.tetherPin }))
    each (List.range 16) txStart (strmSettle (raise2 124 (s.sys.wakeIdx.getD 0 % 32 * 65536 + s.sys.wakeSrc % 32 * 256 + 1) ms s2))

def execWakeDone (hashOk : Bool) (s : State) : Out := .next (wakeDone hashOk s)

end Sys2Proof.Machine
end

