-- ==== Sys2Proof/Machine/CmdRun.lean ====
section
/-!
DEFINITION. Running a command by its code: those that waited or were held, the completion of RSA and flash
operations, unknown codes, the end of BRACED, and the basic-cycle boundary (R4, R27, R162, R305, R327, R386, R393, R466, R475).
-/

namespace Sys2Proof.Machine

open Sys2Proof

/-- A code that the firmware does not implement (R4, R386, R388). -/
def badCode (c : Ctx) (s : State) : State := reply c 2 (msgCode c.words) [] s

/-- Commands 0x0xx. -/
def runDevice (k : Nat) (c : Ctx) (s : State) : State :=
  if k == 0x001 then checkCmd 1 .observe cmdDeviceId c s
  else if k == 0x002 then checkCmd 1 .observe cmdDeviceStatus c s
  else if k == 0x003 then checkCmd 2 .observe cmdSessionOpen c s
  else if k == 0x004 then checkCmd 1 .observe cmdSessionClose c s
  else if k == 0x005 then checkCmd 1 .observe cmdOperatorChallenge c s
  else if k == 0x006 then checkCmd 4 .observe cmdOperatorResponse c s
  else if k == 0x007 then checkCmd 1 .operate cmdStart c s
  else if k == 0x008 then checkCmd 1 .operate cmdStop c s
  else if k == 0x009 then checkCmd 2 .operate cmdBarn c s
  else if k == 0x00A then checkCmd 1 .serviceTest cmdTest c s
  else if k == 0x00B then checkCmd 1 .operate cmdReset c s
  else if k == 0x00C then checkCmd 2 .config cmdRecipeActivate c s
  else badCode c s

/-- Commands 0x1xx. -/
def runTrain (k : Nat) (c : Ctx) (s : State) : State :=
  if k == 0x101 then checkCmd 1 .observe cmdTrainStatus c s
  else if k == 0x102 then checkCmd 3 .observe cmdRosterRead c s
  else if k == 0x103 then checkCmd 3 .observe cmdSourceRead c s
  else if k == 0x104 then checkCmd 1 .observe cmdCouplerStatus c s
  else if k == 0x105 then checkCmd 1 .operate cmdAdmissionRetry c s
  else if k == 0x106 then checkCmd 4 .config cmdGroupChange c s
  else if k == 0x107 then checkCmd 3 .observe cmdGroupRead c s
  else badCode c s

/-- Commands 0x2xx. -/
def runTime (k : Nat) (c : Ctx) (s : State) : State :=
  if k == 0x201 then checkCmd 1 .observe cmdTimeRead c s
  else if k == 0x202 then checkCmd 1 .observe cmdTimeStatus c s
  else badCode c s

/-- Commands 0x3xx. -/
def runPlan (k : Nat) (c : Ctx) (s : State) : State :=
  if k == 0x301 then checkCmd 3 .observe cmdPlanRead c s
  else if k == 0x302 then checkCmd 3 .observe cmdImageDirectory c s
  else if k == 0x303 then checkCmd 4 .config cmdMarkSet c s
  else if k == 0x304 then checkCmd 3 .config cmdBindingSet c s
  else if k == 0x305 then checkCmd 3 .observe cmdCouplingRead c s
  else badCode c s

/-- Commands 0x4xx. -/
def runSentence (k : Nat) (c : Ctx) (s : State) : State :=
  if k == 0x401 then checkCmd 14 .config cmdTalkerSet c s
  else if k == 0x402 then checkCmd 4 .config cmdListenerSet c s
  else if k == 0x403 then checkCmd 4 .config cmdRuleReplace c s
  else if k == 0x404 then checkCmd 4 .operate cmdSubmit c s
  else if k == 0x405 then checkCmd 4 .observe cmdFetch c s
  else if k == 0x406 then checkCmd 4 .operate cmdDirectSend c s
  else if k == 0x407 then checkCmd 9 .operate cmdReplay c s
  else if k == 0x408 then checkCmd 3 .observe cmdSentenceCounters c s
  else badCode c s

/-- Commands 0x5xx. -/
def runSerial (k : Nat) (c : Ctx) (s : State) : State :=
  if k == 0x501 then checkCmd 8 .config cmdPortSet c s
  else if k == 0x502 then checkCmd 2 .observe cmdPortStatus c s
  else if k == 0x503 then checkCmd 4 .observe cmdRawRead c s
  else badCode c s

/-- Commands 0x6xx. -/
def runField (k : Nat) (c : Ctx) (s : State) : State :=
  if k == 0x601 then checkCmd 2 .config cmdFieldModuleSet c s
  else if k == 0x602 then checkCmd 3 .config cmdFieldGroupSet c s
  else if k == 0x603 then checkCmd 4 .config cmdFieldChannelSet c s
  else if k == 0x604 then checkCmd 3 .config cmdFieldRuleSet c s
  else if k == 0x605 then checkCmd 3 .observe cmdFieldStatus c s
  else if k == 0x606 then checkCmd 2 .operate cmdTake c s
  else if k == 0x607 then checkCmd 2 .operate cmdRelease c s
  else if k == 0x608 then checkCmd 3 .operate cmdFieldOutput c s
  else if k == 0x609 then checkCmd 5 .operate cmdTimedApply c s
  else if k == 0x60A then checkCmd 2 .operate cmdFaultClear c s
  else if k == 0x60B then checkCmd 2 .operate cmdRearm c s
  else badCode c s

/-- Commands 0x7xx. -/
def runSecurity (k : Nat) (c : Ctx) (s : State) : State :=
  if k == 0x701 then checkCmd 11 .observe cmdQuote c s
  else if k == 0x702 then checkCmd 4 .observe cmdCertRead c s
  else if k == 0x703 then checkCmd 1 .observe cmdOwnChallenge c s
  else if k == 0x704 then checkCmd 3 .proof cmdTakeOwnership c s
  else if k == 0x705 then checkCmd 3 .proof cmdEnvelope c s
  else if k == 0x706 then checkCmd 1 .config cmdRotate c s
  else if k == 0x707 then checkCmd 1 .config cmdRollbackCommit c s
  else if k == 0x708 then checkCmd 3 .config cmdOwnerTransfer c s
  else if k == 0x709 then checkCmd 1 .config cmdZeroise c s
  else if k == 0x70A then checkCmd 1 .observe cmdServiceChallenge c s
  else if k == 0x70B then checkCmd 3 .proof cmdServiceToken c s
  else badCode c s

/-- Commands 0x8xx. -/
def runYard (k : Nat) (c : Ctx) (s : State) : State :=
  if k == 0x801 then checkCmd 3 .config cmdYardSet c s
  else if k == 0x802 then checkCmd 4 .config cmdSteerSet c s
  else if k == 0x803 then checkCmd 8 .config cmdEndpointSet c s
  else if k == 0x804 then checkCmd 1 .observe cmdYardStatus c s
  else if k == 0x805 then checkCmd 2 .operate cmdSnapshot c s
  else if k == 0x806 then checkCmd 5 .operate cmdTrainSnapshot c s
  else if k == 0x807 then checkCmd 4 (if s.sys.dev == .recovery then .observe else .operate) cmdSegmentSend c s
  else if k == 0x808 then checkCmd 4 .observe cmdSnapshotSend c s
  else badCode c s

/-- Commands 0x9xx. -/
def runStream (k : Nat) (c : Ctx) (s : State) : State :=
  if k == 0x901 then checkCmd 1 .observe cmdStreamStatus c s
  else if k == 0x902 then checkCmd 3 .config cmdStreamSet c s
  else badCode c s

/-- Commands 0xAxx. -/
def runEvents (k : Nat) (c : Ctx) (s : State) : State :=
  if k == 0xA01 then checkCmd 6 .observe cmdRecorderRead c s
  else if k == 0xA02 then checkCmd 3 .config cmdRouteSet c s
  else if k == 0xA03 then checkCmd 1 .operate cmdCounterClear c s
  else badCode c s

/-- Commands 0xBxx. -/
def runLoft (k : Nat) (c : Ctx) (s : State) : State :=
  if k == 0xB01 then checkCmd 2 .operate cmdParcelAlloc c s
  else if k == 0xB02 then checkCmd 2 .operate cmdParcelFree c s
  else if k == 0xB03 then checkCmd 1 .observe cmdHayloftStatus c s
  else if k == 0xB04 then checkCmd 4 .config cmdSlotWrite c s
  else if k == 0xB05 then checkCmd 2 .observe cmdSlotInfo c s
  else if k == 0xB06 then checkCmd 5 .operate cmdParcelPush c s
  else badCode c s

/-- Commands 0xFxx. -/
def runTest (k : Nat) (c : Ctx) (s : State) : State :=
  if k == 0xF01 then checkCmd 1 .observe cmdDiagRead c s
  else if k == 0xF02 then checkCmd 2 .service cmdLoopback c s
  else if k == 0xF03 then checkCmd 2 .service cmdLanePrbs c s
  else badCode c s

/-- A command by its code, after it has been taken: its common checks, then its own (R386). -/
def runCmd (c : Ctx) (s : State) : State :=
  let k := msgCode c.words
  match k / 256 with
  | 0 => runDevice k c s
  | 1 => runTrain k c s
  | 2 => runTime k c s
  | 3 => runPlan k c s
  | 4 => runSentence k c s
  | 5 => runSerial k c s
  | 6 => runField k c s
  | 7 => runSecurity k c s
  | 8 => runYard k c s
  | 9 => runStream k c s
  | 10 => runEvents k c s
  | 11 => runLoft k c s
  | 15 => runTest k c s
  | _ => badCode c s

/-- UNKNOWN_COMMAND_CODE (R4). -/
def unknownCommandCode (via : Via) (s : State) : State :=
  if !takesMsgs s then s else
  match s.cmd.ready.filter fun c => c.via == via && !knownCodes.contains (msgCode c.words) with
  | some c => badCode c (takeReady s)
  | none =>
  if readyFirst s || !hasTurn s via then s else
  match waitingMsg s via with
  | none => s
  | some ws => if knownCodes.contains (msgCode ws) then s else badCode (ctxOf s via ws) (takeMsg via s)

def execUnknownCommandCode (via : Via) (s : State) : Out := .next (unknownCommandCode via s)

/-- Serialised commands that waited begin, one after another, for as long as none executes (R393). -/
def drain : Nat → State → State
  | 0, s => s
  | n + 1, s =>
    match s.cmd.busy, s.cmd.waiting with
    | none, c :: r => drain n (startSerial (msgCode c.words) runCmd c (s.onCmd fun q => { q with waiting := r }))
    | _, _ => s

/-! RSA operations (R326, R327). -/

/-- The job ends with a write to the flash, which BRACED holds (R305, R466). -/
def jobWrites (j : RsaJob) : Bool :=
  match j with
  | .quote => false
  | .operResponse => false
  | .takeOwnership => true
  | .transfer => true
  | .envelope => true
  | .serviceToken => false
  | .recipeActivate => true
  | .slotWrite => true

/-- The signature of an envelope has been checked: it is refused, or its command is the next to execute (R305; log 31). -/
def envelopeDone (c : Ctx) (p : List Byte) (ok : Bool) (s0 : State) : State :=
  let ws := envWords p
  let i := (parcelWord (msgCode ws)).getD 0
  match envCheck p ok s0 with
  | some (st, d) =>
    let s := serialDone s0
    envRefuse st d c (if st == 12 && d == 1 then (loftCheck (wd ws i) (wd ws (i + 1)) coreId s).2 else s)
  | none => (envAccept p s0).onCmd fun q => { q with ready := some (envCtx c p s0) }

/-- What an RSA operation that has completed leads to. -/
def jobDone (j : Job) (ok : Bool) (s : State) : State :=
  match j.job with
  | .quote => quoteDone j.ctx j.data s
  | .operResponse => operDone j.ctx j.data ok s
  | .takeOwnership => takeOwnershipDone j.ctx j.data ok s
  | .transfer => transferDone' j.ctx j.data ok s
  | .envelope => envelopeDone j.ctx j.data ok s
  | .serviceToken => tokenDone j.ctx j.data ok s
  | .recipeActivate => recipeActivateDone j.ctx ok s
  | .slotWrite => slotWriteDone j.ctx j.data ok s

/-- HOST_RSA_OPERATION_DONE (R327): the head of a unit's queue completes, and the next begins. -/
def hostRsaOperationDone (priv ok : Bool) (s : State) : State :=
  if !takesMsgs s then s else
  match (if priv then (rsaBegin s).sec.rsaPriv else s.sec.rsaPub) with
  | [] => s
  | j :: r =>
    if (s.sys.braced && jobWrites j.job) || !rsaTurn (if priv then .hostPriv else .hostPub) s then s
    else
      let s1 := rsaEnd priv (s.onSec fun x => if priv then { x with rsaPriv := r } else { x with rsaPub := r })
      drain 9 (rsaBegin (jobDone j ok s1))

def execHostRsaOperationDone (priv ok : Bool) (s : State) : Out := .next (hostRsaOperationDone priv ok s)

/-! Flash operations (R466). -/

/-- FLASH_OPERATION_DONE (R466): an operation that fails is retried once. -/
def flashOperationDone (ok : Bool) (s : State) : State :=
  match s.flash.op with
  | none => s
  | some o =>
    if !o.started then s
    else if ok then drain 9 (flashOk o s)
    else if !o.retried then s.onFlash fun f => { f with op := some { o with retried := true, started := !s.sys.braced } }
    else drain 9 (flashFailed o s)

def execFlashOperationDone (ok : Bool) (s : State) : Out := .next (flashOperationDone ok s)

/-! The end of BRACED (R26, R27, R280, R475, R492). -/

/-- Held commands execute, in the order in which they were held; the command of an accepted envelope goes before them (R305). -/
def runHeld (s : State) : State :=
  drain 9 (s.onCmd fun q => { q with held := [], waiting := q.held ++ q.waiting, busy := if q.ready.isSome then q.busy else none })

/-- An AUTO_START that BRACED held acts now (R27, R487). -/
def autoHeldStart (s : State) : State := if s.sys.autoHeld then autoStart (s.onSys fun x => { x with autoHeld := false }) else s

/-- BRACED_EXIT: 100 µs above RESTORE. `low` is the lowest VIN_LOGIC measured meanwhile. -/
def bracedExit (mv low : Nat) (s : State) : State :=
  if !s.sys.braced || decide (mv ≤ 3070) then s
  else
    let least := min s.sys.vinLow low
    let us := min ((s.clk.c - s.sys.bracedAt) / 1000) 0xFFFFFF
    let s1 := fieldSettle (s.onSys fun x => { x with braced := false, vin := mv, vinLow := least })
    let s2 := s1.onFlash fun f => { f with op := f.op.map fun o => { o with started := true } }
    let s3 := notifyState s.sys.dev.code (raise2 121 (us * 256 + 2) least s2)
    drain 9 (autoHeldStart (if s.cmd.held.isEmpty then s3 else runHeld s3))

def execBracedExit (mv low : Nat) (s : State) : Out := withVin mv (bracedExit mv low) s

/-! The basic-cycle boundary (R162). -/

/-- A GROUP_CHANGE that waits for its copy at a car that leads no more fails (R397). -/
def commitLost (s : State) : State :=
  match s.cmd.commitWait with
  | some c => if isLead s then s else stateError c (s.onCmd fun q => { q with commitWait := none, busy := none })
  | none => s

/-- BASIC_CYCLE_BOUNDARY: the duties of the cycle that begins; STOP takes effect, and commands that waited begin. -/
def basicCycleBoundary (s : State) : State :=
  if !fwRuns s then s
  else
    let s1 := if planLoaded s && trainTime s / cycleP s != s.plan.cycle then boundaryDuties s else s
    drain 9 (commitLost (finishStop s1))

def execBasicCycleBoundary (s : State) : Out := .next (basicCycleBoundary s)

end Sys2Proof.Machine
end

