-- ==== Sys2Proof/Machine/Dispatch.lean ====
section
/-!
DEFINITION. What each command does to everything but the queue: one arm per constructor, each one call.
-/

namespace Sys2Proof.Machine

open Sys2Proof

/-- The effect of a command (Step.lean takes it from the queue). -/
def exec (i : Instr) (s : State) : Host.Outcome State Fault Refusal :=
  match i with
  | .vinLogicRise mv => Sys2Proof.Machine.execVinLogicRise mv s
  | .supplyReset mv torn => Sys2Proof.Machine.execSupplyReset mv torn s
  | .pinReset torn => Sys2Proof.Machine.execPinReset torn s
  | .resetRelease mv bootRecovery ownPresent pinA pinB recipeSig => Sys2Proof.Machine.execResetRelease mv bootRecovery ownPresent pinA pinB recipeSig s
  | .watchdogExpiry => Sys2Proof.Machine.execWatchdogExpiry s
  | .dieTemperatureSample t => Sys2Proof.Machine.execDieTemperatureSample t s
  | .hostReset => Sys2Proof.Machine.execHostReset s
  | .bracedEntry mv => Sys2Proof.Machine.execBracedEntry mv s
  | .bracedExit mv low => Sys2Proof.Machine.execBracedExit mv low s
  | .supplyThreshold mv => Sys2Proof.Machine.execSupplyThreshold mv s
  | .supplyReturned mv => Sys2Proof.Machine.execSupplyReturned mv s
  | .bootImageVerified ok recipeSig => Sys2Proof.Machine.execBootImageVerified ok recipeSig s
  | .startupBegin katOk => Sys2Proof.Machine.execStartupBegin katOk s
  | .bypassRelease pcsOk => Sys2Proof.Machine.execBypassRelease pcsOk s
  | .startupDone sigActive sigOther => Sys2Proof.Machine.execStartupDone sigActive sigOther s
  | .barnWake src idx => Sys2Proof.Machine.execBarnWake src idx s
  | .wakeDone hashOk => Sys2Proof.Machine.execWakeDone hashOk s
  | .presenceChange endB level => Sys2Proof.Machine.execPresenceChange endB level s
  | .laneStatusChange endB signal lock hiBer => Sys2Proof.Machine.execLaneStatusChange endB signal lock hiBer s
  | .helloChunkSend endB => Sys2Proof.Machine.execHelloChunkSend endB s
  | .helloChunkReceive endB idx val => Sys2Proof.Machine.execHelloChunkReceive endB idx val s
  | .lineLinkTimeout endB => Sys2Proof.Machine.execLineLinkTimeout endB s
  | .frameHeader endB hdr => Sys2Proof.Machine.execFrameHeader endB hdr s
  | .openFrameBadge endB badge => Sys2Proof.Machine.execOpenFrameBadge endB badge s
  | .frameTail endB body tag fcs errBlock badBlock => Sys2Proof.Machine.execFrameTail endB body tag fcs errBlock badBlock s
  | .passBufferRelease endB => Sys2Proof.Machine.execPassBufferRelease endB s
  | .frameLaunch => Sys2Proof.Machine.execFrameLaunch s
  | .frameCopyLaunch endB => Sys2Proof.Machine.execFrameCopyLaunch endB s
  | .cyclicLaunch entry => Sys2Proof.Machine.execCyclicLaunch entry s
  | .earlyFrameHoldExpiry => Sys2Proof.Machine.execEarlyFrameHoldExpiry s
  | .openEntryRelease badge => Sys2Proof.Machine.execOpenEntryRelease badge s
  | .pairSettlement => Sys2Proof.Machine.execPairSettlement s
  | .basicCycleBoundary => Sys2Proof.Machine.execBasicCycleBoundary s
  | .coldStartListenEnd => Sys2Proof.Machine.execColdStartListenEnd s
  | .claimSend => Sys2Proof.Machine.execClaimSend s
  | .claimWin => Sys2Proof.Machine.execClaimWin s
  | .claimWaitTimeout => Sys2Proof.Machine.execClaimWaitTimeout s
  | .beaconSend => Sys2Proof.Machine.execBeaconSend s
  | .nlRedraw => Sys2Proof.Machine.execNlRedraw s
  | .beaconSigned => Sys2Proof.Machine.execBeaconSigned s
  | .beaconReceive sigOk => Sys2Proof.Machine.execBeaconReceive sigOk s
  | .leadCertReceive => Sys2Proof.Machine.execLeadCertReceive s
  | .leadVerified chainOk sigOk => Sys2Proof.Machine.execLeadVerified chainOk sigOk s
  | .quoteSigned => Sys2Proof.Machine.execQuoteSigned s
  | .admCertReceive => Sys2Proof.Machine.execAdmCertReceive s
  | .admQuoteReceive chainOk sigOk => Sys2Proof.Machine.execAdmQuoteReceive chainOk sigOk s
  | .grantBuilt badge => Sys2Proof.Machine.execGrantBuilt badge s
  | .admGrantReceive sigOk => Sys2Proof.Machine.execAdmGrantReceive sigOk s
  | .grantUnwrapped ok => Sys2Proof.Machine.execGrantUnwrapped ok s
  | .grantTimeout => Sys2Proof.Machine.execGrantTimeout s
  | .admDoneReceive => Sys2Proof.Machine.execAdmDoneReceive s
  | .presentReceive sigOk => Sys2Proof.Machine.execPresentReceive sigOk s
  | .leadStatusSend => Sys2Proof.Machine.execLeadStatusSend s
  | .leadStatusReceive => Sys2Proof.Machine.execLeadStatusReceive s
  | .positionReceive => Sys2Proof.Machine.execPositionReceive s
  | .censusSend => Sys2Proof.Machine.execCensusSend s
  | .censusReceive => Sys2Proof.Machine.execCensusReceive s
  | .positionReplySend => Sys2Proof.Machine.execPositionReplySend s
  | .censusClose => Sys2Proof.Machine.execCensusClose s
  | .numberingSend => Sys2Proof.Machine.execNumberingSend s
  | .numberingReceive => Sys2Proof.Machine.execNumberingReceive s
  | .gracePeriodEnd => Sys2Proof.Machine.execGracePeriodEnd s
  | .backupTakeover => Sys2Proof.Machine.execBackupTakeover s
  | .leadLossTimeout => Sys2Proof.Machine.execLeadLossTimeout s
  | .dissolveReceive => Sys2Proof.Machine.execDissolveReceive s
  | .handoverSend => Sys2Proof.Machine.execHandoverSend s
  | .handoverReceive => Sys2Proof.Machine.execHandoverReceive s
  | .stateChunkReceive => Sys2Proof.Machine.execStateChunkReceive s
  | .stateCommitReceive => Sys2Proof.Machine.execStateCommitReceive s
  | .stateAckReceive => Sys2Proof.Machine.execStateAckReceive s
  | .stateCopyTimeout => Sys2Proof.Machine.execStateCopyTimeout s
  | .stateCopyRetry => Sys2Proof.Machine.execStateCopyRetry s
  | .referenceSend => Sys2Proof.Machine.execReferenceSend s
  | .shadowSend => Sys2Proof.Machine.execShadowSend s
  | .holdoverEntry => Sys2Proof.Machine.execHoldoverEntry s
  | .wholeSecondMark => Sys2Proof.Machine.execWholeSecondMark s
  | .refclkFault => Sys2Proof.Machine.execRefclkFault s
  | .stampSelfCheck diff => Sys2Proof.Machine.execStampSelfCheck diff s
  | .tetherChange level => Sys2Proof.Machine.execTetherChange level s
  | .masterClaim => Sys2Proof.Machine.execMasterClaim s
  | .tetherFaultBegin => Sys2Proof.Machine.execTetherFaultBegin s
  | .delaySend => Sys2Proof.Machine.execDelaySend s
  | .ptpMessageReceive off locked => Sys2Proof.Machine.execPtpMessageReceive off locked s
  | .ptpRelay => Sys2Proof.Machine.execPtpRelay s
  | .ebLimitCrossing => Sys2Proof.Machine.execEbLimitCrossing s
  | .cyclicOccurrenceCheck entry => Sys2Proof.Machine.execCyclicOccurrenceCheck entry s
  | .imageCopyComplete entry => Sys2Proof.Machine.execImageCopyComplete entry s
  | .cycleMarkFire mark => Sys2Proof.Machine.execCycleMarkFire mark s
  | .outputApplyStrobe => Sys2Proof.Machine.execOutputApplyStrobe s
  | .sentenceFramed slot => Sys2Proof.Machine.execSentenceFramed slot s
  | .sentenceClassify => Sys2Proof.Machine.execSentenceClassify s
  | .sentenceFrameUnpack => Sys2Proof.Machine.execSentenceFrameUnpack s
  | .reseqHoldExpiry adm stream => Sys2Proof.Machine.execReseqHoldExpiry adm stream s
  | .mergeRelease slot => Sys2Proof.Machine.execMergeRelease slot s
  | .listenerEmit slot => Sys2Proof.Machine.execListenerEmit slot s
  | .bulkReceive => Sys2Proof.Machine.execBulkReceive s
  | .groupMap => Sys2Proof.Machine.execGroupMap s
  | .startEdge port samples => Sys2Proof.Machine.execStartEdge port samples s
  | .characterComplete port body stopBit => Sys2Proof.Machine.execCharacterComplete port body stopBit s
  | .lineStuckTimeout port => Sys2Proof.Machine.execLineStuckTimeout port s
  | .lineResumed port => Sys2Proof.Machine.execLineResumed port s
  | .fifoItemTransfer port => Sys2Proof.Machine.execFifoItemTransfer port s
  | .rxTimeoutFlush port => Sys2Proof.Machine.execRxTimeoutFlush port s
  | .txCharacterEnd port => Sys2Proof.Machine.execTxCharacterEnd port s
  | .deTailEnd port => Sys2Proof.Machine.execDeTailEnd port s
  | .echoMuteEnd port => Sys2Proof.Machine.execEchoMuteEnd port s
  | .barrierFrameSend => Sys2Proof.Machine.execBarrierFrameSend s
  | .barrierFrameReceive crc => Sys2Proof.Machine.execBarrierFrameReceive crc s
  | .barrierLinkTimeout => Sys2Proof.Machine.execBarrierLinkTimeout s
  | .heartbeatConfirm => Sys2Proof.Machine.execHeartbeatConfirm s
  | .heartbeatMissing => Sys2Proof.Machine.execHeartbeatMissing s
  | .hbTimeout => Sys2Proof.Machine.execHbTimeout s
  | .inputTransitionAccept ch => Sys2Proof.Machine.execInputTransitionAccept ch s
  | .edgeReportReceive => Sys2Proof.Machine.execEdgeReportReceive s
  | .currentLimitTimeout ch since => Sys2Proof.Machine.execCurrentLimitTimeout ch since s
  | .shortRetry ch => Sys2Proof.Machine.execShortRetry ch s
  | .retryCountReset ch => Sys2Proof.Machine.execRetryCountReset ch s
  | .overloadShed g mod => Sys2Proof.Machine.execOverloadShed g mod s
  | .readbackFault ch => Sys2Proof.Machine.execReadbackFault ch s
  | .readbackFaultEnd ch => Sys2Proof.Machine.execReadbackFaultEnd ch s
  | .openLoadTestStart ch => Sys2Proof.Machine.execOpenLoadTestStart ch s
  | .openLoadTestEnd ch high => Sys2Proof.Machine.execOpenLoadTestEnd ch high s
  | .groupSupplyCrossing g v => Sys2Proof.Machine.execGroupSupplyCrossing g v s
  | .groupAutoRestore g => Sys2Proof.Machine.execGroupAutoRestore g s
  | .fieldDieTemp t => Sys2Proof.Machine.execFieldDieTemp t s
  | .leaseExpiry g => Sys2Proof.Machine.execLeaseExpiry g s
  | .timedApplyDue => Sys2Proof.Machine.execTimedApplyDue s
  | .entropyHealthChange ok => Sys2Proof.Machine.execEntropyHealthChange ok s
  | .keyLifeExpiry => Sys2Proof.Machine.execKeyLifeExpiry s
  | .rekeyBlockWrapped => Sys2Proof.Machine.execRekeyBlockWrapped s
  | .rekey => Sys2Proof.Machine.execRekey s
  | .rekeyUnwrapped => Sys2Proof.Machine.execRekeyUnwrapped s
  | .rekeyAck => Sys2Proof.Machine.execRekeyAck s
  | .rekeyResendTimeout adm => Sys2Proof.Machine.execRekeyResendTimeout adm s
  | .keySwitch => Sys2Proof.Machine.execKeySwitch s
  | .oldKeyErase => Sys2Proof.Machine.execOldKeyErase s
  | .challengeLockoutEnd => Sys2Proof.Machine.execChallengeLockoutEnd s
  | .macsecSakInstall => Sys2Proof.Machine.execMacsecSakInstall s
  | .yardLinkChange up => Sys2Proof.Machine.execYardLinkChange up s
  | .yardModulePinChange modAbs los => Sys2Proof.Machine.execYardModulePinChange modAbs los s
  | .yardFrameStart hdr len => Sys2Proof.Machine.execYardFrameStart hdr len s
  | .yardFrameTail rest fcsOk icvOk => Sys2Proof.Machine.execYardFrameTail rest fcsOk icvOk s
  | .yardFrameTransmit => Sys2Proof.Machine.execYardFrameTransmit s
  | .yardIpService => Sys2Proof.Machine.execYardIpService s
  | .datagramSend ep => Sys2Proof.Machine.execDatagramSend ep s
  | .datagramReceive sub => Sys2Proof.Machine.execDatagramReceive sub s
  | .datagramPairForget sub src ep => Sys2Proof.Machine.execDatagramPairForget sub src ep s
  | .yardSessionDatagram => Sys2Proof.Machine.execYardSessionDatagram s
  | .yardSessionTimeout k => Sys2Proof.Machine.execYardSessionTimeout k s
  | .snapshotReq => Sys2Proof.Machine.execSnapshotReq s
  | .snapshotFreeze => Sys2Proof.Machine.execSnapshotFreeze s
  | .status => Sys2Proof.Machine.execStatus s
  | .unknownOpcode op addr => Sys2Proof.Machine.execUnknownOpcode op addr s
  | .hostTransactionAbort => Sys2Proof.Machine.execHostTransactionAbort s
  | .registerWrite newTxn addr w => Sys2Proof.Machine.execRegisterWrite newTxn addr w s
  | .inMsgWrite newTxn ch off w => Sys2Proof.Machine.execInMsgWrite newTxn ch off w s
  | .inCommit newTxn ch => Sys2Proof.Machine.execInCommit newTxn ch s
  | .outCommitRead newTxn ch last => Sys2Proof.Machine.execOutCommitRead newTxn ch last s
  | .outboundHeldDeliver ch => Sys2Proof.Machine.execOutboundHeldDeliver ch s
  | .dropCountRead newTxn ch last => Sys2Proof.Machine.execDropCountRead newTxn ch last s
  | .lockRead newTxn n readers last => Sys2Proof.Machine.execLockRead newTxn n readers last s
  | .lockWrite newTxn n w => Sys2Proof.Machine.execLockWrite newTxn n w s
  | .hostBellClear newTxn w => Sys2Proof.Machine.execHostBellClear newTxn w s
  | .fwBellSet newTxn w => Sys2Proof.Machine.execFwBellSet newTxn w s
  | .fwBellTake n => Sys2Proof.Machine.execFwBellTake n s
  | .eventPendClear newTxn k w => Sys2Proof.Machine.execEventPendClear newTxn k w s
  | .busErrClr newTxn => Sys2Proof.Machine.execBusErrClr newTxn s
  | .berrClear newTxn w => Sys2Proof.Machine.execBerrClear newTxn w s
  | .overflowRead newTxn last => Sys2Proof.Machine.execOverflowRead newTxn last s
  | .softRst newTxn w => Sys2Proof.Machine.execSoftRst newTxn w s
  | .hayloftWindowAccess newTxn off wr => Sys2Proof.Machine.execHayloftWindowAccess newTxn off wr s
  | .remoteRegisterRead newTxn k off cnt => Sys2Proof.Machine.execRemoteRegisterRead newTxn k off cnt s
  | .proxyInCommit newTxn k c => Sys2Proof.Machine.execProxyInCommit newTxn k c s
  | .proxyOutCommitRead newTxn k c last => Sys2Proof.Machine.execProxyOutCommitRead newTxn k c last s
  | .msgCommit => Sys2Proof.Machine.execMsgCommit s
  | .msgCommitReorderExpiry => Sys2Proof.Machine.execMsgCommitReorderExpiry s
  | .msgAccept => Sys2Proof.Machine.execMsgAccept s
  | .msgStatus => Sys2Proof.Machine.execMsgStatus s
  | .msgReply => Sys2Proof.Machine.execMsgReply s
  | .proxyNoAnswer k c => Sys2Proof.Machine.execProxyNoAnswer k c s
  | .readReq => Sys2Proof.Machine.execReadReq s
  | .readData => Sys2Proof.Machine.execReadData s
  | .readStatus => Sys2Proof.Machine.execReadStatus s
  | .remoteReadTimeout => Sys2Proof.Machine.execRemoteReadTimeout s
  | .remoteReadDataDiscard => Sys2Proof.Machine.execRemoteReadDataDiscard s
  | .bulkStatus => Sys2Proof.Machine.execBulkStatus s
  | .parcelTransferTimeout xid => Sys2Proof.Machine.execParcelTransferTimeout xid s
  | .streamClockChange inward present => Sys2Proof.Machine.execStreamClockChange inward present s
  | .streamAligned inward => Sys2Proof.Machine.execStreamAligned inward s
  | .streamRestart inward => Sys2Proof.Machine.execStreamRestart inward s
  | .streamFramingError => Sys2Proof.Machine.execStreamFramingError s
  | .creditTransition => Sys2Proof.Machine.execCreditTransition s
  | .creditTimeout => Sys2Proof.Machine.execCreditTimeout s
  | .streamFrameSend => Sys2Proof.Machine.execStreamFrameSend s
  | .streamSubmit f payload crcOk => Sys2Proof.Machine.execStreamSubmit f payload crcOk s
  | .streamHostIn f payload crcOk => Sys2Proof.Machine.execStreamHostIn f payload crcOk s
  | .streamYardIn f payload crcOk => Sys2Proof.Machine.execStreamYardIn f payload crcOk s
  | .dmaWrite f payload crcOk => Sys2Proof.Machine.execDmaWrite f payload crcOk s
  | .dmaRead f payload crcOk => Sys2Proof.Machine.execDmaRead f payload crcOk s
  | .streamMessageIn f payload crcOk => Sys2Proof.Machine.execStreamMessageIn f payload crcOk s
  | .streamSessionTimeout => Sys2Proof.Machine.execStreamSessionTimeout s
  | .eventStreamFrameClose => Sys2Proof.Machine.execEventStreamFrameClose s
  | .eventFrameReceive => Sys2Proof.Machine.execEventFrameReceive s
  | .recorderTake => Sys2Proof.Machine.execRecorderTake s
  | .hayloftWriteBack => Sys2Proof.Machine.execHayloftWriteBack s
  | .scrubRead found => Sys2Proof.Machine.execScrubRead found s
  | .scrubOverdue => Sys2Proof.Machine.execScrubOverdue s
  | .flashOperationDone ok => Sys2Proof.Machine.execFlashOperationDone ok s
  | .reserveSectorErase => Sys2Proof.Machine.execReserveSectorErase s
  | .unknownCommandCode via => Sys2Proof.Machine.execUnknownCommandCode via s
  | .deviceId via => Sys2Proof.Machine.execDeviceId via s
  | .deviceStatus via => Sys2Proof.Machine.execDeviceStatus via s
  | .sessionOpen via => Sys2Proof.Machine.execSessionOpen via s
  | .sessionClose via => Sys2Proof.Machine.execSessionClose via s
  | .operatorChallenge via => Sys2Proof.Machine.execOperatorChallenge via s
  | .operatorResponse via => Sys2Proof.Machine.execOperatorResponse via s
  | .start via => Sys2Proof.Machine.execStart via s
  | .stop via => Sys2Proof.Machine.execStop via s
  | .barn via => Sys2Proof.Machine.execBarn via s
  | .test via => Sys2Proof.Machine.execTest via s
  | .reset via => Sys2Proof.Machine.execReset via s
  | .recipeActivate via => Sys2Proof.Machine.execRecipeActivate via s
  | .trainStatus via => Sys2Proof.Machine.execTrainStatus via s
  | .rosterRead via => Sys2Proof.Machine.execRosterRead via s
  | .sourceRead via => Sys2Proof.Machine.execSourceRead via s
  | .couplerStatus via => Sys2Proof.Machine.execCouplerStatus via s
  | .admissionRetry via => Sys2Proof.Machine.execAdmissionRetry via s
  | .groupChange via => Sys2Proof.Machine.execGroupChange via s
  | .groupRead via => Sys2Proof.Machine.execGroupRead via s
  | .timeRead via => Sys2Proof.Machine.execTimeRead via s
  | .timeStatus via => Sys2Proof.Machine.execTimeStatus via s
  | .planRead via => Sys2Proof.Machine.execPlanRead via s
  | .imageDirectory via => Sys2Proof.Machine.execImageDirectory via s
  | .markSet via => Sys2Proof.Machine.execMarkSet via s
  | .bindingSet via => Sys2Proof.Machine.execBindingSet via s
  | .couplingRead via => Sys2Proof.Machine.execCouplingRead via s
  | .talkerSet via => Sys2Proof.Machine.execTalkerSet via s
  | .listenerSet via => Sys2Proof.Machine.execListenerSet via s
  | .ruleReplace via => Sys2Proof.Machine.execRuleReplace via s
  | .submit via => Sys2Proof.Machine.execSubmit via s
  | .fetch via => Sys2Proof.Machine.execFetch via s
  | .directSend via => Sys2Proof.Machine.execDirectSend via s
  | .replay via => Sys2Proof.Machine.execReplay via s
  | .sentenceCounters via => Sys2Proof.Machine.execSentenceCounters via s
  | .portSet via => Sys2Proof.Machine.execPortSet via s
  | .portStatus via => Sys2Proof.Machine.execPortStatus via s
  | .rawRead via => Sys2Proof.Machine.execRawRead via s
  | .fieldModuleSet via => Sys2Proof.Machine.execFieldModuleSet via s
  | .fieldGroupSet via => Sys2Proof.Machine.execFieldGroupSet via s
  | .fieldChannelSet via => Sys2Proof.Machine.execFieldChannelSet via s
  | .fieldRuleSet via => Sys2Proof.Machine.execFieldRuleSet via s
  | .fieldStatus via => Sys2Proof.Machine.execFieldStatus via s
  | .take via => Sys2Proof.Machine.execTake via s
  | .release via => Sys2Proof.Machine.execRelease via s
  | .fieldOutput via => Sys2Proof.Machine.execFieldOutput via s
  | .timedApply via => Sys2Proof.Machine.execTimedApply via s
  | .faultClear via => Sys2Proof.Machine.execFaultClear via s
  | .rearm via => Sys2Proof.Machine.execRearm via s
  | .quote via => Sys2Proof.Machine.execQuote via s
  | .certRead via => Sys2Proof.Machine.execCertRead via s
  | .ownChallenge via => Sys2Proof.Machine.execOwnChallenge via s
  | .takeOwnership via => Sys2Proof.Machine.execTakeOwnership via s
  | .envelope via => Sys2Proof.Machine.execEnvelope via s
  | .rotate via => Sys2Proof.Machine.execRotate via s
  | .rollbackCommit via => Sys2Proof.Machine.execRollbackCommit via s
  | .ownerTransfer via => Sys2Proof.Machine.execOwnerTransfer via s
  | .zeroise via => Sys2Proof.Machine.execZeroise via s
  | .serviceChallenge via => Sys2Proof.Machine.execServiceChallenge via s
  | .serviceToken via => Sys2Proof.Machine.execServiceToken via s
  | .yardSet via => Sys2Proof.Machine.execYardSet via s
  | .steerSet via => Sys2Proof.Machine.execSteerSet via s
  | .endpointSet via => Sys2Proof.Machine.execEndpointSet via s
  | .yardStatus via => Sys2Proof.Machine.execYardStatus via s
  | .snapshot via => Sys2Proof.Machine.execSnapshot via s
  | .trainSnapshot via => Sys2Proof.Machine.execTrainSnapshot via s
  | .segmentSend via => Sys2Proof.Machine.execSegmentSend via s
  | .snapshotSend via => Sys2Proof.Machine.execSnapshotSend via s
  | .streamStatus via => Sys2Proof.Machine.execStreamStatus via s
  | .streamSet via => Sys2Proof.Machine.execStreamSet via s
  | .recorderRead via => Sys2Proof.Machine.execRecorderRead via s
  | .routeSet via => Sys2Proof.Machine.execRouteSet via s
  | .counterClear via => Sys2Proof.Machine.execCounterClear via s
  | .parcelAlloc via => Sys2Proof.Machine.execParcelAlloc via s
  | .parcelFree via => Sys2Proof.Machine.execParcelFree via s
  | .hayloftStatus via => Sys2Proof.Machine.execHayloftStatus via s
  | .slotWrite via => Sys2Proof.Machine.execSlotWrite via s
  | .slotInfo via => Sys2Proof.Machine.execSlotInfo via s
  | .parcelPush via => Sys2Proof.Machine.execParcelPush via s
  | .diagRead via => Sys2Proof.Machine.execDiagRead via s
  | .loopback via => Sys2Proof.Machine.execLoopback via s
  | .lanePrbs via => Sys2Proof.Machine.execLanePrbs via s
  | .hostResetRelease => Sys2Proof.Machine.execHostResetRelease s
  | .ownPresentRelease => Sys2Proof.Machine.execOwnPresentRelease s
  | .inputLevelChange ch level => Sys2Proof.Machine.execInputLevelChange ch level s
  | .idleGapSentenceEnd slot => Sys2Proof.Machine.execIdleGapSentenceEnd slot s
  | .mkaPeerLost => Sys2Proof.Machine.execMkaPeerLost s
  | .ptpServoLockLoss => Sys2Proof.Machine.execPtpServoLockLoss s
  | .streamFrameEnd => Sys2Proof.Machine.execStreamFrameEnd s
  | .hostRsaOperationDone priv ok => Sys2Proof.Machine.execHostRsaOperationDone priv ok s
  | .barnEntryDone => Sys2Proof.Machine.execBarnEntryDone s

end Sys2Proof.Machine
end

