-- ==== Sys2Proof/Machine/Tick.lean ====
section
/-!
DEFINITION. What passes between commands: one nanosecond of the counter C (R118). The table has no row for it,
so it is what a step on an empty queue does (log 1).
-/

namespace Sys2Proof.Machine

open Sys2Proof

/-- One nanosecond: C counts in every state while the device is supplied and out of RESET, where R118 has it
start at 0 at the release. Before the last one of a lane clock cycle passes, copies that stood back for end A take their
turn (R76), and the events of the cycle go to their routes (R443). Before the last one of a serial island cycle passes, characters that
stood back for a read enter their FIFOs (R239). The firmware reset of a RESET command comes 1 ms after it (R396), and one of the
firmware region as it is read (R458). -/
def tick (s0 : State) : State :=
  let s1 := when' (laneCycle s0.clk.c != laneCycle (s0.clk.c + 1)) (fun s => flushEvents (flushTails s)) s0
  let s := when' (s0.clk.c % 10 == 9) enterLates s1
  match s.sys.dev with
  | .off => s
  | .reset => s
  | _ => fwFetch (commandReset (s.onClk fun k => { k with c := (k.c + 1) % 2 ^ 64 }))

end Sys2Proof.Machine
end

