-- ==== Sys2Proof/Safety.lean ====
section
/-!
DEFINITION. The terms in which claims are stated: when a firmware command runs, what reports may change, and the form of the hayloft.
-/

namespace Sys2Proof.Machine

open Sys2Proof

/-- The hayloft is in its canonical form (R455, R463). -/
def Inv (s : State) : Prop := Memory.wf s.loft.mem = true

/-! When a firmware command runs (R305, R386, R393). -/

/-- The command of a code that is next on `via`: that of an accepted envelope, or the message that waits. -/
def cmdOf (code : Nat) (via : Via) (s : State) : Ctx :=
  match readyFor code via s with
  | some c => c
  | none => ctxOf s via ((waitingMsg s via).getD [])

/-- The state in which its body begins: the command has been taken. -/
def takenBy (code : Nat) (via : Via) (s : State) : State :=
  match readyFor code via s with
  | some _ => takeReady s
  | none => takeMsg via s

/-- The common checks of R386 pass. -/
def passes (used : Nat) (need : Need) (c : Ctx) (s : State) : Bool :=
  let code := msgCode c.words
  (s.sys.dev != .recovery || recoveryCodes.contains code) && c.tag != 0 && decide (used ≤ msgWords c.words)
    && !(onHostPort c && c.session == 0 && !sessionFree.contains code) && hasPriv s need c && restZero c used

/-- A command of a code is there, nothing holds it back, and the common checks pass. -/
def cmdRuns (code used : Nat) (need : Need) (via : Via) (s : State) : Bool :=
  takesMsgs s && (match readyFor code via s with
    | some c => !(s.sys.braced && heldWhenBraced code) && !placePaused s c.words
    | none => !readyFirst s && hasTurn s via && (match waitingMsg s via with
      | some ws => msgCode ws == code && !placePaused s ws && (if !serialised need code then !earlierWaits via s else (s.cmd.busy.isNone && s.cmd.waiting.isEmpty && !(s.sys.braced && heldWhenBraced code)))
      | none => false))
    && passes used need (cmdOf code via s) (takenBy code via s)

/-- The pair of words at i names a parcel that the sender may use (R389, R390). -/
def parcelOk (i : Nat) (c : Ctx) (s : State) : Bool :=
  parcelRange s (msgCode c.words) (wd c.words i) (wd c.words (i + 1)) && !reservedByOther s c (wd c.words i) (wd c.words (i + 1))

/-- How many whole items fit into an output parcel (R389). -/
def parcelFit (i : Nat) (items : List (List Byte)) (c : Ctx) : Nat := fitCount (wd c.words (i + 1)) (items.map (·.length))

/-- The state with the items that fit written into an output parcel. -/
def parcelPut (i : Nat) (items : List (List Byte)) (c : Ctx) (s : State) : State :=
  loftWrite (wd c.words i) (items.take (parcelFit i items c)).flatten coreId s

/-- An input parcel is read: whether it is sound, and the state after its reading (R389, R457, R458). -/
def parcelRead (i : Nat) (c : Ctx) (s : State) : Bool × State :=
  match c.copy with
  | some _ => (true, s)
  | none => loftCheck (wd c.words i) (wd c.words (i + 1)) coreId s

/-- The bytes of an input parcel. -/
def parcelBytes (i : Nat) (c : Ctx) (s : State) : List Byte :=
  match c.copy with
  | some p => p
  | none => loftBytes (wd c.words i) (wd c.words (i + 1)) (parcelRead i c s).2

/-! What reports may change. -/

/-- An outbound slot without its message. -/
def quietMang (m : Manger) : Manger :=
  { m with outMsg := [], outFull := false, outSender := 0, outSession := 0, outDrop := 0, held := [] }

/-- What events, notifications and replies can change is set aside: what the event router and the recorder hold, pending events, bells
and outbound slots of the host port, the stream's queues, the sentences that event talkers give, counters, the epochs with a SYNC stamp,
the bytes of the hayloft, what waits for the yard and for the train, the order of the replies, and the model's count of free values. -/
def quiet (s : State) : State :=
  { s with
    ev := { EvSt.reset with routes := s.ev.routes, remote := s.ev.remote, prio := s.ev.prio, dest := s.ev.dest }
    host := { s.host with evPend := 0, hostBell := 0, order := [], mang := s.host.mang.map quietMang }
    strm := { s.strm with queue := [], status := [], starved := none, evFrame := [], evSeqs := [], evFirst := 0 }
    sent := { s.sent with inq := [], tseq := [] }
    ctr := Ctrs.reset
    clk := { s.clk with syncEpochs := [] }
    loft := { s.loft with mem := [], damage := [], writeBack := [], lastUe := 0 }
    yard := { s.yard with txq := [], sess := s.yard.sess.map fun y => { y with reply := [] } }
    lane := { s.lane with txq := [], rxq := [] }
    brg := { s.brg with origin := [] }
    free := 0 }

/-! What a row acts on. -/

/-- A delivered frame has been taken from the queue of those that wait for their row (R77). -/
def takenMsg (m : RxMsg) (s : State) : State := s.onLane fun l => { l with rxq := l.rxq.erase m }

/-- The frame that a row acts on: the first delivered one of its kind. -/
def firstMsg (p : RxMsg → Bool) (s : State) : Option RxMsg := s.lane.rxq.find? p

/-- A delivered CONTROL frame of an operation (R428). -/
def isCtl (op : Nat) (m : RxMsg) : Bool := m.hdr.ftype == ftControl && be m.payload 0 1 == op

/-- The state in which a word of a transaction at an address is judged (R355 to R357). -/
def txnState (newTxn : Bool) (a : Nat) (s : State) : State := openWords newTxn a 1 s

/-- The host port accepts a word at an address (R359). -/
def wordOk (newTxn : Bool) (a : Nat) (s : State) : Bool :=
  wordComes newTxn a s && !(txnState newTxn a s).host.txn.bus && (rejects (txnState newTxn a s) a).isNone

/-- The decision of R58 on a keyed frame whose header has arrived: orders 1 to 7, the first that applies; a SEQ is looked up in the forward
map of the direction (R72), and a source without an entry has nothing marked (R70, R71). -/
def hdrDecision (endB : Bool) (h : Hdr) (s : State) : Decision :=
  if (endOf s (!endB)).st != .up then .ended
  else if ownKeyed s h then .returned
  else if 64 ≤ h.hops then .hopLimit
  else if 1996 < h.len then .badLen
  else if h.poison then .poisonedIn
  else match srcFind s false h.adm with
    | none => .forwarded
    | some e => match fwdDecide (dirOf e h.dirY) h.seq with
      | .stale => .repeated
      | .repeated => .repeated
      | .mark => .forwarded
      | .unmarked => .forwarded

/-- The decision on the copy that arrives at an end. -/
def decOf (s : State) (endB : Bool) : Option Decision := (endOf s endB).rx.map (·.dec)

/-- A SEQ's bit in the forward map of a keyed source and direction (R69). -/
def fwdBits (s : State) (adm : Nat) (dirY : Bool) (q : Nat) : Bool :=
  match srcFind s false adm with
  | some e => (dirOf e dirY).fwd.contains q
  | none => false

/-- VALID and TOP of both directions of a keyed source (R69). -/
def topsOf (s : State) (adm : Nat) : Option (Bool × Nat × Bool × Nat) :=
  (srcFind s false adm).map fun e => (e.x.valid, e.x.top, e.y.valid, e.y.top)

/-- The counters of an end (R66, R84). -/
def endCtrs (s : State) (endB : Bool) : List Nat := if endB then s.ctr.endB else s.ctr.endA

/-- The copy of an arriving frame that leaves, or waits to leave, through the other end. -/
def copyOf (s : State) (endB : Bool) (r : RxFrame) : Option WireFrame :=
  if r.inBuf && !(endOf s (!endB)).buf.isEmpty then (endOf s (!endB)).buf.getLast? else (endOf s (!endB)).tx

/-- The frame has left the end, and its forwarded copy has all its bytes. -/
def tailTaken (endB : Bool) (r : RxFrame) (body : List Byte) (tag : BitVec 128) (s : State) : State :=
  onEnd endB (fun e => { e with rx := none }) (modCopy endB r (fun w => { w with payload := body, prot := .carried tag }) s)

/-- Behind a tail of end A, copies of end B that stood back take their turn (R76). -/
def tailOver (endB : Bool) (s : State) : State := if endB then s else flushTails s

/-- What the receiver of a port reads of the character that ends: its value, and FE, PE, NOISE and BRK (R231, R234, R236). -/
def charRead (p : Nat) (body : List (List Bool)) (stop : List Bool) (s : State) : Nat × Nat :=
  readChar (portOf s p).rxSet (portOf s p).noisy body stop

/-- The port at the end of a character with an ordinary phase after it: hunting, or the break hold after a break (R232, R237). -/
def charOver (p : Nat) (body : List (List Bool)) (stop : List Bool) (s : State) : State :=
  let brk := natBit (charRead p body stop s).2 3
  modPort p (fun y =>
    { y with
      phase := if brk then .breakHold else .hunting
      stuckAt := if brk then y.edgeAt else y.stuckAt
      lowAt := if brk then stopCentre y else y.lowAt
      rx := bitOf y.rxSet stop
      lastEnd := y.edgeAt + charTime y.rxSet }) s

/-- A random source that is healthy again, with its event (R291). -/
def entropyBack (s : State) : State := raise 103 3 (s.onSec fun x => { x with entropyOk := true })

/-- Launches have changed to an installed key: it is the current one, and the old one is kept (R314). -/
def keySwitched (i : Installed) (s : State) : State :=
  raise 97 (i.epoch * 256 + 3) (cntSec 5 (s.onSec fun x =>
    { x with cur := i.epoch, oldKey := some x.cur, switchM := some i.switchM, switchAt := matrixStart s i.switchM, inst := none, unwrap := [],
             rot := none, takeRank := 0 }))

/-- An old key has gone, with the entries that rest on it and the note of the ADMITs issued under it (R70, R107, R314). -/
def keyErased (e : Nat) (s : State) : State :=
  raise 97 (e * 256 + 4) ((releaseEntries (s.onSec fun x => { x with keys := x.keys.filter fun k => k.epoch != e, oldKey := none })).onLdr fun l =>
    { l with issued := l.issued.filter fun x => x.1 != e })

end Sys2Proof.Machine
end

