-- ==== Sys2Proof/Certificates/Slice0/Obligations.lean ====
section
/-!
DEFINITION. The statements for the provers. Most say what a command does and, as the whole next state is given, what it leaves alone.
-/

open Sys2Proof Sys2Proof.Machine

/-- The command at the front of the queue is done with the queue's rest; on an empty queue one nanosecond passes (log 1). Before it, at the end of a cycle of the
lane clock, the copies of end B that stood back for end A take their turn (R76) and the events of the cycle go to their routes (R443), and at the end of a
cycle of the serial island the characters that stood back for a read enter their FIFOs (R239); C then counts up, and a RESET command's firmware reset comes 1
ms after it (R396, log 30). No word of the table spells a command, so nothing is put in front. -/
def Obligations.StepTakesFront : Prop :=
  (∀ c r s, s.pending = c :: r → step s = exec c { s with pending := r })
  ∧ (∀ c s, step { s with pending := c :: s.pending } = exec c s)
  ∧ (∀ s s1 s2, s.pending = [] →
    s1 = (if laneCycle s.clk.c ≠ laneCycle (s.clk.c + 1) then flushEvents (flushTails s) else s) →
    s2 = (if s.clk.c % 10 = 9 then enterLates s1 else s1) →
    (s2.sys.dev = .off ∨ s2.sys.dev = .reset → step s = .next s2)
    ∧ (s2.sys.dev ≠ .off → s2.sys.dev ≠ .reset →
      step s = .next (fwFetch (commandReset (s2.onClk fun k => { k with c := (k.c + 1) % 2 ^ 64 })))))
  ∧ (∀ c, laneCycle c = c * 165 / 512)
  ∧ (∀ s, s.sys.resetAt = none → commandReset s = s)
  ∧ (∀ t s, s.sys.resetAt = some t → s.clk.c < t + 1000000 → commandReset s = s)
  ∧ (∀ t s, s.sys.resetAt = some t → t + 1000000 ≤ s.clk.c → commandReset s = enterReset .command false s)
  ∧ (∀ s, (∀ d ∈ s.loft.damage, d.2 = .one ∨ mib ≤ d.1) → fwFetch s = s)
  ∧ (∀ s, s.lane.tailB = [] → flushTails s = s)
  ∧ (∀ s, (∀ y ∈ s.ports, y.late = none) → enterLates s = s)
  ∧ (∀ (s : State) n w, decodeTableWord n w = none ∧ s.withFetchWord n w = s)

/-- What reset leaves, in the values that the spec gives: BOOT with both bypasses closed, C at 0, the ends DOWN, no role, no address and no key, an empty hayloft
in its canonical form, no session, and empty queues (R25, R30, R34, R39, R50, R70, R118, R160, R290, R361, R463). -/
def Obligations.ResetState : Prop :=
  Machine.Inv State.reset ∧ State.reset.sys.dev = .boot ∧ State.reset.sys.braced = false ∧ State.reset.sys.bypassA = .low ∧ State.reset.sys.bypassB = .low
  ∧ State.reset.ends.a.st = .down ∧ State.reset.ends.b.st = .down ∧ State.reset.ends.a.present = false ∧ State.reset.ends.b.nbr = none
  ∧ State.reset.lane.seq = 0 ∧ State.reset.lane.src = [] ∧ State.reset.lane.txq = [] ∧ State.reset.inaug.role = .none ∧ State.reset.inaug.car = none
  ∧ sysAddr State.reset = 0 ∧ State.reset.clk.c = 0 ∧ State.reset.clk.st = .free ∧ State.reset.clk.tepoch = 0 ∧ State.reset.ref.mrole = 255
  ∧ State.reset.sec.keys = [] ∧ State.reset.host.session = 0 ∧ State.reset.strm.session = 0 ∧ State.reset.loft.mem = [] ∧ State.reset.pending = []

/-- Above the absolute rating of VIN_LOGIC no behaviour of the device is stated (R493, R494), and the rows that bring such a level stop. No other command ends in
a fault in any state, and no command is refused. -/
def Obligations.OnlyRatingsStop : Prop :=
  (∀ mv s, 3800 < mv →
    exec (.supplyThreshold mv) s = .fault .outsideRatings ∧ exec (.supplyReturned mv) s = .fault .outsideRatings
    ∧ exec (.vinLogicRise mv) s = .fault .outsideRatings
    ∧ (∀ torn, exec (.supplyReset mv torn) s = .fault .outsideRatings)
    ∧ (∀ r o a b g, exec (.resetRelease mv r o a b g) s = .fault .outsideRatings)
    ∧ exec (.bracedEntry mv) s = .fault .outsideRatings
    ∧ (∀ low, exec (.bracedExit mv low) s = .fault .outsideRatings))
  ∧ (∀ i s, (∃ t, exec i s = .next t)
    ∨ (exec i s = .fault .outsideRatings ∧ ∃ mv, 3800 < mv ∧
        (i = .supplyThreshold mv ∨ i = .supplyReturned mv ∨ i = .vinLogicRise mv ∨ i = .bracedEntry mv ∨ (∃ low, i = .bracedExit mv low)
          ∨ (∃ torn, i = .supplyReset mv torn) ∨ (∃ r o a b g, i = .resetRelease mv r o a b g))))

/-- SUPPLY_THRESHOLD, SUPPLY_RETURNED, VIN_LOGIC_RISE and SUPPLY_RESET (R26, R470, R473, R492, R494): the thresholds with their tolerance of 30 mV, the event of
an excursion once and its extreme at the return, and the entry into RESET, which is OFF below 300 mV (log 30). -/
def Obligations.SupplyEdges : Prop :=
  (∀ mv s, alive s = true → 3435 < mv → mv ≤ 3800 → s.sys.supplyOut ≠ 1 →
    exec (.supplyThreshold mv) s
      = .next (raise 120 (mv * 65536 + 1) (s.onSys fun x => { x with vin := mv, supplyOut := 1, supplyExt := mv })))
  ∧ (∀ mv s, alive s = true → mv < 3165 → s.sys.supplyOut ≠ 2 →
    exec (.supplyThreshold mv) s
      = .next (raise 120 (mv * 65536 + 2) (s.onSys fun x => { x with vin := mv, supplyOut := 2, supplyExt := mv })))
  ∧ (∀ mv s, alive s = true → mv < 3165 → s.sys.supplyOut = 2 →
    exec (.supplyThreshold mv) s = .next (s.onSys fun x => { x with vin := mv, supplyExt := min x.supplyExt mv }))
  ∧ (∀ mv s, alive s = true → s.sys.supplyOut ≠ 0 → 3105 < mv → mv < 3495 →
    exec (.supplyReturned mv) s
      = .next (raise 120 (s.sys.supplyExt * 65536 + 3) (s.onSys fun x => { x with vin := mv, supplyOut := 0 })))
  ∧ (∀ mv s, s.sys.dev = .off → mv ≤ 3800 →
    exec (.vinLogicRise mv) s = .next (s.onSys fun x => { x with dev := .reset, cause := .supply, vin := mv }))
  ∧ (∀ mv torn s, s.sys.dev ≠ .off → mv < 2930 →
    exec (.supplyReset mv torn) s
      = .next ((enterReset .supply torn s).onSys fun x => { x with vin := mv, dev := if mv < 300 then .off else .reset }))

/-- PIN_RESET, WATCHDOG_EXPIRY, DIE_TEMPERATURE_SAMPLE, RESET_RELEASE and the command RESET (R26, R27, R300, R396, R478 to R481, R492): the entry into RESET, and
its release with the pins sampled, into BOOT or RECOVERY; RESET replies, and the firmware reset follows at a tick. Where the spec leaves a choice, this is the
model's: log 30. -/
def Obligations.ResetEdges : Prop :=
  (∀ torn s, s.sys.dev ≠ .off →
    exec (.pinReset torn) s = .next ((enterReset .porst torn s).onSys fun x => { x with porst := true }))
  ∧ (∀ s, watchdogRuns s = true → exec .watchdogExpiry s = .next (enterReset .watchdog false s))
  ∧ (∀ t s, alive s = true → 1350 ≤ t →
    exec (.dieTemperatureSample t) s
      = .next ((enterReset .thermal false (s.onSys fun x => { x with dieTemp := t })).onSys fun x =>
          { x with thermalHold := true, pendThermal := some t }))
  ∧ (∀ t s, alive s = true → 1150 < t → t < 1350 → s.sys.thermalWarn = false →
    exec (.dieTemperatureSample t) s
      = .next (raise 122 (tc 16 t * 65536 + 1) (s.onSys fun x => { x with dieTemp := t, thermalWarn := true })))
  ∧ (∀ t s, alive s = true → t < 1100 → s.sys.thermalWarn = true →
    exec (.dieTemperatureSample t) s
      = .next (raise 122 (tc 16 t * 65536 + 2) (s.onSys fun x => { x with dieTemp := t, thermalWarn := false })))
  ∧ (∀ mv own pinA pinB sig s, s.sys.dev = .reset → s.sys.thermalHold = false → 3070 < mv → mv ≤ 3800 →
    exec (.resetRelease mv false own pinA pinB sig) s
      = .next (txPin (securityStart ((s.onSys fun x => { x with dev := .boot, vin := mv, vinLow := mv, porst := false, ownLow := own,
                                                                ceremony := false, bypassA := .low, bypassB := .low }).onEnds fun e =>
          { e with a := { e.a with pin := pinA }, b := { e.b with pin := pinB } }))))
  ∧ (∀ mv own pinA pinB sig s, s.sys.dev = .reset → s.sys.thermalHold = false → 3070 < mv → mv ≤ 3800 →
    ∃ t, exec (.resetRelease mv true own pinA pinB sig) s = .next t ∧ t.sys.dev = .recovery ∧ t.sys.bootCode = 3
      ∧ t.sys.bypassA = .low ∧ t.sys.bypassB = .low ∧ t.sys.ownLow = own)
  ∧ (∀ via s, cmdRuns 0x00B 1 .operate via s = true →
    exec (.reset via) s = .next ((replyOk (cmdOf 0x00B via s) [] (takenBy 0x00B via s)).onSys fun x =>
      { x with resetAt := x.resetAt.orElse fun _ => some s.clk.c }))

/-- BRACED_ENTRY and BRACED_EXIT (R27, R473, R475, R492): the collector first, the overlay with its event and its notification; at the exit the held commands
follow. Where the spec leaves a choice, this is the model's: log 13 and 30. -/
def Obligations.Braced : Prop :=
  (∀ mv s, alive s = true → s.sys.dev ≠ .barn → s.sys.braced = false → mv < 3080 →
    exec (.bracedEntry mv) s
      = .next (notifyState s.sys.dev.code (raise2 121 1 mv (fieldSettle
          ((writeOut s).onSys fun x =>
            { x with braced := true, bracedAt := s.clk.c, vinLow := mv, vin := mv })))))
  ∧ (∀ mv low s, s.sys.braced = true → 3070 < mv → mv ≤ 3800 → s.cmd.held = [] → s.cmd.waiting = [] → s.sys.autoHeld = false →
    exec (.bracedExit mv low) s
      = .next (notifyState s.sys.dev.code (raise2 121 (min ((s.clk.c - s.sys.bracedAt) / 1000) 0xFFFFFF * 256 + 2) (min s.sys.vinLow low)
          ((fieldSettle (s.onSys fun x => { x with braced := false, vin := mv, vinLow := min s.sys.vinLow low })).onFlash fun f =>
            { f with op := f.op.map fun o => { o with started := true } }))))

/-- BOOT_IMAGE_VERIFIED, STARTUP_BEGIN, BYPASS_RELEASE and STARTUP_DONE (R26, R36, R300, R439, R447, R466, R485, R487): slot A, then slot B, then RECOVERY; the
boot count, the events of BOOT; the relays; the recipe. Where the spec leaves a choice, this is the model's: log 29 and 30. -/
def Obligations.BootToStopped : Prop :=
  (∀ ok sig s, s.sys.dev = .boot → s.sys.running = none →
    imageOk (wordBytes (slotOf s (b2n s.sys.triedA)).words) ok s = true →
    exec (.bootImageVerified ok sig) s
      = .next (startImage s.sys.triedA (wordBytes (slotOf s (b2n s.sys.triedA)).words)
          (when' (natBit (le (wordBytes (slotOf s (b2n s.sys.triedA)).words) 8 4) 0) (cntSec 7) (cntSec 7 s))))
  ∧ (∀ ok sig s, s.sys.dev = .boot → s.sys.running = none → s.sys.triedA = false →
    imageForm (wordBytes (slotOf s 0).words) = false →
    exec (.bootImageVerified ok sig) s = .next (s.onSys fun x => { x with triedA := true }))
  ∧ (∀ ok sig s, s.sys.dev = .boot → s.sys.running = none → s.sys.triedA = false →
    imageForm (wordBytes (slotOf s 0).words) = true → imageOk (wordBytes (slotOf s 0).words) ok s = false →
    exec (.bootImageVerified ok sig) s
      = .next ((when' (natBit (le (wordBytes (slotOf s 0).words) 8 4) 0) (cntSec 7) (cntSec 7 s)).onSys fun x => { x with triedA := true }))
  ∧ (∀ ok sig s, s.sys.dev = .boot → s.sys.running = none → s.sys.triedA = true →
    imageForm (wordBytes (slotOf s 1).words) = false →
    exec (.bootImageVerified ok sig) s = .next (enterRecovery 4 sig s))
  ∧ (∀ ok sig s, s.sys.dev = .boot → s.sys.running = none → s.sys.triedA = true →
    imageForm (wordBytes (slotOf s 1).words) = true → imageOk (wordBytes (slotOf s 1).words) ok s = false →
    exec (.bootImageVerified ok sig) s
      = .next (enterRecovery 4 sig (when' (natBit (le (wordBytes (slotOf s 1).words) 8 4) 0) (cntSec 7) (cntSec 7 s))))
  ∧ (∀ katOk s, s.sys.dev = .boot → s.sys.running ≠ none → s.sys.braced = false →
    ∃ t, exec (.startupBegin katOk) s = .next t ∧ t.sys.dev = .startup ∧ t.sys.katFail = (!katOk)
      ∧ t.flash.bootCount = (s.flash.bootCount + 1) % 2 ^ 32 ∧ t.ev.bootPend = [] ∧ t.flash.torn = false)
  ∧ (∀ s, s.sys.dev = .startup → s.ends.a.lock = true → s.ends.b.lock = true →
    exec (.bypassRelease true) s = .next (s.onSys fun x => { x with bypassA := .high, bypassB := .high, recipeDone := true }))
  ∧ (∀ sigA sigO s, s.sys.dev = .startup → s.sys.recipeDone = true →
    exec (.startupDone sigA sigO) s
      = .next (autoStart (raisePending (raise 123 (s.flash.bootCount % 2 ^ 24 * 256 + s.sys.cause.code)
          ((segLeave (setDev .stopped (loadAtStart sigA sigO s))).onSys fun x => { x with recipeDone := false })))))

/-- BARN, BARN_ENTRY_DONE, BARN_WAKE and WAKE_DONE (R36, R247, R252, R488 to R490, R492): BARN is accepted in STOPPED alone; the entry, once the serial shifters
are idle, halts the ports, writes the collector out, drives the bypass pins low, takes the lanes down and unpowers the field die unless BARN_WATCH is set;
each source wakes under its condition, and one that fires during the entry is latched; WAKE_DONE, with block lock at both ends, is STOPPED with the event
WAKE, and a wrong hash of the firmware is a firmware reset. Where the spec leaves a choice, this is the model's: log 30. -/
def Obligations.Barn : Prop :=
  (∀ via s, cmdRuns 0x009 2 .operate via s = true → s.sys.dev = .stopped →
    exec (.barn via) s = .next ((replyOk (cmdOf 0x009 via s) [] (takenBy 0x009 via s)).onSys fun x =>
      { x with barn := .entering, barnAt := s.clk.c, wakeTimer := wd (cmdOf 0x009 via s).words 1, wakeSrc := 0, wakeIdx := none }))
  ∧ (∀ via s, cmdRuns 0x009 2 .operate via s = true → s.sys.dev ≠ .stopped →
    exec (.barn via) s = .next (stateError (cmdOf 0x009 via s) (takenBy 0x009 via s)))
  ∧ (∀ s, s.sys.dev = .stopped → s.sys.barn = .entering → s.ports.any portBusy = false →
    exec .barnEntryDone s = .next
      (let written := writeOut (s.onPorts fun ps => ps.map (portHalt s.clk.c))
       let bypassed := strmSettle (setDev .barn written)
       let down := endUpdate true (endUpdate false (bypassed.onEnds fun e => { e with a := endHalt s.clk.c e.a, b := endHalt s.clk.c e.b }))
       (if barnWatch down then down else fieldOff down).onSys fun x =>
         { x with barn := if x.wakeSrc == 0 then .asleep else .waking, barnIn := s.clk.c }))
  ∧ (∀ s, s.sys.dev = .stopped → s.sys.barn = .entering → s.ports.any portBusy = false →
    ∃ t, exec .barnEntryDone s = .next t ∧ t.sys.dev = .barn ∧ t.sys.bypassA = .low ∧ t.sys.bypassB = .low
      ∧ t.sys.barn = (if s.sys.wakeSrc = 0 then .asleep else .waking))
  ∧ (∀ idx s, (s.sys.barn = .entering ∨ s.sys.dev = .barn) → bit (portOf s idx).rec_ 1 21 = true →
    exec (.barnWake 0 idx) s = .next (wakeLatch 0 idx s))
  ∧ (∀ idx s, (s.sys.barn = .entering ∨ s.sys.dev = .barn) → barnWatch s = true → fcMode (chRec s idx) = 1 → fcWake (chRec s idx) = true →
    exec (.barnWake 1 idx) s = .next (wakeLatch 1 idx s))
  ∧ (∀ idx endB a s, s.sys.dev = .barn → (endOf s endB).absentAt = some a → a + 1000000 ≤ s.clk.c → s.sys.barnIn + 1000000 ≤ s.clk.c →
    exec (.barnWake 2 idx) s = .next (wakeLatch 2 idx s))
  ∧ (∀ idx s, (s.sys.barn = .entering ∨ s.sys.dev = .barn) → exec (.barnWake 3 idx) s = .next (wakeLatch 3 idx s))
  ∧ (∀ idx s, (s.sys.barn = .entering ∨ s.sys.dev = .barn) → s.sys.wakeTimer ≠ 0 → s.sys.barnAt + s.sys.wakeTimer * 1000000 ≤ s.clk.c →
    exec (.barnWake 4 idx) s = .next (wakeLatch 4 idx s))
  ∧ (∀ src idx s, s.sys.barn = .asleep →
    wakeLatch src idx s = (s.onPorts fun ps => ps.map fun p => { p with lowAt := s.clk.c }).onSys fun x =>
      { x with wakeSrc := x.wakeSrc ||| 2 ^ src, wakeIdx := if src < 2 then some (min idx (x.wakeIdx.getD idx)) else x.wakeIdx, barn := .waking })
  ∧ (∀ src idx s, s.sys.barn ≠ .asleep →
    wakeLatch src idx s = s.onSys fun x =>
      { x with wakeSrc := x.wakeSrc ||| 2 ^ src, wakeIdx := if src < 2 then some (min idx (x.wakeIdx.getD idx)) else x.wakeIdx })
  ∧ (∀ s, s.sys.dev = .barn → s.sys.barn = .waking → s.ends.a.lock = true → s.ends.b.lock = true →
    exec (.wakeDone true) s = .next
      (let up := setDev .stopped (s.onSys fun x =>
         { x with barn := .awake, wakeSrc := 0, wakeIdx := none, wakeTimer := 0, bypassA := .high, bypassB := .high })
       let powered := (if barnWatch s then fieldSettle up else fieldOn up).onTeth fun t => { t with tether := t.tetherPin }
       let locked := endUpdate true (endUpdate false powered)
       each (List.range 16) txStart (strmSettle (raise2 124 (s.sys.wakeIdx.getD 0 % 32 * 65536 + s.sys.wakeSrc % 32 * 256 + 1)
         (min ((s.clk.c - s.sys.barnIn) / 1000000) 0xFFFFFFFF) locked))))
  ∧ (∀ s, s.sys.dev = .barn → s.sys.barn = .waking → s.ends.a.lock = true → s.ends.b.lock = true →
    ∃ t, exec (.wakeDone true) s = .next t ∧ t.sys.dev = .stopped
      ∧ t.sys.barn = .awake ∧ t.sys.wakeSrc = 0 ∧ t.sys.wakeIdx = none ∧ t.sys.bypassA = .high ∧ t.sys.bypassB = .high)
  ∧ (∀ s, s.sys.dev = .barn → s.sys.barn = .waking →
    exec (.wakeDone false) s = .next (enterReset (.unlisted (freeNat 8 s)) false (tookFree s)))

/-- PRESENCE_CHANGE, LANE_STATUS_CHANGE, LINE_LINK_TIMEOUT, HELLO_CHUNK_SEND and HELLO_CHUNK_RECEIVE (R34, R37 to R39, R43): a debounced pin with its event and
its composition trigger, the end states of R39 and what is lost with the link; chunks leave in the first idle slot after 2 µs and are taken in order, and the
second of two identical hellos names the neighbour. -/
def Obligations.CouplerLink : Prop :=
  (∀ endB level s, s.sys.dev ≠ .off → s.sys.dev ≠ .reset → pNoPresence s endB = false → (endOf s endB).present ≠ level →
    exec (.presenceChange endB level) s
      = .next (endUpdate endB (trigger endB 1 (raise (58 + b2n endB) (b2n level)
          (onEnd endB (fun e => { e with pin := level, present := level }) s)))))
  ∧ (∀ endB s, (endOf s endB).st = .down → lanesOn s = true → coupled s endB = true →
    ∃ t, exec (.laneStatusChange endB true true false) s = .next t ∧ (endOf t endB).st = .locked
      ∧ (endOf t endB).signal = true ∧ (endOf t endB).lock = true)
  ∧ (∀ endB signal lock hiBer s, (endOf s endB).st = .up → (signal && lock && !hiBer) = false →
    ∃ t, exec (.laneStatusChange endB signal lock hiBer) s = .next t ∧ (endOf t endB).st = .down ∧ (endOf t endB).nbr = none
      ∧ (endOf t endB).buf = [] ∧ (endOf t endB).rx = none ∧ (endOf t endB).leftUp = some (trainTime s))
  ∧ (∀ endB a s, (endOf s endB).leftUp = some a → pLine s = true → (endOf s endB).st ≠ .up → a + 3 * cycleP s ≤ trainTime s →
    exec (.lineLinkTimeout endB) s = .next (trigger endB 3 (onEnd endB (fun x => { x with leftUp := none }) s)))
  ∧ (∀ endB s, (endOf s endB).st = .up ∨ (endOf s endB).st = .locked → lanesOn s = true → (endOf s endB).helloAt ≤ s.clk.c →
    egressIdle s endB = true →
    exec (.helloChunkSend endB) s
      = .next (onEnd endB (fun x =>
          { x with lastHello := some (x.txChunk, (helloData s endB (endOf s endB).txChunk).1, (helloData s endB (endOf s endB).txChunk).2)
                   txChunk := (x.txChunk + 1) % 5, helloAt := (s.clk.c / 2000 + 1) * 2000 }) s))
  ∧ (∀ endB idx val s, (endOf s endB).st = .up ∨ (endOf s endB).st = .locked → lanesOn s = true → idx < 4 →
    (endOf s endB).helloCur.length = idx → (endOf s endB).helloLast = none →
    exec (.helloChunkReceive endB idx val) s = .next (onEnd endB (fun x => { x with helloCur := x.helloCur ++ [(idx, val)] }) s))
  ∧ (∀ endB val s, (endOf s endB).st = .locked → lanesOn s = true → (endOf s endB).helloCur.length = 4 →
    (endOf s endB).helloLast = some ((endOf s endB).helloCur ++ [(4, val)]) →
    ∃ t, exec (.helloChunkReceive endB 4 val) s = .next t ∧ (endOf t endB).st = .up
      ∧ (endOf t endB).nbr = some (helloBadge ((endOf s endB).helloCur ++ [(4, val)]))
      ∧ (endOf t endB).prev = (endOf t endB).nbr)

/-- A train frame header of the spec's widths is read back from its 32 bytes, every field at every value (R48). -/
def Obligations.HeaderRoundTrip : Prop :=
  ∀ h : Hdr, h.wf = true → decodeHdr (encodeHdr h) = h ∧ (encodeHdr h).length = 32

/-- FRAME_HEADER (R58, R70 to R72): on an end that is UP, with no frame arriving, the keyed frame's copy is held with its decision. -/
def Obligations.HeaderDecision : Prop :=
  ∀ endB h s, (endOf s endB).st = .up → (endOf s endB).rx = none → forwards s = true → h.adm ≠ 0 →
    ∃ t, exec (.frameHeader endB h) s = .next t ∧ ∃ r, (endOf t endB).rx = some r ∧ r.hdr = h ∧ r.dec = hdrDecision endB h s
      ∧ r.stamp = stampNow s ∧ r.tl = timeFx s

/-- The forward map of R72. At order 6 of R58, for a keyed copy whose source has an entry: the row that its SEQ meets decides, counts on the arrival end and sets
its bit or none, and while VALID is clear the map is anchored at the SEQ. A copy that stops under orders 1 to 5 sets none, TOP does not move at header time,
and a copy that does not pass its tail check changes no entry. -/
def Obligations.ForwardMap : Prop :=
  (∀ endB h e s, (endOf s endB).st = .up → (endOf s endB).rx = none → forwards s = true → h.adm ≠ 0 → (endOf s (!endB)).st = .up →
    ownKeyed s h = false → h.hops < 64 → h.len ≤ 1996 → h.poison = false → srcFind s false h.adm = some e → keyValid s e.key = true →
    ∃ t, exec (.frameHeader endB h) s = .next t
      ∧ ((dirOf e h.dirY).valid = false →
        decOf t endB = some .forwarded ∧ fwdBits t h.adm h.dirY h.seq = true ∧ endCtrs t endB = endCtrs s endB)
      ∧ ((dirOf e h.dirY).valid = true → h.seq + 1024 ≤ (dirOf e h.dirY).top →
        decOf t endB = some .repeated ∧ endCtrs t endB = bump 15 (endCtrs s endB))
      ∧ ((dirOf e h.dirY).valid = true → (dirOf e h.dirY).top < h.seq + 1024 → h.seq ≤ (dirOf e h.dirY).top + 1024 →
        fwdBits s h.adm h.dirY h.seq = true → decOf t endB = some .repeated ∧ endCtrs t endB = bump 16 (endCtrs s endB))
      ∧ ((dirOf e h.dirY).valid = true → (dirOf e h.dirY).top < h.seq + 1024 → h.seq ≤ (dirOf e h.dirY).top + 1024 →
        fwdBits s h.adm h.dirY h.seq = false →
        decOf t endB = some .forwarded ∧ fwdBits t h.adm h.dirY h.seq = true ∧ endCtrs t endB = endCtrs s endB)
      ∧ ((dirOf e h.dirY).valid = true → (dirOf e h.dirY).top + 1024 < h.seq →
        decOf t endB = some .forwarded ∧ fwdBits t h.adm h.dirY h.seq = fwdBits s h.adm h.dirY h.seq
          ∧ endCtrs t endB = bump 17 (endCtrs s endB))
      ∧ (∀ y q, y ≠ h.dirY → fwdBits t h.adm y q = fwdBits s h.adm y q)
      ∧ ((dirOf e h.dirY).valid = true → ∀ q, q ≠ h.seq → fwdBits t h.adm h.dirY q = fwdBits s h.adm h.dirY q)
      ∧ ((dirOf e h.dirY).valid = false → ∀ q, q ≠ h.seq →
        fwdBits t h.adm h.dirY q = (fwdBits s h.adm h.dirY q && decide (h.seq < q + 1024) && decide (q ≤ h.seq + 1024)))
      ∧ topsOf t h.adm = topsOf s h.adm)
  ∧ (∀ endB h e s t, exec (.frameHeader endB h) s = .next t → srcFind s false h.adm = some e → keyValid s e.key = true → h.adm ≠ 0 →
    ((endOf s (!endB)).st ≠ .up ∨ ownKeyed s h = true ∨ 64 ≤ h.hops ∨ 1996 < h.len ∨ h.poison = true) →
    (∀ y q, fwdBits t h.adm y q = fwdBits s h.adm y q) ∧ topsOf t h.adm = topsOf s h.adm)
  ∧ (∀ endB body tag fcs errBlock badBlock r s t, exec (.frameTail endB body tag fcs errBlock badBlock) s = .next t → (endOf s endB).rx = some r →
    (endB = true ∨ s.lane.tailB = []) →
    (errBlock = true ∨ r.hdr.poison = true ∨ fcsPasses r.hdr body tag fcs = false
      ∨ (∃ k, tailKey s r.hdr = some k ∧ tag ≠ tagOf k r.hdr (body.take r.hdr.len))) →
    t.lane.src = s.lane.src)

/-- OPEN_FRAME_BADGE and the first half of an open frame (R58, R73): the decision waits for the badge, which then decides as an ADMIT does. -/
def Obligations.OpenFrames : Prop :=
  (∀ endB h s, (endOf s endB).st = .up → (endOf s endB).rx = none → forwards s = true → h.adm = 0 →
    ∃ t, exec (.frameHeader endB h) s = .next t ∧ ∃ r, (endOf t endB).rx = some r ∧ r.hdr = h ∧ r.dec = .pending ∧ r.badge = none)
  ∧ (∀ endB badge r s, (endOf s endB).rx = some r → r.hdr.adm = 0 → r.badge = none →
    exec (.openFrameBadge endB badge) s
      = .next (decideOrdered endB true (badge == s.sys.badge) badge (modRx endB (fun x => { x with badge := some badge }) s)))

/-- FRAME_TAIL (R46, R47, R51, R61 to R66, R76): an error block, the FCS over all of the frame before it and the length, the tag under the frame's key, and a
frame that passes; in each the frame has left the end, and a copy forwarded of a bad frame ends with an error block, but not of a frame whose tag a car
without a key cannot trust. -/
def Obligations.FrameTails : Prop :=
  (∀ endB body tag fcs bad r s, (endOf s endB).rx = some r → r.dec ≠ .returned →
    exec (.frameTail endB body tag fcs true bad) s = .next (tailOver endB
      (poisonCopy endB r false (when' (r.dec != .poisonedIn) (cntEnd endB 5) (cntEnd endB 13 (tailTaken endB r body tag s))))))
  ∧ (∀ endB body tag fcs bad r s, (endOf s endB).rx = some r → r.dec = .returned →
    exec (.frameTail endB body tag fcs true bad) s = .next (tailOver endB (tailTaken endB r body tag s)))
  ∧ (∀ endB body tag fcs r s, (endOf s endB).rx = some r → r.hdr.poison = false →
    (fcs ≠ fcsOf r.hdr body tag ∨ body.length ≠ max r.hdr.len 12) →
    exec (.frameTail endB body tag fcs false false) s = .next (tailOver endB
      (poisonCopy endB r true (tailFail endB 1 (cntEnd endB 3 (tailTaken endB r body tag s))))))
  ∧ (∀ endB body tag k r s, (endOf s endB).rx = some r → r.hdr.poison = false → body.length = max r.hdr.len 12 → tailKey s r.hdr = some k →
    tag ≠ tagOf k r.hdr (body.take r.hdr.len) →
    exec (.frameTail endB body tag (fcsOf r.hdr body tag) false false) s = .next (tailOver endB
      (when' (!(s.inaug.role == .guest && s.sec.keys.isEmpty)) (poisonCopy endB r true)
        (tailFail endB 2 (cntEnd endB 4 (tailTaken endB r body tag s))))))
  ∧ (∀ endB body tag k r s, (endOf s endB).rx = some r → r.hdr.poison = false → body.length = max r.hdr.len 12 → tailKey s r.hdr = some k →
    tag = tagOf k r.hdr (body.take r.hdr.len) →
    exec (.frameTail endB body tag (fcsOf r.hdr body tag) false false) s = .next (tailOver endB
      (tailPassed endB r (confText k r.hdr (body.take r.hdr.len)) (tailTaken endB r body tag s))))

/-- KEY_UNKNOWN of R64: a frame of a key epoch that is not valid at the car leaves as it came, not poisoned, is not delivered and sets nothing in the source
table, and is counted; and a copy is marked bad only where its tail shows a failure. Nothing waits here for end A's copy (R76), and what a car without a key
takes from a REFERENCE (R65) stands apart. -/
def Obligations.KeyUnknown : Prop :=
  (∀ endB body tag r s, (endOf s endB).rx = some r → r.hdr.poison = false → tailKey s r.hdr = none → body.length = max r.hdr.len 12 →
    (endB = true ∨ s.lane.tailB = []) → (r.hdr.ftype ≠ ftReference ∨ s.sec.keys ≠ []) →
    ∃ t, exec (.frameTail endB body tag (fcsOf r.hdr body tag) false false) s = .next t
      ∧ t.lane.rxq = s.lane.rxq ∧ t.lane.src = s.lane.src ∧ endCtrs t endB = bump 7 (endCtrs s endB)
      ∧ (r.dec = .forwarded → copyOf t endB r = (copyOf s endB r).map fun w => { w with payload := body, prot := .carried tag }))
  ∧ (∀ endB body tag badBlock r s t, (endOf s endB).rx = some r → r.hdr.poison = false → body.length = max r.hdr.len 12 →
    (endB = true ∨ s.lane.tailB = []) → (tailKey s r.hdr = none ∨ ∃ k, tailKey s r.hdr = some k ∧ tag = tagOf k r.hdr (body.take r.hdr.len)) →
    exec (.frameTail endB body tag (fcsOf r.hdr body tag) false badBlock) s = .next t →
    (copyOf t endB r).map (·.bad) = (copyOf s endB r).map (·.bad))

/-- PASS_BUFFER_RELEASE, EARLY_FRAME_HOLD_EXPIRY, OPEN_ENTRY_RELEASE and PAIR_SETTLEMENT (R60, R70, R79, R101): the held copy leaves when the local frame has
ended, its residence in CORR; what was held for the next epoch, and an open source that is silent for 1 s, go; every due SEQ settles. -/
def Obligations.LaneTimers : Prop :=
  (∀ endB w rest s, (endOf s endB).buf = w :: rest → (endOf s endB).busyUntil ≤ s.clk.c → s.clk.c * 10 ≤ w.at_ * 10 + 16448 →
    exec (.passBufferRelease endB) s
      = .next (when' rest.isEmpty (modRx (!endB) fun r => { r with inBuf := false })
          (onEnd endB (fun x => { x with buf := rest, tx := some (addHold s.clk.c s.clk.rate w), localTx := true,
                                         busyUntil := s.clk.c + (wireTime w.hdr.len + 9) / 10 }) s)))
  ∧ (∀ s, exec .earlyFrameHoldExpiry s
      = .next (each (s.lane.early.filter fun m => decide (m.1 + pTransit s ≤ trainTime s)) (fun m => oldEpoch m.2.2.1.hdr.inaug)
          (s.onLane fun l => { l with early := l.early.filter fun m => !decide (m.1 + pTransit s ≤ trainTime s) })))
  ∧ (∀ badge e s, srcFind s true badge = some e → e.seen + 1000000000 ≤ s.clk.c →
    exec (.openEntryRelease badge) s = .next (s.onLane fun l => { l with src := l.src.filter fun x => !(x.open_ && x.id == badge) }))
  ∧ (∀ s, planLoaded s = true →
    ∃ t, exec .pairSettlement s = .next t
      ∧ t.lane.src = s.lane.src.map fun e => (settleEntry (pPairH s) (trainTime s / cycleP s * cycleP s) e).1)

/-- FRAME_LAUNCH, FRAME_COPY_LAUNCH and CYCLIC_LAUNCH (R163, R169 to R173, R180 to R183): the frame whose turn it is takes its SEQ in the occurrence that holds
this instant and leaves the place where it waited; a committed copy follows at the other end; the owner sends its current send buffer. -/
def Obligations.Launches : Prop :=
  (∀ o x s s2, occNow s = some o →
    firstTurn (blockedAll (packEvents o (enterOcc o s)) o) (turns (packEvents o (enterOcc o s)) o) = some x →
    deadlineOk (packEvents o (enterOcc o s)) o = true → (x.frame.prio = 7 → behindSpecial (packEvents o (enterOcc o s)) o x.at_ = false) →
    roomLeft (packEvents o (enterOcc o s)) o x.frame.payload.length = true →
    commit x.frame o false (packEvents o (enterOcc o s)) = some s2 →
    exec .frameLaunch s = .next (takeCand x.cand s2))
  ∧ (∀ endB c s, s.lane.copies.find? (fun c => c.endB == endB) = some c → (endOf s endB).st = .up →
    trainTime s * 10 + wireTime c.payload.length ≤ c.occEnd → egressIdle s endB = true → copyMay s c = true →
    exec (.frameCopyLaunch endB) s
      = .next (startCopy endB c.hdr c.payload (s.onLane fun l => { l with copies := l.copies.erase c })))
  ∧ (∀ entry o i s s1, occFind s (fun e => enCyclic e && enOwner e == s.sys.badge) = some o → o.idx = entry →
    s.lane.cyclicOcc ≠ some o.start → admitted s = true → s.sys.dev = .running → s.inaug.omitted = 0 →
    deadlineOk s o = true → roomLeft s o (8 + enImgLen o.e) = true →
    s.plan.images.find? (fun i => i.entry == entry && i.out) = some i → (imgBind s entry).1 = true →
    (loftCheck (imgBuf s i i.ready) i.len 0 s).1 = true →
    commit { ftype := ftCyclic, prio := 6, grp := enDest o.e == 2, all := enDest o.e != 2,
             dst := if enDest o.e = 2 then 0x3F00 + enGroup o.e else 0x3FFF, open_ := false, tag := .plain,
             payload := beBytes 4 i.pubSeq ++ beBytes 4 0 ++ loftBytes (imgBuf s i i.ready) i.len (loftCheck (imgBuf s i i.ready) i.len 0 s).2 }
      o false (loftCheck (imgBuf s i i.ready) i.len 0 s).2 = some s1 →
    exec (.cyclicLaunch entry) s
      = .next (modImg entry true (fun _ => { i with stamp := stampNow s, cycle := o.cycle, adm := s.inaug.adm })
          (s1.onLane fun l => { l with cyclicOcc := some o.start })))

/-- Each copy that a commitment starts, or leaves waiting at its end, has the DIR of its end, HOPS, MFLAGS and CORR of 0, and the two copies of one frame differ
only in DIR (R49). -/
def Obligations.CopiesOfAFrame : Prop :=
  (∀ f o together s t endB x, commit f o together s = some t → (endOf t endB).tx = some x → (endOf s endB).tx ≠ some x →
    x.hdr.dirY = dirOfEnd s endB ∧ x.hdr.hops = 0 ∧ x.hdr.poison = false ∧ x.hdr.held = false ∧ x.hdr.rsvM = 0 ∧ x.hdr.corr = 0)
  ∧ (∀ f o together s t c, commit f o together s = some t → c ∈ t.lane.copies → c ∉ s.lane.copies →
    c.hdr.dirY = dirOfEnd s c.endB ∧ c.hdr.hops = 0 ∧ c.hdr.poison = false ∧ c.hdr.held = false ∧ c.hdr.rsvM = 0 ∧ c.hdr.corr = 0)
  ∧ (∀ f o together s t x y, commit f o together s = some t → (endOf t false).tx = some x → (endOf s false).tx ≠ some x →
    (endOf t true).tx = some y → (endOf s true).tx ≠ some y → y.hdr = { x.hdr with dirY := y.hdr.dirY } ∧ y.payload = x.payload)

/-- EB_LIMIT_CROSSING, CYCLIC_OCCURRENCE_CHECK, IMAGE_COPY_COMPLETE, CYCLE_MARK_FIRE, OUTPUT_APPLY_STROBE, BASIC_CYCLE_BOUNDARY and STOP (R19, R26, R162, R170,
R177, R182, R183, R185, R277, R396): silence is entered and left with its event; an occurrence that arrived, that was missed, or whose owner is absent; a
buffer filled and exposed; an enabled mark acts once at its instant, and the strobe of every scheduled change is issued 5 µs ahead; the duties of the cycle
that begins, and a STOP that keeps its turn until then. Where the spec leaves a choice, this is the model's: log 11 and 14. -/
def Obligations.StallEngine : Prop :=
  (∀ s, planLoaded s = true → onTrain s = true → withinDeadline s = s.lane.silenced →
    exec .ebLimitCrossing s
      = .next (raise 81 (min (errBoundWord s) 0xFFFFFF * 256 + b2n (!withinDeadline s)) (s.onLane fun l => { l with silenced := !withinDeadline s })))
  ∧ (∀ entry e i st s, s.plan.entries[entry]? = some e → s.plan.images.find? (fun i => i.entry == entry && !i.out) = some i →
    lastOcc s e = some st → onTrain s = true → errBound s ≠ none → enCyclic e = true → enOwner e ≠ s.sys.badge → destHere s e = true →
    i.checked ≠ some st → checkNow s e st = true → (carOfBadge s (enOwner e)).isSome = true → i.got.contains st = true →
    exec (.cyclicOccurrenceCheck entry) s
      = .next (imageFlags entry false false (modImg entry false (fun i => { i with checked := some st }) s)))
  ∧ (∀ entry e i st s, s.plan.entries[entry]? = some e → s.plan.images.find? (fun i => i.entry == entry && !i.out) = some i →
    lastOcc s e = some st → onTrain s = true → errBound s ≠ none → enCyclic e = true → enOwner e ≠ s.sys.badge → destHere s e = true →
    i.checked ≠ some st → checkNow s e st = true → (carOfBadge s (enOwner e)).isSome = true → i.got.contains st = false →
    exec (.cyclicOccurrenceCheck entry) s
      = .next (imageFlags entry true i.absent (raiseFirst 8200 82 (enStall e * 256 + cycleOf s st) (cntStall 3
          (modImg entry false (fun i => { i with checked := some st }) s)))))
  ∧ (∀ entry i d s, s.plan.images.find? (fun i => i.entry == entry && !i.out) = some i → i.copying = some d →
    (beforeMarks s i).1.frozen = false →
    exec (.imageCopyComplete entry) s
      = .next (modImg entry false (fun _ => (beforeMarks s i).2.foldl (fun x a => markImage s a x) (filled (imgBind s entry).1 d (beforeMarks s i).1))
          (loftWrite (imgBuf s (beforeMarks s i).1 (beforeMarks s i).1.fill)
            (padTo (beforeMarks s i).1.len (d.data.take (beforeMarks s i).1.len)) 0 s)))
  ∧ (∀ m s, planLoaded s = true → onTrain s = true → markEnabled (markRec s m) = true →
    markIn (markRec s m) (cycleOf s (trainTime s)) = true → trainTime s = markInstant s (markRec s m) (trainTime s) →
    s.plan.fired.getD m 0 ≠ trainTime s / cycleP s + 1 → passedOver s (trainTime s) = false → (∀ k, k < m → markDue s k = false) →
    exec (.cycleMarkFire m) s
      = .next (markActions m (trainTime s) (markRec s m) (cntStall 10 (s.onPlan fun p => { p with
          fired := p.fired.set m (trainTime s / cycleP s + 1) }))))
  ∧ (∀ k m s, k < m → markDue s m = true → markDue s k = true →
    markInstant s (markRec s k) (trainTime s) = markInstant s (markRec s m) (trainTime s) → (∀ j, j < m → j ≠ k → markDue s j = false) →
    exec (.cycleMarkFire m) s = .next (fireMark m (fireMark k s)))
  ∧ (∀ s, ∃ t, exec .outputApplyStrobe s = .next t ∧ t = (s.onPlan fun p => { p with strobes := t.plan.strobes })
      ∧ (∀ x, x ∈ s.plan.strobes → x ∈ t.plan.strobes)
      ∧ (∀ m a, (m, a) ∈ applySoon s → applySkips a s = false →
        (Strobe.mk (.mark m) a (markMask s m) (imageAt s (a - 10000)).1) ∈ t.plan.strobes))
  ∧ (∀ s, fwRuns s = true → planLoaded s = true → trainTime s / cycleP s ≠ s.plan.cycle → s.cmd.stopping = none → s.cmd.commitWait = none →
    s.cmd.waiting = [] → exec .basicCycleBoundary s = .next (boundaryDuties s) ∧ (boundaryDuties s).plan.cycle = trainTime s / cycleP s)
  ∧ (∀ c old s, fwRuns s = true → onTrain s = true → trainTime s / cycleP s = s.plan.cycle → s.cmd.stopping = some (c, old) → s.plan.cycle ≠ old →
    exec .basicCycleBoundary s
      = .next (drain 9 (commitLost (replyOk c [] (stopNow (serialDone (s.onCmd fun q => { q with stopping := none })))))))
  ∧ (∀ via s, cmdRuns 0x008 1 .operate via s = true → onTrain s = true →
    exec (.stop via) s = .next ((holdSerial (cmdOf 0x008 via s) (takenBy 0x008 via s)).onCmd fun q =>
      { q with stopping := some (cmdOf 0x008 via s, s.plan.cycle) }))
  ∧ (∀ via s, cmdRuns 0x008 1 .operate via s = true → s.sys.dev = .test →
    exec (.stop via) s = .next (replyOk (cmdOf 0x008 via s) [] (stopNow (takenBy 0x008 via s))))

/-- REFERENCE_SEND, SHADOW_SEND and DELAY_SEND (R102, R125 to R127, R146, R147): in its stall the master, a LOCKED backup and a drive car launch their frames; an
omitted member launches none, and a REFERENCE that no longer fits is counted once in the basic cycle. Where the spec leaves a choice, this is the model's: log
18. -/
def Obligations.TimeFrames : Prop :=
  (∀ o s s1, s.clk.st = .master → s.inaug.omitted = 0 → planLoaded s = true → s.ref.skipped ≠ trainTime s / cycleP s + 1 → occOfType s tyReference = some o →
    roomLeft s o (refFrame s).payload.length = true → commit (refFrame s) o true s = some s1 → s.ref.abdicate = none →
    exec .referenceSend s
      = .next ((s1.onTeth fun t =>
          { t with
            delayIn := t.delayIn.filter fun d => !(respDue s).contains d
            answered := (t.answered.filter fun a => !(respDue s).any fun d => d.adm == a.1) ++ (respDue s).map fun d => (d.adm, d.reqId) }).onRef fun r =>
          { r with
            skipped := trainTime s / cycleP s + 1
            refs := r.refs.drop (r.refs.length - 63) ++ [{ seq := s.lane.seq, at_ := trainTime s, retX := none, retY := none }] }))
  ∧ (∀ s, s.inaug.omitted ≠ 0 → exec .referenceSend s = .next s)
  ∧ (∀ o s, s.clk.st = .master → s.inaug.omitted = 0 → planLoaded s = true → s.ref.skipped ≠ trainTime s / cycleP s + 1 → occOfType s tyReference = some o →
    roomLeft s o (refFrame s).payload.length = false →
    exec .referenceSend s = .next (cntTime 3 (s.onRef fun r => { r with skipped := trainTime s / cycleP s + 1 })))
  ∧ (∀ o s s1, occFind s (fun e => enType e == tyShadow && enStall e == s.inaug.rank) = some o → s.inaug.role = .backup → s.clk.st = .locked →
    s.inaug.omitted = 0 → onTrain s = true → s.ref.shadowAt ≠ some o.start → deadlineOk s o = true →
    commit { ftype := ftShadow, prio := 7, grp := false, all := true, dst := 0x3FFF, open_ := false, tag := .plain,
             payload := timePayload s s.inaug.rank (b2n s.clk.slewing * 32) 0 0 0xFFFFFFFF } o true s = some s1 →
    exec .shadowSend s = .next (s1.onRef fun r => { r with shadowAt := some o.start }))
  ∧ (∀ o dst s s1, occFind s (fun e => enDelay e && enOwner e == s.sys.badge) = some o → s.teth.master = some dst →
    (s.teth.dc = .acquiring ∨ s.teth.dc = .dcLocked) → admitted s = true → onTrain s = true → s.inaug.omitted = 0 → s.clk.st ≠ .master →
    s.teth.delayAt ≠ some o.start → deadlineOk s o = true → commit (delayFrame s dst ((s.teth.reqId + 1) % 2 ^ 32)) o true s = some s1 →
    exec .delaySend s = .next (cntTime 9 (s1.onTeth fun t =>
      { t with
        reqId := (s.teth.reqId + 1) % 2 ^ 32, delayAt := some o.start
        delayOut := t.delayOut ++
          [{ reqId := (s.teth.reqId + 1) % 2 ^ 32, t1 := timeFx s, cycle := trainTime s / cycleP s, answered := false }] })))

/-- HOLDOVER_ENTRY, WHOLE_SECOND_MARK, REFCLK_FAULT, STAMP_SELF_CHECK, TETHER_CHANGE, TETHER_FAULT_BEGIN and MASTER_CLAIM (R92, R123, R134, R137 to R141, R143 to
R145): three cycles without a reference, a mark at a whole second, the self-checks that make a master abdicate and bar mastery; the TETHER line's new level
restarts the counts, a fault begins after eight cycles, and an eligible car becomes master in stall 0. Where the spec leaves a choice, this is the model's:
log 18. -/
def Obligations.TimeWatch : Prop :=
  (∀ s, s.clk.st = .locked → 3 ≤ s.ref.missRun →
    ∃ t, exec .holdoverEntry s = .next t ∧ t.clk.st = .holdover ∧ t.clk.rate = s.clk.freq ∧ t.clk.theta = thetaLeft s ∧ t.clk.phase = 0
      ∧ t.teth.holdCycles = 0)
  ∧ (∀ s, fwRuns s = true → s.clk.sec < trainTime s / 1000000000 →
    exec .wholeSecondMark s = .next (clockMark 5 (s.onClk fun k => { k with sec := trainTime s / 1000000000 })))
  ∧ (∀ s, fwRuns s = true → s.clk.st = .master →
    exec .refclkFault s = .next ((raise 79 1 s).onRef fun r =>
      { r with abdicate := some (r.abdicate.getD 1), barred := (1, 0) :: r.barred.filter fun x => x.1 != 1 }))
  ∧ (∀ s, fwRuns s = true → s.clk.st ≠ .master →
    exec .refclkFault s = .next ((raise 79 1 s).onRef fun r => { r with barred := (1, 0) :: r.barred.filter fun x => x.1 != 1 }))
  ∧ (∀ (diff : Int) s, fwRuns s = true → s.clk.st = .master → 2 < diff.natAbs →
    exec (.stampSelfCheck diff) s = .next ((raise 79 4 s).onRef fun r =>
      { r with abdicate := some (r.abdicate.getD 4), barred := (4, 1000) :: r.barred.filter fun x => x.1 != 4 }))
  ∧ (∀ (diff : Int) s, fwRuns s = true → diff.natAbs ≤ 2 →
    exec (.stampSelfCheck diff) s = .next (s.onRef fun r => { r with barred := r.barred.filterMap fun x =>
      if x.1 = 4 ∧ x.2 ≠ 0 then (if x.2 ≤ 1 then none else some (x.1, x.2 - 1)) else some x }))
  ∧ (∀ s, lanesOn s = true → s.teth.tether = true →
    exec (.tetherChange false) s
      = .next (s.onTeth fun t => { t with tetherPin := false, tether := false, released := 0, lowRun := 0 }))
  ∧ (∀ s, lanesOn s = true → pTetherFitted s = true → fwRuns s = true → s.teth.tether = false →
    exec (.tetherChange true) s
      = .next (listenFrom (tetherFaultEnd (s.onTeth fun t => { t with tetherPin := true, tether := true, released := 0, lowRun := 0 }))))
  ∧ (∀ s, pTetherFitted s = true → s.teth.tfault = false → s.teth.tether = false → 8 < s.teth.lowRun → s.clk.st ≠ .master →
    exec .tetherFaultBegin s
      = .next (listenFrom (raise 76 1 (cntTime 8 (s.onTeth fun t => { t with tfault := true, refRun := 0 })))))
  ∧ (∀ s, (occOfType s tyReference).isSome = true → onTrain s = true → s.inaug.omitted = 0 → s.ref.takeNext = none → s.inaug.role = .lead →
    claimEligible s = true → tetherAllows 0 s = true →
    exec .masterClaim s = .next (claimNow (decide (s.teth.holdCycles ≤ 16)) s))
  ∧ (∀ s, (occOfType s tyReference).isSome = true → onTrain s = true → s.inaug.omitted = 0 →
    s.ref.takeNext = some (trainTime s / cycleP s - 1) → 1 ≤ trainTime s / cycleP s → s.inaug.role = .backup → s.clk.st ≠ .master → s.ref.barred = [] →
    exec .masterClaim s = .next (claimNow true s))
  ∧ (∀ keep s, ∃ t, becomeMaster keep s = t ∧ t.clk.st = .master ∧ t.teth.tdrive = true ∧ t.ref.mbadge = s.sys.badge ∧ t.clk.rate = s.clk.freq)

/-- COLD_START_LISTEN_END, CLAIM_SEND, CLAIM_WAIT_TIMEOUT and CLAIM_WIN (R92, R93, R291): the car listens, claims every 1 ms, discredits a claimant that does not
win, and after 5 ms is LEAD, car 0. -/
def Obligations.ColdStart : Prop :=
  (∀ since s, s.inaug.cold = .listening since → s.sys.dev = .integrating → s.inaug.role = .guest → 1 ≤ pColdRank s → pColdRank s ≤ 4 →
    s.teth.tether = true → since + listenT s + (pColdRank s - 1) * 6000000 ≤ trainTime s → s.inaug.claimSigned = true →
    exec .coldStartListenEnd s
      = .next ((s.onInaug fun x => { x with cold := .claiming 0, claimSent := none }).onLdr fun l => { l with winner := none }))
  ∧ (∀ since s, s.inaug.cold = .listening since → s.sys.dev = .integrating → s.inaug.role = .guest → 1 ≤ pColdRank s → pColdRank s ≤ 4 →
    s.teth.tether = true → since + listenT s + (pColdRank s - 1) * 6000000 ≤ trainTime s → s.inaug.claimSigned = false →
    s.sec.entropyOk = true →
    ∃ t, exec .coldStartListenEnd s = .next t ∧ t.inaug.cold = .claiming 0 ∧ t.inaug.claimSigned = true ∧ t.ldr.nl = freeNat 256 s
      ∧ t.free = s.free + 1)
  ∧ (∀ first s s1, s.inaug.cold = .claiming first → (∀ a, s.inaug.claimSent = some a → a + 1000000 ≤ trainTime s) →
    sendGuest ((s.inaug.claimSent.map (· + 1000000)).getD 0) (beaconFrame s) s = some s1 →
    exec .claimSend s = .next (s1.onInaug fun x =>
      { x with cold := .claiming (if s.inaug.claimSent.isNone then trainTime s else first), claimSent := some (trainTime s) }))
  ∧ (∀ badge since s, s.inaug.cold = .waiting badge since → since + 50000000 ≤ trainTime s →
    exec .claimWaitTimeout s
      = .next (raise 93 3 (s.onInaug fun x => { x with discredited := badge :: x.discredited, cold := .listening (trainTime s) })))
  ∧ (∀ first s, s.inaug.cold = .claiming first → s.inaug.claimSent ≠ none → first + 5000000 ≤ trainTime s → s.sec.entropyOk = true →
    onTrain s = true → exec .claimWin s = .next (coldWin (raise 93 1 s)))

/-- BEACON_SEND, NL_REDRAW, BEACON_SIGNED and BEACON_RECEIVE (R89, R90, R104, R105, R113, R291, R327): a lead's BEACON with its certificate every 1 ms, a new NL
every 1 s, the signed BEACON in use, and a BEACON acted on when its quote is over it. -/
def Obligations.Beacons : Prop :=
  (∀ s s1, isLead s = true → (∀ a, s.ldr.beaconAt = some a → a + 1000000 ≤ trainTime s) → s.ldr.beaconNow ≠ [] → bcClaim s.ldr.beaconNow = false →
    sendGuest ((s.ldr.beaconAt.map (· + 1000000)).getD 0) (beaconFrame s) s = some s1 →
    exec .beaconSend s
      = .next (trainSend (openInaug s1 2 0 s1.sec.devCert) (s1.onLdr fun l => { l with beaconAt := some (trainTime s) })))
  ∧ (∀ s, isLead s = true → s.sec.entropyOk = true → s.ldr.nlAt + 1000000000 ≤ trainTime s →
    exec .nlRedraw s = .next (stateCopy (startBeacon ((tookFree s).onLdr fun l =>
      { l with nlPrev := l.nl, nl := freeNat 256 s, nlAt := trainTime s, nlDue := false }))))
  ∧ (∀ s, rsaTurn .signBeacon s = true →
    exec .beaconSigned s = .next (rsaBegin (rsaEnd true (s.onLdr fun l =>
      { l with
        beaconPrev := if bcNl l.beaconNow == bcNl l.beaconNext then l.beaconPrev else l.beaconNow
        beaconNow := beaconDone s.sec.idKey l.beaconNext, beaconNext := [] }))))
  ∧ (∀ sigOk m s, firstMsg (isSub ftInauguration true 1) s = some m →
    (verifyOnce (part m.payload 116 154) sigOk (takenMsg m s)).1 = true → bcForm (msgBadge m) m.payload = true →
    exec (.beaconReceive sigOk) s
      = .next (beaconAct { badge := msgBadge m, raw := m.payload }
          (learnOrient m.endB m.hdr (verifyOnce (part m.payload 116 154) sigOk (takenMsg m s)).2)))
  ∧ (∀ sigOk m s, firstMsg (isSub ftInauguration true 1) s = some m → bcForm (msgBadge m) m.payload = false →
    exec (.beaconReceive sigOk) s = .next (verifyOnce (part m.payload 116 154) sigOk (takenMsg m s)).2)

/-- LEAD_CERT_RECEIVE, LEAD_VERIFIED, QUOTE_SIGNED, ADM_GRANT_RECEIVE, GRANT_UNWRAPPED and GRANT_TIMEOUT (R41, R105, R106, R168, R327): the guest takes the
certificate of the lead whose BEACON it holds; it verifies the lead and goes on to sign its quote, or fails with 0x11 (the lead), 0x10 (ring or line) or 0x14
(the plan); it sends certificate and quote; it takes a grant that repeats its BEACON, or fails with 0x12; it installs the keys of a key block that checks and
sends ADM_DONE, or fails with 0x12; without a grant it fails with 0x13 after 20 ms. Where the spec leaves a choice, this is the model's: log 8. -/
def Obligations.GuestSteps : Prop :=
  (∀ m b s, firstMsg (isSub ftInauguration true 2) s = some m → s.inaug.guest = .haveBeacon → s.inaug.beacon = some b → b.badge = msgBadge m →
    exec .leadCertReceive s
      = .next ((takenMsg m s).onInaug fun x => { x with leadCert := m.payload.drop 12, guest := .verifying }))
  ∧ (∀ chainOk sigOk b s r1 r2, s.inaug.guest = .verifying → s.inaug.beacon = some b → r1 = verifyOnce s.inaug.leadCert chainOk s →
    r2 = verifyOnce (part b.raw 116 154) sigOk r1.2 →
    (r1.1 = false ∨ r2.1 = false ∨ (Config.badgeOf (Config.certKey r2.2.inaug.leadCert)).toNat ≠ b.badge ∨ policyOk r2.2 (bcQuote b.raw) = false) →
    exec (.leadVerified chainOk sigOk) s = .next (admFail 0x11 r2.2))
  ∧ (∀ chainOk sigOk b s r1 r2, s.inaug.guest = .verifying → s.inaug.beacon = some b → r1 = verifyOnce s.inaug.leadCert chainOk s →
    r2 = verifyOnce (part b.raw 116 154) sigOk r1.2 → r1.1 = true → r2.1 = true →
    (Config.badgeOf (Config.certKey r2.2.inaug.leadCert)).toNat = b.badge → policyOk r2.2 (bcQuote b.raw) = true →
    (bcLine b.raw ≠ pLine r2.2 → exec (.leadVerified chainOk sigOk) s = .next (admFail 0x10 r2.2))
    ∧ (bcLine b.raw = pLine r2.2 → quPlan (bcQuote b.raw) ≠ planMeas r2.2 →
      exec (.leadVerified chainOk sigOk) s = .next (raise2 80 3 (planId r2.2) (admFail 0x14 r2.2)))
    ∧ (bcLine b.raw = pLine r2.2 → quPlan (bcQuote b.raw) = planMeas r2.2 →
      exec (.leadVerified chainOk sigOk) s = .next (rsaBegin (r2.2.onInaug fun x =>
        { x with guest := .signing, quoteDue := quoteBody (sha (beBytes 32 (bcNl b.raw) ++ ownerHash r2.2)) r2.2 }))))
  ∧ (∀ b s q s1, rsaTurn .signQuote s = true → s.inaug.guest = .signing → s.inaug.beacon = some b →
    q = quoteSigned s.sec.idKey s.inaug.quoteDue →
    s1 = rsaBegin (rsaEnd true (s.onInaug fun x => { x with guest := .sending, quoteHash := shaNat q, quoteDue := [] })) →
    exec .quoteSigned s = .next (trainSend
      { admFrame s1 true (bcTrain b.raw * 64) 0x22 (beBytes 32 (bcNl b.raw) ++ ownerHash s1 ++ q) with tag := .admQuote }
      (trainSend (admFrame s1 true (bcTrain b.raw * 64) 0x21 s1.sec.devCert) s1)))
  ∧ (∀ m b a s, firstMsg (isSub ftAdmission true 0x23) s = some m → be m.payload 12 8 = s.sys.badge → s.inaug.guest = .asked a →
    s.inaug.beacon = some b → b.badge = msgBadge m → be m.payload 20 32 = bcNl b.raw → part m.payload 52 384 = bcSig b.raw →
    exec (.admGrantReceive true) s
      = .next (rsaBegin ((takenMsg m s).onInaug fun x => { x with block := part m.payload 436 384, guest := .unwrapping })))
  ∧ (∀ sigOk m b a s, firstMsg (isSub ftAdmission true 0x23) s = some m → be m.payload 12 8 = s.sys.badge → s.inaug.guest = .asked a →
    s.inaug.beacon = some b → b.badge = msgBadge m →
    (sigOk = false ∨ be m.payload 20 32 ≠ bcNl b.raw ∨ part m.payload 52 384 ≠ bcSig b.raw) →
    exec (.admGrantReceive sigOk) s = .next (admFail 0x12 (takenMsg m s)))
  ∧ (∀ ok b s p, rsaTurn .grantOpen s = true → s.inaug.guest = .unwrapping → s.inaug.beacon = some b →
    p = beBytes 100 (Config.unwrapKey s.sec.idKey s.inaug.block) →
    (ok = false ∨ be p 68 32 ≠ s.inaug.quoteHash ∨ keyCheck (be p 2 1) (be p 3 32) ≠ bcCheckCur b.raw
      ∨ (bcNextValid b.raw = true ∧ be p 35 1 ≠ 0xFF ∧ keyCheck (be p 35 1) (be p 36 32) ≠ bcCheckNext b.raw)) →
    exec (.grantUnwrapped ok) s = .next (admFail 0x12 (rsaEnd true s)))
  ∧ (∀ b s p u, rsaTurn .grantOpen s = true → s.inaug.guest = .unwrapping → s.inaug.beacon = some b →
    p = beBytes 100 (Config.unwrapKey s.sec.idKey s.inaug.block) →
    be p 68 32 = s.inaug.quoteHash → keyCheck (be p 2 1) (be p 3 32) = bcCheckCur b.raw →
    (bcNextValid b.raw = false ∨ be p 35 1 = 0xFF ∨ keyCheck (be p 35 1) (be p 36 32) = bcCheckNext b.raw) →
    u = when' (be p 35 1 != 0xFF) (raise 97 (be p 35 1 % 16 * 256 + 2))
      ((((releaseEntries ((rsaEnd true s).onSec fun x =>
          { x with
            keys := { epoch := be p 2 1 % 16, key := be p 3 32 }
              :: (if be p 35 1 == 0xFF then [] else [{ epoch := be p 35 1 % 16, key := be p 36 32 }])
            cur := be p 2 1 % 16, inst := none, unwrap := [], oldKey := none })).onInaug fun x =>
        { x with adm := be p 0 2, epoch := be b.raw 14 2 / 16, adoptSys := srcField s, guest := .done, block := [] }).onLane fun l => { l with seq := 0 }).onSent fun t =>
        { t with gseq := [] }) →
    exec (.grantUnwrapped true) s
      = .next (trainSend (admFrame u false (bcTrain b.raw * 64) 0x24 (beBytes 2 (be p 0 2) ++ [0, 0] ++ beBytes 32 u.inaug.quoteHash)) u))
  ∧ (∀ a s, s.inaug.guest = .asked a → a + 20000000 ≤ trainTime s → exec .grantTimeout s = .next (admFail 0x13 s))

/-- ADM_CERT_RECEIVE, ADM_QUOTE_RECEIVE, GRANT_BUILT, ADM_DONE_RECEIVE and PRESENT_RECEIVE (R96, R105 to R108): the lead keeps a certificate that its issuer
signed, takes the first check of R106 that fails as its reason or gives an ADMIT, grants, and opens a census for the new car. Where the spec leaves a choice,
this is the model's: log 8 and 19. -/
def Obligations.LeadAdmits : Prop :=
  (∀ m s r, firstMsg (isSub ftAdmission true 0x21) s = some m → isLead s = true →
    r = verifyOnce (m.payload.drop 12) (Config.certVerifies (m.payload.drop 12)) (takenMsg m s) →
    (r.1 = false → exec .admCertReceive s = .next r.2)
    ∧ (r.1 = true → exec .admCertReceive s = .next (r.2.onLdr fun l => { l with guests := (l.guests.filter fun g => g.badge != msgBadge m) ++
        [{ badge := msgBadge m, cert := m.payload.drop 12, ok := false, nl := 0, adm := 0, quoteHash := 0, granted := false, done := false }] })))
  ∧ (∀ chainOk sigOk m s cert r1 r2, firstMsg (isSub ftAdmission true 0x22) s = some m → isLead s = true →
    cert = ((s.ldr.guests.find? fun g => g.badge == msgBadge m).map (·.cert)).getD [] →
    r1 = verifyOnce cert chainOk (takenMsg m s) → r2 = verifyOnce (part m.payload 76 154) sigOk r1.2 →
    admCheck cert m.payload (msgBadge m) r1.1 r2.1 r2.2 ≠ 0 →
    exec (.admQuoteReceive chainOk sigOk) s
      = .next (admRefuse (msgBadge m) (admCheck cert m.payload (msgBadge m) r1.1 r2.1 r2.2) r2.2))
  ∧ (∀ chainOk sigOk m s cert r1 r2, firstMsg (isSub ftAdmission true 0x22) s = some m → isLead s = true →
    cert = ((s.ldr.guests.find? fun g => g.badge == msgBadge m).map (·.cert)).getD [] →
    r1 = verifyOnce cert chainOk (takenMsg m s) → r2 = verifyOnce (part m.payload 76 154) sigOk r1.2 →
    admCheck cert m.payload (msgBadge m) r1.1 r2.1 r2.2 = 0 →
    exec (.admQuoteReceive chainOk sigOk) s
      = .next (takeAdmits (r2.2.onLdr fun l =>
          { l with
            guests := (l.guests.filter fun g => g.badge != msgBadge m) ++ (l.guests.filter fun g => g.badge == msgBadge m).map fun g =>
              { g with ok := true, nl := be m.payload 12 32, quoteHash := shaNat (part m.payload 76 538) } })))
  ∧ (∀ badge g s u, s.ldr.guests.find? grantWaits = some g → g.badge = badge → rsaTurn .grantWrap s = true →
    u = rsaBegin (rsaEnd false ((s.onLdr fun l =>
      { l with guests := l.guests.map fun x => if x.badge == badge then { x with granted := true } else x }).onSec fun x =>
        { x with wrapAhead := x.wrapAhead - 1 })) →
    exec (.grantBuilt badge) s = .next (trainSend (admFrame u true (u.inaug.train * 64 + 63) 0x23 (beBytes 8 badge ++ beBytes 32 g.nl
      ++ bcSig (if bcNl s.ldr.beaconNow = g.nl then s.ldr.beaconNow else s.ldr.beaconPrev)
      ++ padTo 384 ((Config.wrapKey (be (keyBlock g s) 0 100) badge).take 384))) u))
  ∧ (∀ m g s, firstMsg (isSub ftAdmission false 0x24) s = some m → isLead s = true → g.done = false →
    s.ldr.guests.find? (fun g => g.granted && g.adm == m.hdr.adm && g.adm == be m.payload 12 2 && g.quoteHash == be m.payload 16 32) = some g →
    exec .admDoneReceive s = .next (stateCopy (openCensus 4 none (raise 91 (g.adm * 65536) ((tookFree (takenMsg m s)).onLdr fun l =>
      { l with
        guests := l.guests.map fun x => if x.badge == g.badge then { x with done := true } else x
        present := l.present.filter fun b => b != g.badge
        roster := (l.roster.filter fun c => c.badge != g.badge) ++
          [{ badge := g.badge, adm := g.adm, rank := freeNat 8 s % 5, cert := shaNat g.cert, posX := 0, posY := 0, ends_ := 0, nbrA := 0, nbrB := 0,
             omits := 0 }] })))))
  ∧ (∀ sigOk m s, firstMsg (isSub ftInauguration true 12) s = some m → isLead s = true →
    (verifyOnce (m.payload.drop 12) sigOk (takenMsg m s)).1 = true →
    (Config.badgeOf (Config.certKey (m.payload.drop 12))).toNat = msgBadge m →
    (verifyOnce (m.payload.drop 12) sigOk (takenMsg m s)).2.ldr.present.contains (msgBadge m) = false →
    exec (.presentReceive sigOk) s
      = .next (raise 95 0 ((learnOrient m.endB m.hdr (verifyOnce (m.payload.drop 12) sigOk (takenMsg m s)).2).onLdr fun l =>
          { l with present := l.present ++ [msgBadge m] })))

/-- LEAD_STATUS_SEND, LEAD_STATUS_RECEIVE, GRACE_PERIOD_END, LEAD_LOSS_TIMEOUT, CENSUS_SEND, CENSUS_RECEIVE, POSITION_RECEIVE, POSITION_REPLY_SEND and
CENSUS_CLOSE (R44, R45, R94, R96 to R98, R100, R109): the status every 100 µs and what it tells a car, the end of the grace period, a member that loses its
lead; a census is sent, a member sets ORIENT and answers once, and the lead closes it when every member has answered or the time is over. Where the spec
leaves a choice, this is the model's: log 17. -/
def Obligations.LeadCensus : Prop :=
  (∀ s s1, isLead s = true →
    sendExpressFrom (statusFrom s) (statusFrom s) (inaugFrame s .plain 3 ([byteOf s.inaug.numbering.length, byteOf s.inaug.train, 0, 0] ++ beBytes 4 s.ldr.stateVer
      ++ ((List.range 3).flatMap fun i => beBytes 2 (s.inaug.backups.getD i 0)))) s = some s1 →
    exec .leadStatusSend s = .next (s1.onLdr fun l => { l with statusAt := some (trainTime s) }))
  ∧ (∀ m s, firstMsg (isSub ftInauguration false 3) s = some m → isLead s = false →
    exec .leadStatusReceive s = .next (((takenMsg m s).onLdr fun l => { l with dissolveSince := none }).onInaug fun x =>
      { x with heardLead := trainTime s, leadBadge := msgBadge m, leadAdmit := m.hdr.adm,
               backups := [be m.payload 20 2, be m.payload 22 2, be m.payload 24 2] }))
  ∧ (∀ g s, s.inaug.graceUntil = some g → g ≤ trainTime s →
    exec .gracePeriodEnd s = .next (s.onInaug fun x => { x with graceUntil := none, prevNumbers := [] }))
  ∧ (∀ s, s.inaug.role = .member → onTrain s = true → s.inaug.heardLead + pLeadLoss s + 9000000 ≤ trainTime s →
    exec .leadLossTimeout s = .next (loseAndSeek s))
  ∧ (∀ c s s1, s.ldr.census = some c → isLead s = true → c.sentAt = none →
    sendExpressFrom c.since c.since (inaugFrame s .plain 4 (beBytes 4 c.cid ++ [byteOf c.cause, 0, 0, 0])) s = some s1 →
    exec .censusSend s = .next (s1.onLdr fun l => { l with census := some { c with sentAt := some (trainTime s) } }))
  ∧ (∀ m s, firstMsg (isSub ftInauguration false 4) s = some m → admitted s = true → isLead s = false →
    exec .censusReceive s
      = .next ((takenMsg m s).onEnds fun e => { e with orient := m.hdr.dirY == m.endB, orientSet := true }))
  ∧ (∀ m s, firstMsg (isSub ftInauguration false 5) s = some m → isLead s = true → knownMember s m.hdr.adm = true → be m.payload 12 4 = 0 →
    exec .positionReceive s = .next (openCensus (be m.payload 16 1) (some m.hdr.adm) (notePosition m.hdr.adm m.payload (takenMsg m s))))
  ∧ (∀ m s, firstMsg (isSub ftInauguration false 5) s = some m → isLead s = true → knownMember s m.hdr.adm = true → be m.payload 12 4 ≠ 0 →
    exec .positionReceive s = .next (censusReply (be m.payload 12 4) m.hdr.adm (be m.payload 17 1) (be m.payload 18 1) (be m.payload 19 1)
      (notePosition m.hdr.adm m.payload (takenMsg m s))))
  ∧ (∀ cid a px py s s1, s.inaug.heard = some (cid, a, px, py) → admitted s = true → isLead s = false → cid ≠ s.inaug.replied →
    sendExpressFrom (a + pTransit s) (a + pTransit s) (posFrame s .plain cid 0 px py) s = some s1 →
    exec .positionReplySend s = .next (s1.onInaug fun x => { x with replied := cid }))
  ∧ (∀ c a s, s.ldr.census = some c → c.sentAt = some a → isLead s = true → c.closed = false →
    (allReplied c s = true ∨ a + 500000 + 3 * pTransit s ≤ trainTime s) → exec .censusClose s = .next (closeNow c s))

/-- NUMBERING_SEND and NUMBERING_RECEIVE (R100, R102): the lead adopts its numbering as it leaves; a numbered car that it lists adopts it, and a member that it
leaves out takes the numbering over without a number and reports itself with cause OMITTED; the second omission in succession ends its membership. -/
def Obligations.Numberings : Prop :=
  (∀ es cause s s1, s.ldr.numberingDue = some (es, cause) → isLead s = true →
    sendExpressFrom (numberingFrom s) (numberingFrom s) (inaugFrame s .plain 6 (numberingBody ((s.ldr.nextEpoch.getD ((s.inaug.epoch + 1) % 4096) + 4095) % 4096) (pTrain s) cause (pGrace s) es))
      s = some s1 →
    exec .numberingSend s = .next (numberingLeft es cause (s.ldr.nextEpoch.getD ((s.inaug.epoch + 1) % 4096)) s1))
  ∧ (∀ m n s, firstMsg (isSub ftInauguration false 6) s = some m → isLead s = false →
    (numberingEntries m.payload).findIdx? (fun e => e.badge == s.sys.badge && e.adm == s.inaug.adm) = some n → s.inaug.guest ≠ .done →
    exec .numberingReceive s = .next (earlyFlush ((adoptFrom m (some n) (takenMsg m s)).onInaug fun x =>
      { x with cold := .off, guest := .idle, posDue := x.posDue, heardLead := x.heardLead })))
  ∧ (∀ m s, firstMsg (isSub ftInauguration false 6) s = some m → isLead s = false →
    (numberingEntries m.payload).findIdx? (fun e => e.badge == s.sys.badge && e.adm == s.inaug.adm) = none → admitted s = true →
    s.inaug.omitted = 0 →
    exec .numberingReceive s
      = .next (earlyFlush ((adoptFrom m none (takenMsg m s)).onInaug fun x => { x with posDue := [(5, trainTime s)] })))
  ∧ (∀ m s, firstMsg (isSub ftInauguration false 6) s = some m → isLead s = false →
    (numberingEntries m.payload).findIdx? (fun e => e.badge == s.sys.badge && e.adm == s.inaug.adm) = none → admitted s = true →
    1 ≤ s.inaug.omitted →
    exec .numberingReceive s = .next (loseAndSeek (takenMsg m s)))

/-- BACKUP_TAKEOVER, DISSOLVE_RECEIVE, HANDOVER_SEND and HANDOVER_RECEIVE (R109 to R111, R171, R173): who leads next: a BACKUP whose wait is over, with its
committed copy or, moved up and after a DISSOLVE, as a cold-start lead (INAUG_EVENT codes 1 and 2); a DISSOLVE ends membership and names the winner; the lead
hands over to the end car, which becomes lead, and a HANDOVER that names another car changes nothing else; a DISSOLVE or HANDOVER that cannot leave keeps the
place in which it waits. -/
def Obligations.LeadChanges : Prop :=
  (∀ b s, s.inaug.role = .backup → onTrain s = true → s.inaug.omitted = 0 →
    s.inaug.heardLead + pLeadLoss s + (s.inaug.rank - 1) * 3000000 ≤ trainTime s → s.ldr.active = some b →
    exec .backupTakeover s = .next (takeOver 6 (bankImage b) s))
  ∧ (∀ s t s1, s.inaug.role = .backup → onTrain s = true → s.inaug.omitted = 0 →
    s.inaug.heardLead + pLeadLoss s + (s.inaug.rank - 1) * 3000000 ≤ trainTime s → s.ldr.active = none → s.sec.entropyOk = true →
    t = (moveUp s).onLdr (fun l => { l with dissolveSince := some (dissolveFrom s) }) →
    sendExpressFrom 0 (dissolveFrom s) (inaugFrame t .plain 7 (beBytes 8 t.sys.badge ++ [byteOf (pTrain t)])) t = some s1 →
    exec .backupTakeover s = .next (cntInaug 6 (coldWin (raise 92 2 (raise 92 1 s1)))))
  ∧ (∀ s t, s.inaug.role = .backup → onTrain s = true → s.inaug.omitted = 0 →
    s.inaug.heardLead + pLeadLoss s + (s.inaug.rank - 1) * 3000000 ≤ trainTime s → s.ldr.active = none → s.sec.entropyOk = true →
    t = (moveUp s).onLdr (fun l => { l with dissolveSince := some (dissolveFrom s) }) →
    sendExpressFrom 0 (dissolveFrom s) (inaugFrame t .plain 7 (beBytes 8 t.sys.badge ++ [byteOf (pTrain t)])) t = none →
    exec .backupTakeover s
      = .next (expressHeld 0 (dissolveFrom s) (inaugFrame t .plain 7 (beBytes 8 t.sys.badge ++ [byteOf (pTrain t)])) t))
  ∧ (∀ s, moveUp s = if 1 < s.inaug.rank then setRole .backup 1 s.inaug.drive s else s)
  ∧ (∀ m s, firstMsg (isSub ftInauguration false 7) s = some m → onTrain s = true →
    exec .dissolveReceive s
      = .next ((loseAndSeek (raise 92 2 (takenMsg m s))).onLdr fun l => { l with winner := some (be m.payload 12 8, be m.payload 20 1) }))
  ∧ (∀ b s s1, s.ldr.handTarget = some b → isLead s = true → s.ldr.committed = true → s.clk.st ≠ .master → natBit s.ref.fit 0 = true →
    backupBadge s.inaug.numbering 1 = some b → s.ldr.census = none →
    sendExpressFrom 0 (handFrom s) (inaugFrame s .plain 8 (beBytes 8 b ++ beBytes 4 s.ldr.stateVer)) s = some s1 → s1.clk.st ≠ .master →
    exec .handoverSend s
      = .next (((setRole .member 0 (raise 92 3 s1).inaug.drive (raise 92 3 s1)).onInaug fun x => { x with heardLead := trainTime s }).onLdr
          fun _ => LeadSt.reset))
  ∧ (∀ b s, s.ldr.handTarget = some b → isLead s = true → s.ldr.committed = true → s.clk.st ≠ .master → natBit s.ref.fit 0 = true →
    backupBadge s.inaug.numbering 1 = some b → s.ldr.census = none →
    sendExpressFrom 0 (handFrom s) (inaugFrame s .plain 8 (beBytes 8 b ++ beBytes 4 s.ldr.stateVer)) s = none →
    exec .handoverSend s
      = .next (expressHeld 0 (handFrom s) (inaugFrame s .plain 8 (beBytes 8 b ++ beBytes 4 s.ldr.stateVer))
          (s.onLdr fun l => { l with handSince := some (handFrom s) })))
  ∧ (∀ m b s, firstMsg (isSub ftInauguration false 8) s = some m → be m.payload 12 8 = s.sys.badge → s.inaug.role = .backup →
    s.ldr.active = some b → exec .handoverReceive s = .next (takeOver 7 (bankImage b) (takenMsg m s)))
  ∧ (∀ m s, firstMsg (isSub ftInauguration false 8) s = some m → be m.payload 12 8 ≠ s.sys.badge →
    exec .handoverReceive s = .next (takenMsg m s))

/-- STATE_CHUNK_RECEIVE, STATE_COMMIT_RECEIVE, STATE_ACK_RECEIVE, STATE_COPY_TIMEOUT and STATE_COPY_RETRY (R107, R113): a chunk goes into the bank that BACKUP 1
builds from its active one for the version; a commit with every chunk and the right hash exchanges the banks and is answered with 0x00, a wrong hash with 0x01
and a missing chunk, named, with 0x02; the lead commits on 0x00, and on any other result or 2 ms of silence sends the image as the next version, raises
COPY_FAIL at the third failure in succession, and from then on tries again every 100 ms. Where the spec leaves a choice, this is the model's: log 16. -/
def Obligations.StateCopy : Prop :=
  (∀ m b s, firstMsg (isSub ftInauguration false 9) s = some m → isBackup1 s = true → s.ldr.build = some b → b.version = be m.payload 12 4 →
    exec .stateChunkReceive s = .next ((takenMsg m s).onLdr fun l =>
      { l with build := some { version := be m.payload 12 4, chunks :=
          (be m.payload 16 1, part m.payload 20 (be m.payload 18 2)) :: b.chunks.filter fun c => c.1 != be m.payload 16 1 } }))
  ∧ (∀ m s, firstMsg (isSub ftInauguration false 9) s = some m → isBackup1 s = true →
    (∀ b, s.ldr.build = some b → b.version ≠ be m.payload 12 4) →
    exec .stateChunkReceive s = .next ((takenMsg m s).onLdr fun l =>
      { l with build := some { version := be m.payload 12 4, chunks :=
          (be m.payload 16 1, part m.payload 20 (be m.payload 18 2)) ::
            ((s.ldr.active.map Bank.chunks).getD []).filter fun c => c.1 != be m.payload 16 1 } }))
  ∧ (∀ m used s t, firstMsg (isSub ftInauguration false 10) s = some m → isBackup1 s = true →
    (∀ i, i < be m.payload 16 1 → (heldChunks (be m.payload 12 4) s.ldr).any (fun c => c.1 == i) = true) →
    used = sortBy (·.1) ((heldChunks (be m.payload 12 4) s.ldr).filter fun c => decide (c.1 < be m.payload 16 1)) →
    sha (used.flatMap (·.2)) = part m.payload 20 32 →
    t = cntInaug 7 ((takenMsg m s).onLdr fun l => { l with active := some { version := be m.payload 12 4, chunks := used }, build := l.active }) →
    exec .stateCommitReceive s = .next (trainSend (inaugFrame t .plain 11 (beBytes 4 (be m.payload 12 4) ++ [0, 0])) t))
  ∧ (∀ m s t, firstMsg (isSub ftInauguration false 10) s = some m → isBackup1 s = true →
    (∀ i, i < be m.payload 16 1 → (heldChunks (be m.payload 12 4) s.ldr).any (fun c => c.1 == i) = true) →
    sha ((sortBy (·.1) ((heldChunks (be m.payload 12 4) s.ldr).filter fun c => decide (c.1 < be m.payload 16 1))).flatMap (·.2))
      ≠ part m.payload 20 32 →
    t = cntInaug 8 (takenMsg m s) →
    exec .stateCommitReceive s = .next (trainSend (inaugFrame t .plain 11 (beBytes 4 (be m.payload 12 4) ++ [1, 0])) t))
  ∧ (∀ m i s t, firstMsg (isSub ftInauguration false 10) s = some m → isBackup1 s = true → i < be m.payload 16 1 →
    (heldChunks (be m.payload 12 4) s.ldr).any (fun c => c.1 == i) = false →
    (∀ j, j < i → (heldChunks (be m.payload 12 4) s.ldr).any (fun c => c.1 == j) = true) →
    t = cntInaug 8 (takenMsg m s) →
    exec .stateCommitReceive s = .next (trainSend (inaugFrame t .plain 11 (beBytes 4 (be m.payload 12 4) ++ [2, byteOf i])) t))
  ∧ (∀ m s, firstMsg (isSub ftInauguration false 11) s = some m → isLead s = true → be m.payload 12 4 = s.ldr.version → m.hdr.adm = backup1 s →
    be m.payload 16 1 = 0 → exec .stateAckReceive s = .next (takeAdmits (stateCommitted (takenMsg m s))))
  ∧ (∀ m s, firstMsg (isSub ftInauguration false 11) s = some m → isLead s = true → be m.payload 12 4 = s.ldr.version → m.hdr.adm = backup1 s →
    be m.payload 16 1 ≠ 0 → exec .stateAckReceive s = .next (copyFailed (takenMsg m s)))
  ∧ (∀ s, stateCommitted s = commitReply (s.onLdr fun l =>
      { l with stateVer := l.version, ceiling := l.ceilingAsked, copyAt := none, copyFails := 0, committed := backup1 s != 0 }))
  ∧ (∀ s, s.ldr.copyFails = 2 →
    copyFailed s = raise 92 5 (s.onLdr fun l => { l with copyFails := 3, copyAt := none, copyTry := trainTime s }))
  ∧ (∀ s, s.ldr.copyFails < 2 →
    copyFailed s = stateCopy (s.onLdr fun l => { l with copyFails := l.copyFails + 1, copyAt := none, copyTry := trainTime s }))
  ∧ (∀ a s, s.ldr.copyAt = some a → isLead s = true → a + 2000000 ≤ trainTime s → exec .stateCopyTimeout s = .next (copyFailed s))
  ∧ (∀ s, isLead s = true → 3 ≤ s.ldr.copyFails → s.ldr.copyAt = none → s.ldr.copyTry + 100000000 ≤ trainTime s →
    exec .stateCopyRetry s = .next (stateCopy (s.onLdr fun l => { l with copyTry := trainTime s })))

/-- START_EDGE, CHARACTER_COMPLETE, LINE_STUCK_TIMEOUT, LINE_RESUMED and ECHO_MUTE_END (R231 to R240, R244, R247): a start bit whose samples are low begins a
character, stamped at its edge less RX_LAT, and any other is a glitch; from the centre of its first stop bit on a character is stored with its flags, or
dropped by the multidrop filter; a line held low is stuck after STUCK_MS, one character time of high since it was last low ends that or the wait after BARN,
and the first high bit ends a short break; the echo mute ends one bit time after DE. Where the spec leaves a choice, this is the model's: log 21. -/
def Obligations.SerialReceive : Prop :=
  (∀ p v s, portOpen s p = true → (portOf s p).echo = false → (portOf s p).phase = .hunting → (portOf s p).rxPend = false →
    bitOf (portOf s p).rxSet v = false →
    exec (.startEdge p v)
      s = .next (noteStamp (modPort p (fun y =>
          { y with phase := .character, edge := some (stampAt s (s.clk.c - bits (portOf s p).rec_ 4 31 24)), edgeAt := s.clk.c, rx := false,
                   noisy := bitNoise (portOf s p).rxSet v }) s)))
  ∧ (∀ p v s, portOpen s p = true → (portOf s p).echo = false → (portOf s p).phase = .hunting → (portOf s p).rxPend = false →
    bitOf (portOf s p).rxSet v = true →
    ∃ t, exec (.startEdge p v) s = .next t
      ∧ quiet t = quiet (modPort p (fun y => { y with phase := .hunting, rx := true }) s))
  ∧ (∀ p v s, portOpen s p = true → (portOf s p).echo = false → ((portOf s p).phase = .stuck ∨ (portOf s p).phase = .waitIdle) →
    exec (.startEdge p v) s = .next (modPort p (fun y => { y with lowAt := s.clk.c }) s))
  ∧ (∀ p body sp s, (portOf s p).phase = .character → portsClocked s = true → stopCentre (portOf s p) ≤ s.clk.c → poData (portOf s p).rxSet ≠ 2 →
    exec (.characterComplete p body sp) s = .next (portClose p (modPort p (fun y => { y with edge := none })
      (storeChar p { slot := slotWord (charRead p body sp s).2 (charRead p body sp s).1, stamp := (portOf s p).edge.getD Stamp.zero, gap := false }
        (charOver p body sp s)))))
  ∧ (∀ p body sp s, (portOf s p).phase = .character → portsClocked s = true → stopCentre (portOf s p) ≤ s.clk.c → poData (portOf s p).rxSet = 2 →
    poMute (portOf s p).rec_ = true → (portOf s p).muted = true → natBit (charRead p body sp s).1 8 = false →
    exec (.characterComplete p body sp) s = .next (portClose p (modPort p (fun y => { y with edge := none })
      (cntSerial p 9 (charOver p body sp s)))))
  ∧ (∀ p s, portOpen s p = true → (portOf s p).echo = false → (portOf s p).phase = .breakHold →
    (portOf s p).stuckAt + poStuckMs (portOf s p).rec_ * 1000000 ≤ s.clk.c →
    exec (.lineStuckTimeout p) s
      = .next (framerReset p (raiseCode p 3 (poStuckMs (portOf s p).rec_) 0 (cntSerial p 8
          (modPort p (fun y => { y with phase := .stuck, lowAt := s.clk.c }) s)))))
  ∧ (∀ p high s, portOpen s p = true → (portOf s p).echo = false → (portOf s p).phase = .stuck →
    quietTime (portOf s p).rxSet ≤ high → (portOf s p).lowAt + high ≤ s.clk.c →
    exec (.lineResumed ⟨p, high⟩) s
      = .next (raiseCode p 4 (min ((s.clk.c - (portOf s p).stuckAt) / 1000000) 0xFFFFFFFF) 0
          (modPort p (fun y => { y with phase := .hunting, rx := true }) s)))
  ∧ (∀ p high s, portOpen s p = true → (portOf s p).echo = false →
    ((portOf s p).phase = .breakHold
      ∨ ((portOf s p).phase = .waitIdle ∧ quietTime (portOf s p).rxSet ≤ high ∧ (portOf s p).lowAt + high ≤ s.clk.c)) →
    exec (.lineResumed ⟨p, high⟩) s = .next (modPort p (fun y => { y with phase := .hunting, rx := true }) s))
  ∧ (∀ p s, (portOf s p).echo = true → (portOf s p).de = false → (portOf s p).deOff + sixteenths (portOf s p).txSet 16 ≤ s.clk.c →
    exec (.echoMuteEnd p) s = .next (modPort p (fun y => { y with echo := false }) s))

/-- FIFO_ITEM_TRANSFER, RX_TIMEOUT_FLUSH, TX_CHARACTER_END and DE_TAIL_END (R239, R242, R243): four slots become an item of the block being filled and of its
place in the hayloft, the fifteenth item and the time-out close it; a character leaves with all its stop bits and the next one follows at once, and DE is
released at the end of the tail. Where the spec leaves a choice, this is the model's: log 21. -/
def Obligations.SerialDma : Prop :=
  (∀ p b s, portLive s p = true → 4 ≤ (portOf s p).fifo.length → (portOf s p).cur = some b → b.items.length < 14 →
    exec (.fifoItemTransfer p) s
      = .next (enterLate p (levelCheck p (writeItem p b.place b.items.length ((portOf s p).fifo.take 4) (modPort p (fun y =>
          { y with fifo := y.fifo.drop 4, cur := some { b with items := b.items ++ [(portOf s p).fifo.take 4] } }) s)))))
  ∧ (∀ p b s, portLive s p = true → 4 ≤ (portOf s p).fifo.length → (portOf s p).cur = some b → b.items.length = 14 →
    exec (.fifoItemTransfer p) s
      = .next (enterLate p (levelCheck p (closeBlock p false (writeItem p b.place 14 ((portOf s p).fifo.take 4) (modPort p (fun y =>
          { y with fifo := y.fifo.drop 4, cur := some { b with items := b.items ++ [(portOf s p).fifo.take 4] } }) s))))))
  ∧ (∀ p s, portLive s p = true → 4 ≤ (portOf s p).fifo.length → (portOf s p).cur = none → ringFree (portOf s p) ≠ 0 →
    exec (.fifoItemTransfer p) s
      = .next (enterLate p (levelCheck p (writeItem p (portOf s p).place 0 ((portOf s p).fifo.take 4) (modPort p (fun y =>
          { y with
            fifo := y.fifo.drop 4, bseq := (y.bseq + 1) % 65536, place := (y.place + 1) % max 1 (poRingKib y.rec_ * 8), stalled := false
            cur := some { bseq := y.bseq, place := y.place, items := [(portOf s p).fifo.take 4], tmo := false } }) s)))))
  ∧ (∀ p b s, portLive s p = true → (portOf s p).phase ≠ .character → (portOf s p).fifo = [] → (portOf s p).cur = some b →
    (portOf s p).lastEnd + bitTimes (portOf s p).rxSet (poTimeout (portOf s p).rec_) ≤ s.clk.c →
    exec (.rxTimeoutFlush p) s = .next (cntSerial p 11 (closeBlock p true s)))
  ∧ (∀ p c s, (portOf s p).txCh = some c → portOpen s p = true → (portOf s p).txAt + charTime (portOf s p).txSet ≤ s.clk.c →
    exec (.txCharacterEnd p) s
      = .next (txNext p ((portOf s p).txAt + charTime (portOf s p).txSet) false (serialSent p (cntSerial p 1
          (modPort p (fun y => { y with txCh := none, txPhase := .tail, txAt := (portOf s p).txAt + charTime (portOf s p).txSet }) s)))))
  ∧ (∀ p s, (portOf s p).txPhase = .tail → tailEnd (portOf s p) ≤ s.clk.c →
    exec (.deTailEnd p) s = .next (modPort p (fun y => { y with txPhase := .idle, de := false, deOff := tailEnd y }) s))

/-- PORT_SET, PORT_STATUS and RAW_READ (R245, R248, R249, R389, R401): a record whose rings fit takes effect, an offending one is refused; the status word; closed
blocks that hold no uncorrectable codeword are copied whole and freed. -/
def Obligations.SerialCommands : Prop :=
  (∀ via s c, c = cmdOf 0x501 via s → cmdRuns 0x501 8 .config via s = true → wd c.words 1 ≤ 15 →
    portCheck ((c.words.drop 2).take 6) = none →
    ringBytes s.yard.record + ringsKib ((s.ports.map (·.rec_)).set (wd c.words 1) ((c.words.drop 2).take 6)) * 1024 ≤ s.loft.fq * mib →
    exec (.portSet via) s = .next (replyOk c [] (portApply (wd c.words 1) ((c.words.drop 2).take 6) (takenBy 0x501 via s))))
  ∧ (∀ via s c i, c = cmdOf 0x501 via s → cmdRuns 0x501 8 .config via s = true → wd c.words 1 ≤ 15 →
    portCheck ((c.words.drop 2).take 6) = some i →
    exec (.portSet via) s = .next (badParam c (2 + i) 0 (takenBy 0x501 via s)))
  ∧ (∀ via s c x, c = cmdOf 0x502 via s → x = portOf s (wd c.words 1) → cmdRuns 0x502 2 .observe via s = true → wd c.words 1 ≤ 15 →
    x.fifo.length < 64 →
    exec (.portStatus via) s = .next (replyOk c [b2n (x.phase == .stuck) * 2 ^ 31 + b2n x.muted * 2 ^ 30 + b2n x.rxPend * 2 ^ 29
      + b2n x.txPend * 2 ^ 28 + b2n x.de * 2 ^ 27 + x.fifo.length, ringFree x] (takenBy 0x502 via s)))
  ∧ (∀ via s c x, c = cmdOf 0x502 via s → x = portOf s (wd c.words 1) → cmdRuns 0x502 2 .observe via s = true → wd c.words 1 ≤ 15 →
    64 ≤ x.fifo.length →
    exec (.portStatus via) s = .next (replyOk c [b2n (x.phase == .stuck) * 2 ^ 31 + b2n x.muted * 2 ^ 30 + b2n x.rxPend * 2 ^ 29
      + b2n x.txPend * 2 ^ 28 + b2n x.de * 2 ^ 27 + freeNat 6 (takenBy 0x502 via s), ringFree x] (tookFree (takenBy 0x502 via s))))
  ∧ (∀ via s c t u bs, c = cmdOf 0x503 via s → t = takenBy 0x503 via s → u = dropBad (wd c.words 1) t →
    bs = (portOf u (wd c.words 1)).ring.map blockBytes →
    cmdRuns 0x503 4 .observe via s = true → wd c.words 1 ≤ 15 → parcelOk 2 c t = true → parcelOk 2 c u = true → bs = [] ∨ 0 < parcelFit 2 bs c →
    bit (s.sent.talkers.getD (wd c.words 1) []) 0 31 = false →
    exec (.rawRead via) s
      = .next (replyOk c [parcelFit 2 bs c, ((portOf u (wd c.words 1)).ring.head?.map (·.bseq)).getD 0]
          (modPort (wd c.words 1) (fun y => { y with ring := y.ring.drop (parcelFit 2 bs c), framed := 0 }) (parcelPut 2 bs c u))))

/-- SENTENCE_FRAMED, IDLE_GAP_SENTENCE_END and SENTENCE_CLASSIFY (R193, R194, R200 to R202, R242): characters of the ring are framed until a sentence ends, an
idle gap acts at once when every character has been framed, and a sentence meets the first rule that matches. Where the spec leaves a choice, this is the
model's: log 21. -/
def Obligations.SentenceEngine : Prop :=
  (∀ slot s, slot < 16 → tkEnable (s.sent.talkers.getD slot []) = true → s.sys.dev ≠ .barn →
    exec (.sentenceFramed slot) s
      = .next (modPort slot (fun p => freeBlocks p.ring.length p)
          (frameChars slot ((ringChars (portOf (dropBad slot s) slot)).drop (portOf (dropBad slot s) slot).framed) (dropBad slot s))))
  ∧ (∀ slot s, slot < 16 → tkEnable (s.sent.talkers.getD slot []) = true → portLive s slot = true → (portOf s slot).phase ≠ .character →
    2 ≤ tkProfile (s.sent.talkers.getD slot []) → (portOf s slot).fifo = [] → (ringChars (portOf s slot)).length ≤ (portOf s slot).framed →
    (portOf s slot).lastEnd + bitTimes (portOf s slot).rxSet (tkPc (s.sent.talkers.getD slot [])) ≤ s.clk.c →
    exec (.idleGapSentenceEnd slot) s = .next (gapStep slot s).1)
  ∧ (∀ x r i ru s, s.sent.inq = x :: r → ruleOf s x = (i, ru) → ruDrop ru.rec_ = true →
    exec .sentenceClassify s
      = .next (cntRule i 2 (when' (bit ru.rec_ 10 29)
          (historyPut { x with cls := bits ru.rec_ 10 26 24, sup := bit ru.rec_ 10 28, hist := bit ru.rec_ 10 29, rule := i })
          (cntRule i 0 (s.onSent fun t => { t with inq := r })))))
  ∧ (∀ x r i ru s, s.sent.inq = x :: r → ruleOf s x = (i, ru) → ruDrop ru.rec_ = false → bits ru.rec_ 11 31 16 < 2 → ruRate ru.rec_ = 0 →
    exec .sentenceClassify s
      = .next (routeGroup (bits ru.rec_ 10 23 16)
          { x with cls := bits ru.rec_ 10 26 24, sup := bit ru.rec_ 10 28, hist := bit ru.rec_ 10 29, rule := i }
          (cntRule i 1 (when' (bit ru.rec_ 10 29)
            (historyPut { x with cls := bits ru.rec_ 10 26 24, sup := bit ru.rec_ 10 28, hist := bit ru.rec_ 10 29, rule := i })
            (cntRule i 0 (s.onSent fun t => { t with inq := r }))))))

/-- SENTENCE_FRAME_UNPACK, RESEQ_HOLD_EXPIRY, MERGE_RELEASE and GROUP_MAP (R206, R209, R210, R218): a pair's next frame is unpacked in order, a malformed one is
counted, a gap older than TRANSIT_T is given up, and the merge stage releases what is due; the lead's map is taken. Where the spec leaves a choice, this is
the model's: log 20. -/
def Obligations.SentenceTrain : Prop :=
  (∀ m s, firstMsg (fun m => m.hdr.ftype == ftSentence) s = some m →
    parseRecords (trainTime s) (be m.payload 2 1) (m.payload.drop 8) = none →
    exec .sentenceFrameUnpack s = .next (cntSent 1 1 (takenMsg m s)))
  ∧ (∀ m xs s, firstMsg (fun m => m.hdr.ftype == ftSentence) s = some m →
    parseRecords (trainTime s) (be m.payload 2 1) (m.payload.drop 8) = some xs → xs ≠ [] → 8 ≤ m.payload.length → be m.payload 3 1 = 0 →
    streamOk m.hdr (be m.payload 0 2) = true → m.hdr.grp = false →
    exec .sentenceFrameUnpack s = .next (reseqFrame m.hdr.adm (be m.payload 0 2) (be m.payload 4 4) xs (takenMsg m s)))
  ∧ (∀ adm stream p s, s.sent.reseq.find? (fun p => p.adm == adm && p.stream == stream) = some p →
    (p.held.any fun h => decide (h.2.1 + pTransit s ≤ trainTime s)) = true →
    exec (.reseqHoldExpiry adm stream) s = .next (skipGap p s))
  ∧ (∀ n x r s, (lqOf s n).held = x :: r → mergeDue s n x = true →
    exec (.mergeRelease n) s = .next (mergeLoop n r.length (enqueue n x (modLq n (fun l => { l with held := r }) s))))
  ∧ (∀ n x r s, (lqOf s n).held = x :: r → mergeDue s n x = false → exec (.mergeRelease n) s = .next s)
  ∧ (∀ m s, firstMsg (fun m => m.hdr.ftype == ftControl && be m.payload 0 1 == 0x10) s = some m → m.hdr.adm = s.inaug.leadAdmit →
    exec .groupMap s
      = .next (each (List.range ((m.payload.length - 8) / 12)) (fun i => mapSet (part m.payload (8 + 12 * i) 12)) (takenMsg m s)))

/-- LISTENER_EMIT (R216, R243, R341): a serial listener gives its sentence's characters to the port, one on a stream channel waits for it, an endpoint packs
records that fit. -/
def Obligations.ListenerEmit : Prop :=
  (∀ n x r s, n < 16 → replayFill n 129 s = s → portOpen s n = true → (portOf s n).txPhase = .idle →
    (portOf s n).txFifo = [] → (lqOf s n).emitting = none → (lqOf s n).q = x :: r →
    exec (.listenerEmit n) s
      = .next (txStart n (((modLq n (fun l => { l with q := r, emitting := some x }) s).onSent fun t =>
          { t with lastOut := some (n, (formBytes s n x).1) }).onSent fun t =>
            { t with
              serialOut := (t.serialOut.filter fun o => o.1 != n) ++
                [(n, (formBytes s n x).1.zipIdx.map fun b => b.1.toNat + (if x.addr && b.2 == (formBytes s n x).2 then 256 else 0))] })))
  ∧ (∀ n x r s, 16 ≤ n → n < 32 → replayFill n 129 s = s → lsParcel (s.sent.listeners.getD n []) = false → strmEnabled s (n + 16) = true →
    (lqOf s n).emitting = none → (lqOf s n).q = x :: r →
    exec (.listenerEmit n) s
      = .next (strmWait ((modLq n (fun l => { l with q := r, emitting := some x }) s).onSent fun t =>
          { t with lastOut := some (n, (formBytes s n x).1) })))
  ∧ (∀ n x r s, 32 ≤ n → replayFill n 129 s = s → epEnable (epRec s (n - 32)) = true → (lqOf s n).q = x :: r → epFits s (n - 32) x = true →
    exec (.listenerEmit n) s
      = .next ((modLq n (fun y => { y with q := r }) s).onYard fun d => { d with epSt := d.epSt.modify (n - 32) fun p =>
          { p with pack := p.pack ++ [x], first := if p.pack.isEmpty then s.clk.c else p.first } }))

/-- TALKER_SET, LISTENER_SET, RULE_REPLACE, SUBMIT, FETCH, DIRECT_SEND, SENTENCE_COUNTERS, GROUP_CHANGE and GROUP_READ (R195, R203, R205, R206, R211, R216, R389,
R395, R397, R399): a record or a rule takes effect, a sentence is submitted, fetched or sent to one listener, counters are read; a group member is added or
removed, and the reply waits for the copy of R113. Where the spec leaves a choice, this is the model's: log 20. -/
def Obligations.SentenceControl : Prop :=
  (∀ via s c, c = cmdOf 0x401 via s → cmdRuns 0x401 14 .config via s = true → wd c.words 1 ≤ 63 →
    talkerCheck (s.ports.map (·.rec_)) (wd c.words 1) ((c.words.drop 2).take 12) = none → (framerOf s (wd c.words 1)).active = false →
    exec (.talkerSet via) s = .next (replyOk c [] (talkerApply (wd c.words 1) ((c.words.drop 2).take 12) (takenBy 0x401 via s))))
  ∧ (∀ via s c, c = cmdOf 0x401 via s → cmdRuns 0x401 14 .config via s = true → wd c.words 1 ≤ 63 →
    talkerCheck (s.ports.map (·.rec_)) (wd c.words 1) ((c.words.drop 2).take 12) = none → (framerOf s (wd c.words 1)).active = true →
    exec (.talkerSet via) s = .next (replyOk c [] ((takenBy 0x401 via s).onSent fun t =>
      { t with talkNext := t.talkNext.set (wd c.words 1) (some ((c.words.drop 2).take 12)) })))
  ∧ (∀ via s c, c = cmdOf 0x402 via s → cmdRuns 0x402 4 .config via s = true → wd c.words 1 ≤ 63 →
    listenerCheck (wd c.words 1) ((c.words.drop 2).take 2) = none →
    exec (.listenerSet via) s = .next (replyOk c [] (listenerApply (wd c.words 1) ((c.words.drop 2).take 2) (takenBy 0x402 via s))))
  ∧ (∀ via s c t, c = cmdOf 0x403 via s → t = takenBy 0x403 via s → cmdRuns 0x403 4 .config via s = true → wd c.words 1 ≤ 2047 → wd c.words 3 = 64 →
    parcelOk 2 c t = true → (parcelRead 2 c t).1 = true → ruleCheck (wd c.words 1) (bytesWords (parcelBytes 2 c t)) = none →
    exec (.ruleReplace via) s
      = .next (replyOk c [] (putRule (wd c.words 1) (bytesWords (parcelBytes 2 c t)) (parcelRead 2 c t).2)))
  ∧ (∀ via s c t items, c = cmdOf 0x404 via s → t = takenBy 0x404 via s → cmdRuns 0x404 4 .operate via s = true → 16 ≤ wd c.words 1 →
    wd c.words 1 ≤ 47 → parcelOk 2 c t = true → (parcelRead 2 c t).1 = true →
    parseItems (parcelBytes 2 c t).length (parcelBytes 2 c t) = (items, true) →
    tkEnable ((parcelRead 2 c t).2.sent.talkers.getD (wd c.words 1) []) = true →
    ∃ k u, u = submitAll (wd c.words 1) items (parcelRead 2 c t).2 ∧ k = u.sent.inq.length - (parcelRead 2 c t).2.sent.inq.length
      ∧ exec (.submit via) s = .next (replyOk c [k, items.length - k] u))
  ∧ (∀ via s c t u items, c = cmdOf 0x405 via s → t = takenBy 0x405 via s → u = replayFill (wd c.words 1) 129 t →
    items = ((lqOf u (wd c.words 1)).q.map fun x =>
      leBytes 4 (formBytes u (wd c.words 1) x).1.length ++ padTo (roundUp (formBytes u (wd c.words 1) x).1.length 4) (formBytes u (wd c.words 1) x).1) →
    cmdRuns 0x405 4 .observe via s = true → 16 ≤ wd c.words 1 → wd c.words 1 ≤ 31 → lsParcel (s.sent.listeners.getD (wd c.words 1) []) = true →
    parcelOk 2 c u = true → items = [] ∨ 0 < parcelFit 2 items c →
    ∃ k v, k = parcelFit 2 items c
      ∧ v = each (List.replicate k ()) (fun _ => cntLstn (wd c.words 1) 1) (modLq (wd c.words 1) (fun l => { l with q := l.q.drop k })
          (parcelPut 2 items c u))
      ∧ exec (.fetch via) s = .next (replyOk c [k, ((items.take k).map (·.length)).sum, (lqOf v (wd c.words 1)).q.length] v))
  ∧ (∀ via s c t i, c = cmdOf 0x406 via s → t = takenBy 0x406 via s → cmdRuns 0x406 4 .operate via s = true → natBits (wd c.words 1) 28 20 = 0 →
    parcelOk 2 c t = true → (parcelRead 2 c t).1 = true → parseItems (parcelBytes 2 c t).length (parcelBytes 2 c t) = ([i], true) →
    natBits (wd c.words 1) 19 0 / 64 = sysAddr (parcelRead 2 c t).2 →
    ∃ x, exec (.directSend via) s
        = .next (replyOk c [] (offerListener (natBits (wd c.words 1) 19 0 % 64) x (tookFree (noteStamp (parcelRead 2 c t).2))))
      ∧ x.body = i.2.2 ∧ x.cls = natBits (wd c.words 1) 31 29 ∧ x.talker / 64 = sysAddr (parcelRead 2 c t).2)
  ∧ (∀ via s c t, c = cmdOf 0x408 via s → t = takenBy 0x408 via s → cmdRuns 0x408 3 .observe via s = true → parcelOk 1 c t = true →
    0 < parcelFit 1 [ctrBlock 7 t.ctr.talk, ctrBlock 8 t.ctr.rule, ctrBlock 9 t.ctr.sent, ctrBlock 10 t.ctr.lstn] c →
    exec (.sentenceCounters via) s
      = .next (replyOk c [] (parcelPut 1 [ctrBlock 7 t.ctr.talk, ctrBlock 8 t.ctr.rule, ctrBlock 9 t.ctr.sent, ctrBlock 10 t.ctr.lstn] c t)))
  ∧ (∀ via s c g m t, c = cmdOf 0x106 via s → t = takenBy 0x106 via s → g = natBits (wd c.words 1) 31 24 →
    m = (wd64 c.words 2, natBits (wd c.words 1) 5 0) → cmdRuns 0x106 4 .config via s = true → natBits (wd c.words 1) 23 9 = 0 →
    natBits (wd c.words 1) 7 6 = 0 → isLead s = true → natBit (wd c.words 1) 8 = false → (membersOf s g).contains m = false →
    (membersOf s g).length < 255 → (s.sent.groups.map fun x => x.members.length).sum < 4096 →
    exec (.groupChange via) s
      = .next (stateCopy ((sendChanged t g (setMembers g (membersOf s g ++ [m]) t)).onCmd fun q => { q with commitWait := some c, busy := some c })))
  ∧ (∀ via s c g m t, c = cmdOf 0x106 via s → t = takenBy 0x106 via s → g = natBits (wd c.words 1) 31 24 →
    m = (wd64 c.words 2, natBits (wd c.words 1) 5 0) → cmdRuns 0x106 4 .config via s = true → natBits (wd c.words 1) 23 9 = 0 →
    natBits (wd c.words 1) 7 6 = 0 → isLead s = true → natBit (wd c.words 1) 8 = true → (membersOf s g).contains m = true →
    exec (.groupChange via) s
      = .next (stateCopy ((sendChanged t g (setMembers g ((membersOf s g).filter (· != m)) t)).onCmd fun q =>
          { q with commitWait := some c, busy := some c })))
  ∧ (∀ via s c t, c = cmdOf 0x107 via s → t = takenBy 0x107 via s → cmdRuns 0x107 3 .observe via s = true → isLead s = true → parcelOk 1 c t = true →
    (s.sent.groups.map groupBytes = [] ∨ 0 < parcelFit 1 (s.sent.groups.map groupBytes) c) →
    exec (.groupRead via) s = .next (replyOk c [1] (parcelPut 1 (s.sent.groups.map groupBytes) c t)))

/-- BULK_RECEIVE, BULK_STATUS, PARCEL_TRANSFER_TIMEOUT, PARCEL_PUSH and REPLAY (R56, R222, R400, R406, R429): the pieces of a transfer, a replay to a disabled
listener refused, its status, its end by time or by the loss of its destination, and the two commands that start transfers. Where the spec leaves a choice,
this is the model's: log 20. -/
def Obligations.Transfers : Prop :=
  (∀ m s, firstMsg (fun m => m.hdr.ftype == ftBulk && !(s.sys.braced && Config.bulkTarget m.hdr.adm (be m.payload 0 4) % 2 == 0)) s = some m →
    (m.payload.length < 16 ∨ be m.payload 12 4 < be m.payload 4 8 + (m.payload.drop 16).length) →
    exec .bulkReceive s = .next (takenMsg m s))
  ∧ (∀ m b s x, firstMsg (fun m => m.hdr.ftype == ftBulk && !(s.sys.braced && Config.bulkTarget m.hdr.adm (be m.payload 0 4) % 2 == 0)) s = some m →
    16 ≤ m.payload.length → be m.payload 4 8 + (m.payload.drop 16).length ≤ be m.payload 12 4 →
    s.lane.bulkIn.find? (fun x => x.src == m.hdr.adm && x.xid == be m.payload 0 4) = some b → b.bad = false →
    x = Config.bulkTarget m.hdr.adm (be m.payload 0 4) →
    ∃ t, exec .bulkReceive s = .next t
      ∧ (x % 2 = 1 → lsEnable (s.sent.listeners.getD (x / 2 % 64) []) = false →
        t = sendBulkStatus m.hdr.src (be m.payload 0 4) 5 (stateDetail (takenMsg m s))
          (putBulk { b with got := (be m.payload 4 8, (m.payload.drop 16).length) :: b.got, data := [], bad := true } (takenMsg m s)))
      ∧ (covered (b.got.length + 1) ((be m.payload 4 8, (m.payload.drop 16).length) :: b.got) 0 (be m.payload 12 4) = false →
        (x % 2 = 1 → lsEnable (s.sent.listeners.getD (x / 2 % 64) []) = true →
          t = putBulk { b with got := (be m.payload 4 8, (m.payload.drop 16).length) :: b.got, data := (be m.payload 4 8, m.payload.drop 16) :: b.data }
            (takenMsg m s))
        ∧ (x % 2 = 0 → t = putBulk { b with got := (be m.payload 4 8, (m.payload.drop 16).length) :: b.got }
          (bulkPlace (x / 2 + be m.payload 4 8) (m.payload.drop 16) (takenMsg m s)))))
  ∧ (∀ m b s, firstMsg (isCtl 0x15) s = some m → s.lane.bulkOut.find? (fun b => b.xid == be m.payload 8 4 && b.dst == m.hdr.src) = some b →
    exec .bulkStatus s = .next (bulkEnd b (le m.payload 12 4 % 256) (le m.payload 12 4 / 256) (takenMsg m s)))
  ∧ (∀ xid b s, s.lane.bulkOut.find? (fun b => b.xid == xid) = some b → carOfBadge s b.badge = none →
    exec (.parcelTransferTimeout xid) s = .next (bulkEnd b 11 (b.dst % 16384) s))
  ∧ (∀ xid b n s, s.lane.bulkOut.find? (fun b => b.xid == xid) = some b → carOfBadge s b.badge = some n → b.kind = .push →
    b.started + 2000000000 ≤ trainTime s → exec (.parcelTransferTimeout xid) s = .next (bulkEnd b 10 0 s))
  ∧ (∀ via s c t u, c = cmdOf 0xB06 via s → t = takenBy 0xB06 via s → u = (parcelRead 2 c t).2 → cmdRuns 0xB06 5 .operate via s = true →
    wd c.words 1 ≤ 16383 → wd c.words 3 ≤ bulkMax → parcelOk 2 c t = true → (parcelRead 2 c t).1 = true → bulkCount u < 4 →
    wd c.words 1 ≠ sysAddr u → carKnown u (wd c.words 1) = true → parcelBytes 2 c t ≠ [] →
    exec (.parcelPush via) s = .next (bulkStart (badgeOfCar u (wd c.words 1)) (wd c.words 1) .push c 0 (parcelBytes 2 c t)
      (replyOk c [u.lane.nextXfer] u)))
  ∧ (∀ via s c t sel trunc first, c = cmdOf 0x407 via s → t = takenBy 0x407 via s → cmdRuns 0x407 9 .operate via s = true →
    wd c.words 1 ≤ 0xFFFFF → wd64 c.words 2 ≤ wd64 c.words 4 → wd c.words 6 ≤ 511 → s.sent.replays.length < 4 →
    wd c.words 1 / 64 = sysAddr s → lsEnable (s.sent.listeners.getD (wd c.words 1 % 64) []) = true →
    sel = replaySelect s (wd64 c.words 2) (wd64 c.words 4) (wd c.words 6 % 256) (if natBit (wd c.words 6) 8 then some (wd64 c.words 7) else none) →
    sel ≠ [] →
    trunc = (match s.sent.history.head? with
      | some b => decide (0 < b.seq) && (if b.ep == wd c.words 6 % 256 then decide (wd64 c.words 2 < b.time) else epochNewer b.ep (wd c.words 6 % 256))
      | none => false) →
    first = (if trunc then (s.sent.history.head?.bind fun b => b.recs.head?.map (recTime b)).getD 0 else (sel.head?.map (·.1)).getD 0) →
    exec (.replay via) s = .next (replayFill (wd c.words 1 % 64) 129
      (replyOk c [s.sent.nextReplay, b2n trunc, first % 2 ^ 32, first / 2 ^ 32]
        (t.onSent fun x =>
          { x with
            nextReplay := (x.nextReplay + 1) % 2 ^ 32
            replays := x.replays ++ [{ rid := s.sent.nextReplay, listener := wd c.words 1, far := none, recs := sel.map (·.2), count := 0,
                                       truncated := trunc, via := c.via, session := c.session }] }))))

/-- SNAPSHOT, TRAIN_SNAPSHOT, SNAPSHOT_REQ, SNAPSHOT_FREEZE, SNAPSHOT_SEND and COUNTER_CLEAR (R66, R349 to R351, R404, R406, R412). -/
def Obligations.Snapshots : Prop :=
  (∀ via s c t, c = cmdOf 0x805 via s → t = takenBy 0x805 via s → cmdRuns 0x805 2 .operate via s = true → wd c.words 1 ≤ 1 →
    exec (.snapshot via) s = .next (replyOk c [(freeze 0 (bit c.words 1 0) false t).snap.seq] (freeze 0 (bit c.words 1 0) false t)))
  ∧ (∀ sid clear wide s, (freeze sid clear wide s).snap.seq = (s.snap.seq + 1) % 2 ^ 32
      ∧ (freeze sid clear wide s).snap.bank.head? = some (wordOf ((s.snap.seq + 1) % 2 ^ 32)))
  ∧ (∀ via s c t, c = cmdOf 0x806 via s → t = takenBy 0x806 via s → cmdRuns 0x806 5 .operate via s = true → wd c.words 3 ≠ 0 → wd c.words 4 ≤ 1 →
    trainTime s + 2000000 ≤ wd64 c.words 1 → wd64 c.words 1 ≤ trainTime s + 10000000000 →
    exec (.trainSnapshot via) s
      = .next (snapRequest { ts := wd64 c.words 1, sid := wd c.words 3, clear := bit c.words 4 0, ctx := some c }
          (replyOk c [] (ctlSendAll (ctlPayload 0x13 (nextReq t) c.session c.priv.code 0
            (beBytes 8 (wd64 c.words 1) ++ beBytes 4 (wd c.words 3) ++ leBytes 4 (b2n (bit c.words 4 0)))) (tookReq t)))))
  ∧ (∀ m s, firstMsg (isCtl 0x13) s = some m → s.snap.pend = none → trainTime s ≤ be m.payload 8 8 →
    exec .snapshotReq s = .next ((takenMsg m s).onSnap fun n =>
      { n with pend := some { ts := be m.payload 8 8, sid := be m.payload 16 4, clear := natBit (le m.payload 20 4) 0, ctx := none } }))
  ∧ (∀ r s, s.snap.pend = some r → r.ts ≤ trainTime s →
    exec .snapshotFreeze s = .next (snapDone r.ctx 1 (freeze r.sid r.clear true (s.onSnap fun n => { n with pend := none }))))
  ∧ (∀ via s c t, c = cmdOf 0x808 via s → t = takenBy 0x808 via s → cmdRuns 0x808 4 .observe via s = true → wd c.words 1 ≤ 16383 →
    wd c.words 1 = sysAddr s → wd c.words 2 % 4 = 0 →
    inParcels t (wd c.words 2) ((wordBytes s.snap.bank).take (wd c.words 3)).length = true →
    reservedByOther t c (wd c.words 2) ((wordBytes s.snap.bank).take (wd c.words 3)).length = false →
    exec (.snapshotSend via) s
      = .next (replyOk c [((wordBytes s.snap.bank).take (wd c.words 3)).length, s.snap.seq]
          (loftWrite (wd c.words 2) ((wordBytes s.snap.bank).take (wd c.words 3)) coreId t)))
  ∧ (∀ via s c t p, c = cmdOf 0x808 via s → t = takenBy 0x808 via s → p = (wordBytes s.snap.bank).take (wd c.words 3) →
    cmdRuns 0x808 4 .observe via s = true → wd c.words 1 ≤ 16383 → wd c.words 1 ≠ sysAddr s → wd c.words 2 % 4 = 0 → p ≠ [] → p.length ≤ bulkMax →
    carKnown t (wd c.words 1) = true → bulkCount t < 4 →
    exec (.snapshotSend via) s = .next (bulkStart (badgeOfCar t (wd c.words 1)) (wd c.words 1) (.snapshot s.snap.seq) c 0 p t))
  ∧ (∀ via s c, c = cmdOf 0xA03 via s → cmdRuns 0xA03 1 .operate via s = true →
    exec (.counterClear via) s = .next (replyOk c [] (clearCounters (takenBy 0xA03 via s))))

/-- BARRIER_FRAME_SEND, BARRIER_FRAME_RECEIVE, BARRIER_LINK_TIMEOUT, HEARTBEAT_CONFIRM, HEARTBEAT_MISSING, HB_TIMEOUT, INPUT_LEVEL_CHANGE, INPUT_TRANSITION_ACCEPT
and EDGE_REPORT_RECEIVE (R253 to R260, R287): the frames that cross in both directions each 1 µs, each of which passes or fails; the heartbeat and what its
loss ends; a run of equal samples on the 50 ns grid, a transition accepted after DEBOUNCE with the time of its edge, and what the report gives. Where the spec
leaves a choice, this is the model's: log 22. -/
def Obligations.FieldLink : Prop :=
  (∀ s, fieldPowered s = true →
    exec .barrierFrameSend s = .next (s.onFld fun d => { d with txIdx := (d.txIdx + 1) % 10, rxIdx := (d.rxIdx + 1) % 10 }))
  ∧ (∀ k s, fieldPowered s = true → s.fld.txIdx = 0 → s.fld.stateStop = false → k.toField = false →
    exec (.barrierFrameReceive k) s = .next (logicReceives k.toLogic (cntFmod 0 (s.onFld fun d => { d with stateRun := 0 }))))
  ∧ (∀ k s, fieldPowered s = true → s.fld.txIdx = 0 → s.fld.stateStop = false → k.toField = true → s.fld.hbLost = false →
    exec (.barrierFrameReceive k) s
      = .next (logicReceives k.toLogic (s.onFld fun d => { d with lastState := s.clk.c, stateRun := min (d.stateRun + 1) 10 })))
  ∧ (∀ k s, fieldPowered s = true → s.fld.txIdx ≠ 0 → k.toField = false →
    exec (.barrierFrameReceive k) s = .next (logicReceives k.toLogic (cntFmod 0 s)))
  ∧ (∀ k s, fieldPowered s = true → s.fld.txIdx ≠ 0 → k.toField = true →
    exec (.barrierFrameReceive k) s
      = .next (logicReceives k.toLogic (each s.fld.cmds crossBarrier (s.onFld fun d => { d with cmds := [] }))))
  ∧ (∀ k s, fieldPowered s = true → s.fld.txIdx ≠ 0 → k.toField = true → s.fld.cmds = [] → k.toLogic = false →
    exec (.barrierFrameReceive k) s = .next (cntFmod 0 (s.onFld fun d => { d with cmds := [] })))
  ∧ (∀ k s, fieldPowered s = true → s.fld.txIdx ≠ 0 → k.toField = true → s.fld.cmds = [] → k.toLogic = true → s.fld.rxIdx ≠ 0 →
    exec (.barrierFrameReceive k) s = .next (s.onFld fun d =>
      { d with cmds := [], lastField := s.clk.c, arrived := d.arrived ++ d.edges.take 4, edges := d.edges.drop 4 }))
  ∧ (∀ k s, fieldPowered s = true → s.fld.txIdx ≠ 0 → k.toField = true → s.fld.cmds = [] → k.toLogic = true → s.fld.rxIdx = 0 → s.fld.linkError = false →
    exec (.barrierFrameReceive k) s = .next (tookFree (s.onFld fun d =>
      { d with
        cmds := [], lastField := s.clk.c, arrived := d.arrived ++ d.edges.take 4, edges := d.edges.drop 4
        kept := d.ch, keptGrp := d.grp, keptHb := d.hbLost, keptCur := freeNat 352 s })))
  ∧ (∀ s, fieldPowered s = true → s.fld.linkError = false → s.fld.lastField + 30000 ≤ s.clk.c →
    exec .barrierLinkTimeout s = .next (barrierEvent 3 (s.onFld fun d => { d with linkError := true, linkInvalid := true })))
  ∧ (∀ s, takesMsgs s = true → exec .heartbeatConfirm s = .next (s.onFld fun d => { d with confirmAt := s.clk.c, stateStop := false }))
  ∧ (∀ s, fieldPowered s = true → s.fld.confirmAt + 2000000 ≤ s.clk.c →
    exec .heartbeatMissing s = .next (s.onFld fun d => { d with stateStop := true }))
  ∧ (∀ s, fieldPowered s = true → s.fld.hbLost = false → s.fld.lastState + hbTimeout s ≤ s.clk.c →
    exec .hbTimeout s
      = .next (endOwners 2 3 (barrierEvent 1 (cntFmod 1 (fieldSettle (s.onFld fun d => { d with hbLost := true, stateRun := 0 }))))))
  ∧ (∀ n level s, (chanOf s n).runLevel ≠ level → (chanOf s n).runStart < sampleAt s.clk.c →
    (chanOf s n).runStart + chDebounce s n ≤ sampleAt s.clk.c →
    exec (.inputLevelChange n level) s = .next (modChan n (fun y => { y with runLevel := level, runStart := sampleAt s.clk.c }) s))
  ∧ (∀ n level s, (chanOf s n).runLevel ≠ level → (chanOf s n).runStart < sampleAt s.clk.c → sampleAt s.clk.c < (chanOf s n).runStart + chDebounce s n →
    fieldPowered s = true → chIsIn s n = true →
    (grpOf s (n / 8)).under = false → (chanOf s n).known = true → (chanOf s n).level ≠ (chanOf s n).runLevel →
    exec (.inputLevelChange n level) s
      = .next (cntChan n 1 (modChan n (fun y => { y with runLevel := level, runStart := sampleAt s.clk.c }) s)))
  ∧ (∀ n s, fieldPowered s = true → chIsIn s n = true → chIsOut s n = false → (grpOf s (n / 8)).under = false → (chanOf s n).known = true →
    (chanOf s n).runStart + chDebounce s n ≤ s.clk.c → (chanOf s n).runLevel ≠ (chanOf s n).level → s.fld.edges.length < 256 →
    exec (.inputTransitionAccept n) s
      = .next (queueEdge { ch := n, level := (chanOf s n).runLevel, at_ := (chanOf s n).runStart - (25 + (Config.cmpDelay n).toNat), overrun := (chanOf s n).overrun,
                           starting := false }
          (cntChan n 0 (modChan n (fun y => { y with level := y.runLevel, known := true, lastLevel := y.runLevel, hadLevel := true }) s))))
  ∧ (∀ e r s, s.fld.arrived = e :: r → e.starting = true →
    exec .edgeReportReceive s = .next (s.onFld fun d => { d with arrived := r, kept := d.kept.modify e.ch fun y => { y with level := e.level, known := true } }))
  ∧ (∀ e r s, s.fld.arrived = e :: r → e.starting = false → e.level = true → bit (chRec s e.ch) 1 31 = true →
    (∀ w ∈ s.fld.ruleRec, natBit w.toNat 31 = false) →
    exec .edgeReportReceive s
      = .next (raiseAt (stampAt s e.at_) (16 + e.ch) 1 (b2n e.overrun * 2 + 1) 0
          (s.onFld fun d => { d with arrived := r, kept := d.kept.modify e.ch fun y => { y with level := e.level, known := true } })))

/-- CURRENT_LIMIT_TIMEOUT, SHORT_RETRY, RETRY_COUNT_RESET, OVERLOAD_SHED, READBACK_FAULT, READBACK_FAULT_END, OPEN_LOAD_TEST_START and OPEN_LOAD_TEST_END (R262 to
R266): a switch that was in current limit for LIMIT_MS or in thermal shutdown goes off, is tried again after 100 ms, and is latched when RETRY_MAX is used up;
an overload sheds the highest channel that is on, once in 10 ms; a mismatch of readback and switch; the 1 ms test on the 100 ms grid, void when the switch or
the supply changed. Where the spec leaves a choice, this is the model's: log 22. -/
def Obligations.OutputFaults : Prop :=
  (∀ n since s, fieldPowered s = true → chIsOut s n = true → (chanOf s n).drive = true →
    (∀ k, since = some k → max k (chanOf s n).onSince + chLimit s n ≤ s.clk.c) → (chRetryMax s n = 15 ∨ (chanOf s n).retry < chRetryMax s n) →
    exec (.currentLimitTimeout n since) s
      = .next (chEvent n 0x10 ((chanOf s n).retry * 16 + b2n since.isNone) (cntChan n 3 (fieldSettle (modChan n (fun y =>
          { y with short := true, thermal := since.isNone, offAt := s.clk.c }) s)))))
  ∧ (∀ n since s, fieldPowered s = true → chIsOut s n = true → (chanOf s n).drive = true → chRetryMax s n ≠ 15 →
    (∀ k, since = some k → max k (chanOf s n).onSince + chLimit s n ≤ s.clk.c) →
    chRetryMax s n ≤ (chanOf s n).retry →
    exec (.currentLimitTimeout n since) s
      = .next (chEvent n 0x11 1 (cntChan n 5 (chEvent n 0x10 ((chanOf s n).retry * 16 + b2n since.isNone) (cntChan n 3 (fieldSettle (modChan n (fun y =>
          { y with short := false, thermal := since.isNone, offAt := s.clk.c, latched := some .retries }) s)))))))
  ∧ (∀ n s, fieldPowered s = true → (chanOf s n).short = true → (chanOf s n).offAt + 100000000 ≤ s.clk.c →
    exec (.shortRetry n) s
      = .next (fieldSettle (cntChan n 4 (modChan n (fun y => { y with short := false, retry := min (y.retry + 1) 15 }) s))))
  ∧ (∀ n s, fieldPowered s = true → (chanOf s n).drive = true → (chanOf s n).retry ≠ 0 → (chanOf s n).onSince + 100000000 ≤ s.clk.c →
    exec (.retryCountReset { ch := n, limited := false }) s = .next (chEvent n 0x16 0x10 (modChan n (fun y => { y with retry := 0 }) s)))
  ∧ (∀ g n s, fieldPowered s = true →
    (∀ k, s.fld.modShed = some k → k + 10000000 ≤ s.clk.c) →
    ((List.range 8).map fun i => 8 * g + 7 - i).find? (fun n => chIsOut s n && (chanOf s n).drive) = some n →
    exec (.overloadShed g true) s
      = .next (raise 54 1 (chEvent n 0x15 (freeNat 16 s) (tookFree (cntChan n 6 (fieldSettle (modChan n (fun y => { y with shed := true })
          (s.onFld fun d => { d with modShed := some s.clk.c }))))))))
  ∧ (∀ g n s, fieldPowered s = true →
    (∀ k, (grpOf s g).shedAt = some k → k + 10000000 ≤ s.clk.c) →
    ((List.range 8).map fun i => 8 * g + 7 - i).find? (fun n => chIsOut s n && (chanOf s n).drive) = some n →
    exec (.overloadShed g false) s
      = .next (supplyEvent g 8 (chEvent n 0x15 (freeNat 16 s) (tookFree (cntChan n 6 (fieldSettle (modChan n (fun y => { y with shed := true })
          (modGrp g (fun y => { y with shedAt := some s.clk.c }) s))))))))
  ∧ (∀ n lim s, fieldPowered s = true → chIsOut s n = true → (grpOf s (n / 8)).suppress = false → (chanOf s n).drive = true → lim = false →
    (chanOf s n).runLevel = false → cmpSince s n + chDebounce s n < s.clk.c →
    exec (.readbackFault { ch := n, limited := lim }) s
      = .next (chEvent n 0x11 2 (chEvent n 0x13 0 (cntChan n 5 (fieldSettle (modChan n (fun y =>
          { y with rbLow := true, latched := some .readbackLow }) s))))))
  ∧ (∀ n lim s, fieldPowered s = true → chIsOut s n = true → (grpOf s (n / 8)).suppress = false → (chanOf s n).drive = false →
    (chanOf s n).runLevel = true → cmpSince s n + chDebounce s n < s.clk.c → (chanOf s n).backfeed = false → backfeedExempt s n = false →
    exec (.readbackFault { ch := n, limited := lim }) s = .next (chEvent n 0x12 0 (cntChan n 7 (modChan n (fun y => { y with backfeed := true }) s))))
  ∧ (∀ n s, fieldPowered s = true → (chanOf s n).backfeed = true → (grpOf s (n / 8)).suppress = false → (chanOf s n).runLevel = (chanOf s n).drive →
    testExempt s n = false → cmpSince s n + chDebounce s n ≤ s.clk.c →
    exec (.readbackFaultEnd n) s = .next (chEvent n 0x16 0x12 (modChan n (fun y => { y with backfeed := false }) s)))
  ∧ (∀ n s, fieldPowered s = true → chIsOut s n = true → bit (chRec s n) 0 21 = true → (chanOf s n).drive = false → (chanOf s n).testing = false →
    (grpOf s (n / 8)).suppress = false → (chanOf s n).runLevel = false →
    sampleAt s.clk.c % 100000000 = 0 →
    exec (.openLoadTestStart n) s = .next (modChan n (fun y => { y with testing := true, testAt := s.clk.c }) s))
  ∧ (∀ n s, fieldPowered s = true → (chanOf s n).testing = true → (chanOf s n).testAt + 1000000 ≤ s.clk.c → (chanOf s n).drive = false →
    (grpOf s (n / 8)).suppress = false → (chanOf s n).openLoad = false →
    exec (.openLoadTestEnd n true) s
      = .next (chEvent n 0x14 0 (cntChan n 8 (modChan n (fun y => { y with testing := false, testOver := s.clk.c, openLoad := true }) s))))
  ∧ (∀ n s, fieldPowered s = true → (chanOf s n).testing = true → (chanOf s n).testAt + 1000000 ≤ s.clk.c → (chanOf s n).drive = false →
    (grpOf s (n / 8)).suppress = false → (chanOf s n).openLoad = true →
    exec (.openLoadTestEnd n false) s
      = .next (chEvent n 0x16 0x14 (modChan n (fun y => { y with testing := false, testOver := s.clk.c, openLoad := false }) s)))
  ∧ (∀ n b s, fieldPowered s = true → (chanOf s n).testing = true → (chanOf s n).testAt + 1000000 ≤ s.clk.c → (chanOf s n).drive = false →
    (grpOf s (n / 8)).suppress = false → (chanOf s n).openLoad = b →
    exec (.openLoadTestEnd n b) s = .next (modChan n (fun y => { y with testing := false, testOver := s.clk.c, openLoad := b }) s))
  ∧ (∀ n b s, fieldPowered s = true → (chanOf s n).testing = true → (chanOf s n).testAt + 1000000 ≤ s.clk.c →
    ((chanOf s n).drive = true ∨ (grpOf s (n / 8)).suppress = true) →
    exec (.openLoadTestEnd n b) s = .next (modChan n (fun y => { y with testing := false, testOver := s.clk.c }) s))

/-- GROUP_SUPPLY_CROSSING, GROUP_AUTO_RESTORE, FIELD_DIE_TEMP, LEASE_EXPIRY and TIMED_APPLY_DUE (R19, R162, R268, R269, R273, R278, R287): the supply thresholds
of a group, each once it has held for its filter time, the end of its lease, and an apply at its time, which the strobe issued for it carries out, which is
dropped and counted when its generation or its time epoch is no longer current, which is skipped without SYNC, and which does nothing where train time stepped
over it. Where the spec leaves a choice, this is the model's: log 22. -/
def Obligations.GroupEvents : Prop :=
  (∀ g v s s0 away, 50000 ≤ v.held → away = (decide (v.mv < 12000) || decide (35000 < v.mv) || ((grpOf s g).under && (grpOf s g).ov && decide (32000 ≤ v.mv))) →
    s0 = when' ((grpOf s g).under && !away) (runsRestart g) (modGrp g (fun y =>
      { y with
        vfield := v.mv
        under := away
        above := if 15500 < v.mv then some (y.above.getD (s.clk.c - v.held)) else none
        inRange := if decide (18000 < v.mv) && (!(grpOf s g).ov || decide (v.mv < 32000)) then some (y.inRange.getD (s.clk.c - v.held)) else none }) s) →
    fieldPowered s = true → (grpOf s g).suppress = decide (v.mv < 15000) →
    (19600 < v.mv → v.mv ≤ 35000 → (grpOf s g).warn = false → exec (.groupSupplyCrossing g v) s = .next s0)
    ∧ (12000 ≤ v.mv → v.mv < 19200 → (grpOf s g).warn = false →
      exec (.groupSupplyCrossing g v) s = .next (supplyEvent g 1 (modGrp g (fun y => { y with warn := true }) s0)))
    ∧ (19600 < v.mv → v.mv ≤ 35000 → (grpOf s g).warn = true →
      exec (.groupSupplyCrossing g v) s = .next (supplyEvent g 2 (modGrp g (fun y => { y with warn := false }) s0)))
    ∧ (v.mv < 12000 → (grpOf s g).warn = true → (grpOf s g).uv = false →
      exec (.groupSupplyCrossing g v) s = .next (groupInvalid g (voltLatch g 5 (fun y => { y with uv := true }) s0)))
    ∧ (35000 < v.mv → (grpOf s g).warn = false → (grpOf s g).ov = false →
      exec (.groupSupplyCrossing g v) s = .next (voltLatch g 7 (fun y => { y with ov := true, inRange := none }) s0)))
  ∧ (∀ g v s, v.held < 20000 → fieldPowered s = true → (grpOf s g).suppress = false →
    exec (.groupSupplyCrossing g v) s = .next (modGrp g (fun y =>
      { y with
        vfield := v.mv
        under := (grpOf s g).under
        above := if 15500 < v.mv then some (y.above.getD (s.clk.c - v.held)) else none
        inRange := if decide (18000 < v.mv) && (!(grpOf s g).ov || decide (v.mv < 32000)) then some (y.inRange.getD (s.clk.c - v.held)) else none }) s))
  ∧ (∀ g v s c, s.clk.c = c → fieldPowered s = true → (grpOf s g).suppress = true → (grpOf s g).warn = false → (grpOf s g).under = false → 19600 < v.mv →
    v.mv ≤ 35000 → 50000 ≤ v.held → c ≤ (grpOf s g).above.getD (c - v.held) + 9999999 →
    exec (.groupSupplyCrossing g v) s = .next (modGrp g (fun y =>
      { y with
        vfield := v.mv
        under := false
        above := some (y.above.getD (c - v.held))
        inRange := if !(grpOf s g).ov || decide (v.mv < 32000) then some (y.inRange.getD (c - v.held)) else none }) s))
  ∧ (∀ g s, fieldPowered s = true → grpRearm s g = false → restoreOk s g = true → (grpOf s g).uv = true →
    exec (.groupAutoRestore g) s = .next (supplyEvent g 6 (fieldSettle (modGrp g (fun y => { y with uv := false, ov := false }) s))))
  ∧ (∀ t s, t ≤ 1250 → exec (.fieldDieTemp t) s
      = .next ((s.onSys fun x => { x with fieldTemp := t }).onFld fun d => { d with fieldHot := false }))
  ∧ (∀ t s, 1250 < t → s.fld.fieldHot = false → fieldPowered s = true →
    exec (.fieldDieTemp t) s
      = .next (raise 54 2 ((s.onSys fun x => { x with fieldTemp := t }).onFld fun d => { d with fieldHot := true })))
  ∧ (∀ g s, leaseGone s g = true → ∀ c gen, ownsGen c g gen s = false)
  ∧ (∀ g s, (grpOf s g).owner ≠ .none → (grpOf s g).lease = 0 → exec (.leaseExpiry g) s = .next (endOwner g 3 1 (cntGrp g 1 s)))
  ∧ (∀ x s t, s.fld.timed.find? (fun x => x.ep != s.clk.tepoch || decide (x.at_ ≤ trainTime s)) = some x →
    t = ((s.onFld fun d => { d with timed := d.timed.filter fun y => y.slot != x.slot }).onPlan fun p =>
      { p with strobes := p.strobes.filter fun y => y.for_ != .timed x.slot }) →
    (x.ep = s.clk.tepoch → passedOver s x.at_ = true → exec .timedApplyDue s = .next t)
    ∧ ((x.ep ≠ s.clk.tepoch ∨ (passedOver s x.at_ = false ∧ (grpOf s x.g).gen ≠ x.gen)) → exec .timedApplyDue s = .next (cntGrp x.g 0 t))
    ∧ (x.ep = s.clk.tepoch → passedOver s x.at_ = false → (grpOf s x.g).gen = x.gen → synced s = false →
      exec .timedApplyDue s = .next (raise 86 (freeNat 4 s) (tookFree (cntStall 9 t))))
    ∧ (x.ep = s.clk.tepoch → passedOver s x.at_ = false → (grpOf s x.g).gen = x.gen → synced s = true →
      (s.plan.strobes.any fun y => y.for_ == .timed x.slot && y.at_ == x.at_) = true →
      exec .timedApplyDue s = .next (fieldRequest x.g x.mask x.vals true t))
    ∧ (x.ep = s.clk.tepoch → passedOver s x.at_ = false → (grpOf s x.g).gen = x.gen → synced s = true →
      (s.plan.strobes.any fun y => y.for_ == .timed x.slot && y.at_ == x.at_) = false →
      exec .timedApplyDue s = .next t))

/-- TAKE, RELEASE, FIELD_OUTPUT, TIMED_APPLY, FAULT_CLEAR, REARM, FIELD_STATUS and the four field records (R253, R267, R269 to R274, R278, R281 to R286, R401):
TAKE, RELEASE, FIELD_OUTPUT, FAULT_CLEAR and REARM cross in the ordered queue of the barrier, where the generation alone is checked again; TIMED_APPLY acts at
once; the status item; a record that passes its checks takes effect. Where the spec leaves a choice, this is the model's: log 22. -/
def Obligations.FieldCommands : Prop :=
  (∀ via s c, c = cmdOf 0x606 via s → cmdRuns 0x606 2 .operate via s = true → natBits (wd c.words 1) 15 3 = 0 →
    exec (.take via) s = .next ((takenBy 0x606 via s).onFld fun d =>
      { d with cmds := d.cmds ++ [.take c (natBits (wd c.words 1) 1 0) (natBits (wd c.words 1) 31 16) (natBit (wd c.words 1) 2)] }))
  ∧ (∀ via s c, c = cmdOf 0x607 via s → cmdRuns 0x607 2 .operate via s = true → natBits (wd c.words 1) 15 2 = 0 →
    ownsGen c (natBits (wd c.words 1) 1 0) (natBits (wd c.words 1) 31 16) s = true →
    exec (.release via) s = .next ((takenBy 0x607 via s).onFld fun d =>
      { d with cmds := d.cmds ++ [.release c (natBits (wd c.words 1) 1 0) (natBits (wd c.words 1) 31 16)] }))
  ∧ (∀ c g gen s, (grpOf s g).gen = gen → crossBarrier (.release c g gen) s = replyOk c [] (endOwner g 2 0 s))
  ∧ (∀ c g gen mask vals s, (grpOf s g).gen = gen →
    crossBarrier (.output c g gen mask vals) s = replyOk c [] (fieldRequest g mask vals false (renew g s)))
  ∧ (∀ c g gen mask vals s, (grpOf s g).gen ≠ gen →
    crossBarrier (.output c g gen mask vals) s = reply c 8 ((grpOf s g).gen % 65536) [] (cntGrp g 0 s))
  ∧ (∀ c g gen mask s, (grpOf s g).gen ≠ gen →
    crossBarrier (.release c g gen) s = reply c 8 ((grpOf s g).gen % 65536) [] s
    ∧ crossBarrier (.clear c g gen mask) s = reply c 8 ((grpOf s g).gen % 65536) [] s
    ∧ crossBarrier (.rearm c g gen) s = reply c 8 ((grpOf s g).gen % 65536) [] s)
  ∧ (∀ via s c, c = cmdOf 0x608 via s → cmdRuns 0x608 3 .operate via s = true → wd c.words 2 ≤ 3 → (grpOf s (wd c.words 2)).owner ≠ .none →
    ownsGen c (wd c.words 2) (natBits (wd c.words 1) 31 16) s = true →
    exec (.fieldOutput via) s = .next ((takenBy 0x608 via s).onFld fun d =>
      { d with cmds := d.cmds ++
        [.output c (wd c.words 2) (natBits (wd c.words 1) 31 16) (natBits (wd c.words 1) 15 8) (natBits (wd c.words 1) 7 0)] }))
  ∧ (∀ via s c g k, c = cmdOf 0x609 via s → g = natBits (wd c.words 2) 1 0 → cmdRuns 0x609 5 .operate via s = true → natBits (wd c.words 2) 7 2 = 0 →
    natBits (wd c.words 2) 31 16 = 0 → natBits (wd c.words 2) 15 8 = s.clk.tepoch → (grpOf s g).owner ≠ .none →
    ownsGen c g (natBits (wd c.words 1) 31 16) s = true → (List.range 4).find? (fun k => !(s.fld.timed.any fun x => x.slot == k)) = some k →
    trainTime s + 15000 ≤ wd64 c.words 3 →
    exec (.timedApply via) s = .next (replyOk c [k] ((takenBy 0x609 via s).onFld fun d =>
      { d with timed := d.timed ++ [{ slot := k, g := g, gen := natBits (wd c.words 1) 31 16, mask := natBits (wd c.words 1) 15 8,
                                      vals := natBits (wd c.words 1) 7 0, at_ := wd64 c.words 3, ep := s.clk.tepoch }] })))
  ∧ (∀ via s c g, c = cmdOf 0x60A via s → g = natBits (wd c.words 1) 1 0 → cmdRuns 0x60A 2 .operate via s = true → natBits (wd c.words 1) 7 2 = 0 →
    ownsGen c g (natBits (wd c.words 1) 31 16) s = true →
    exec (.faultClear via) s = .next ((takenBy 0x60A via s).onFld fun d =>
      { d with cmds := d.cmds ++ [.clear c g (natBits (wd c.words 1) 31 16) (natBits (wd c.words 1) 15 8)] }))
  ∧ (∀ c g gen mask s, (grpOf s g).gen = gen →
    crossBarrier (.clear c g gen mask) s = replyOk c [] (fieldSettle (each ((List.range 8).filter fun i => natBit mask i) (fun i => clearChan (8 * g + i)) s)))
  ∧ (∀ via s c g, c = cmdOf 0x60B via s → g = natBits (wd c.words 1) 1 0 → cmdRuns 0x60B 2 .operate via s = true → natBits (wd c.words 1) 15 2 = 0 →
    ownsGen c g (natBits (wd c.words 1) 31 16) s = true →
    exec (.rearm via) s = .next ((takenBy 0x60B via s).onFld fun d => { d with cmds := d.cmds ++ [.rearm c g (natBits (wd c.words 1) 31 16)] }))
  ∧ (∀ c g gen s, (grpOf s g).gen = gen → restoreOk s g = true → crossBarrier (.rearm c g gen) s = replyOk c [] (restoreGroup g s))
  ∧ (∀ c g gen s, (grpOf s g).gen = gen → restoreOk s g = false → crossBarrier (.rearm c g gen) s = stateError c s)
  ∧ (∀ via s c, c = cmdOf 0x605 via s → cmdRuns 0x605 3 .observe via s = true → parcelOk 1 c (takenBy 0x605 via s) = true →
    208 ≤ wd c.words 2 →
    ∃ p t, exec (.fieldStatus via) s = .next (replyOk c [] t) ∧ t = loftWrite (wd c.words 1) p coreId (takenBy 0x605 via s) ∧ p.length = 208)
  ∧ (∀ via s c, c = cmdOf 0x601 via s → cmdRuns 0x601 2 .config via s = true → fieldModCheck s.fld.chanRec (c.words.getD 1 0) = none →
    exec (.fieldModuleSet via) s = .next (replyOk c [] ((takenBy 0x601 via s).onFld fun d => { d with module := c.words.getD 1 0 })))
  ∧ (∀ via s c, c = cmdOf 0x602 via s → cmdRuns 0x602 3 .config via s = true → wd c.words 1 ≤ 3 →
    fieldGrpCheck s.fld.chanRec (wd c.words 1) (c.words.getD 2 0) = none →
    exec (.fieldGroupSet via) s
      = .next (replyOk c [] ((takenBy 0x602 via s).onFld fun d => { d with groupRec := d.groupRec.set (wd c.words 1) (c.words.getD 2 0) })))
  ∧ (∀ via s c n r, c = cmdOf 0x603 via s → n = wd c.words 1 → r = (c.words.drop 2).take 2 → cmdRuns 0x603 4 .config via s = true → n ≤ 31 →
    fieldChanCheck s.fld.module s.fld.groupRec (s.fld.chanRec.set n r) n r = none → (fcFixed r = fcFixed (chRec s n) ∨ s.sys.dev = .stopped) →
    exec (.fieldChannelSet via) s = .next (replyOk c [] (chanApply n r (takenBy 0x603 via s))))
  ∧ (∀ via s c n r, c = cmdOf 0x603 via s → n = wd c.words 1 → r = (c.words.drop 2).take 2 → cmdRuns 0x603 4 .config via s = true → n ≤ 31 →
    fieldChanCheck s.fld.module s.fld.groupRec (s.fld.chanRec.set n r) n r = none → fcFixed r ≠ fcFixed (chRec s n) → s.sys.dev ≠ .stopped →
    exec (.fieldChannelSet via) s = .next (stateError c (takenBy 0x603 via s)))
  ∧ (∀ via s c, c = cmdOf 0x604 via s → cmdRuns 0x604 3 .config via s = true → wd c.words 1 ≤ 31 →
    fieldRuleCheck s.fld.groupRec s.fld.chanRec s.fld.ruleRec (wd c.words 1) (c.words.getD 2 0) = none →
    exec (.fieldRuleSet via) s
      = .next (replyOk c [] ((takenBy 0x604 via s).onFld fun d => { d with ruleRec := d.ruleRec.set (wd c.words 1) (c.words.getD 2 0) })))

/-- ENTROPY_HEALTH_CHANGE, KEY_LIFE_EXPIRY, REKEY_BLOCK_WRAPPED, REKEY_RESEND_TIMEOUT, REKEY_ACK, REKEY, REKEY_UNWRAPPED, KEY_SWITCH, OLD_KEY_ERASE and ROTATE
(R291, R312 to R314), each with the whole next state: a failed source and its recovery, with what waited for it; a rotation starts at the end of the key's
life or by ROTATE; a block is wrapped and sent, and sent again at most twice while the switch lies ahead; an acknowledgement with the right or a wrong key
check; a REKEY that is new or is already installed, and its block that matches or does not; the switch at a member, at the lead and at a car without the new
key; the erasure at a member, at the lead and at a car without the new key. Where the spec leaves a choice, this is the model's: log 23. -/
def Obligations.KeyRotation : Prop :=
  (∀ s, s.sys.dev ≠ .off → s.sys.dev ≠ .reset → s.sys.dev ≠ .barn →
    exec (.entropyHealthChange false) s = .next (raise 103 1 (cntSec 8 (s.onSec fun x => { x with entropyOk := false })))
    ∧ (s.sec.entropyOk = true → exec (.entropyHealthChange true) s = .next s)
    ∧ (s.sec.entropyOk = false → (isLead s = true → s.ldr.nlDue = false) → s.sec.rotWait = false →
      exec (.entropyHealthChange true) s = .next (entropyBack s))
    ∧ (s.sec.entropyOk = false → isLead s = true → s.ldr.nlDue = true → s.sec.rotWait = false →
      exec (.entropyHealthChange true) s = .next (drawNl (entropyBack s)))
    ∧ (s.sec.entropyOk = false → isLead s = true → s.ldr.nlDue = false → s.sec.rotWait = true →
      exec (.entropyHealthChange true) s = .next (startRotation (entropyBack s))))
  ∧ (∀ s, isLead s = true → s.sec.rot = none → s.sec.rotWait = false → s.sec.switchAt + pKeyLife s ≤ trainTime s →
    exec .keyLifeExpiry s = .next (startRotation s))
  ∧ (∀ r b s, s.sec.rot = some r → r.blocks.find? (fun b => !b.wrapped) = some b → rsaTurn .rekeyWrap s = true →
    exec .rekeyBlockWrapped s
      = .next (rekeySend r b (rsaBegin (wrapNext (rsaEnd false (modBlock b.adm (fun x => { x with wrapped := true }) s))))))
  ∧ (∀ s, wrapWaits s = true → s.sec.runPub = .idle → s.sec.wrapAhead = 0 → rsaTurn .rekeyWrap s = true)
  ∧ (∀ adm r b t s, s.sec.rot = some r → r.blocks.find? (fun b => b.adm == adm) = some b → b.sentAt = some t → b.wrapped = true → b.acked = false →
    b.resent < 2 → t + 20000000 ≤ trainTime s → matrixReached s r.switchM = false → 5000000 ≤ matrixAhead s r.switchM →
    exec (.rekeyResendTimeout adm) s = .next (rekeySend r b (modBlock adm (fun x => { x with sentAt := none, resent := x.resent + 1 }) s)))
  ∧ (∀ adm r b s, s.sec.rot = some r → r.blocks.find? (fun b => b.adm == adm) = some b →
    (b.acked = true ∨ 2 ≤ b.resent ∨ matrixReached s r.switchM = true ∨ matrixAhead s r.switchM < 5000000) →
    exec (.rekeyResendTimeout adm) s = .next s)
  ∧ (∀ m r s, firstMsg (isCtl 0x12) s = some m → s.sec.rot = some r → isLead s = true → be m.payload 8 4 = r.rid →
    r.blocks.any (fun b => b.adm == m.hdr.adm) = true →
    exec .rekeyAck s = .next (if part m.payload 12 16 = keyCheck r.next r.key
      then modBlock m.hdr.adm (fun b => { b with acked := true }) (takenMsg m s) else cntSec 9 (takenMsg m s)))
  ∧ (∀ m u s, firstMsg (isCtl 0x11) s = some m → isLead s = false → s.sec.keys ≠ [] → fromLead m s = true →
    (∀ i, s.sec.inst = some i → ¬(i.rid = be m.payload 8 4 ∧ i.epoch = be m.payload 12 1 % 16 ∧ i.switchM = be m.payload 16 4)) →
    u = { rid := be m.payload 8 4, epoch := be m.payload 12 1 % 16, switchM := be m.payload 16 4, key := Config.unwrapKey s.sec.idKey (part m.payload 20 384) } →
    exec .rekey s = .next (rekeyAccept u (takenMsg m s)))
  ∧ (∀ u i s, s.inaug.guest ≠ .done → u ∉ s.sec.unwrap → s.sec.inst = some i →
    rekeyAccept u s
      = rsaBegin (releaseEntries (s.onSec fun x => { x with unwrap := [u], inst := none, keys := x.keys.filter fun k => k.epoch == x.cur })))
  ∧ (∀ u s, s.inaug.guest ≠ .done → u ∉ s.sec.unwrap → s.sec.inst = none →
    rekeyAccept u s = rsaBegin (s.onSec fun x => { x with unwrap := [u] }))
  ∧ (∀ u s, s.inaug.guest = .done → u ∉ s.sec.unwrap → s.sec.unwrap.length < 16 →
    rekeyAccept u s = rsaBegin (s.onSec fun x => { x with unwrap := x.unwrap ++ [u] }))
  ∧ (∀ m i s, firstMsg (isCtl 0x11) s = some m → isLead s = false → s.sec.keys ≠ [] → fromLead m s = true →
    s.sec.inst = some i → i.rid = be m.payload 8 4 → i.epoch = be m.payload 12 1 % 16 → i.switchM = be m.payload 16 4 →
    exec .rekey s = .next (sendAck i (takenMsg m s)))
  ∧ (∀ u i r s, s.sec.unwrap = u :: r → i = { u with key := u.key / 2 ^ 64 % 2 ^ 256 } → u.key = rekeyPlain u.epoch i.key u.rid u.switchM →
    u.epoch ≠ s.sec.cur → rsaTurn .rekeyOpen s = true →
    exec .rekeyUnwrapped s = .next (sendAck i (raise 97 (u.epoch * 256 + 2) (releaseEntries
      ((rsaBegin (rsaEnd true (s.onSec fun x => { x with unwrap := r }))).onSec fun x =>
        { x with
          inst := some i
          keys := (x.keys.filter fun k => k.epoch == x.cur) ++ [{ epoch := u.epoch, key := i.key }] })))))
  ∧ (∀ u r s, s.sec.unwrap = u :: r → rsaTurn .rekeyOpen s = true →
    (u.key ≠ rekeyPlain u.epoch (u.key / 2 ^ 64 % 2 ^ 256) u.rid u.switchM ∨ u.epoch = s.sec.cur) →
    exec .rekeyUnwrapped s = .next (rsaBegin (rsaEnd true (s.onSec fun x => { x with unwrap := r }))))
  ∧ (∀ s, s.inaug.guest ≠ .unwrapping → s.sec.unwrap ≠ [] → s.sec.runPriv = .idle → rsaTurn .rekeyOpen s = true)
  ∧ (∀ i s, s.sec.oldKey = none → s.sec.inst = some i → matrixReached s i.switchM = true → isLead s = false →
    exec .keySwitch s = .next (keySwitched i s))
  ∧ (∀ i r s, s.sec.oldKey = none → s.sec.inst = some i → matrixReached s i.switchM = true → isLead s = true → s.sec.rot = some r →
    exec .keySwitch s
      = .next (drawAndCopy (carryIssued i.epoch ((keySwitched i s).onLdr fun l => { l with rekeyedSelf := l.rekeyedSelf || r.next == i.epoch }))))
  ∧ (∀ u r s, s.sec.oldKey = none → s.sec.inst = none → s.sec.unwrap = u :: r → matrixReached s u.switchM = true →
    exec .keySwitch s = .next (raise 97 (u.epoch * 256 + 5) (s.onSec fun x =>
      { x with oldKey := some x.cur, switchM := some u.switchM, switchAt := matrixStart s u.switchM, unwrap := [] })))
  ∧ (∀ e s, s.sec.oldKey = some e → s.sec.switchAt + 1000000 ≤ trainTime s →
    (s.sec.cur = e → exec .oldKeyErase s = .next (loseAndSeek (keyErased e s)))
    ∧ (s.sec.cur ≠ e → isLead s = false → s.sec.rotWait = false → exec .oldKeyErase s = .next (keyErased e s))
    ∧ (s.sec.cur ≠ e → isLead s = true → s.sec.rotWait = false →
      exec .oldKeyErase s = .next (stateCopy (takeAdmits (keyErased e s))))
    ∧ (s.sec.cur ≠ e → isLead s = true → s.sec.rotWait = true →
      exec .oldKeyErase s = .next (startRotation (stateCopy (takeAdmits (keyErased e s))))))
  ∧ (∀ via s c, c = cmdOf 0x706 via s → cmdRuns 0x706 1 .config via s = true → isLead s = true → s.sec.keys ≠ [] →
    exec (.rotate via) s = .next (replyOk c [] (startRotation (takenBy 0x706 via s))))
  ∧ (∀ s, isLead s = true → s.sec.keys ≠ [] → s.sec.oldKey = none → s.sec.entropyOk = true → s.sec.rot = none →
    ∃ r, (startRotation s).sec.rot = some r ∧ r.next = (s.sec.cur + 1 + s.sec.takeRank) % 16 ∧ r.rid = (s.sec.rotCtr + 1) % 2 ^ 32
      ∧ (startRotation s).sec.rotCtr = r.rid ∧ (startRotation s).sec.cur = s.sec.cur)

/-- CHALLENGE_LOCKOUT_END, OPERATOR_CHALLENGE, OPERATOR_RESPONSE, QUOTE, CERT_READ, SERVICE_CHALLENGE, SERVICE_TOKEN and ENVELOPE (R303 to R305, R318, R321, R327,
R403): challenges with a fresh nonce, and the commands whose signatures an RSA unit makes or checks. Where the spec leaves a choice, this is the model's: log
23. -/
def Obligations.Challenges : Prop :=
  (∀ t s, s.sec.lockout = some t → t ≤ s.clk.c → exec .challengeLockoutEnd s = .next (s.onSec fun x => { x with lockout := none }))
  ∧ (∀ via s c, c = cmdOf 0x005 via s → cmdRuns 0x005 1 .observe via s = true → s.sec.entropyOk = true → s.sec.lockout = none →
    (∀ k, c.via = .yard k → yardSecured s = true) →
    ∃ v, exec (.operatorChallenge via) s
      = .next (replyOk c (nonceWords v) ((tookFree (takenBy 0x005 via s)).onSec fun x =>
          { x with operChal := { session := sessKey (takenBy 0x005 via s) c, nonce := v, until_ := s.clk.c + 10000000000 }
                                 :: x.operChal.filter fun y => y.session != sessKey (takenBy 0x005 via s) c })))
  ∧ (∀ via s c t u p k, c = cmdOf 0x006 via s → t = takenBy 0x006 via s → u = (parcelRead 1 c t).2 → p = parcelBytes 1 c t →
    k = sessKey u c → cmdRuns 0x006 4 .observe via s = true → 0 < wd c.words 3 → wd c.words 3 < p.length → wd c.words 3 < 65536 →
    parcelOk 1 c t = true → (parcelRead 1 c t).1 = true → u.sec.lockout = none →
    u.sec.operators.any (fun o => o.1 == shaNat (p.take (wd c.words 3))
      && (match c.via with | .yard _ => o.2 && yardSecured u | .manger _ => true)) = true →
    u.sec.operChal.any (fun y => y.session == k && decide (u.clk.c < y.until_)) = true → rsaWaiting false u < 16 →
    exec (.operatorResponse via) s = .next (rsaBegin (u.onSec fun x =>
      { x with
        operChal := x.operChal.filter fun y => y.session != k
        rsaPub := x.rsaPub ++ [Job.mk c .operResponse (p.take (wd c.words 3))] })))
  ∧ (∀ via s c t, c = cmdOf 0x701 via s → t = takenBy 0x701 via s → cmdRuns 0x701 11 .observe via s = true → parcelOk 9 c t = true →
    538 ≤ wd c.words 10 → rsaWaiting true t < 16 →
    exec (.quote via) s = .next (rsaBegin (t.onSec fun x =>
      { x with rsaPriv := x.rsaPriv ++ [Job.mk c .quote (wordBytes ((c.words.drop 1).take 8))] })))
  ∧ (∀ via s c t, c = cmdOf 0x702 via s → t = takenBy 0x702 via s → cmdRuns 0x702 4 .observe via s = true → wd c.words 1 = 0 → s.sec.devCert ≠ [] →
    parcelOk 2 c t = true → s.sec.devCert.length ≤ wd c.words 3 →
    exec (.certRead via) s = .next (replyOk c [s.sec.devCert.length] (loftWrite (wd c.words 2) s.sec.devCert coreId t)))
  ∧ (∀ via s c, c = cmdOf 0x70A via s → cmdRuns 0x70A 1 .observe via s = true → s.sec.entropyOk = true →
    ∃ v, exec (.serviceChallenge via) s
      = .next (replyOk c (nonceWords v) ((tookFree (takenBy 0x70A via s)).onSec fun x =>
          { x with svcChal := { session := sessKey (takenBy 0x70A via s) c, nonce := v, until_ := s.clk.c + 60000000000 }
                                :: x.svcChal.filter fun y => decide (s.clk.c < y.until_) })))
  ∧ (∀ via s c t u p, c = cmdOf 0x70B via s → t = takenBy 0x70B via s → u = (parcelRead 1 c t).2 → p = parcelBytes 1 c t →
    cmdRuns 0x70B 3 .proof via s = true → parcelOk 1 c t = true → (parcelRead 1 c t).1 = true → p.length = (if owned u then 816 else 432) →
    part p 0 4 = ascii [0x4B, 0x4E, 0x53, 0x56] → le p 4 2 = 1 → le p 6 2 < 8 → le p 8 8 = u.sys.badge →
    u.sec.svcChal.any (fun y => y.nonce == be p 16 32 && decide (u.clk.c < y.until_)) = true → rsaWaiting false u < 16 →
    exec (.serviceToken via) s = .next (rsaBegin (u.onSec fun x =>
      { x with
        svcChal := x.svcChal.filter fun y => y.nonce != be p 16 32
        rsaPub := x.rsaPub ++ [Job.mk c .serviceToken p] })))
  ∧ (∀ via s c t u p, c = cmdOf 0x705 via s → t = takenBy 0x705 via s → u = (parcelRead 1 c t).2 → p = parcelBytes 1 c t →
    cmdRuns 0x705 3 .proof via s = true → parcelOk 1 c t = true → (parcelRead 1 c t).1 = true → p.length = 508 → owned u = true →
    rsaWaiting false u < 16 →
    exec (.envelope via) s = .next (rsaBegin ((holdSerial c u).onSec fun x => { x with rsaPub := x.rsaPub ++ [Job.mk c .envelope p] })))

/-- OWN_CHALLENGE, TAKE_OWNERSHIP, OWN_PRESENT_RELEASE, OWNER_TRANSFER, ROLLBACK_COMMIT and ZEROISE (R296 to R298, R301, R323): the owner ceremony, the rollback
counter, which only rises, and the erasure of keys and rights. What an owner's certificate holds is not the spec's to say, so both outcomes of its check are
stated. Where the spec leaves a choice, this is the model's: log 23. -/
def Obligations.OwnerCommands : Prop :=
  (∀ via s c, c = cmdOf 0x703 via s → cmdRuns 0x703 1 .observe via s = true → s.sec.entropyOk = true →
    ∃ v, exec (.ownChallenge via) s
      = .next (replyOk c (nonceWords v) ((tookFree (takenBy 0x703 via s)).onSec fun x => { x with ownChal := some (v, s.clk.c + 60000000000) })))
  ∧ (∀ via s c t u p v end_, c = cmdOf 0x704 via s → t = takenBy 0x704 via s → u = (parcelRead 1 c t).2 → p = parcelBytes 1 c t →
    cmdRuns 0x704 3 .proof via s = true → ceremonyOpen s = true → parcelOk 1 c t = true → (parcelRead 1 c t).1 = true → owned u = false →
    u.sec.ownChal = some (v, end_) → u.clk.c < end_ → rsaWaiting false u < 16 →
    exec (.takeOwnership via) s = .next (if ownerParcel p = none then badParam c 1 0 u
      else rsaBegin ((holdSerial c u).onSec fun x => { x with rsaPub := x.rsaPub ++ [Job.mk c .takeOwnership p] })))
  ∧ (∀ s, exec .ownPresentRelease s = .next (s.onSys fun x => { x with ownLow := false }))
  ∧ (∀ via s c t u p, c = cmdOf 0x708 via s → t = takenBy 0x708 via s → u = (parcelRead 1 c t).2 → p = parcelBytes 1 c t →
    cmdRuns 0x708 3 .config via s = true → parcelOk 1 c t = true → (parcelRead 1 c t).1 = true → rsaWaiting false u < 16 →
    exec (.ownerTransfer via) s = .next (if ownerParcel p = none then badParam c 1 0 u
      else rsaBegin ((holdSerial c u).onSec fun x => { x with rsaPub := x.rsaPub ++ [Job.mk c .transfer p] })))
  ∧ (∀ via s c, c = cmdOf 0x707 via s → cmdRuns 0x707 1 .config via s = true →
    exec (.rollbackCommit via) s
      = .next (replyOk c [max s.sec.arb s.sys.fwArb] ((takenBy 0x707 via s).onSec fun x => { x with arb := max s.sec.arb s.sys.fwArb })))
  ∧ (∀ via s c, c = cmdOf 0x709 via s → cmdRuns 0x709 1 .config via s = true → (c.config = true ∨ s.sys.ownLow = true) → s.sys.braced = false →
    exec (.zeroise via) s
      = .next (replyOk c [] (raise 102 3 ((zeroKeys (takenBy 0x709 via s)).onSec fun x => { x with enrol := none, enrolBad := false }))))
  ∧ (∀ via s c, c = cmdOf 0x709 via s → cmdRuns 0x709 1 .config via s = true → (c.config = true ∨ s.sys.ownLow = true) → s.sys.braced = true →
    exec (.zeroise via) s = .next ((zeroKeys (takenBy 0x709 via s)).onCmd fun q =>
      { q with busy := some c, held := q.held ++ [{ c with config := true }] }))
  ∧ (∀ s, let k := (zeroKeys s).sec
    k.cak = none ∧ k.sak = false ∧ k.txSas = [] ∧ k.rxSas = [] ∧ k.macOpen = false ∧ k.operators = [])

/-- HOST_RSA_OPERATION_DONE (R305, R318, R321, R326, R327): the operation at the head of a unit's queue completes and what asked for it goes on; with another
waiting, the first of them in the order of R327 begins: the private unit opens a grant, opens a REKEY, signs a quote, signs a BEACON and serves host commands,
in this order, and what runs is never broken off. A key delisted, or a yard port no longer secured, grants no OPERATE. Where the spec leaves a choice, this is
the model's: log 23 and 31. -/
def Obligations.RsaCompletion : Prop :=
  (∀ j r s, takesMsgs s = true → (rsaBegin s).sec.rsaPriv = j :: r → (s.sys.braced = false ∨ jobWrites j.job = false) →
    rsaTurn .hostPriv s = true → ∀ ok,
    exec (.hostRsaOperationDone true ok) s = .next (drain 9 (rsaBegin (jobDone j ok (rsaEnd true (s.onSec fun x => { x with rsaPriv := r }))))))
  ∧ (∀ j r s, takesMsgs s = true → s.sec.rsaPub = j :: r → (s.sys.braced = false ∨ jobWrites j.job = false) →
    rsaTurn .hostPub s = true → ∀ ok,
    exec (.hostRsaOperationDone false ok) s = .next (drain 9 (rsaBegin (jobDone j ok (rsaEnd false (s.onSec fun x => { x with rsaPub := r }))))))
  ∧ (∀ u s, rsaAsked s s.sec.runPriv = true → s.sec.runPriv = u → (rsaBegin s).sec.runPriv = u)
  ∧ (∀ u s, rsaAsked s s.sec.runPub = true → s.sec.runPub = u → (rsaBegin s).sec.runPub = u)
  ∧ (∀ s, s.sec.runPriv = .idle → (rsaBegin s).sec.runPriv =
    if s.inaug.guest = .unwrapping then .grantOpen
    else if s.sec.unwrap ≠ [] then .rekeyOpen
    else if s.inaug.guest = .signing then .signQuote
    else if isLead s = true ∧ s.ldr.beaconNext ≠ [] then .signBeacon
    else if s.sec.rsaPriv ≠ [] then .hostPriv else .idle)
  ∧ (∀ s, s.sec.runPub = .idle → (rsaBegin s).sec.runPub =
    if s.sec.wrapAhead = 0 ∧ wrapWaits s = true then .rekeyWrap
    else if isLead s = true ∧ s.ldr.guests.any grantWaits = true then .grantWrap
    else if wrapWaits s = true then .rekeyWrap
    else if s.sec.rsaPub ≠ [] then .hostPub else .idle)
  ∧ (∀ priv job data c s, 16 ≤ rsaWaiting priv s → rsaPut priv job data c s = busyError c (rsaWaiting priv s) s)
  ∧ (∀ c p s, jobDone (Job.mk c .quote p) true s = replyOk c [538] (loftWrite (wd c.words 9) (quoteSigned s.sec.idKey p) coreId s))
  ∧ (∀ c p s, operListed c p s = true → ownSession c s = true →
    jobDone (Job.mk c .operResponse p) true s = replyOk c [256] (raise 98 1 (setPriv c .operate 0 (shaNat p) s)))
  ∧ (∀ c p s, operListed c p s = true → jobDone (Job.mk c .operResponse p) false s = sigError c (challengeFail s))
  ∧ (∀ c p s ok, operListed c p s = false → jobDone (Job.mk c .operResponse p) ok s = privError c (challengeFail s))
  ∧ (∀ c p s, s.sec.operators = [] → operListed c p s = false)
  ∧ (∀ c p s k, c.via = .yard k → yardSecured s = false → operListed c p s = false)
  ∧ (∀ c p s, jobDone (Job.mk c .takeOwnership p) true s = match ownerParcel p with
    | none => sigError c (serialDone s)
    | some (cert, cosign) => replyOk c [] (raise 102 1 (((enrolSet cert cosign (serialDone s)).onSys fun x => { x with ceremony := true }).onSec
        fun x => { x with ownChal := none })))
  ∧ (∀ cert cosign s, ∃ e, (enrolSet cert cosign s).sec.enrol = some e ∧ e.cert = cert ∧ e.hash = shaNat cert ∧ e.cosign = cosign
      ∧ e.envSeq = 0 ∧ e.floor = 0 ∧ e.sealMac = enrolSeal s e ∧ owned (enrolSet cert cosign s) = true)
  ∧ (∀ c p s, jobDone (Job.mk c .transfer p) true s = match ownerParcel p with
    | none => sigError c (serialDone s)
    | some (cert, cosign) => replyOk c [] (raise 102 2 (enrolSet cert cosign (serialDone s))))
  ∧ (∀ c p s, jobDone (Job.mk c .takeOwnership p) false s = sigError c (serialDone s))
  ∧ (∀ c p s, p.length = 432 → natBit (le p 6 2) 0 = false →
    jobDone (Job.mk c .serviceToken p) true s = replyOk c [le p 6 2] (raise 101 1 (setPriv c .service (le p 6 2) 0 s)))
  ∧ (∀ c p s, envCheck p true s = none →
    jobDone (Job.mk c .envelope p) true s = (envAccept p s).onCmd fun q => { q with ready := some (envCtx c p s) })
  ∧ (∀ c p s, jobDone (Job.mk c .envelope p) false s = envRefuse 9 0 c (serialDone s))

/-- YARD_LINK_CHANGE, YARD_MODULE_PIN_CHANGE, MACSEC_SAK_INSTALL, MKA_PEER_LOST, YARD_FRAME_START, YARD_FRAME_TAIL, YARD_FRAME_TRANSMIT and YARD_IP_SERVICE (R324,
R331 to R338, R340, R353, R511): the link of the yard port, its frames and what it answers by itself. Where the spec leaves a choice, this is the model's: log
24. -/
def Obligations.YardPort : Prop :=
  (∀ s, s.yard.link = false → yardHeld s = false → yardServed s = true → s.yard.quietAt + 100000000 ≤ s.clk.c →
    exec (.yardLinkChange true) s = .next (raise 64 1 (s.onYard fun d => { d with link := true, pcs := true })))
  ∧ (∀ s, s.yard.link = true → s.yard.rx = none → s.sec.macOpen = false →
    exec (.yardLinkChange false) s
      = .next ((raise 64 2 (s.onYard fun d => { d with link := false, pcs := false, rx := none })).onSec fun x =>
          { x with sak := false, txSas := [], rxSas := [], macOpen := false }))
  ∧ (∀ s, s.yard.modAbs = true → s.yard.los = false → yMode s ≠ 0 →
    exec (.yardModulePinChange false false) s = .next (txPin (raise 65 1 (s.onYard fun d => { d with modAbs := false, los := false, quietAt := s.clk.c }))))
  ∧ (∀ s, s.yard.modAbs = false → s.yard.los = false →
    exec (.yardModulePinChange false true) s
      = .next (linkDown (txPin (raise 65 3 (s.onYard fun d => { d with modAbs := false, los := true, quietAt := s.clk.c })))))
  ∧ (∀ s, fwRuns s = true → s.yard.link = true → yMacsec s = true → s.sec.cak.isSome = true →
    ∃ key xpn offset window, key < 2 ^ 256 ∧ offset ∈ [0, 30, 50] ∧ window ≤ 2 ^ 30
      ∧ exec .macsecSakInstall s = .next (raise 67 1 ((tookFree s).onSec fun x =>
        { x with sak := true, macOpen := true, macXpn := xpn, macOffset := offset, macWindow := window,
                 txSas := newSa key x.txSas, rxSas := newSa key x.rxSas })))
  ∧ (∀ key old, newSa key old = { an := ((old.head?.map fun a => (a.an + 1) % 4).getD 0), key := key, pn := 1 } :: old.take 1)
  ∧ (∀ s, s.sec.macOpen = true →
    exec .mkaPeerLost s = .next (raise 67 2 ((raise 67 3 s).onSec fun x => { x with sak := false, txSas := [], rxSas := [], macOpen := false })))
  ∧ (∀ hdr len q n s, s.yard.link = true → s.yard.rx = none → 64 ≤ len → len ≤ yardMaxlen s + (if (hdrTci hdr).isSome then 4 else 0) →
    hdrType hdr ≠ 0x8808 → rxQueue s hdr = some q → n = (if yBuf s q == 0 then 0 else (yardMaxlen s - 4 + yBuf s q - 1) / yBuf s q) →
    rxClaim (noteStamp s) q n = true →
    exec (.yardFrameStart hdr len) s = .next ((noteStamp s).onYard fun d =>
      { d with
        rx := some { queue := q, claimed := n, stamp := stampNow (noteStamp s), tagged := (hdrTci hdr).isSome, tci := (hdrTci hdr).getD 0,
                     hdr := hdr, len := len } }))
  ∧ (∀ hdr len q n s, s.yard.link = true → s.yard.rx = none → 64 ≤ len → len ≤ yardMaxlen s + (if (hdrTci hdr).isSome then 4 else 0) →
    hdrType hdr ≠ 0x8808 → rxQueue s hdr = some q → n = (if yBuf s q == 0 then 0 else (yardMaxlen s - 4 + yBuf s q - 1) / yBuf s q) →
    rxClaim (noteStamp s) q n = false → exec (.yardFrameStart hdr len) s = .next (raiseFirst 6600 66 (q * 256) (cntYard 4 (noteStamp s))))
  ∧ (∀ q n s, rxClaim s q n = true ↔ n ≤ rxNdesc s.yard.record q
      ∧ ∀ k < n, natBit (rxWord s q ((s.yard.rings.getD q 0 + k) % rxNdesc s.yard.record q) 1) 31 = true)
  ∧ (∀ hdr len s, s.yard.link = true → s.yard.rx = none → len < 64 → exec (.yardFrameStart hdr len) s = .next (cntYard 1 (noteStamp s)))
  ∧ (∀ rest m r s, s.yard.rx = some r →
    exec (.yardFrameTail rest false m) s = .next (cntYard 5 (rxBytes (tailFrame r rest s) (s.onYard fun d => { d with rx := none }))))
  ∧ (∀ rest m r s, s.yard.rx = some r → portPasses s (hdrType r.hdr) m = false →
    exec (.yardFrameTail rest true m) s = .next (s.onYard fun d => { d with rx := none }))
  ∧ (∀ rest m r f s, s.yard.rx = some r → portPasses s (hdrType r.hdr) m = true → f = tailFrame r rest s →
    exec (.yardFrameTail rest true m) s
      = .next (yardHand f (rxHand f (rxBytes f (cntYard 0 (macTook (hdrType r.hdr) m (s.onYard fun d => { d with rx := none })))))))
  ∧ (∀ f s, bit s.strm.cfg 3 f.queue = false → ((ipOf f.bytes).map (·.frag)).getD false = false →
    yardHand f s = relayOut f (s.onYard fun d => { d with inbox := d.inbox ++ [f] }))
  ∧ (∀ f s, bit s.strm.cfg 3 f.queue = false → ((ipOf f.bytes).map (·.frag)).getD false = true → yardHand f s = cntYard 7 (ringBack f s))
  ∧ (∀ f s, bit s.strm.cfg 3 f.queue = true →
    yardHand f s = ringBack f (strmPush { ch := 57, seq := 0, param := if f.tagged then f.tci else 0, payload := f.bytes } s))
  ∧ (∀ f s, f.used = 1 →
    rxBytes f s = loftWrite (rxWord s f.queue (rxIdx s f.queue 0) 0) (f.bytes.take (yBuf s f.queue)) 0 s
    ∧ rxHand f s = (loftWrite (rxDescAt s f.queue (rxIdx s f.queue 0)) (leBytes 4 (rxWord s f.queue (rxIdx s f.queue 0) 0)
        ++ leBytes 4 (2 ^ 30 + 2 ^ 29 + b2n f.tagged * 2 ^ 28 + f.queue * 2 ^ 25 + min (yBuf s f.queue) f.bytes.length)
        ++ leBytes 4 f.stamp.s32 ++ leBytes 4 (f.stamp.ep * 2 ^ 24 + b2n f.stamp.sync * 2 ^ 23 + f.tci)) 0 s).onYard fun d =>
          { d with rings := d.rings.modify f.queue fun n => (n + 1) % rxNdesc d.record f.queue })
  ∧ (∀ f k s, 0 < k → rxDescOf s f k = [rxWord s f.queue (rxIdx s f.queue k) 0,
      b2n (k + 1 == f.used) * 2 ^ 29 + b2n f.tagged * 2 ^ 28 + f.queue * 2 ^ 25 + min (yBuf s f.queue) (f.bytes.length - k * yBuf s f.queue), 0, f.tci])
  ∧ (∀ p f s, headYard s = some f → firstYard p s = if p f = true then some f else none)
  ∧ (∀ f s, s.yard.inbox = [f] → headYard s = some f)
  ∧ (∀ f g s, s.yard.inbox = [f, g] → headYard s = some (if f.queue < g.queue then g else f))
  ∧ (∀ x s, s.yard.link = true → yardServed s = true → macReady s = true → firstYardOut s = some x →
    (∀ g, s.yard.seg = some g → g.queue ≤ x.queue) →
    exec .yardFrameTransmit s = .next (sendOne x (macSent (s.onYard fun d => { d with txq := d.txq.erase x }))))
  ∧ (∀ g s, s.yard.link = true → yardServed s = true → macReady s = true → s.yard.seg = some g →
    (∀ x, firstYardOut s = some x → x.queue < g.queue) → exec .yardFrameTransmit s = .next (segSend g (macSent s)))
  ∧ (∀ s, yMacsec s = false → macReady s = true ∧ macSent s = s)
  ∧ (∀ a r s, yMacsec s = true → s.sec.macOpen = true → s.sec.txSas = a :: r → a.pn < 2 ^ 32 →
    macReady s = true ∧ (macSent s).sec.txSas = { a with pn := a.pn + 1 } :: r)
  ∧ (∀ f s, yardServed s = true → firstYard (fun f => !otherRow s f) s = some f → be f.bytes 12 2 = 0x0806 → be f.bytes 20 2 = 1 →
    be f.bytes 38 4 = yIp4 s → yIp4 s ≠ 0 → exec .yardIpService s = .next (arpService f.bytes (takenYard f s)))
  ∧ (∀ f i s, yardServed s = true → firstYard (fun f => !otherRow s f) s = some f → be f.bytes 12 2 ≠ 0x0806 → ipOf f.bytes = some i → i.proto ≠ 17 →
    exec .yardIpService s = .next (icmpService f.bytes i (takenYard f s)))
  ∧ (∀ f i s, yardServed s = true → firstYard (fun f => !otherRow s f) s = some f → be f.bytes 12 2 ≠ 0x0806 → ipOf f.bytes = some i → i.proto = 17 →
    ownIp s i.dst = true → (udpOf f.bytes).isSome = true → exec .yardIpService s = .next (portClosed f.bytes i (takenYard f s)))

/-- DATAGRAM_SEND, DATAGRAM_RECEIVE, DATAGRAM_PAIR_FORGET, YARD_SESSION_DATAGRAM, YARD_SESSION_TIMEOUT, PTP_RELAY, PTP_MESSAGE_RECEIVE and PTP_SERVO_LOCK_LOSS
(R150 to R154, R341 to R348): sentences, sessions and PTP messages over the yard port: a Sync of the chosen master asks for a Delay_Req or Pdelay_Req, a
one-step Sync or a Follow_Up completes a measurement, a response takes its request's stamp, an Announce enters the choice of the master; a relayed message
waits with its ingress stamp; the lost servo lock holds F over. Where the spec leaves a choice, this is the model's: log 24. -/
def Obligations.YardServices : Prop :=
  (∀ e s p, p = s.yard.epSt.getD e ⟨[], 0, 0, 0⟩ → epEnable (epRec s e) = true → p.pack ≠ [] → p.first + bits (epRec s e) 0 25 16 * 1000 ≤ s.clk.c →
    exec (.datagramSend e) s
      = .next (udpSend (bits (epRec s e) 0 28 26) (recAddr6 (epRec s e)) (recPort (epRec s e)) (recPort (epRec s e)) (bits (epRec s e) 0 7 0)
          ([0x4B, 0x4E, 0x59, 0x53, 1, byteOf p.pack.length] ++ beBytes 2 (sysAddr s) ++ [byteOf e, 0, byteOf s.flash.bootCount, byteOf p.runs]
            ++ beBytes 4 p.dseq ++ p.pack.flatMap sentenceBytes)
          ((each p.pack (fun _ => cntLstn (32 + e) 1) (cntYard 10 s)).onYard fun d =>
            { d with epSt := d.epSt.modify e fun x => { x with pack := [], dseq := (x.dseq + 1) % 2 ^ 32 } })))
  ∧ (∀ k f u xs s, fwRuns s = true → firstYard (isSubFrame s k) s = some f →
    udpOf f.bytes = some u → be u.data 5 1 ≠ 0 → parseRecords (trainTime s) (be u.data 5 1) (u.data.drop 16) = some xs → 16 ≤ u.data.length →
    be u.data 0 4 = 0x4B4E5953 → be u.data 4 1 = 1 → be u.data 6 2 < 16384 → be u.data 8 1 < 32 → be u.data 9 1 = 0 → bit (subRec s k) 0 29 = false →
    (s.inaug.car = none ∨ be u.data 6 2 / 64 ≠ s.inaug.train) →
    exec (.datagramReceive k) s
      = .next (dgramTrack k (be u.data 6 2) (be u.data 8 1) (be u.data 10 2) (be u.data 12 4) xs (takenSub k f s)))
  ∧ (∀ k f s, subsLeft s f = [k] → takenSub k f s = takenYard f s)
  ∧ (∀ k src e run dseq xs p s, (s.yard.pairs.getD k []).find? (fun p => p.src == src && p.ep == e) = some p → s.clk.c < p.heard + 10000000000 →
    p.run = run → p.next = dseq → dseq < 2 ^ 32 →
    dgramTrack k src e run dseq xs s = dgramAccept k false xs (modPairs k (fun l => l.map fun p => if p.src == src && p.ep == e then
      { p with run := run, next := (dseq + 1) % 2 ^ 32, heard := s.clk.c } else p) s))
  ∧ (∀ k src e s, exec (.datagramPairForget k src e) s
      = .next (modPairs k (fun l => l.filter fun p => !(p.src == src && p.ep == e && decide (p.heard + 10000000000 ≤ s.clk.c))) s))
  ∧ (∀ f u s, yardServed s = true →
    firstYard (isSessFrame s) s = some f →
    udpOf f.bytes = some u → 12 ≤ u.data.length → u.data.length ≤ 72 → u.data.length % 4 = 0 → be u.data 2 2 = 0 → be u.data 0 2 = 0 → be u.data 4 4 ≠ 0 →
    msgCode (sentBy coreId (bytesWords (u.data.drop 8))) = 0x003 →
    exec .yardSessionDatagram s = .next (sessOpenReq u (be u.data 4 4) (sentBy coreId (bytesWords (u.data.drop 8))) (takenYard f s)))
  ∧ (∀ f u k y s, yardServed s = true → firstYard (isSessFrame s) s = some f →
    udpOf f.bytes = some u → 12 ≤ u.data.length → u.data.length ≤ 72 → u.data.length % 4 = 0 → be u.data 2 2 = 0 → be u.data 0 2 ≠ 0 →
    (takenYard f s).yard.sess.findIdx? (fun y => sessLive y && y.id == be u.data 0 2 && y.addr == u.src && y.port == u.sport) = some k →
    sessOf (takenYard f s) k = some y → be u.data 4 4 = mseqNext y.mseq → y.inbox = none → y.reply ≠ [] → be u.data 4 4 ≠ y.mseq →
    exec .yardSessionDatagram s = .next (putSess k
      { y with heard := (takenYard f s).clk.c, mseq := be u.data 4 4, inbox := some (sentBy coreId (bytesWords (u.data.drop 8))), reply := [] }
      (putSess k { y with heard := (takenYard f s).clk.c } (takenYard f s))))
  ∧ (∀ u mseq ws s, s.yard.sess.find? (fun y => sessLive y && y.addr == u.src && y.port == u.sport && y.mseq == mseq) = none → sessFree s = none →
    sessOpenReq u mseq ws s = yardSend { noSess with addr := u.src, port := u.sport, mseq := mseq, heard := s.clk.c, inbox := some ws } mseq
      [word0 (bits ws 0 23 16) 0x003 2, 1] (cntCmd 1 s))
  ∧ (∀ u k mseq ws s, s.yard.sess.find? (fun y => sessLive y && y.addr == u.src && y.port == u.sport && y.mseq == mseq) = none → sessFree s = some k →
    sessOpenReq u mseq ws s
      = putSess k { noSess with addr := u.src, port := u.sport, mseq := mseq, heard := s.clk.c, inbox := some ws } s)
  ∧ (∀ k y s, sessOf s k = some y → sessLive y = true → y.heard + 10000000000 ≤ s.clk.c →
    exec (.yardSessionTimeout k) s = .next (raise 68 3 (sessClose k s)))
  ∧ (∀ m e s, firstMsg (isCtl 0x14) s = some m → yRelayEn s = true → numbered s (m.hdr.src % 64) = some e → e.badge = yRelayPeer s →
    exec .ptpRelay s = .next (ptpSend (m.payload.drop 16) none 0
      (if ptpEvent (m.payload.drop 16) then some (tc 64 (extend (trainTime s) (be m.payload 8 4))) else none) (takenMsg m s)))
  ∧ (∀ m timed tsub relayed s, pPtpTransport s ≠ 2 → ptpSend m timed tsub relayed s = s.onYard fun d =>
    { d with txq := d.txq ++ [{ queue := 7, udp := some ((ptpGroup s (ptpPdelay m)).2, if ptpEvent m then 319 else 320),
                                sport := if ptpEvent m then 319 else 320, hop := 0, bytes := m, timed := timed, tsub := tsub, relayed := relayed }] })
  ∧ (∀ m timed tsub relayed s, pPtpTransport s = 2 → ptpSend m timed tsub relayed s = s.onYard fun d =>
    { d with txq := d.txq ++ [{ queue := 7, udp := none, sport := if ptpEvent m then 319 else 320, hop := 0,
                                bytes := ethFrame s (ptpGroup s (ptpPdelay m)).1 0x88F7 m, timed := timed, tsub := tsub, relayed := relayed }] })
  ∧ (∀ off locked f m s, fwRuns s = true → firstYard (fun f => (ptpOf f.bytes).isSome) s = some f → ptpOf f.bytes = some m →
    ptpMine s f.bytes m = true →
    (ptpType m = 0 → syncOk s m = true → natBit (be m 6 1) 1 = true →
      exec (.ptpMessageReceive off locked) s
        = .next ((delayReq (takenYard f s)).onTeth fun x => { x with ptpSync := some (ptpSender m, be m 30 2) }))
    ∧ (ptpType m = 0 → syncOk s m = true → natBit (be m 6 1) 1 = false →
      exec (.ptpMessageReceive off locked) s
        = .next (plantMeasure off locked ((delayReq (takenYard f s)).onTeth fun x => { x with ptpSync := none })))
    ∧ (ptpType m = 0 → syncOk s m = false → exec (.ptpMessageReceive off locked) s = .next (takenYard f s))
    ∧ (ptpType m = 8 → ptpFromBest s m = true → s.teth.ptpSync = some (ptpSender m, be m 30 2) →
      exec (.ptpMessageReceive off locked) s = .next (plantMeasure off locked ((takenYard f s).onTeth fun x => { x with ptpSync := none })))
    ∧ (ptpType m = 8 → s.teth.ptpSync ≠ some (ptpSender m, be m 30 2) → exec (.ptpMessageReceive off locked) s = .next (takenYard f s))
    ∧ (ptpType m = 2 → pPtpPeer s = true → exec (.ptpMessageReceive off locked) s = .next (pdelayResp f m (takenYard f s)))
    ∧ ((ptpType m = 3 ∧ pPtpPeer s = true) ∨ (ptpType m = 9 ∧ pPtpPeer s = false ∧ ptpFromBest s m = true) → part m 44 10 = ptpIdentity s →
      exec (.ptpMessageReceive off locked) s = .next ((takenYard f s).onTeth fun x => { x with tsq := x.tsq.filter fun e => e.1 != be m 30 2 }))
    ∧ (ptpType m = 11 → exec (.ptpMessageReceive off locked) s = .next (ptpAnnounce m (takenYard f s))))
  ∧ (∀ s, s.clk.st = .master → s.teth.plant = .locked →
    exec .ptpServoLockLoss s = .next (raise 78 2 ((plantRate s.clk.freq s).onTeth fun t => { t with plant := .holdover, plantAt := s.clk.c })))

/-- YARD_SET, STEER_SET, ENDPOINT_SET, YARD_STATUS, SEGMENT_SEND, TIME_READ and TIME_STATUS (R29, R160, R334, R339, R345, R352, R398, R404). Where the spec leaves
a choice, this is the model's: log 24. -/
def Obligations.YardCommands : Prop :=
  (∀ via s c t u r, c = cmdOf 0x801 via s → t = takenBy 0x801 via s → u = (parcelRead 1 c t).2 → r = bytesWords ((parcelBytes 1 c t).take 112) →
    cmdRuns 0x801 3 .config via s = true → wd c.words 2 = 176 → parcelOk 1 c t = true → (parcelRead 1 c t).1 = true → yardCheck r = none →
    (u.sys.dev = .stopped ∨ yardFixed r = yardFixed u.yard.record) → ringBytes r + ringsKib (u.ports.map (·.rec_)) * 1024 ≤ regionSize u 1 →
    exec (.yardSet via) s = .next (replyOk c [] (yardApply r (bytesWords ((parcelBytes 1 c t).drop 112)) u)))
  ∧ (∀ via s c, c = cmdOf 0x802 via s → cmdRuns 0x802 4 .config via s = true → wd c.words 1 ≤ 63 → steerCheck ((c.words.drop 2).take 2) = none →
    exec (.steerSet via) s = .next (replyOk c [] ((takenBy 0x802 via s).onYard fun d =>
      { d with steer := d.steer.set (wd c.words 1) ((c.words.drop 2).take 2) })))
  ∧ (∀ via s c r, c = cmdOf 0x803 via s → r = (c.words.drop 2).take 6 → cmdRuns 0x803 8 .config via s = true → wd c.words 1 < 32 →
    endpointCheck false (yV6En s) r = none →
    exec (.endpointSet via) s = .next (replyOk c [] (endpointApply (wd c.words 1) r (takenBy 0x803 via s))))
  ∧ (∀ via s c r, c = cmdOf 0x803 via s → r = (c.words.drop 2).take 6 → cmdRuns 0x803 8 .config via s = true → 32 ≤ wd c.words 1 → wd c.words 1 < 40 →
    endpointCheck true (yV6En s) r = none →
    exec (.endpointSet via) s = .next (replyOk c [] (subApply (wd c.words 1 - 32) r (takenBy 0x803 via s))))
  ∧ (∀ via s c, c = cmdOf 0x804 via s → cmdRuns 0x804 1 .observe via s = true →
    exec (.yardStatus via) s = .next (replyOk c [yMode (takenBy 0x804 via s) * 2 ^ 30 + b2n (takenBy 0x804 via s).yard.link * 2 ^ 29 + b2n s.sec.sak * 2 ^ 28
      + ((takenBy 0x804 via s).yard.sess.filter sessLive).length * 2 ^ 25, yIp4 (takenBy 0x804 via s), yMac (takenBy 0x804 via s) % 2 ^ 32,
      yMac (takenBy 0x804 via s) / 2 ^ 32] (takenBy 0x804 via s)))
  ∧ (∀ via s c t u p n g, c = cmdOf 0x807 via s → t = takenBy 0x807 via s → u = (parcelRead 2 c t).2 → p = parcelBytes 2 c t →
    cmdRuns 0x807 4 (if s.sys.dev == .recovery then .observe else .operate) via s = true → wd c.words 1 % 65536 < 6 → 256 ≤ wd c.words 1 / 65536 →
    wd c.words 1 / 65536 ≤ 8952 → (s.sys.dev = .startup ∨ s.sys.dev = .test ∨ s.sys.dev = .recovery) → parcelOk 2 c t = true →
    (parcelRead 2 c t).1 = true → segHdr p = some n → p.length - (n - 8) ≤ 4194304 →
    g = { ctx := c, mss := wd c.words 1 / 65536, queue := wd c.words 1 % 8, hdr := p.take n, left := p.drop n, sent := 0, ipId := be p 18 2 } →
    exec (.segmentSend via) s = .next (u.onYard fun d => if d.seg.isSome then { d with segQ := d.segQ ++ [g] } else { d with seg := some g }))
  ∧ (∀ via s c t, c = cmdOf 0x201 via s → t = takenBy 0x201 via s → cmdRuns 0x201 1 .observe via s = true →
    exec (.timeRead via) s = .next (replyOk c [trainTime s % 2 ^ 32, trainTime s / 2 ^ 32,
      s.clk.tepoch * 2 ^ 24 + s.clk.st.code * 2 ^ 20 + b2n (synced s) * 2 ^ 19] t))
  ∧ (∀ via s c, c = cmdOf 0x202 via s → cmdRuns 0x202 1 .observe via s = true →
    exec (.timeStatus via) s = .next (replyOk c (timeRecord s) (takenBy 0x202 via s)))

/-- Segmentation offload is accepted only in STARTUP, TEST and RECOVERY; a request in any other state, whose parameters pass the earlier checks of R386, returns
STATE_ERROR (R29). -/
def Obligations.SegmentationStates : Prop :=
  (∀ via s t, exec (.segmentSend via) s = .next t → s.yard.seg = none → t.yard.seg ≠ none →
    s.sys.dev = .startup ∨ s.sys.dev = .test ∨ s.sys.dev = .recovery)
  ∧ (∀ via s c t u p n, c = cmdOf 0x807 via s → t = takenBy 0x807 via s → u = (parcelRead 2 c t).2 → p = parcelBytes 2 c t →
    cmdRuns 0x807 4 .operate via s = true → s.sys.dev ≠ .startup → s.sys.dev ≠ .test → s.sys.dev ≠ .recovery →
    wd c.words 1 % 65536 < 6 → 256 ≤ wd c.words 1 / 65536 → wd c.words 1 / 65536 ≤ 8952 → parcelOk 2 c t = true →
    (parcelRead 2 c t).1 = true → segHdr p = some n → p.length - (n - 8) ≤ 4194304 → exec (.segmentSend via) s = .next (stateError c u))

/-- STATUS, UNKNOWN_OPCODE, HOST_TRANSACTION_ABORT, IN_MSG_WRITE, IN_COMMIT, OUT_COMMIT_READ, DROP_COUNT_READ, LOCK_READ and LOCK_WRITE (R12, R356 to R367): the
words of the host port that are accepted, what they change, and those that are not; a read acts when its last bit has been transferred; a free lock goes to
the lowest ID that reads it, and only its owner frees it. Where the spec leaves a choice, this is the model's: log 25. -/
def Obligations.HostWords : Prop :=
  (∀ s, portAnswers s = true → s.sys.dev ≠ .barn → exec .status s = .next (s.onHost fun h =>
    { h with prevTxn := h.txn, txn := TxnStat.clear, pageNow := h.page, out := wordOf (statusByte s h.txn), nextAddr := none }))
  ∧ (∀ s, portAnswers s = true → s.sys.dev = .barn →
    exec .status s = .next (tookFree (rejectWord 2 (freeNat 24 s) (beginTxn s))))
  ∧ (∀ a s t, t = txnState true a s → wordOk true a s = true → ownReadRow a = false →
    exec (.unknownOpcode 0x03 a) s = .next (driveOut (hostReg t a) t))
  ∧ (∀ a s t, t = txnState true a s → portAnswers s = true → t.host.txn.bus = false → rejects t a = some 1 →
    exec (.unknownOpcode 0x03 a) s = .next (rejectWord 1 a t))
  ∧ (∀ a s, portAnswers s = true → s.sys.dev ≠ .barn → exec (.unknownOpcode 0x02 a) s = .next ((beginTxn s).onHost fun h => { h with nextAddr := some a }))
  ∧ (∀ a f s, portAnswers s = true → s.host.nextAddr ≠ some a → hostWord false a f s = s)
  ∧ (∀ op a s, portAnswers s = true → [0x02, 0x32, 0x03, 0x6B, 0xEB, 0x05].contains op = false → s.sys.dev ≠ .barn →
    exec (.unknownOpcode op a) s = .next (rejectWord 1 a (beginTxn s)))
  ∧ (∀ s, portAnswers s = true →
    exec .hostTransactionAbort s = .next (cntHost 1 ((releaseReads (if s.host.nextAddr.isNone then beginTxn s else s)).onHost fun h =>
      { h with txn := { h.txn with partial_ := true }, nextAddr := none })))
  ∧ (∀ n ch off w s t, t = txnState n (mangAddr ch (4 * off)) s → wordOk n (mangAddr ch (4 * off)) s = true → ch < 10 → (mangOf t ch).inFull = false →
    exec (.inMsgWrite n ch off w) s = .next (modMang ch (fun m => { m with inMsg := m.inMsg.set off w }) t))
  ∧ (∀ n ch off w s t, t = txnState n (mangAddr ch (4 * off)) s → wordOk n (mangAddr ch (4 * off)) s = true → ch < 10 → (mangOf t ch).inFull = true →
    exec (.inMsgWrite n ch off w) s = .next (rejectWord 0 (mangAddr ch (4 * off)) t))
  ∧ (∀ n ch s t, t = txnState n (mangAddr ch 0x40) s → wordOk n (mangAddr ch 0x40) s = true → ch < 10 → (mangOf t ch).inFull = false →
    exec (.inCommit n ch) s = .next (modMang ch (fun m =>
      { m with
        inFull := true
        inSender := 1
        inSession := s.host.session
        inPriv := s.host.priv
        inMsg := m.inMsg.modify 0 fun w => wordOf (1 * 2 ^ 24 + w.toNat % 2 ^ 24) }) t))
  ∧ (∀ n ch s t, t = txnState n (mangAddr ch 0xC0) s → provOf s (.outCommit ch) = none → wordOk n (mangAddr ch 0xC0) s = true →
    (exec (.outCommitRead n ch false) s = .next ((driveOut (outCommitVal ch t) t).onHost fun h =>
        { h with prov := { reg := .outCommit ch, val := outCommitVal ch t } :: h.prov }))
    ∧ (exec (.outCommitRead n ch true) s = .next (commitRead (.outCommit ch) (outCommitVal ch t) ((driveOut (outCommitVal ch t) t).onHost fun h =>
        { h with prov := { reg := .outCommit ch, val := outCommitVal ch t } :: h.prov }))))
  ∧ (∀ ch v s, natBit v 31 = true → commitRead (.outCommit ch) v s
      = modMang ch (fun m => { m with outFull := false, outSender := 0, outSession := 0 })
          (s.onHost fun h => { h with prov := h.prov.filter fun p => p.reg != .outCommit ch }))
  ∧ (∀ n ch s t, t = txnState n (mangAddr ch 0x48) s → provOf s (.drop ch) = none → wordOk n (mangAddr ch 0x48) s = true →
    exec (.dropCountRead n ch false) s = .next (modMang ch (fun m => { m with inDrop := 0, outDrop := 0 })
      ((driveOut (dropVal ch t) t).onHost fun h => { h with prov := { reg := .drop ch, val := dropVal ch t } :: h.prov })))
  ∧ (∀ n ch last p s, provOf s (.drop ch) = some p →
    exec (.dropCountRead n ch last) s = .next (if last then s.onHost fun h => { h with prov := h.prov.filter fun p => p.reg != .drop ch } else s))
  ∧ (∀ n k s t, t = txnState n (0x2100 + 4 * k) s → provOf s (.lock k) = none → wordOk n (0x2100 + 4 * k) s = true → lockVal k t = 0 →
    exec (.lockRead n k { host := true, others := [] } false) s
      = .next (((driveOut 0 t).onHost fun h => { h with prov := { reg := .lock k, val := 0 } :: h.prov }).onHost
        fun h => { h with locks := h.locks.set k 1 }))
  ∧ (∀ n k ids s t, t = txnState n (0x2100 + 4 * k) (cntHost 2 s) → provOf s (.lock k) = none → wordOk n (0x2100 + 4 * k) s = true → lockVal k t = 0 →
    ids.any (lockMaster s) = true →
    exec (.lockRead n k { host := true, others := ids } false) s
      = .next (((driveOut 0 t).onHost fun h => { h with prov := { reg := .lock k, val := 0 } :: h.prov }).onHost
        fun h => { h with locks := h.locks.set k 1 }))
  ∧ (∀ n k ids last s t, t = txnState n (0x2100 + 4 * k) s → provOf s (.lock k) = none → wordOk n (0x2100 + 4 * k) s = true → lockVal k t ≠ 0 →
    ∃ u, exec (.lockRead n k { host := true, others := ids } last) s = .next u ∧ u.host.locks = s.host.locks ∧ u.host.out = wordOf (lockVal k t))
  ∧ (∀ n k ids last w s, (ids.filter (lockMaster s)).min? = some w → s.host.locks.getD k 1 = 0 →
    exec (.lockRead n k { host := false, others := ids } last) s
      = .next (when' (decide (1 < (ids.filter (lockMaster s)).length)) (cntHost 2) (s.onHost fun h => { h with locks := h.locks.set k w })))
  ∧ (∀ n k s t, t = txnState n (0x2100 + 4 * k) s → wordOk n (0x2100 + 4 * k) s = true → s.host.locks.getD k 0 = 1 →
    exec (.lockWrite n k { id := 1, val := 1 }) s = .next (t.onHost fun h => { h with locks := h.locks.set k 0 }))
  ∧ (∀ n k v s t, t = txnState n (0x2100 + 4 * k) s → wordOk n (0x2100 + 4 * k) s = true → (s.host.locks.getD k 0 ≠ 1 ∨ v ≠ 1) →
    exec (.lockWrite n k { id := 1, val := v }) s = .next (raise 116 (k * 256 + 1) (cntHost 3 t)))
  ∧ (∀ n k w s, w.id ≠ 1 → lockMaster s w.id = true → s.host.locks.getD k 0 = w.id → w.val.toNat = w.id →
    exec (.lockWrite n k w) s = .next (s.onHost fun h => { h with locks := h.locks.set k 0 }))

/-- OVERFLOW_READ, HOST_BELL_CLEAR, FW_BELL_SET, FW_BELL_TAKE, EVENT_PEND_CLEAR, BUS_ERR_CLR, BERR_CLEAR, SOFT_RST, REGISTER_WRITE, HAYLOFT_WINDOW_ACCESS,
OUTBOUND_HELD_DELIVER, HOST_RESET and HOST_RESET_RELEASE (R11, R361, R362, R366, R368 to R372, R377, R378): bells, interrupt bits, registers, the window into
the hayloft, and the reset of the host side. Where the spec leaves a choice, this is the model's: log 25. -/
def Obligations.HostRegisters : Prop :=
  (∀ n s t, t = txnState n 0x3000 s → provOf s .overflow = none → wordOk n 0x3000 s = true →
    exec (.overflowRead n false) s = .next (((driveOut (overflowVal t) t).onHost fun h =>
      { h with prov := { reg := .overflow, val := overflowVal t } :: h.prov }).onHost fun h => { h with overflow := 0 }))
  ∧ (∀ n w s t, t = txnState n 0x2000 s → wordOk n 0x2000 s = true →
    exec (.hostBellClear n w) s = .next (t.onHost fun h => { h with hostBell := clearBits h.hostBell w.toNat }))
  ∧ (∀ n w s t, t = txnState n 0x2008 s → wordOk n 0x2008 s = true →
    exec (.fwBellSet n w) s = .next (t.onHost fun h => { h with fwBell := h.fwBell ||| w.toNat % 2 ^ 31 }))
  ∧ (∀ n s, takesMsgs s = true → natBit s.host.fwBell n = true → n < 31 →
    exec (.fwBellTake n) s = .next (raise2 113 n 0 (s.onHost fun h => { h with fwBell := clearBits h.fwBell (2 ^ n) })))
  ∧ (∀ s, takesMsgs s = true → natBit s.host.fwBell 31 = true →
    exec (.fwBellTake 31) s = .next (s.onHost fun h => { h with fwBell := clearBits h.fwBell (2 ^ 31) }))
  ∧ (∀ n k w s t, t = txnState n (0x2210 + 4 * k) s → wordOk n (0x2210 + 4 * k) s = true →
    exec (.eventPendClear n k w) s = .next (t.onHost fun h => { h with evPend := clearBits h.evPend (w.toNat * 2 ^ (32 * k)) }))
  ∧ (∀ n s t, t = txnState n 0x2208 s → wordOk n 0x2208 s = true → exec (.busErrClr n) s = .next (t.onHost fun h => { h with busErr := false }))
  ∧ (∀ n w s t, t = txnState n 0x3004 s → wordOk n 0x3004 s = true →
    exec (.berrClear n w) s = .next (t.onHost fun h =>
      { h with errLog := h.errLog.zipIdx.map fun x => if natBit w.toNat x.2 then { x.1 with valid := false } else x.1 }))
  ∧ (∀ n w s t, t = txnState n 0x1C s → wordOk n 0x1C s = true → natBit w.toNat 31 = true → natBit w.toNat 0 = true →
    exec (.softRst n w) s = .next (hostReset (t.onHost fun h => { h with fence := true })))
  ∧ (∀ n w s t, t = txnState n 0x24 s → wordOk n 0x24 s = true →
    exec (.registerWrite n 0x24 w) s = .next (t.onHost fun h => { h with page := w.toNat % 16 }))
  ∧ (∀ n w s t, t = txnState n 0x2204 s → wordOk n 0x2204 s = true →
    exec (.registerWrite n 0x2204 w) s = .next (t.onHost fun h => { h with irqEn := w.toNat % 64 }))
  ∧ (∀ n a w s t, t = txnState n a s → wordComes n a s = true → t.host.txn.bus = false → mapped a = false → a % 4 = 0 → s.sys.dev ≠ .barn → s.sys.dev ≠ .boot →
    exec (.registerWrite n a w) s = .next (rejectWord 1 a t))
  ∧ (∀ n off w s t b, t = txnState n (0x800000 + off) s → b = t.host.pageNow * (8 * mib) + off → wordOk n (0x800000 + off) s = true →
    windowAllows t t.host.priv b true = true → ctlBlockAt t b = none →
    exec (.hayloftWindowAccess n off (some w)) s = .next (loftWrite b (leBytes 4 w.toNat) 1 t))
  ∧ (∀ n off s t b, t = txnState n (0x800000 + off) s → b = t.host.pageNow * (8 * mib) + off → wordOk n (0x800000 + off) s = true →
    windowAllows t t.host.priv b false = true → regionOf t b ≠ 2 → (loftCheck b 4 1 t).1 = true → regionOf (loftCheck b 4 1 t).2 b ≠ 2 →
    exec (.hayloftWindowAccess n off none) s = .next (prefetch (b + 4) 1 (driveOut (windowWord (loftCheck b 4 1 t).2 b) (loftCheck b 4 1 t).2)))
  ∧ (∀ ch m r s, takesMsgs s = true → (mangOf s ch).outFull = false → (mangOf s ch).held = m :: r →
    exec (.outboundHeldDeliver ch) s = .next (commitOut ch m.words m.session (modMang ch (fun x => { x with held := r }) s)))
  ∧ (∀ s, s.sys.dev ≠ .off → exec .hostReset s = .next (hostReset (s.onSys fun x => { x with hostRst := true })))
  ∧ (∀ s, (hostReset s).host.session = 0 ∧ (hostReset s).host.priv = .observe ∧ (hostReset s).host.irqEn = 0 ∧ (hostReset s).host.overflow = 0
      ∧ (hostReset s).host.page = 0 ∧ (hostReset s).host.proxies = [] ∧ (hostReset s).sys = s.sys ∧ (hostReset s).sec = s.sec
      ∧ (hostReset s).inaug = s.inaug)
  ∧ (∀ s, exec .hostResetRelease s = .next (s.onSys fun x => { x with hostRst := false }))

/-- PROXY_IN_COMMIT, PROXY_OUT_COMMIT_READ, PROXY_NO_ANSWER, MSG_ACCEPT, MSG_STATUS, MSG_REPLY, MSG_COMMIT, MSG_COMMIT_REORDER_EXPIRY, REMOTE_REGISTER_READ,
READ_REQ, READ_DATA, READ_STATUS, REMOTE_READ_TIMEOUT and REMOTE_READ_DATA_DISCARD (R373 to R376, R428 to R432): the bridge to other cars. Where the spec
leaves a choice, this is the model's: log 26. -/
def Obligations.Bridge : Prop :=
  (∀ n k c s t far, t = txnState n (proxyAddr k c 0x40) s → wordOk n (proxyAddr k c 0x40) s = true → (proxyOf t k c).st = .idle → farCar t k = some far →
    exec (.proxyInCommit n k c) s
      = .next (ctlSendIn t.inaug.epoch far (ctlPayload 1 (nextReq t) t.host.session t.host.priv.code (12 + c)
            (wordBytes ((proxyOf t k c).inMsg.take (msgWords (proxyOf t k c).inMsg))))
          (putProxy { proxyOf t k c with st := .sent, session := t.host.session, reqId := nextReq t, at_ := t.clk.c, far := far } (tookReq t))))
  ∧ (∀ n k c s t, t = txnState n (proxyAddr k c 0x40) s → wordOk n (proxyAddr k c 0x40) s = true → (proxyOf t k c).st = .idle → farCar t k = none →
    exec (.proxyInCommit n k c) s = .next (logError (proxyAddr k c 0x40) 1 0x0B (t.inaug.train * 64 + k) t))
  ∧ (∀ n k c s t, t = txnState n (proxyAddr k c 0xC0) s → provOf s (.proxyOut k c) = none → wordOk n (proxyAddr k c 0xC0) s = true →
    exec (.proxyOutCommitRead n k c true) s
      = .next (commitRead (.proxyOut k c) (proxyOutVal k c t) ((driveOut (proxyOutVal k c t) t).onHost fun h =>
          { h with prov := { reg := .proxyOut k c, val := proxyOutVal k c t } :: h.prov })))
  ∧ (∀ k c s, (proxyOf s k c).st = .sent → (proxyOf s k c).at_ + 2000000 ≤ s.clk.c →
    exec (.proxyNoAnswer k c) s
      = .next (logError (proxyAddr k c 0x40) 1 0x0B (proxyOf s k c).far (putProxy { proxyOf s k c with st := .idle } s)))
  ∧ (∀ m p s, firstMsg (isCtl 2) s = some m → proxyWaiting s (be m.payload 2 2) = some p →
    exec .msgAccept s = .next (putProxy { p with st := .accepted } (takenMsg m s)))
  ∧ (∀ m p s, firstMsg (isCtl 3) s = some m → proxyWaiting s (be m.payload 2 2) = some p →
    exec .msgStatus s
      = .next (logError (proxyAddr p.k p.c 0x40) 1 (le m.payload 8 1) p.far (putProxy { p with st := .idle } (takenMsg m s))))
  ∧ (∀ m p s, firstMsg (isCtl 4) s = some m → proxyWaiting s (be m.payload 2 2) = some p →
    exec .msgReply s = .next (ringHost 30 (putProxy
      { p with
        st := .replied
        outMsg := bytesWords (m.payload.drop 8) ++ p.outMsg.drop (bytesWords (m.payload.drop 8)).length
        session := be m.payload 4 2 } (takenMsg m s))))
  ∧ (∀ m s, firstMsg (isCtl 4) s = some m → proxyWaiting s (be m.payload 2 2) = none → be m.payload 4 2 ≠ s.host.session →
    exec .msgReply s = .next (dropEvent 1 4 (cntHost 5 (takenMsg m s))))
  ∧ (∀ m h s, firstMsg (isCtl 1) s = some m → s.brg.held = [] →
    h = { origin := m.hdr.adm, sys := m.hdr.src, reqId := be m.payload 2 2, at_ := trainTime s, session := be m.payload 4 2,
          priv := be m.payload 6 1, win := be m.payload 7 1, words := bytesWords (m.payload.drop 8) } →
    (expectOf s h.origin = some h.reqId →
      exec .msgCommit s = .next (commitFar h ((takenMsg m s).onBrg fun b => { b with
        expect := (h.origin, (h.reqId + 1) % 65536) :: b.expect.filter fun x => x.1 != h.origin })))
    ∧ (∀ e, expectOf s h.origin = some e → e ≠ h.reqId → (h.reqId + 65536 - e) % 65536 < 32768 →
      exec .msgCommit s = .next ((takenMsg m s).onBrg fun b => { b with held := b.held ++ [h] }))
    ∧ (∀ e, expectOf s h.origin = some e → 32768 ≤ (h.reqId + 65536 - e) % 65536 → exec .msgCommit s = .next (cntStrm 11 (takenMsg m s))))
  ∧ (∀ p badge h s, privOfCode h.priv = some p → carrierOfAdmit s h.origin = some badge → (mangOf s h.win).inFull = true →
    commitFar h s = msgAnswer h 1 s)
  ∧ (∀ p badge h s, privOfCode h.priv = some p → carrierOfAdmit s h.origin = some badge → (mangOf s h.win).inFull = false →
    commitFar h s = ctlSend h.sys (.accept h.win) (ctlPayload 2 h.reqId h.session 0 h.win [])
      ((commitIn h.win 3 h.session p (modMang h.win (fun m => { m with inMsg := h.words ++ m.inMsg.drop h.words.length }) s)).onBrg fun b =>
        { b with origin := b.origin ++ [{ ch := h.win, origin := h.sys, badge := badge, reqId := h.reqId, session := h.session }] }))
  ∧ (∀ h s, s.brg.held = [h] → h.at_ + pTransit s ≤ trainTime s →
    ∃ t, exec .msgCommitReorderExpiry s = .next t ∧ t = actCommit h (cntStrm 11 s))
  ∧ (∀ k off cnt s t, t = openWords true (winAddr k off) cnt s → wordOk true (winAddr k off) s = true → off < 0x40 → 0 < cnt → cnt ≤ (0x40 - off) / 4 → s.host.rdBuf = .idle →
    exec (.remoteRegisterRead true k off cnt) s = .next (remoteRetry cnt (remoteStart k off cnt t)))
  ∧ (∀ k off cnt ws a s t, t = openWords true (winAddr k off) cnt s → wordOk true (winAddr k off) s = true → off < 0x40 → 0 < cnt → cnt ≤ (0x40 - off) / 4 →
    s.host.rdBuf = .data k off cnt ws a →
    exec (.remoteRegisterRead true k off cnt) s = .next (setRdBuf .idle (t.onHost fun h => { h with burst := ws, out := ws.getLastD 0 })))
  ∧ (∀ k off cnt s t, t = openWords true (winAddr k off) cnt s → wordOk true (winAddr k off) s = true → off < 0x40 → 0 < cnt → cnt ≤ (0x40 - off) / 4 →
    s.host.rdBuf = .timedOut k off cnt →
    exec (.remoteRegisterRead true k off cnt) s
      = .next (rejectWords 3 (winAddr k off) cnt (setRdBuf .idle (t.onHost fun h => { h with burst := [] }))))
  ∧ (∀ m s, firstMsg (isCtl 5) s = some m → inboundReads s < 16 →
    exec .readReq s = .next (ctlSend m.hdr.src .plain (ctlPayload 6 (be m.payload 2 2) (be m.payload 4 2) 0 0
      ((List.range (natBits (le m.payload 8 4) 20 16)).flatMap fun i => leBytes 4 (idReg (takenMsg m s) (le m.payload 8 4 % 65536 + 4 * i))))
      (takenMsg m s)))
  ∧ (∀ m k off n id a far s, firstMsg (isCtl 6) s = some m → s.host.rdBuf = .waiting k off n id a far → id = be m.payload 2 2 →
    exec .readData s = .next (setRdBuf (.data k off n (bytesWords (m.payload.drop 8)) s.clk.c) (takenMsg m s)))
  ∧ (∀ m k off n id a far s, firstMsg (isCtl 7) s = some m → s.host.rdBuf = .waiting k off n id a far → id = be m.payload 2 2 →
    exec .readStatus s = .next (logError (winAddr k off) 1 (le m.payload 8 1) far (setRdBuf .idle (takenMsg m s))))
  ∧ (∀ k off n id t far s, s.host.rdBuf = .waiting k off n id (some t) far → t + 100000 + 2 * pTransit s ≤ trainTime s →
    exec .remoteReadTimeout s = .next (logError (winAddr k off) 1 0x0A far (cntStrm 13 (setRdBuf (.timedOut k off n) s))))
  ∧ (∀ k off n ws t s, s.host.rdBuf = .data k off n ws t → t + 1000000 ≤ s.clk.c → exec .remoteReadDataDiscard s = .next (setRdBuf .idle s))

/-- STREAM_CLOCK_CHANGE, STREAM_ALIGNED, STREAM_RESTART, STREAM_FRAMING_ERROR, CREDIT_TRANSITION, CREDIT_TIMEOUT, STREAM_FRAME_SEND, STREAM_FRAME_END,
STREAM_SUBMIT, STREAM_HOST_IN, STREAM_YARD_IN, DMA_WRITE, DMA_READ, STREAM_MESSAGE_IN, STREAM_SESSION_TIMEOUT, STREAM_SET and STREAM_STATUS (R416 to R426,
R434 to R436): the directions of the stream port, its credits, and the frames of its channels. Where the spec leaves a choice, this is the model's: log 28. -/
def Obligations.Stream : Prop :=
  (∀ inw present s t, t = (if inw then s.onStrm fun t => { t with siClk := present } else s) →
    (strmLive s = false → exec (.streamClockChange inw present) s = .next t)
    ∧ (strmLive s = true → present = false → exec (.streamClockChange inw present) s = .next (strmSettle (setLink inw .down (strmRestart inw t))))
    ∧ (strmLive s = true → present = true → (if inw then s.strm.si else s.strm.so) = .down →
      exec (.streamClockChange inw present) s = .next (strmSettle (setLink inw .training (strmRestart inw t))))
    ∧ (strmLive s = true → present = true → (if inw then s.strm.si else s.strm.so) ≠ .down → exec (.streamClockChange inw present) s = .next t))
  ∧ (∀ s, fwRuns s = false → (strmSettle s).strm.si = .down ∧ (strmSettle s).strm.so = .down ∧ (strmSettle s).strm.starved = none)
  ∧ (∀ s, strmLive s = true → s.strm.siClk = true → s.strm.si = .down → (strmSettle s).strm.si = .training ∧ (strmSettle s).strm.crdOut = 32)
  ∧ (∀ inw s, strmLive s = true → (if inw then s.strm.si else s.strm.so) = .training → exec (.streamAligned inw) s = .next (setLink inw .up s))
  ∧ (∀ inw s, strmLive s = true → (if inw then s.strm.si else s.strm.so) ≠ .down → exec (.streamRestart inw) s = .next (strmSettle (strmRestart inw s)))
  ∧ (∀ s, strmLive s = true → s.strm.si ≠ .down →
    exec .streamFramingError s = .next (setLink true .training (raiseFirst 11802 118 2 (cntStrm 3 s))))
  ∧ (∀ s, strmLive s = true → (∀ t, s.strm.crdAt = some t → t + 128 ≤ 10 * s.clk.c) →
    exec .creditTransition s = .next (s.onStrm fun t =>
      { t with credits := min 32 (t.credits + 1), crdAt := some (10 * s.clk.c), starved := none }))
  ∧ (∀ t s, strmLive s = true → s.strm.crdAt = some t → 10 * s.clk.c < t + 128 → exec .creditTransition s = .next s)
  ∧ (∀ t s, s.strm.starved = some t → strmLive s = true → s.strm.credits = 0 → t + bits s.strm.cfg 0 15 8 * 1000000 ≤ s.clk.c →
    exec .creditTimeout s = .next (raise 118 (((s.strm.cur.map (·.ch)).getD 0) * 256 + 4) (cntStrm 8 (strmSettle (strmRestart false s)))))
  ∧ (∀ s, strmPending s = true → s.strm.credits = 0 → s.strm.starved = none → bits s.strm.cfg 0 15 8 ≠ 0 →
    (noteStarve s).strm.starved = some s.clk.c)
  ∧ (∀ f s, strmLive s = true → s.strm.so = .up → s.strm.credits ≠ 0 → s.strm.cur = none → (sendOrder s).findSome? (frameOn s) = some f →
    exec .streamFrameSend s = .next (noteStarve (startFrame f s)))
  ∧ (∀ f s, strmLive s = true → s.strm.so = .up → s.strm.credits ≠ 0 → s.strm.cur = some f → s.strm.curLeft ≠ 0 →
    exec .streamFrameSend s = .next (noteStarve (s.onStrm fun t => { t with curLeft := t.curLeft - 1, credits := t.credits - 1 })))
  ∧ (∀ f s, s.strm.cur = some f → s.strm.curLeft = 0 → (f.ch = 60 ∨ f.ch = 61) →
    exec .streamFrameEnd s = .next (strmSettle (modMang (f.ch - 50) (fun m => { m with outFull := false, outSender := 0, outSession := 0 })
      (cntStrm 1 (s.onStrm fun t => { t with cur := none, cfg := t.cfgNext.getD t.cfg, cfgNext := none, lastFrame := sframeBytes f })))))
  ∧ (∀ f s, s.strm.cur = some f → s.strm.curLeft = 0 → f.ch = 48 →
    exec .streamFrameEnd s = .next (strmSettle (cntEvBy 5 f.param
      (cntStrm 1 (s.onStrm fun t => { t with cur := none, cfg := t.cfgNext.getD t.cfg, cfgNext := none, lastFrame := sframeBytes f })))))
  ∧ (∀ f p s, p = leBytes 4 (f.ch % 64 * 2 ^ 26 + strmType f.ch * 2 ^ 22 + f.payload.length % 32768)
      ++ leBytes 4 (f.seq % 65536 * 65536 + f.param % 65536) ++ padTo ((f.payload.length + 3) / 4 * 4) f.payload →
    f.payload.length < 32768 → sframeBytes f = p ++ leBytes 4 (crc32 p).toNat ∧ (dropCurrent s).strm.curLeft = (if s.strm.cur = none then s.strm.curLeft else 0))
  ∧ (∀ f s, s.strm.cur = some f → ¬(32 ≤ f.ch ∧ f.ch ≤ 47) →
    dropCurrent s = s.onStrm fun t => { t with cur := none, curLeft := 0, cfg := t.cfgNext.getD t.cfg, cfgNext := none })
  ∧ (∀ r s, s.strm.cur = none → strmApply r s = strmSettle (s.onStrm fun t => { t with cfg := r, cfgNext := none }))
  ∧ (∀ f p s, strmLive s = true → s.strm.si = .up → strmEnabled s f.ch = true → f.rsv = 0 → f.len = p.length → f.len ≤ 16384 →
    (f.ch < 32 → f.type = 1 → f.param = 0 → (parseItems p.length p).2 = true → strmOperate (noteSeq f s) = true →
      tkEnable (s.sent.talkers.getD (16 + f.ch) []) = true →
      exec (.streamSubmit f p true) s = .next (strmAccept (submitAll (16 + f.ch) (parseItems p.length p).1 (noteSeq f s))))
    ∧ (52 ≤ f.ch → f.ch ≤ 55 → f.type = 5 → 4 ≤ f.len → f.param = 0 → p.length ≤ 1996 → 52 ≤ natBits (le p 0 4) 29 24 → natBits (le p 0 4) 29 24 ≤ 55 →
      natBit (le p 0 4) 30 = false → natBits (le p 0 4) 23 14 = 0 → strmOperate (noteSeq f s) = true → onTrain s = true → admitted s = true →
      exec (.streamHostIn f p true) s = .next (strmAccept (trainSend (hostFrame (noteSeq f s) (le p 0 4) (p.drop 4)) (noteSeq f s))))
    ∧ (f.ch = 56 → f.type = 6 → 14 ≤ f.len → f.param ≤ 5 → strmOperate (noteSeq f s) = true → s.yard.link = true →
      exec (.streamYardIn f p true) s = .next (strmAccept (rawSend f.param p (noteSeq f s))))
    ∧ (f.ch = 58 → f.type = 7 → 5 ≤ f.len → f.param = 0 → le p 0 4 % 4 = 0 →
      exec (.dmaWrite f p true) s = .next (dmaWriteAll f (p.drop 4) (le p 0 4) (dmaPieces (le p 0 4) (p.length - 4))
        (noteCuts (le p 0 4) (p.length - 4) (noteSeq f s))))
    ∧ (∀ d u, f.ch = 59 → f.type = 8 → p.length = 8 → f.param = 0 → le p 0 4 % 4 = 0 → le p 4 4 % 4 = 0 → 4 ≤ le p 4 4 → le p 4 4 ≤ 16384 →
      dmaReads (noteSeq f s) < 4 →
      dmaReadAll (dmaPieces (le p 0 4) (le p 4 4)) [] (noteCuts (le p 0 4) (le p 4 4) (noteSeq f s)) = (.inl d, u) →
      exec (.dmaRead f p true) s = .next (strmPush { ch := 59, seq := 0, param := f.seq, payload := d } (strmAccept (prefetch (le p 0 4 + le p 4 4) 2 u))))
    ∧ (f.ch = 60 ∨ f.ch = 61 → f.type = 9 → 4 ≤ f.len → f.len % 4 = 0 → f.len ≤ 64 → f.param ≠ 0 → f.param = s.strm.session →
      (mangOf s (f.ch - 50)).inFull = false →
      exec (.streamMessageIn f p true) s = .next (strmAccept (commitIn (f.ch - 50) 2 f.param s.strm.priv
        (modMang (f.ch - 50) (fun m => { m with inMsg := bytesWords p ++ m.inMsg.drop (bytesWords p).length }) (noteSeq f s))))))
  ∧ (∀ f p s, strmLive s = true → s.strm.si = .up → f.ch < 32 →
    exec (.streamSubmit f p false) s = .next (strmStatus f.ch 0 0x0C 0 (raiseFirst 11801 118 (f.ch * 256 + 1) (cntStrm 2 (giveCredits f s)))))
  ∧ (∀ f s, (giveCredits f s).strm.crdOut = s.strm.crdOut + (12 + (f.len + 3) / 4 * 4 + 255) / 256)
  ∧ (∀ s, (strmRestart true s).strm.crdOut = 32 ∧ (strmRestart false s).strm.credits = 0)
  ∧ (∀ f s, (noteSeq f s).strm.rxSeq = (f.ch, (f.seq + 1) % 65536) :: s.strm.rxSeq.filter fun x => x.1 != f.ch)
  ∧ (∀ s, s.strm.session ≠ 0 → s.strm.si ≠ .up → s.strm.siDownAt + 10000000000 ≤ s.clk.c →
    ∃ t, exec .streamSessionTimeout s = .next t ∧ t.strm.session = 0 ∧ t.strm.priv = .observe ∧ t.host.session = s.host.session
      ∧ t.host.fwBell = s.host.fwBell ||| 2 ^ 31 ∧ t.host.dead.contains s.strm.session = true ∧ t.sys = s.sys)
  ∧ (∀ via s c t u, c = cmdOf 0x902 via s → t = takenBy 0x902 via s → u = (parcelRead 1 c t).2 → cmdRuns 0x902 3 .config via s = true →
    wd c.words 2 = 16 → parcelOk 1 c t = true → (parcelRead 1 c t).1 = true → strmCheck (bytesWords (parcelBytes 1 c t)) = none →
    exec (.streamSet via) s = .next (replyOk c [] (strmApply (bytesWords (parcelBytes 1 c t)) u)))
  ∧ (∀ via s c t, c = cmdOf 0x901 via s → t = takenBy 0x901 via s → cmdRuns 0x901 1 .observe via s = true →
    exec (.streamStatus via) s = .next (replyOk c [s.strm.so.code * 2 ^ 30 + s.strm.si.code * 2 ^ 28 + s.strm.credits % 64 * 2 ^ 22 + s.strm.session % 65536,
      ((List.range 32).map fun n => b2n (frameOn t (32 + n)).isSome * 2 ^ n).sum] t))

/-- EVENT_STREAM_FRAME_CLOSE, EVENT_FRAME_RECEIVE, RECORDER_TAKE, RECORDER_READ, ROUTE_SET, HAYLOFT_WRITE_BACK, SCRUB_READ, SCRUB_OVERDUE and HAYLOFT_STATUS (R442
to R451, R457 to R460, R467): events of other cars, the recorder, the write-back and the patrol scrub. Where the spec leaves a choice, this is the model's:
log 27. -/
def Obligations.EventsAndScrub : Prop :=
  (∀ s, s.strm.evFrame ≠ [] → s.strm.evFirst + 1000 ≤ s.clk.c → exec .eventStreamFrameClose s = .next (strmCloseEvents s))
  ∧ (∀ m s, firstMsg (fun m => m.hdr.ftype == ftEvent) s = some m → eventFrameOk m.payload = true →
    exec .eventFrameReceive s
      = .next (each ((List.range (be m.payload 0 1)).map fun i => eventAt m.payload (4 + 24 * i)) remoteEvent (takenMsg m s)))
  ∧ (∀ m s, firstMsg (fun m => m.hdr.ftype == ftEvent) s = some m → eventFrameOk m.payload = false →
    exec .eventFrameReceive s = .next (cntEv 9 (takenMsg m s)))
  ∧ (∀ e n r s, loftRuns s = true → s.ev.collector = .event e n :: r →
    exec .recorderTake s = .next (placeLost (recFold e (n + 1) (s.onEv fun v => { v with collector := r }))))
  ∧ (∀ src n r s, loftRuns s = true → s.ev.collector = .lost src n :: r →
    exec .recorderTake s = .next (placeLost (recWrite (lostRec (s.onEv fun v => { v with collector := r }) src n) (s.onEv fun v => { v with collector := r }))))
  ∧ (∀ via s c t y l u, c = cmdOf 0xA01 via s → t = takenBy 0xA01 via s → cmdRuns 0xA01 6 .observe via s = true → parcelOk 4 c t = true →
    readRecords (max (wd64 c.words 1) (retained t).1) (min (wd c.words 3) (wd c.words 5 / 32 + 1)) t = (y :: l, u) → parcelOk 4 c u = true →
    0 < parcelFit 4 ((y :: l).map (·.2)) c →
    exec (.recorderRead via) s
      = .next (replyOk c [y.1 % 2 ^ 32, y.1 / 2 ^ 32 % 2 ^ 32, parcelFit 4 ((y :: l).map (·.2)) c, (s.ev.recSeq - 1) % 2 ^ 32, (s.ev.recSeq - 1) / 2 ^ 32]
          (parcelPut 4 ((y :: l).map (·.2)) c u)))
  ∧ (∀ via s c, c = cmdOf 0xA02 via s → cmdRuns 0xA02 3 .config via s = true → wd c.words 1 ≤ 127 → routeBad s.ev.dest (wd c.words 2) = false →
    exec (.routeSet via) s
      = .next (replyOk c [] ((flushEvents (takenBy 0xA02 via s)).onEv fun v => { v with routes := v.routes.set (wd c.words 1) (wordOf (wd c.words 2)) })))
  ∧ (∀ cw r s, loftRuns s = true → s.sys.braced = false → s.loft.writeBack = cw :: r →
    exec .hayloftWriteBack s
      = .next (s.onLoft fun l => { l with writeBack := r, damage := l.damage.filter fun d => !(d.1 == cw && d.2 == .one) }))
  ∧ (∀ found s, loftRuns s = true → s.sys.braced = false → s.loft.scrubPos + 1 < codewordCount →
    exec (.scrubRead found) s
      = .next ((loftCheck (16 * s.loft.scrubPos) 16 256 (s.onLoft (suffer s.loft.scrubPos found))).2.onLoft fun l =>
          { l with scrubPos := s.loft.scrubPos + 1 }))
  ∧ (∀ found s, loftRuns s = true → s.sys.braced = false → codewordCount ≤ s.loft.scrubPos + 1 →
    ∃ t, exec (.scrubRead found) s = .next t ∧ t.loft.scrubPos = 0 ∧ t.loft.scrubAt = s.clk.c ∧ t.loft.overdue = false
      ∧ t.loft.passes = satAdd 1 s.loft.passes)
  ∧ (∀ s, loftRuns s = true → s.loft.overdue = false → s.loft.scrubAt + s.loft.scrubH * 4500000000000 ≤ s.clk.c →
    exec .scrubOverdue s = .next (raise 106 (s.loft.passes % 2 ^ 24 * 256 + 2) (s.onLoft fun l => { l with overdue := true })))
  ∧ (∀ via s c, c = cmdOf 0xB03 via s → cmdRuns 0xB03 1 .observe via s = true →
    exec (.hayloftStatus via) s
      = .next (replyOk c [b2n s.loft.dflt * 2 ^ 31 + b2n s.sys.braced * 2 ^ 30 + s.loft.scrubPos * 65536 / codewordCount, s.loft.passes,
          regionSize s 0 / mib * 2 ^ 24 + regionSize s 1 / mib * 2 ^ 16 + regionSize s 2 / mib * 256 + regionSize s 3 / mib,
          regionSize s 4 / mib * 2 ^ 24 + regionSize s 5 / mib * 2 ^ 16, s.loft.lastUe] (takenBy 0xB03 via s)))

/-- PARCEL_ALLOC, PARCEL_FREE, SLOT_WRITE, SLOT_INFO, FLASH_OPERATION_DONE, RESERVE_SECTOR_ERASE, DIAG_READ, LOOPBACK and LANE_PRBS (R25, R39, R390, R404, R405,
R466, R486): reservations, flash slots and tests. Which free range a reservation takes is not the spec's to say (log 27). -/
def Obligations.ParcelsAndFlash : Prop :=
  (∀ via s c, c = cmdOf 0xB01 via s → cmdRuns 0xB01 2 .operate via s = true → wd c.words 1 ≠ 0 → wd c.words 1 % 64 = 0 →
    (∃ g ∈ parcelGaps s, wd c.words 1 ≤ g.2) →
    ∃ k a, placeAt (wd c.words 1) k (parcelGaps s) = some a
      ∧ exec (.parcelAlloc via) s = .next (replyOk c [a] ((tookFree (takenBy 0xB01 via s)).onCmd fun q =>
          { q with parcels := { addr := a, len := wd c.words 1, session := sessKey (takenBy 0xB01 via s) c } :: q.parcels })))
  ∧ (∀ via s c t, c = cmdOf 0xB02 via s → t = takenBy 0xB02 via s → cmdRuns 0xB02 2 .operate via s = true →
    t.cmd.parcels.any (fun p => p.addr == wd c.words 1 && p.session == sessKey t c) = true →
    exec (.parcelFree via) s = .next (replyOk c [] (t.onCmd fun q =>
      { q with parcels := q.parcels.filter fun p => !(p.addr == wd c.words 1 && p.session == sessKey t c) })))
  ∧ (∀ via s c t, c = cmdOf 0xB02 via s → t = takenBy 0xB02 via s → cmdRuns 0xB02 2 .operate via s = true →
    t.cmd.parcels.any (fun p => p.addr == wd c.words 1 && p.session == sessKey t c) = false → exec (.parcelFree via) s = .next (notFound c t))
  ∧ (∀ via s c t u p, c = cmdOf 0xB04 via s → t = takenBy 0xB04 via s → u = (parcelRead 2 c t).2 → p = parcelBytes 2 c t →
    cmdRuns 0xB04 4 .config via s = true → wd c.words 1 ≤ 3 → parcelOk 2 c t = true → (parcelRead 2 c t).1 = true → slotInUse u (wd c.words 1) = false →
    (u.sys.dev ≠ .recovery ∨ wd c.words 1 < 2) → slotRefusal u (wd c.words 1) p = none → rsaWaiting false u < 16 →
    exec (.slotWrite via) s = .next (rsaBegin ((holdSerial c u).onSec fun x => { x with rsaPub := x.rsaPub ++ [Job.mk c .slotWrite p] })))
  ∧ (∀ via s c x, c = cmdOf 0xB05 via s → x = slotOf s (wd c.words 1) → cmdRuns 0xB05 2 .observe via s = true → wd c.words 1 ≤ 3 →
    exec (.slotInfo via) s
      = .next (replyOk c ([b2n x.valid] ++ (if wd c.words 1 < 2 then [wd x.words 1, bits x.words 2 31 24] else [wd x.words 3, wd x.words 4])
          ++ nonceWords (slotMeas (wd c.words 1) (wordBytes x.words))) (takenBy 0xB05 via s)))
  ∧ (∀ o s, s.flash.op = some o → o.started = true → exec (.flashOperationDone true) s = .next (drain 9 (flashOk o s)))
  ∧ (∀ o s, s.flash.op = some o → o.started = true → o.retried = false →
    exec (.flashOperationDone false) s
      = .next (s.onFlash fun f => { f with op := some { o with retried := true, started := !s.sys.braced } }))
  ∧ (∀ o s, s.flash.op = some o → o.started = true → o.retried = true → exec (.flashOperationDone false) s = .next (drain 9 (flashFailed o s)))
  ∧ (∀ s, s.sys.dev = .stopped → s.flash.reserve = false → s.flash.op = none → s.sys.braced = false →
    exec .reserveSectorErase s
      = .next (flashStart { erase := true, addr := 0xCC0000, retried := false, started := true, slot := 4, words := [], ctx := none } s))
  ∧ (∀ via s c, c = cmdOf 0xF01 via s → cmdRuns 0xF01 1 .observe via s = true →
    exec (.diagRead via) s = .next (replyOk c [tc 32 s.sys.dieTemp, s.sys.vin, tc 32 s.sys.fieldTemp] (takenBy 0xF01 via s)))
  ∧ (∀ via s c, c = cmdOf 0xF02 via s → cmdRuns 0xF02 2 .service via s = true → wd c.words 1 ≤ 3 → s.sys.dev = .test →
    natBit (wd c.words 1) 1 = true →
    exec (.loopback via) s
      = .next (replyOk c [] (setBypass (natBit (wd c.words 1) 0) .low (setEnd (natBit (wd c.words 1) 0) .loopback (takenBy 0xF02 via s)))))
  ∧ (∀ via s c, c = cmdOf 0xF02 via s → cmdRuns 0xF02 2 .service via s = true → wd c.words 1 ≤ 3 → s.sys.dev ≠ .test →
    exec (.loopback via) s = .next (stateError c (takenBy 0xF02 via s)))
  ∧ (∀ via s c b, c = cmdOf 0xF03 via s → b = natBit (wd c.words 1) 0 → cmdRuns 0xF03 2 .service via s = true → wd c.words 1 ≤ 3 → s.sys.dev = .test →
    (endOf s b).st = .loopback → natBit (wd c.words 1) 1 = true →
    exec (.lanePrbs via) s = .next (replyOk c [0, 0, 0] (onEnd b (fun e => { e with prbs := true }) (takenBy 0xF03 via s))))
  ∧ (∀ via s c b, c = cmdOf 0xF03 via s → b = natBit (wd c.words 1) 0 → cmdRuns 0xF03 2 .service via s = true → wd c.words 1 ≤ 3 → s.sys.dev = .test →
    (endOf s b).st = .loopback → natBit (wd c.words 1) 1 = false → (endOf s b).prbs = true →
    ∃ x y z, exec (.lanePrbs via) s
      = .next (replyOk c [x, y, z] (tookFree (onEnd b (fun e => { e with prbs := false }) (takenBy 0xF03 via s)))))

/-- DEVICE_ID, DEVICE_STATUS, SESSION_OPEN, SESSION_CLOSE, START, TEST, TRAIN_STATUS, ROSTER_READ, SOURCE_READ, COUPLER_STATUS, ADMISSION_RETRY, PLAN_READ,
IMAGE_DIRECTORY, MARK_SET, BINDING_SET, COUPLING_READ, RECIPE_ACTIVATE and UNKNOWN_COMMAND_CODE (R4, R26, R184, R386, R392, R396 to R398, R410). Where the
spec leaves a choice, this is the model's: log 12, 13 and 29. -/
def Obligations.DeviceCommands : Prop :=
  (∀ via s c t, c = cmdOf 0x001 via s → t = takenBy 0x001 via s → cmdRuns 0x001 1 .observe via s = true →
    exec (.deviceId via) s = .next (replyOk c [idReg t 0, idReg t 4, s.sys.badge % 2 ^ 32, s.sys.badge / 2 ^ 32, s.sys.bootCode % 256] t))
  ∧ (∀ s, idReg s 0 = 0x0640A101)
  ∧ (∀ via s c t, c = cmdOf 0x002 via s → t = takenBy 0x002 via s → cmdRuns 0x002 1 .observe via s = true →
    exec (.deviceStatus via) s
      = .next (replyOk c [regState t, regEpochs t, regSession t, b2n s.rcp.loaded * 2 ^ 31 + b2n s.rcp.slotB * 2 ^ 30, s.rcp.rseq, planId s, s.sec.arb] t))
  ∧ (∀ m s c t n, c = cmdOf 0x003 (.manger m) s → t = takenBy 0x003 (.manger m) s → n = nextSession t → cmdRuns 0x003 2 .observe (.manger m) s = true →
    c.via = .manger m → m < 10 → wd c.words 1 ≤ 9 → t.host.session = 0 →
    exec (.sessionOpen (.manger m)) s = .next (replyOk { c with session := n } [n] (raise 112 (n * 65536 + 1) ((giveSession t).onHost fun h =>
      { h with session := n, priv := .observe, scope := 0, operKey := 0, notify := wd c.words 1 }))))
  ∧ (∀ m s c t n, c = cmdOf 0x003 (.manger m) s → t = takenBy 0x003 (.manger m) s → n = nextSession t → cmdRuns 0x003 2 .observe (.manger m) s = true →
    c.via = .manger m → 10 ≤ m → m < 12 → wd c.words 1 = 0 → s.strm.session = 0 →
    exec (.sessionOpen (.manger m)) s = .next (replyOk { c with session := n } [n] (raise 112 (n * 65536 + 1) ((giveSession t).onStrm fun x =>
      { x with session := n, priv := .observe, scope := 0, operKey := 0 }))))
  ∧ (∀ m s c t, c = cmdOf 0x004 (.manger m) s → t = takenBy 0x004 (.manger m) s → cmdRuns 0x004 1 .observe (.manger m) s = true →
    c.via = .manger m → m < 10 → c.session ≠ 0 → t.host.session = c.session →
    exec (.sessionClose (.manger m)) s = .next (replyOk c [] (raise 112 (c.session * 65536 + 2) (operEnd (operHeld t.host.priv t.host.operKey)
      (freeParcels c.session (t.onHost fun h => { h with session := 0, priv := .observe, scope := 0, operKey := 0 }))))))
  ∧ (∀ via s c, c = cmdOf 0x007 via s → cmdRuns 0x007 1 .operate via s = true → startReady s = true → markedWithoutMark s = false →
    exec (.start via) s = .next (replyOk c [] (startNow (takenBy 0x007 via s))))
  ∧ (∀ via s c, c = cmdOf 0x007 via s → cmdRuns 0x007 1 .operate via s = true → markedWithoutMark s = true →
    exec (.start via) s = .next (badParam c 0 0 (takenBy 0x007 via s)))
  ∧ (∀ via s c, c = cmdOf 0x007 via s → cmdRuns 0x007 1 .operate via s = true → markedWithoutMark s = false → startReady s = false →
    exec (.start via) s = .next (stateError c (takenBy 0x007 via s)))
  ∧ (∀ via s c, c = cmdOf 0x00A via s → cmdRuns 0x00A 1 .serviceTest via s = true → s.sys.dev = .stopped →
    exec (.test via) s = .next (replyOk c [] (setDev .test (setRole .none 0 false (takenBy 0x00A via s)))))
  ∧ (∀ via s c, c = cmdOf 0x101 via s → cmdRuns 0x101 1 .observe via s = true →
    exec (.trainStatus via) s
      = .next (replyOk c [s.inaug.numbering.length % 256 * 2 ^ 24 + topology s * 2 ^ 22 + s.inaug.epoch % 4096 * 1024 + s.sec.cur % 16 * 64,
          s.inaug.leadBadge % 2 ^ 32, s.inaug.leadBadge / 2 ^ 32, s.inaug.adm] (takenBy 0x101 via s)))
  ∧ (∀ via s c t l, c = cmdOf 0x102 via s → t = takenBy 0x102 via s → l = s.inaug.numbering.map numEntryBytes → cmdRuns 0x102 3 .observe via s = true →
    parcelOk 1 c t = true → l = [] ∨ 0 < parcelFit 1 l c → exec (.rosterRead via) s = .next (replyOk c [parcelFit 1 l c] (parcelPut 1 l c t)))
  ∧ (∀ via s c t l, c = cmdOf 0x103 via s → t = takenBy 0x103 via s → l = s.lane.src.map (fun e => (srcWords t e).flatMap (leBytes 4)) →
    cmdRuns 0x103 3 .observe via s = true → parcelOk 1 c t = true → l = [] ∨ 0 < parcelFit 1 l c →
    exec (.sourceRead via) s = .next (replyOk c [parcelFit 1 l c] (parcelPut 1 l c t)))
  ∧ (∀ via s c, c = cmdOf 0x104 via s → cmdRuns 0x104 1 .observe via s = true →
    exec (.couplerStatus via) s = .next (replyOk c [endsByte s, s.ends.a.nbr.getD 0 % 2 ^ 32, s.ends.a.nbr.getD 0 / 2 ^ 32, s.ends.b.nbr.getD 0 % 2 ^ 32,
      s.ends.b.nbr.getD 0 / 2 ^ 32] (takenBy 0x104 via s)))
  ∧ (∀ via s c, c = cmdOf 0x105 via s → cmdRuns 0x105 1 .operate via s = true → s.sys.dev = .integrating → s.inaug.role = .guest →
    exec (.admissionRetry via) s = .next (replyOk c [] ((takenBy 0x105 via s).onInaug fun x => { x with retryAsked := true })))
  ∧ (∀ via s c t l, c = cmdOf 0x301 via s → t = takenBy 0x301 via s → l = wordBytes s.plan.hdr :: s.plan.entries.map wordBytes →
    cmdRuns 0x301 3 .observe via s = true → planLoaded s = true → parcelOk 1 c t = true → 0 < parcelFit 1 l c →
    exec (.planRead via) s = .next (replyOk c [bits s.plan.hdr 1 15 0, planId s] (parcelPut 1 l c t)))
  ∧ (∀ via s c t l, c = cmdOf 0x302 via s → t = takenBy 0x302 via s →
    l = s.plan.images.map (fun i => leBytes 4 (i.entry * 65536 + b2n i.out * 32768) ++ leBytes 4 (imgAddr t i.entry i.out)) →
    cmdRuns 0x302 3 .observe via s = true → parcelOk 1 c t = true → l = [] ∨ 0 < parcelFit 1 l c →
    exec (.imageDirectory via) s = .next (replyOk c [parcelFit 1 l c] (parcelPut 1 l c t)))
  ∧ (∀ via s c, c = cmdOf 0x303 via s → cmdRuns 0x303 4 .config via s = true → wd c.words 1 ≤ 15 → s.sys.dev = .stopped → planLoaded s = true →
    markCheck s.plan.hdr ((c.words.drop 2).take 2) = none →
    exec (.markSet via) s
      = .next (replyOk c [] ((takenBy 0x303 via s).onPlan fun p => { p with marks := p.marks.set (wd c.words 1) ((c.words.drop 2).take 2) })))
  ∧ (∀ via s c t u p n bs, c = cmdOf 0x304 via s → t = takenBy 0x304 via s → u = (parcelRead 1 c t).2 → p = parcelBytes 1 c t → n = le p 0 4 →
    bs = (bytesWords (p.drop 4)).take n → cmdRuns 0x304 3 .config via s = true → parcelOk 1 c t = true → (parcelRead 1 c t).1 = true →
    n ≤ 1024 → 4 + 4 * n ≤ p.length → u.sys.dev = .stopped → planLoaded u = true → bindCheck u.plan.entries bs = none →
    exec (.bindingSet via) s = .next (replyOk c [] (setBinds bs u)))
  ∧ (∀ via s c t l, c = cmdOf 0x305 via s → t = takenBy 0x305 via s →
    l = (List.range 16).map (fun m => wordBytes [(markRec t m).getD 0 0, (markRec t m).getD 1 0]) ++ s.plan.binds.map (fun w => wordBytes [w]) →
    cmdRuns 0x305 3 .observe via s = true → parcelOk 1 c t = true → 0 < parcelFit 1 l c →
    exec (.couplingRead via) s = .next (replyOk c [parcelFit 1 l c - 16] (parcelPut 1 l c t)))
  ∧ (∀ via s c t, c = cmdOf 0x00C via s → t = takenBy 0x00C via s → cmdRuns 0x00C 2 .config via s = true → wd c.words 1 ≤ 1 → s.sys.dev = .stopped →
    s.sys.katFail = false → rsaWaiting false t < 16 →
    exec (.recipeActivate via) s = .next (rsaBegin ((holdSerial c t).onSec fun x => { x with rsaPub := x.rsaPub ++ [Job.mk c .recipeActivate []] })))
  ∧ (∀ via s c t, c = cmdOf 0x00C via s → t = takenBy 0x00C via s → cmdRuns 0x00C 2 .config via s = true → wd c.words 1 ≤ 1 → s.sys.katFail = true →
    exec (.recipeActivate via) s = .next (stateError c t))
  ∧ (∀ via ws s, takesMsgs s = true → s.cmd.ready = none → hasTurn s via = true → waitingMsg s via = some ws → knownCodes.contains (msgCode ws) = false →
    exec (.unknownCommandCode via) s = .next (reply (ctxOf s via ws) 2 (msgCode ws) [] (takeMsg via s)))

/-- Every step keeps the hayloft in its canonical form (R463): addresses rising, and no byte listed that is 0, which an unlisted one reads as. -/
def Obligations.HayloftFormKept : Prop := ∀ s t, Machine.Inv s → step s = .next t → Machine.Inv t

/-- A write to the hayloft changes the bytes it names, and beside them at most bytes of the recorder's ring, where the correction or the poisoning of a damaged
codeword may be recorded; a read changes at most those. With no damaged codeword the bytes written are all that changes, and the bytes read back are those
written (R449, R455 to R458). -/
def Obligations.HayloftWrite : Prop :=
  (∀ a p who s b, 0 < regionSize s 3 → (b < regionBase s 3 ∨ regionBase s 4 ≤ b) → (b < a ∨ a + p.length ≤ b) →
    memGet (loftWrite a p who s).loft.mem b = memGet s.loft.mem b)
  ∧ (∀ a p who s, Machine.Inv s → 0 < regionSize s 3 → (a + p.length ≤ regionBase s 3 ∨ regionBase s 4 ≤ a) → loftBytes a p.length (loftWrite a p who s) = p)
  ∧ (∀ a p who s b, s.loft.damage = [] → (b < a ∨ a + p.length ≤ b) → memGet (loftWrite a p who s).loft.mem b = memGet s.loft.mem b)
  ∧ (∀ a p who s, Machine.Inv s → s.loft.damage = [] → loftBytes a p.length (loftWrite a p who s) = p)
  ∧ (∀ a n who s b, 0 < regionSize s 3 → (b < regionBase s 3 ∨ regionBase s 4 ≤ b) → memGet (loftCheck a n who s).2.loft.mem b = memGet s.loft.mem b)
  ∧ (∀ a n who s, s.loft.damage = [] → loftCheck a n who s = (true, s))

/-- A command that only reads changes nothing of the car but what its message and its reply pass through, whatever it answers, and whether or not a message waits
(R385 to R387). -/
def Obligations.ReadsChangeNothing : Prop :=
  ∀ via s i, i ∈ [Instr.deviceId via, .deviceStatus via, .trainStatus via, .couplerStatus via, .timeRead via, .timeStatus via, .portStatus via,
      .yardStatus via, .streamStatus via, .hayloftStatus via, .slotInfo via, .diagRead via] →
    ∃ t, exec i s = .next t ∧ t.sys = s.sys ∧ t.ends = s.ends ∧ t.inaug = s.inaug ∧ t.ldr = s.ldr ∧ t.ref = s.ref ∧ t.teth = s.teth ∧ t.plan = s.plan
      ∧ t.fld = s.fld ∧ t.sec = s.sec ∧ t.flash = s.flash ∧ t.snap = s.snap ∧ t.rcp = s.rcp ∧ t.clk.c = s.clk.c ∧ t.clk.rate = s.clk.rate
      ∧ t.clk.offset = s.clk.offset ∧ t.sent.listeners = s.sent.listeners ∧ t.pending = s.pending
end

