-- ==== Sys2Proof/Laws/Memory.lean ====
section
/-!
SUPPORT. The hayloft's memory: every operation on it keeps its canonical form, a byte written is read back, and every other byte is as
it was (R455, R456, R463).
-/

namespace Sys2Proof.Laws

open Sys2Proof Sys2Proof.Machine

/-- The canonical form as a property: addresses rise strictly and no byte is 0. -/
theorem wf_iff (m : List Host.Cell) :
    Memory.wf m = true ↔ m.Pairwise (fun a b => a.1 < b.1) ∧ ∀ c ∈ m, c.2 ≠ 0 := by
  induction m with
  | nil => simp [Memory.wf]
  | cons c r ih =>
    obtain ⟨x, b⟩ := c
    cases r with
    | nil => simp [Memory.wf]
    | cons d q =>
      obtain ⟨y, e⟩ := d
      simp only [Memory.wf, Bool.and_eq_true, bne_iff_ne, decide_eq_true_eq]
      rw [ih]
      constructor
      · rintro ⟨⟨hb, hxy⟩, hp, hz⟩
        refine ⟨List.pairwise_cons.2 ⟨fun c hc => ?_, hp⟩, fun c hc => ?_⟩
        · rcases List.mem_cons.1 hc with rfl | hc
          · exact hxy
          · exact Nat.lt_trans hxy ((List.pairwise_cons.1 hp).1 c hc)
        · rcases List.mem_cons.1 hc with rfl | hc
          · exact hb
          · exact hz c hc
      · rintro ⟨hp, hz⟩
        have h1 := List.pairwise_cons.1 hp
        exact ⟨⟨hz _ (List.mem_cons_self ..), h1.1 _ (List.mem_cons_self ..)⟩, h1.2, fun c hc => hz c (List.mem_cons_of_mem _ hc)⟩

theorem memPut_mem {m : List Host.Cell} {a : Nat} {b : Byte} {c : Host.Cell} (h : c ∈ memPut m a b) :
    (c = (a, b) ∧ b ≠ 0) ∨ c ∈ m := by
  induction m with
  | nil => unfold memPut at h; split at h <;> simp_all
  | cons d r ih =>
    obtain ⟨x, y⟩ := d
    unfold memPut at h
    split at h
    · split at h
      · exact Or.inr h
      · rcases List.mem_cons.1 h with rfl | h
        · exact Or.inl ⟨rfl, by assumption⟩
        · exact Or.inr h
    · split at h
      · split at h
        · exact Or.inr (List.mem_cons_of_mem _ h)
        · rcases List.mem_cons.1 h with rfl | h
          · exact Or.inl ⟨rfl, by assumption⟩
          · exact Or.inr (List.mem_cons_of_mem _ h)
      · rcases List.mem_cons.1 h with rfl | h
        · exact Or.inr (List.mem_cons_self ..)
        · exact (ih h).imp id (List.mem_cons_of_mem _)

theorem memPut_wf {m : List Host.Cell} (a : Nat) (b : Byte) (h : Memory.wf m = true) : Memory.wf (memPut m a b) = true := by
  rw [wf_iff] at h ⊢
  obtain ⟨hp, hz⟩ := h
  refine ⟨?_, fun c hc => ?_⟩
  · induction m with
    | nil => unfold memPut; split <;> simp
    | cons d r ih =>
      obtain ⟨x, y⟩ := d
      have h1 := List.pairwise_cons.1 hp
      unfold memPut
      split
      · rename_i hlt
        split
        · exact hp
        · refine List.pairwise_cons.2 ⟨fun c hc => ?_, hp⟩
          rcases List.mem_cons.1 hc with rfl | hc
          · exact hlt
          · exact Nat.lt_trans hlt (h1.1 c hc)
      · split
        · rename_i hx
          subst hx
          split
          · exact h1.2
          · exact List.pairwise_cons.2 ⟨h1.1, h1.2⟩
        · rename_i h2 h3
          refine List.pairwise_cons.2 ⟨fun c hc => ?_, ih h1.2 fun c hc => hz c (List.mem_cons_of_mem _ hc)⟩
          rcases memPut_mem hc with ⟨rfl, -⟩ | hc
          · show x < a; omega
          · exact h1.1 c hc
  · rcases memPut_mem hc with ⟨rfl, hb⟩ | hc
    · exact hb
    · exact hz c hc

theorem memWrite_wf (p : List Byte) (a : Nat) {m : List Host.Cell} (h : Memory.wf m = true) : Memory.wf (memWrite m a p) = true := by
  induction p generalizing m a with
  | nil => exact h
  | cons b r ih => exact ih (a + 1) (memPut_wf a b h)

theorem memZero_wf (a n : Nat) {m : List Host.Cell} (h : Memory.wf m = true) : Memory.wf (memZero m a n) = true := by
  rw [wf_iff] at h ⊢
  exact ⟨h.1.filter _, fun c hc => h.2 c (List.mem_of_mem_filter hc)⟩

/-! Reads after writes. -/

theorem memGet_none {m : List Host.Cell} {a : Nat} (h : ∀ c ∈ m, c.1 ≠ a) : memGet m a = 0 := by
  induction m with
  | nil => rfl
  | cons d r ih =>
    obtain ⟨x, y⟩ := d
    unfold memGet
    rw [if_neg (h _ (List.mem_cons_self ..))]
    exact ih fun c hc => h c (List.mem_cons_of_mem _ hc)

theorem memGet_put_other (m : List Host.Cell) {a c : Nat} (b : Byte) (h : c ≠ a) : memGet (memPut m a b) c = memGet m c := by
  induction m with
  | nil => unfold memPut; split <;> simp [memGet, Ne.symm h]
  | cons d r ih =>
    obtain ⟨x, y⟩ := d
    unfold memPut
    split
    · split
      · rfl
      · simp [memGet, Ne.symm h]
    · split
      · rename_i hx
        subst hx
        split <;> simp [memGet, Ne.symm h]
      · simp only [memGet, ih]

theorem memGet_put_same {m : List Host.Cell} (a : Nat) (b : Byte) (h : Memory.wf m = true) : memGet (memPut m a b) a = b := by
  rw [wf_iff] at h
  obtain ⟨hp, -⟩ := h
  induction m with
  | nil =>
    unfold memPut
    split
    · rename_i hb; simp [memGet, hb]
    · simp [memGet]
  | cons d r ih =>
    obtain ⟨x, y⟩ := d
    have h1 := List.pairwise_cons.1 hp
    unfold memPut
    split
    · rename_i hlt
      split
      · rename_i hb
        rw [hb]
        refine memGet_none fun c hc => ?_
        rcases List.mem_cons.1 hc with rfl | hc
        · show x ≠ a; omega
        · have : x < c.1 := h1.1 c hc
          omega
      · simp [memGet]
    · split
      · rename_i hx
        subst hx
        split
        · rename_i hb
          rw [hb]
          refine memGet_none fun c hc => ?_
          have : a < c.1 := h1.1 c hc
          omega
        · simp [memGet]
      · rename_i hx
        simp only [memGet]
        rw [if_neg (fun e => hx e.symm)]
        exact ih h1.2

theorem memGet_write_other (p : List Byte) {a c : Nat} (m : List Host.Cell) (h : c < a ∨ a + p.length ≤ c) :
    memGet (memWrite m a p) c = memGet m c := by
  induction p generalizing a m with
  | nil => rfl
  | cons b r ih =>
    simp only [List.length_cons] at h
    simp only [memWrite]
    rw [ih (a := a + 1) _ (by omega), memGet_put_other _ _ (by omega)]

theorem memRead_write (p : List Byte) (a : Nat) {m : List Host.Cell} (h : Memory.wf m = true) :
    memRead (memWrite m a p) a p.length = p := by
  induction p generalizing a m with
  | nil => rfl
  | cons b r ih =>
    have h1 := ih (a + 1) (memPut_wf a b h)
    unfold memRead at h1 ⊢
    simp only [List.length_cons, List.range_succ_eq_map, List.map_cons, List.map_map, memWrite, Nat.add_zero]
    congr 1
    · rw [memGet_write_other _ _ (Or.inl (Nat.lt_succ_self a)), memGet_put_same a b h]
    · rw [← h1]
      simp only [List.length_map, List.length_range]
      refine List.map_congr_left fun i _ => ?_
      simp only [Function.comp_apply]
      rw [Nat.succ_eq_add_one, show a + (i + 1) = a + 1 + i by omega, h1]

/-! The shared operations that touch it keep the form. -/

theorem loftPoke_wf (a : Nat) (p : List Byte) {s : State} (h : Machine.Inv s) : Machine.Inv (loftPoke a p s) := memWrite_wf p a h

theorem recWrite_wf (r : Rec) {s : State} (h : Machine.Inv s) : Machine.Inv (recWrite r s) := by
  have e : (recWrite r s).loft = (loftPoke (recAddr s s.ev.recSeq) (recBytes { r with seq := s.ev.recSeq, touch := 2 }) s).loft := by
    unfold recWrite when'; simp only; split <;> rfl
  unfold Machine.Inv
  rw [e]
  exact loftPoke_wf _ _ h

end Sys2Proof.Laws
end

