-- ==== Sys2Proof/Laws/Quiet.lean ====
section
/-!
SUPPORT. Events, notifications, replies and the code of the hayloft leave everything alone but what `quiet` sets aside: one lemma per
shared operation, and from it what they leave of each part of the state.
-/

namespace Sys2Proof.Laws

open Sys2Proof Sys2Proof.Machine

theorem quiet_each {α : Type} (l : List α) (f : α → State → State) (h : ∀ a s, quiet (f a s) = quiet s) (s : State) :
    quiet (each l f s) = quiet s := by
  unfold each
  induction l generalizing s with
  | nil => rfl
  | cons a r ih => simp only [List.foldl_cons, ih, h]

theorem quiet_when (c : Bool) (f : State → State) (h : ∀ s, quiet (f s) = quiet s) (s : State) :
    quiet (when' c f s) = quiet s := by
  unfold when'; split
  · exact h s
  · rfl

theorem map_modify_of {α β : Type} (g : α → β) (f : α → α) (h : ∀ a, g (f a) = g a) (l : List α) (i : Nat) :
    (l.modify i f).map g = l.map g := by
  induction l generalizing i with
  | nil => simp
  | cons a r ih => cases i with
    | zero => simp [h]
    | succ n => simpa using ih n

/-! Counters, stamps and the hayloft. -/

@[simp] theorem quiet_onCtr (s : State) (f : Ctrs → Ctrs) : quiet (s.onCtr f) = quiet s := rfl
@[simp] theorem quiet_tookFree (s : State) : quiet (tookFree s) = quiet s := rfl
@[simp] theorem quiet_cntEnd (e : Bool) (i : Nat) (s : State) : quiet (cntEnd e i s) = quiet s := rfl
@[simp] theorem quiet_cntTalk (a i : Nat) (s : State) : quiet (cntTalk a i s) = quiet s := rfl
@[simp] theorem quiet_cntEvBy (i n : Nat) (s : State) : quiet (cntEvBy i n s) = quiet s := rfl
@[simp] theorem quiet_cntEv (i : Nat) (s : State) : quiet (cntEv i s) = quiet s := rfl
@[simp] theorem quiet_cntCmd (i : Nat) (s : State) : quiet (cntCmd i s) = quiet s := rfl
@[simp] theorem quiet_cntLoft (i : Nat) (s : State) : quiet (cntLoft i s) = quiet s := rfl
@[simp] theorem quiet_cntStrmBy (i n : Nat) (s : State) : quiet (cntStrmBy i n s) = quiet s := rfl
@[simp] theorem quiet_cntStrm (i : Nat) (s : State) : quiet (cntStrm i s) = quiet s := rfl
@[simp] theorem quiet_cntHost (i : Nat) (s : State) : quiet (cntHost i s) = quiet s := rfl
@[simp] theorem quiet_cntInaug (i : Nat) (s : State) : quiet (cntInaug i s) = quiet s := rfl
@[simp] theorem quiet_cntTime (i : Nat) (s : State) : quiet (cntTime i s) = quiet s := rfl

@[simp] theorem quiet_noteStamp (s : State) : quiet (noteStamp s) = quiet s := by
  unfold noteStamp; split <;> rfl

@[simp] theorem quiet_loftPoke (a : Nat) (p : List Byte) (s : State) : quiet (loftPoke a p s) = quiet s := rfl

/-! Stream queues. -/

@[simp] theorem quiet_strmWait (s : State) : quiet (strmWait s) = quiet s := by
  unfold strmWait; split <;> rfl

@[simp] theorem quiet_strmQueue (f : SFrame) (s : State) : quiet (strmQueue f s).1 = quiet s := by
  unfold strmQueue; split
  · rfl
  · simp only [quiet_strmWait, quiet_cntStrmBy]; rfl

/-! The recorder. -/

theorem quiet_onEv (f : EvSt → EvSt) (s : State)
    (h : (f s.ev).routes = s.ev.routes ∧ (f s.ev).remote = s.ev.remote ∧ (f s.ev).prio = s.ev.prio ∧ (f s.ev).dest = s.ev.dest) :
    quiet (s.onEv f) = quiet s := by
  simp only [quiet, State.onEv, h]

@[simp] theorem quiet_recWrite (r : Rec) (s : State) : quiet (recWrite r s) = quiet s := by
  unfold recWrite when'; simp only
  have h := quiet_onEv (fun e => { e with newest := some { r with seq := s.ev.recSeq, touch := 2 }, recSeq := e.recSeq + 1, recCount := e.recCount + 1 })
    (loftPoke (recAddr s s.ev.recSeq) (recBytes { r with seq := s.ev.recSeq, touch := 2 }) s) ⟨rfl, rfl, rfl, rfl⟩
  rw [quiet_loftPoke] at h
  split <;> simp only [quiet_cntEv] <;> exact h

theorem quiet_onLoft (f : LoftSt → LoftSt) (s : State)
    (h : { f s.loft with mem := [], damage := [], writeBack := [], lastUe := 0 } = { s.loft with mem := [], damage := [], writeBack := [], lastUe := 0 }) :
    quiet (s.onLoft f) = quiet s := by
  simp only [quiet, State.onLoft]
  rw [h]

@[simp] theorem quiet_recFold (e : Event) (n : Nat) (s : State) : quiet (recFold e n s) = quiet s := by
  unfold recFold
  split
  · exact quiet_recWrite _ _
  · split
    · simp only
      split
      · rw [quiet_recWrite, quiet_each _ _ (fun _ t => quiet_cntLoft 12 t), quiet_onLoft _ _ rfl, quiet_cntEv, quiet_onEv _ _ ⟨rfl, rfl, rfl, rfl⟩]
      · rw [quiet_each _ _ (fun _ t => quiet_cntLoft 12 t), quiet_onLoft _ _ rfl, quiet_cntEv, quiet_onEv _ _ ⟨rfl, rfl, rfl, rfl⟩]
    · exact quiet_recWrite _ _

theorem quiet_ite (c : Prop) [Decidable c] (a b : State) (s : State) (ha : quiet a = quiet s) (hb : quiet b = quiet s) :
    quiet (if c then a else b) = quiet s := by
  split
  · exact ha
  · exact hb

@[simp] theorem quiet_recordEvent (e : Event) (s : State) : quiet (recordEvent e s) = quiet s := by
  unfold recordEvent
  apply quiet_ite
  · exact quiet_recFold _ _ _
  · split
    · apply quiet_ite
      · rw [quiet_cntEv]; exact quiet_onEv _ _ ⟨rfl, rfl, rfl, rfl⟩
      · apply quiet_ite
        · exact quiet_onEv _ _ ⟨rfl, rfl, rfl, rfl⟩
        · rw [quiet_cntEv]; exact quiet_onEv _ _ ⟨rfl, rfl, rfl, rfl⟩
    · apply quiet_ite
      · exact quiet_onEv _ _ ⟨rfl, rfl, rfl, rfl⟩
      · rw [quiet_cntEv]; exact quiet_onEv _ _ ⟨rfl, rfl, rfl, rfl⟩

@[simp] theorem quiet_clockMark (c : Nat) (s : State) : quiet (clockMark c s) = quiet s := by
  unfold clockMark; simp only; split
  · simp
  · rfl

@[simp] theorem quiet_resumeRecord (c : Nat) (s : State) : quiet (resumeRecord c s) = quiet s := by
  unfold resumeRecord; simp only; split
  · simp
  · rfl

/-! Sentences of event talkers. -/

@[simp] theorem quiet_sentenceIn (x : Sentence) (s : State) : quiet (sentenceIn x s) = quiet s := by
  unfold sentenceIn; simp only; split <;> rfl

@[simp] theorem quiet_offerTalker (a b : Nat) (st : Stamp) (k : Nat) (s : State) : quiet (offerTalker a b st k s) = quiet s := by
  unfold offerTalker; simp only
  split
  · split
    · exact quiet_sentenceIn _ _
    · exact quiet_cntTalk _ _ _
  · rfl

/-! Events. -/

@[simp] theorem quiet_ringHost (n : Nat) (s : State) : quiet (ringHost n s) = quiet s := rfl

@[simp] theorem quiet_evFrameClose (s : State) : quiet (evFrameClose s).1 = quiet s := by
  unfold evFrameClose; split
  · rfl
  · exact (quiet_strmQueue _ s : quiet (strmQueue _ s).1 = quiet s)

@[simp] theorem quiet_evToStream (e : Event) (n : Nat) (s : State) : quiet (evToStream e n s) = quiet s := rfl

@[simp] theorem quiet_evToTrain (d : Nat) (e : Event) (n : Nat) (s : State) : quiet (evToTrain d e n s) = quiet s := by
  unfold evToTrain; split
  · rfl
  · split <;> rfl

@[simp] theorem quiet_routeEvent (k : Nat) (e : Event) (s : State) : quiet (routeEvent k e s) = quiet s := by
  unfold routeEvent
  simp only
  rw [quiet_when _ _ (fun s => quiet_evToTrain _ _ _ s), quiet_when _ _ (fun s => quiet_each _ _ (fun _ t => quiet_offerTalker _ _ _ _ t) s),
    quiet_when _ _ (fun s => quiet_recordEvent _ s), quiet_when _ _ (fun s => quiet_evToStream _ _ s),
    quiet_when _ _ (fun s => quiet_onEv _ s ⟨rfl, rfl, rfl, rfl⟩),
    quiet_when _ _ (fun s => quiet_ringHost _ s), quiet_when _ (fun t => t.onHost fun h => { h with evPend := h.evPend ||| 2 ^ k }) (fun _ => rfl),
    quiet_cntEv]

@[simp] theorem quiet_raiseAt (st : Stamp) (a b c d : Nat) (s : State) : quiet (raiseAt st a b c d s) = quiet s := by
  unfold raiseAt
  split <;> first
    | rfl
    | exact (quiet_onEv _ _ ⟨rfl, rfl, rfl, rfl⟩).trans (quiet_noteStamp s)

@[simp] theorem quiet_raiseCode (a b c d : Nat) (s : State) : quiet (raiseCode a b c d s) = quiet s := quiet_raiseAt _ _ _ _ _ _
@[simp] theorem quiet_raise2 (a b c : Nat) (s : State) : quiet (raise2 a b c s) = quiet s := quiet_raiseCode _ _ _ _ _
@[simp] theorem quiet_raise (a b : Nat) (s : State) : quiet (raise a b s) = quiet s := quiet_raise2 _ _ _ _

theorem quiet_firstInCycle (k : Nat) (f : State → State) (h : ∀ s, quiet (f s) = quiet s) (s : State) :
    quiet (firstInCycle k f s) = quiet s := by
  unfold firstInCycle; simp only; split
  · rfl
  · rw [h]; rfl

@[simp] theorem quiet_raiseFirst (k a b : Nat) (s : State) : quiet (raiseFirst k a b s) = quiet s :=
  quiet_firstInCycle _ _ (fun _ => quiet_raise _ _ _) _

@[simp] theorem quiet_strmPush (f : SFrame) (s : State) : quiet (strmPush f s) = quiet s := by
  unfold strmPush; simp only; split <;> simp

@[simp] theorem quiet_strmCloseEvents (s : State) : quiet (strmCloseEvents s) = quiet s := by
  unfold strmCloseEvents; simp only; split <;> simp

@[simp] theorem quiet_routeNext (e : Event) (s : State) : quiet (routeNext e s) = quiet s := by
  unfold routeNext; simp only; split <;> simp

/-- Routing the events of a lane clock cycle (R443) is quiet. -/
@[simp] theorem quiet_flushEvents (s : State) : quiet (flushEvents s) = quiet s := by
  unfold flushEvents
  rw [quiet_each _ _ quiet_routeNext]
  exact quiet_onEv _ _ ⟨rfl, rfl, rfl, rfl⟩

@[simp] theorem quiet_strmStatus (a b c d : Nat) (s : State) : quiet (strmStatus a b c d s) = quiet s := by
  unfold strmStatus; split
  · simp only [quiet_strmWait, quiet_cntStrm]; rfl
  · rfl

/-! The hayloft with its code. -/

@[simp] theorem quiet_noteCorrected (c : Nat) (s : State) : quiet (noteCorrected c s) = quiet s := by
  unfold noteCorrected; simp only
  apply quiet_ite
  · rw [quiet_raise2, quiet_onEv _ _ ⟨rfl, rfl, rfl, rfl⟩, quiet_cntLoft]
  · rw [quiet_onEv _ _ ⟨rfl, rfl, rfl, rfl⟩, quiet_cntLoft]

@[simp] theorem quiet_noteUncorrectable (c w : Nat) (s : State) : quiet (noteUncorrectable c w s) = quiet s := by
  unfold noteUncorrectable; simp only [quiet_raise2]; rfl

theorem quiet_foldl {α : Type} (l : List α) (f : Bool × State → α → Bool × State) (h : ∀ x a, quiet (f x a).2 = quiet x.2) (x : Bool × State) :
    quiet (l.foldl f x).2 = quiet x.2 := by
  induction l generalizing x with
  | nil => rfl
  | cons a r ih => simp only [List.foldl_cons, ih, h]

@[simp] theorem quiet_loftCheck (a n w : Nat) (s : State) : quiet (loftCheck a n w s).2 = quiet s := by
  unfold loftCheck
  rw [quiet_foldl]
  intro x cw
  split
  · rfl
  · rw [quiet_noteCorrected]; exact quiet_onLoft _ _ rfl
  · exact quiet_noteUncorrectable _ _ _
  · exact quiet_noteUncorrectable _ _ _

@[simp] theorem quiet_loftWrite (a : Nat) (p : List Byte) (w : Nat) (s : State) : quiet (loftWrite a p w s) = quiet s := by
  unfold loftWrite; simp only
  rw [quiet_each _ _ (fun _ t => by rw [quiet_noteUncorrectable, quiet_cntLoft]), quiet_each _ _ (fun _ t => quiet_noteCorrected _ t)]
  rfl

/-! The collector. -/

@[simp] theorem quiet_takeEntry (c : ColEntry) (s : State) : quiet (takeEntry c s) = quiet s := by
  unfold takeEntry; split <;> simp

@[simp] theorem quiet_placeLost (s : State) : quiet (placeLost s) = quiet s := by
  unfold placeLost; simp only
  apply quiet_ite
  · rfl
  · rw [quiet_raiseCode, quiet_onEv _ _ ⟨rfl, rfl, rfl, rfl⟩]

@[simp] theorem quiet_flushCollector (n : Nat) (s : State) : quiet (flushCollector n s) = quiet s := by
  induction n generalizing s with
  | zero => rfl
  | succ n ih =>
    unfold flushCollector; split
    · rfl
    · rw [ih, quiet_placeLost, quiet_takeEntry, quiet_onEv _ _ ⟨rfl, rfl, rfl, rfl⟩]

/-- So is writing the collector out (R475, R488). -/
@[simp] theorem quiet_writeOut (s : State) : quiet (writeOut s) = quiet s := by
  unfold writeOut; simp

/-! Outbound slots, replies and notifications. -/

theorem quiet_modMang (ch : Nat) (f : Manger → Manger) (h : ∀ m, quietMang (f m) = quietMang m) (s : State) :
    quiet (modMang ch f s) = quiet s := by
  have e := map_modify_of quietMang f h s.host.mang ch
  simp only [quiet, modMang, State.onHost, e]

@[simp] theorem quiet_trainSend (f : TxFrame) (s : State) : quiet (trainSend f s) = quiet s := rfl

@[simp] theorem quiet_ctlSend (d : Nat) (t : TxTag) (p : List Byte) (s : State) : quiet (ctlSend d t p s) = quiet s := by
  unfold ctlSend; split <;> rfl

@[simp] theorem quiet_ctlSendAll (p : List Byte) (s : State) : quiet (ctlSendAll p s) = quiet s := rfl

@[simp] theorem quiet_remoteServed (ch : Nat) (s : State) : quiet (remoteServed ch s) = quiet s := by
  unfold remoteServed
  have h := quiet_modMang ch (fun m => { m with outFull := false }) (fun _ => rfl) s
  exact h

@[simp] theorem quiet_replyRemote (ch : Nat) (w : List Word) (s : State) : quiet (replyRemote ch w s) = quiet s := by
  unfold replyRemote
  split
  · simp
  · split
    · simp
    · simp only; split
      · rw [quiet_remoteServed, quiet_ctlSend]; rfl
      · rw [quiet_ctlSend]; rfl

@[simp] theorem quiet_commitOut (ch : Nat) (w : List Word) (n : Nat) (s : State) : quiet (commitOut ch w n s) = quiet s := by
  unfold commitOut; simp only
  have h := quiet_modMang ch (fun m => { m with
      outMsg := w ++ m.outMsg.drop w.length, outFull := true, outSender := coreId, outSession := n }) (fun _ => rfl) s
  split
  · rw [quiet_replyRemote, quiet_ringHost, h]
  · split
    · rw [quiet_strmWait, quiet_ringHost, h]
    · rw [quiet_ringHost, h]

@[simp] theorem quiet_outPut (ch : Nat) (w : List Word) (n : Nat) (s : State) : quiet (outPut ch w n s) = quiet s := by
  unfold outPut
  have h1 := quiet_modMang ch (fun m => { m with outDrop := min (m.outDrop + 1) 0xFFFF })
  have h2 := quiet_modMang ch (fun m => { m with held := m.held ++ [{ words := w, session := n, sender := coreId }] }) (fun _ => rfl) s
  split
  · rw [quiet_raise]; exact h1 (fun _ => rfl) s
  · split
    · exact h2
    · simp

@[simp] theorem quiet_yardSend (y : YSess) (m : Nat) (w : List Word) (s : State) : quiet (yardSend y m w s) = quiet s := rfl

@[simp] theorem quiet_notifyCh (ch n : Nat) (p : List (List Word)) (s : State) : quiet (notifyCh ch n p s) = quiet s := by
  unfold notifyCh; split
  · rfl
  · exact quiet_each _ _ (fun _ _ => quiet_outPut _ _ _ _) _

@[simp] theorem quiet_notifyAll (p : List (List Word)) (s : State) : quiet (notifyAll p s) = quiet s := by
  unfold notifyAll; simp only
  rw [quiet_each _ _ (fun _ t => quiet_each _ _ (fun _ u => quiet_yardSend _ _ _ u) t)]
  split <;> split <;> simp

@[simp] theorem quiet_notifySession (n : Nat) (p : List (List Word)) (s : State) : quiet (notifySession n p s) = quiet s := by
  unfold notifySession
  split
  · rfl
  · split
    · simp
    · split
      · simp
      · split
        · exact quiet_each _ _ (fun _ u => quiet_yardSend _ _ _ u) _
        · rfl

@[simp] theorem quiet_notifyVia (v : Via) (n : Nat) (p : List (List Word)) (s : State) : quiet (notifyVia v n p s) = quiet s := by
  unfold notifyVia; split
  · split <;> simp
  · simp

@[simp] theorem quiet_notifyState (o : Nat) (s : State) : quiet (notifyState o s) = quiet s := quiet_notifyAll _ _

@[simp] theorem quiet_orderFlush (ch n : Nat) (s : State) : quiet (orderFlush ch n s) = quiet s := by
  induction n generalizing s with
  | zero => rfl
  | succ n ih =>
    unfold orderFlush
    split
    · rw [ih, quiet_outPut]; rfl
    · rfl

@[simp] theorem quiet_outReply (ch : Nat) (c : Ctx) (w : List Word) (s : State) : quiet (outReply ch c w s) = quiet s := by
  unfold outReply; split
  · rw [quiet_orderFlush]; rfl
  · rw [quiet_outPut]

@[simp] theorem quiet_reply (c : Ctx) (a d : Nat) (l : List Nat) (s : State) : quiet (reply c a d l s) = quiet s := by
  unfold reply; simp only
  have h : quiet (if a == 0 then s else cntCmd 1 s) = quiet s := by split <;> rfl
  generalize (if a == 0 then s else cntCmd 1 s) = u at h ⊢
  split
  · rw [quiet_outReply, h]
  · split
    · split
      · rw [quiet_yardSend]
        refine Eq.trans ?_ h
        have e := map_modify_of (fun y : YSess => { y with reply := [] }) (fun z => { z with reply := replyWords c a d l }) (fun _ => rfl)
          u.yard.sess
        simp only [quiet, State.onYard, State.onHost, e]
      · exact h
    · exact h

@[simp] theorem quiet_replyOk (c : Ctx) (l : List Nat) (s : State) : quiet (replyOk c l s) = quiet s := quiet_reply _ _ _ _ _
@[simp] theorem quiet_badParam (c : Ctx) (a b : Nat) (s : State) : quiet (badParam c a b s) = quiet s := quiet_reply _ _ _ _ _
@[simp] theorem quiet_stateError (c : Ctx) (s : State) : quiet (stateError c s) = quiet s := quiet_reply _ _ _ _ _

/-! What follows for each part. -/

theorem sys_of_quiet {s t : State} (h : quiet t = quiet s) : t.sys = s.sys := by
  have e := congrArg State.sys h
  exact e
theorem ends_of_quiet {s t : State} (h : quiet t = quiet s) : t.ends = s.ends := by
  have e := congrArg State.ends h
  exact e
theorem inaug_of_quiet {s t : State} (h : quiet t = quiet s) : t.inaug = s.inaug := by
  have e := congrArg State.inaug h
  exact e
theorem ldr_of_quiet {s t : State} (h : quiet t = quiet s) : t.ldr = s.ldr := by
  have e := congrArg State.ldr h
  exact e
theorem ref_of_quiet {s t : State} (h : quiet t = quiet s) : t.ref = s.ref := by
  have e := congrArg State.ref h
  exact e
theorem teth_of_quiet {s t : State} (h : quiet t = quiet s) : t.teth = s.teth := by
  have e := congrArg State.teth h
  exact e
theorem plan_of_quiet {s t : State} (h : quiet t = quiet s) : t.plan = s.plan := by
  have e := congrArg State.plan h
  exact e
theorem ports_of_quiet {s t : State} (h : quiet t = quiet s) : t.ports = s.ports := by
  have e := congrArg State.ports h
  exact e
theorem fld_of_quiet {s t : State} (h : quiet t = quiet s) : t.fld = s.fld := by
  have e := congrArg State.fld h
  exact e
theorem sec_of_quiet {s t : State} (h : quiet t = quiet s) : t.sec = s.sec := by
  have e := congrArg State.sec h
  exact e
theorem cmd_of_quiet {s t : State} (h : quiet t = quiet s) : t.cmd = s.cmd := by
  have e := congrArg State.cmd h
  exact e
theorem flash_of_quiet {s t : State} (h : quiet t = quiet s) : t.flash = s.flash := by
  have e := congrArg State.flash h
  exact e
theorem rcp_of_quiet {s t : State} (h : quiet t = quiet s) : t.rcp = s.rcp := by
  have e := congrArg State.rcp h
  exact e
theorem snap_of_quiet {s t : State} (h : quiet t = quiet s) : t.snap = s.snap := by
  have e := congrArg State.snap h
  exact e
theorem pending_of_quiet {s t : State} (h : quiet t = quiet s) : t.pending = s.pending := by
  have e := congrArg State.pending h
  exact e
theorem c_of_quiet {s t : State} (h : quiet t = quiet s) : t.clk.c = s.clk.c := by
  have e := congrArg (fun x : State => x.clk.c) h
  exact e

end Sys2Proof.Laws
end

