-- ==== Sys2Proof/Laws/Form.lean ====
section
/-!
SUPPORT. Every shared operation that reports, or that reads or writes the hayloft, keeps its canonical form (R455, R463): one lemma for
each, for the invariant of every step.
-/

namespace Sys2Proof.Laws

open Sys2Proof Sys2Proof.Machine

/-- An operation that leaves the bytes of the hayloft alone keeps their form. -/
theorem form_of_mem {s t : State} (e : t.loft.mem = s.loft.mem) (h : Machine.Inv s) : Machine.Inv t := by
  unfold Machine.Inv at *
  rw [e]
  exact h

theorem form_each {α : Type} (l : List α) (f : α → State → State) (hf : ∀ a s, Machine.Inv s → Machine.Inv (f a s)) {s : State}
    (h : Machine.Inv s) : Machine.Inv (each l f s) := by
  unfold each
  induction l generalizing s with
  | nil => exact h
  | cons a r ih => exact ih (hf a s h)

theorem form_when (c : Bool) (f : State → State) (hf : ∀ s, Machine.Inv s → Machine.Inv (f s)) {s : State} (h : Machine.Inv s) :
    Machine.Inv (when' c f s) := by
  unfold when'; split
  · exact hf s h
  · exact h

theorem form_ite (c : Prop) [Decidable c] {a b : State} (ha : Machine.Inv a) (hb : Machine.Inv b) : Machine.Inv (if c then a else b) := by
  split
  · exact ha
  · exact hb

/-! Parts of the state that hold no byte of the hayloft. -/

theorem form_onSys {s : State} (f) (h : Machine.Inv s) : Machine.Inv (s.onSys f) := h
theorem form_onEnds {s : State} (f) (h : Machine.Inv s) : Machine.Inv (s.onEnds f) := h
theorem form_onLane {s : State} (f) (h : Machine.Inv s) : Machine.Inv (s.onLane f) := h
theorem form_onInaug {s : State} (f) (h : Machine.Inv s) : Machine.Inv (s.onInaug f) := h
theorem form_onLdr {s : State} (f) (h : Machine.Inv s) : Machine.Inv (s.onLdr f) := h
theorem form_onClk {s : State} (f) (h : Machine.Inv s) : Machine.Inv (s.onClk f) := h
theorem form_onRef {s : State} (f) (h : Machine.Inv s) : Machine.Inv (s.onRef f) := h
theorem form_onTeth {s : State} (f) (h : Machine.Inv s) : Machine.Inv (s.onTeth f) := h
theorem form_onPlan {s : State} (f) (h : Machine.Inv s) : Machine.Inv (s.onPlan f) := h
theorem form_onSent {s : State} (f) (h : Machine.Inv s) : Machine.Inv (s.onSent f) := h
theorem form_onFld {s : State} (f) (h : Machine.Inv s) : Machine.Inv (s.onFld f) := h
theorem form_onSec {s : State} (f) (h : Machine.Inv s) : Machine.Inv (s.onSec f) := h
theorem form_onYard {s : State} (f) (h : Machine.Inv s) : Machine.Inv (s.onYard f) := h
theorem form_onHost {s : State} (f) (h : Machine.Inv s) : Machine.Inv (s.onHost f) := h
theorem form_onStrm {s : State} (f) (h : Machine.Inv s) : Machine.Inv (s.onStrm f) := h
theorem form_onBrg {s : State} (f) (h : Machine.Inv s) : Machine.Inv (s.onBrg f) := h
theorem form_onEv {s : State} (f) (h : Machine.Inv s) : Machine.Inv (s.onEv f) := h
theorem form_onFlash {s : State} (f) (h : Machine.Inv s) : Machine.Inv (s.onFlash f) := h
theorem form_onCmd {s : State} (f) (h : Machine.Inv s) : Machine.Inv (s.onCmd f) := h
theorem form_onSnap {s : State} (f) (h : Machine.Inv s) : Machine.Inv (s.onSnap f) := h
theorem form_onRcp {s : State} (f) (h : Machine.Inv s) : Machine.Inv (s.onRcp f) := h
theorem form_onCtr {s : State} (f) (h : Machine.Inv s) : Machine.Inv (s.onCtr f) := h

/-! The recorder. -/

theorem form_noteStamp {s : State} (h : Machine.Inv s) : Machine.Inv (noteStamp s) := by
  unfold noteStamp; split
  · exact h
  · exact h

/-- Bytes written, and whatever else of the hayloft changes. -/
theorem form_poked (a : Nat) (p : List Byte) {s t : State} (f : LoftSt → LoftSt) (h : Machine.Inv s)
    (e : (f t.loft).mem = memWrite s.loft.mem a p := by rfl) : Machine.Inv (t.onLoft f) := by
  unfold Machine.Inv at *
  show Memory.wf (f t.loft).mem = true
  rw [e]
  exact memWrite_wf p a h

theorem form_recFold (e : Event) (n : Nat) {s : State} (h : Machine.Inv s) : Machine.Inv (recFold e n s) := by
  unfold recFold
  split
  · exact recWrite_wf _ h
  · split
    · simp only
      have h1 : ∀ (l : List (Nat × Damage)) (u : State), Machine.Inv u → Machine.Inv (each l (fun _ => cntLoft 12) u) :=
        fun l u hu => form_each l (fun _ => cntLoft 12) (fun _ _ ht => ht) hu
      split
      · refine recWrite_wf _ (h1 _ _ ?_)
        exact form_poked _ _ _ h
      · refine h1 _ _ ?_
        exact form_poked _ _ _ h
    · exact recWrite_wf _ h

theorem form_recordEvent (e : Event) {s : State} (h : Machine.Inv s) : Machine.Inv (recordEvent e s) := by
  unfold recordEvent
  refine form_ite _ (form_recFold _ _ h) ?_
  split
  · exact form_ite _ h (form_ite _ h h)
  · exact form_ite _ h h

theorem form_clockMark (c : Nat) {s : State} (h : Machine.Inv s) : Machine.Inv (clockMark c s) := by
  exact form_ite (s.ev.collector.isEmpty = true) (recWrite_wf
    { seq := 0, kind := 1, remote := false, source := sysSource s 0, code := c, rep := s.clk.tepoch * 65536 + s.clk.st.code * 4096,
      data := trainTime s % 2 ^ 32, touch := 0, data2 := trainTime s / 2 ^ 32 } h)
    (form_onEv (fun v => { v with collector := v.collector ++ [.mark
      { seq := 0, kind := 1, remote := false, source := sysSource s 0, code := c, rep := s.clk.tepoch * 65536 + s.clk.st.code * 4096,
        data := trainTime s % 2 ^ 32, touch := 0, data2 := trainTime s / 2 ^ 32 }] }) h)

theorem form_resumeRecord (c : Nat) {s : State} (h : Machine.Inv s) : Machine.Inv (resumeRecord c s) := by
  unfold resumeRecord; simp only
  exact form_ite _ (recWrite_wf _ h) h

/-! Events. -/

theorem form_sentenceIn (x : Sentence) {s : State} (h : Machine.Inv s) : Machine.Inv (sentenceIn x s) := by
  unfold sentenceIn; simp only
  exact form_ite _ h h

theorem form_offerTalker (a b : Nat) (st : Stamp) (k : Nat) {s : State} (h : Machine.Inv s) : Machine.Inv (offerTalker a b st k s) := by
  unfold offerTalker; simp only
  split
  · split
    · exact form_sentenceIn _ h
    · exact h
  · exact h

theorem form_strmWait {s : State} (h : Machine.Inv s) : Machine.Inv (strmWait s) := by
  unfold strmWait; exact form_ite _ h h

theorem form_strmQueue (f : SFrame) {s : State} (h : Machine.Inv s) : Machine.Inv (strmQueue f s).1 := by
  unfold strmQueue; split
  · exact h
  · exact form_strmWait h

theorem form_evFrameClose {s : State} (h : Machine.Inv s) : Machine.Inv (evFrameClose s).1 := by
  unfold evFrameClose; split
  · exact h
  · exact form_onStrm _ (form_strmQueue _ h)

theorem form_evToTrain (d : Nat) (e : Event) (n : Nat) {s : State} (h : Machine.Inv s) : Machine.Inv (evToTrain d e n s) := by
  unfold evToTrain
  exact form_ite _ h (form_ite _ h h)

theorem form_routeEvent (k : Nat) (e : Event) {s : State} (h : Machine.Inv s) : Machine.Inv (routeEvent k e s) := by
  unfold routeEvent
  simp only
  refine form_when _ _ (fun _ => form_evToTrain _ _ _) ?_
  refine form_when _ _ (fun _ => form_each _ _ fun _ _ => form_offerTalker _ _ _ _) ?_
  refine form_when _ _ (fun _ => form_recordEvent _) ?_
  refine form_when _ _ (fun _ => form_onStrm _) ?_
  refine form_when _ _ (fun _ => form_onEv _) ?_
  refine form_when _ _ (fun _ => form_onHost _) ?_
  refine form_when _ _ (fun _ => form_onHost _) ?_
  exact form_onCtr _ h

theorem form_raiseAt (st : Stamp) (a b c d : Nat) {s : State} (h : Machine.Inv s) : Machine.Inv (raiseAt st a b c d s) := by
  unfold raiseAt
  split
  · exact h
  · exact h
  · exact h
  · exact h
  · exact form_onEv _ (form_noteStamp h)

theorem form_raiseCode (a b c d : Nat) {s : State} (h : Machine.Inv s) : Machine.Inv (raiseCode a b c d s) := form_raiseAt _ _ _ _ _ h
theorem form_raise2 (a b c : Nat) {s : State} (h : Machine.Inv s) : Machine.Inv (raise2 a b c s) := form_raiseCode _ _ _ _ h
theorem form_raise (a b : Nat) {s : State} (h : Machine.Inv s) : Machine.Inv (raise a b s) := form_raise2 _ _ _ h

theorem form_firstInCycle (k : Nat) (f : State → State) (hf : ∀ s, Machine.Inv s → Machine.Inv (f s)) {s : State} (h : Machine.Inv s) :
    Machine.Inv (firstInCycle k f s) := by
  unfold firstInCycle; simp only
  exact form_ite _ h (hf _ h)

theorem form_raiseFirst (k a b : Nat) {s : State} (h : Machine.Inv s) : Machine.Inv (raiseFirst k a b s) :=
  form_firstInCycle _ _ (fun _ => form_raise _ _) h

theorem form_strmPush (f : SFrame) {s : State} (h : Machine.Inv s) : Machine.Inv (strmPush f s) := by
  unfold strmPush; simp only
  exact form_ite _ (form_strmQueue _ h) (form_raiseFirst _ _ _ (form_strmQueue _ h))

theorem form_strmCloseEvents {s : State} (h : Machine.Inv s) : Machine.Inv (strmCloseEvents s) := by
  unfold strmCloseEvents; simp only
  exact form_ite _ (form_evFrameClose h) (form_raiseFirst _ _ _ (form_evFrameClose h))

theorem form_routeNext (e : Event) {s : State} (h : Machine.Inv s) : Machine.Inv (routeNext e s) := by
  unfold routeNext; simp only
  exact form_ite _ (form_strmCloseEvents (form_routeEvent _ _ h)) (form_routeEvent _ _ h)

theorem form_flushEvents {s : State} (h : Machine.Inv s) : Machine.Inv (flushEvents s) :=
  form_each _ _ (fun e _ => form_routeNext e) (form_onEv _ h)

theorem form_strmStatus (a b c d : Nat) {s : State} (h : Machine.Inv s) : Machine.Inv (strmStatus a b c d s) := by
  unfold strmStatus
  exact form_ite _ (form_strmWait h) h

/-! The hayloft with its code. -/

theorem form_noteCorrected (c : Nat) {s : State} (h : Machine.Inv s) : Machine.Inv (noteCorrected c s) := by
  unfold noteCorrected; simp only
  exact form_ite _ (form_raise2 _ _ _ h) h

theorem form_noteUncorrectable (c w : Nat) {s : State} (h : Machine.Inv s) : Machine.Inv (noteUncorrectable c w s) := by
  unfold noteUncorrectable
  exact form_raise2 _ _ _ h

theorem form_loftCheck (a n w : Nat) {s : State} (h : Machine.Inv s) : Machine.Inv (loftCheck a n w s).2 := by
  unfold loftCheck
  generalize codewords a n = l
  have key : ∀ (x : Bool × State), Machine.Inv x.2 → Machine.Inv (l.foldl (fun x cw =>
      match (x.2.loft.damage.find? fun d => d.1 == cw) with
      | none => x
      | some (_, .one) =>
        (x.1, noteCorrected cw (x.2.onLoft fun l => { l with writeBack := if l.writeBack.contains cw then l.writeBack else l.writeBack ++ [cw] }))
      | some (_, .two) => (false, noteUncorrectable cw w x.2)
      | some (_, .poisoned) => (false, noteUncorrectable cw (w + 512) x.2)) x).2 := by
    induction l with
    | nil => exact fun x hx => hx
    | cons c r ih =>
      intro x hx
      refine ih _ ?_
      dsimp only
      split
      · exact hx
      · exact form_noteCorrected _ hx
      · exact form_noteUncorrectable _ _ hx
      · exact form_noteUncorrectable _ _ hx
  exact key (true, s) h

theorem form_loftWrite (a : Nat) (p : List Byte) (w : Nat) {s : State} (h : Machine.Inv s) : Machine.Inv (loftWrite a p w s) := by
  have hit : ∀ (l : List Nat) (u : State), Machine.Inv u →
      Machine.Inv (each l (fun cw t => noteUncorrectable cw (w + 512) (cntLoft 12 t)) u) :=
    fun l u hu => form_each l _ (fun _ t ht => form_noteUncorrectable _ _ (show Machine.Inv (cntLoft 12 t) from ht)) hu
  have fix : ∀ (l : List Nat) (u : State), Machine.Inv u → Machine.Inv (each l noteCorrected u) :=
    fun l u hu => form_each l _ (fun c t ht => form_noteCorrected c ht) hu
  unfold loftWrite
  simp only
  refine hit _ _ (fix _ _ ?_)
  generalize hu : loftPoke a p s = u
  have hw : Machine.Inv u := hu ▸ loftPoke_wf a p h
  exact hw

/-! The collector. -/

theorem form_takeEntry (c : ColEntry) {s : State} (h : Machine.Inv s) : Machine.Inv (takeEntry c s) := by
  unfold takeEntry; split
  · exact form_recFold _ _ h
  · exact recWrite_wf _ h
  · exact recWrite_wf _ h

theorem form_placeLost {s : State} (h : Machine.Inv s) : Machine.Inv (placeLost s) := by
  unfold placeLost; simp only
  exact form_ite _ h (form_raiseCode _ _ _ _ h)

theorem form_flushCollector (n : Nat) {s : State} (h : Machine.Inv s) : Machine.Inv (flushCollector n s) := by
  induction n generalizing s with
  | zero => exact h
  | succ n ih =>
    unfold flushCollector; split
    · exact h
    · exact ih (form_placeLost (form_takeEntry _ h))

theorem form_writeOut {s : State} (h : Machine.Inv s) : Machine.Inv (writeOut s) :=
  form_flushEvents (form_flushCollector _ (form_flushEvents h))

/-! Outbound slots, replies and notifications. -/

theorem form_modMang (ch : Nat) (f : Manger → Manger) {s : State} (h : Machine.Inv s) : Machine.Inv (modMang ch f s) := h
theorem form_trainSend (f : TxFrame) {s : State} (h : Machine.Inv s) : Machine.Inv (trainSend f s) := h

theorem form_ctlSend (d : Nat) (t : TxTag) (p : List Byte) {s : State} (h : Machine.Inv s) : Machine.Inv (ctlSend d t p s) := by
  unfold ctlSend; exact form_ite _ h h

theorem form_remoteServed (ch : Nat) {s : State} (h : Machine.Inv s) : Machine.Inv (remoteServed ch s) := h

theorem form_replyRemote (ch : Nat) (w : List Word) {s : State} (h : Machine.Inv s) : Machine.Inv (replyRemote ch w s) := by
  unfold replyRemote
  split
  · exact h
  · split
    · exact h
    · simp only; split
      · exact form_remoteServed _ (form_ctlSend _ _ _ (form_onLane _ h))
      · exact form_ctlSend _ _ _ (form_onLane _ h)

theorem form_commitOut (ch : Nat) (w : List Word) (n : Nat) {s : State} (h : Machine.Inv s) : Machine.Inv (commitOut ch w n s) := by
  unfold commitOut; simp only
  split
  · exact form_replyRemote _ _ h
  · exact form_ite _ (form_strmWait h) h

theorem form_outPut (ch : Nat) (w : List Word) (n : Nat) {s : State} (h : Machine.Inv s) : Machine.Inv (outPut ch w n s) := by
  unfold outPut
  refine form_ite _ (form_raise _ _ h) (form_ite _ h (form_commitOut _ _ _ h))

theorem form_yardSend (y : YSess) (m : Nat) (w : List Word) {s : State} (h : Machine.Inv s) : Machine.Inv (yardSend y m w s) := h

theorem form_notifyCh (ch n : Nat) (p : List (List Word)) {s : State} (h : Machine.Inv s) : Machine.Inv (notifyCh ch n p s) := by
  unfold notifyCh
  exact form_ite _ h (form_each _ _ (fun _ _ => form_outPut _ _ _) h)

theorem form_notifyAll (p : List (List Word)) {s : State} (h : Machine.Inv s) : Machine.Inv (notifyAll p s) := by
  unfold notifyAll; simp only
  refine form_each _ _ (fun _ _ => form_each _ _ fun _ _ => form_yardSend _ _ _) ?_
  split <;> split <;> first | exact form_notifyCh _ _ _ (form_notifyCh _ _ _ h) | exact form_notifyCh _ _ _ h | exact h

theorem form_notifySession (n : Nat) (p : List (List Word)) {s : State} (h : Machine.Inv s) : Machine.Inv (notifySession n p s) := by
  unfold notifySession
  split
  · exact h
  · split
    · exact form_notifyCh _ _ _ h
    · split
      · exact form_notifyCh _ _ _ h
      · split
        · exact form_each _ _ (fun _ _ => form_yardSend _ _ _) h
        · exact h

theorem form_notifyVia (v : Via) (n : Nat) (p : List (List Word)) {s : State} (h : Machine.Inv s) : Machine.Inv (notifyVia v n p s) := by
  unfold notifyVia; split
  · split
    · exact form_notifySession _ _ h
    · exact h
  · exact form_notifySession _ _ h

theorem form_notifyState (o : Nat) {s : State} (h : Machine.Inv s) : Machine.Inv (notifyState o s) := form_notifyAll _ h

theorem form_orderFlush (ch n : Nat) {s : State} (h : Machine.Inv s) : Machine.Inv (orderFlush ch n s) := by
  induction n generalizing s with
  | zero => exact h
  | succ n ih =>
    unfold orderFlush
    split
    · exact ih (form_outPut _ _ _ h)
    · exact h

theorem form_outReply (ch : Nat) (c : Ctx) (w : List Word) {s : State} (h : Machine.Inv s) : Machine.Inv (outReply ch c w s) := by
  unfold outReply
  exact form_ite _ (form_orderFlush _ _ h) (form_outPut _ _ _ h)

theorem form_reply (c : Ctx) (a d : Nat) (l : List Nat) {s : State} (h : Machine.Inv s) : Machine.Inv (reply c a d l s) := by
  have h0 : Machine.Inv (if a == 0 then s else cntCmd 1 s) := form_ite _ h h
  unfold reply; simp only
  split
  · exact form_outReply _ _ _ h0
  · split
    · split
      · exact form_yardSend _ _ _ h0
      · exact h0
    · exact h0

theorem form_replyOk (c : Ctx) (l : List Nat) {s : State} (h : Machine.Inv s) : Machine.Inv (replyOk c l s) := form_reply _ _ _ _ h
theorem form_badParam (c : Ctx) (a b : Nat) {s : State} (h : Machine.Inv s) : Machine.Inv (badParam c a b s) := form_reply _ _ _ _ h
theorem form_stateError (c : Ctx) {s : State} (h : Machine.Inv s) : Machine.Inv (stateError c s) := form_reply _ _ _ _ h

end Sys2Proof.Laws
end

