-- ==== Sys2Proof/Laws/State.lean ====
section
/-!
SUPPORT. What each update of the state leaves alone: one lemma per part per update, true by unfolding.
-/

namespace Sys2Proof.Machine

@[simp] theorem onSys_sys (s : State) (f : Sys → Sys) : (s.onSys f).sys = f s.sys := rfl
@[simp] theorem onSys_ends (s : State) (f : Sys → Sys) : (s.onSys f).ends = s.ends := rfl
@[simp] theorem onSys_lane (s : State) (f : Sys → Sys) : (s.onSys f).lane = s.lane := rfl
@[simp] theorem onSys_inaug (s : State) (f : Sys → Sys) : (s.onSys f).inaug = s.inaug := rfl
@[simp] theorem onSys_ldr (s : State) (f : Sys → Sys) : (s.onSys f).ldr = s.ldr := rfl
@[simp] theorem onSys_clk (s : State) (f : Sys → Sys) : (s.onSys f).clk = s.clk := rfl
@[simp] theorem onSys_ref (s : State) (f : Sys → Sys) : (s.onSys f).ref = s.ref := rfl
@[simp] theorem onSys_teth (s : State) (f : Sys → Sys) : (s.onSys f).teth = s.teth := rfl
@[simp] theorem onSys_plan (s : State) (f : Sys → Sys) : (s.onSys f).plan = s.plan := rfl
@[simp] theorem onSys_sent (s : State) (f : Sys → Sys) : (s.onSys f).sent = s.sent := rfl
@[simp] theorem onSys_fld (s : State) (f : Sys → Sys) : (s.onSys f).fld = s.fld := rfl
@[simp] theorem onSys_sec (s : State) (f : Sys → Sys) : (s.onSys f).sec = s.sec := rfl
@[simp] theorem onSys_yard (s : State) (f : Sys → Sys) : (s.onSys f).yard = s.yard := rfl
@[simp] theorem onSys_host (s : State) (f : Sys → Sys) : (s.onSys f).host = s.host := rfl
@[simp] theorem onSys_cmd (s : State) (f : Sys → Sys) : (s.onSys f).cmd = s.cmd := rfl
@[simp] theorem onSys_strm (s : State) (f : Sys → Sys) : (s.onSys f).strm = s.strm := rfl
@[simp] theorem onSys_brg (s : State) (f : Sys → Sys) : (s.onSys f).brg = s.brg := rfl
@[simp] theorem onSys_ev (s : State) (f : Sys → Sys) : (s.onSys f).ev = s.ev := rfl
@[simp] theorem onSys_loft (s : State) (f : Sys → Sys) : (s.onSys f).loft = s.loft := rfl
@[simp] theorem onSys_flash (s : State) (f : Sys → Sys) : (s.onSys f).flash = s.flash := rfl
@[simp] theorem onSys_snap (s : State) (f : Sys → Sys) : (s.onSys f).snap = s.snap := rfl
@[simp] theorem onSys_rcp (s : State) (f : Sys → Sys) : (s.onSys f).rcp = s.rcp := rfl
@[simp] theorem onSys_ctr (s : State) (f : Sys → Sys) : (s.onSys f).ctr = s.ctr := rfl
@[simp] theorem onSys_ports (s : State) (f : Sys → Sys) : (s.onSys f).ports = s.ports := rfl
@[simp] theorem onSys_free (s : State) (f : Sys → Sys) : (s.onSys f).free = s.free := rfl
@[simp] theorem onSys_pending (s : State) (f : Sys → Sys) : (s.onSys f).pending = s.pending := rfl

@[simp] theorem onEnds_ends (s : State) (f : Ends → Ends) : (s.onEnds f).ends = f s.ends := rfl
@[simp] theorem onEnds_sys (s : State) (f : Ends → Ends) : (s.onEnds f).sys = s.sys := rfl
@[simp] theorem onEnds_lane (s : State) (f : Ends → Ends) : (s.onEnds f).lane = s.lane := rfl
@[simp] theorem onEnds_inaug (s : State) (f : Ends → Ends) : (s.onEnds f).inaug = s.inaug := rfl
@[simp] theorem onEnds_ldr (s : State) (f : Ends → Ends) : (s.onEnds f).ldr = s.ldr := rfl
@[simp] theorem onEnds_clk (s : State) (f : Ends → Ends) : (s.onEnds f).clk = s.clk := rfl
@[simp] theorem onEnds_ref (s : State) (f : Ends → Ends) : (s.onEnds f).ref = s.ref := rfl
@[simp] theorem onEnds_teth (s : State) (f : Ends → Ends) : (s.onEnds f).teth = s.teth := rfl
@[simp] theorem onEnds_plan (s : State) (f : Ends → Ends) : (s.onEnds f).plan = s.plan := rfl
@[simp] theorem onEnds_sent (s : State) (f : Ends → Ends) : (s.onEnds f).sent = s.sent := rfl
@[simp] theorem onEnds_fld (s : State) (f : Ends → Ends) : (s.onEnds f).fld = s.fld := rfl
@[simp] theorem onEnds_sec (s : State) (f : Ends → Ends) : (s.onEnds f).sec = s.sec := rfl
@[simp] theorem onEnds_yard (s : State) (f : Ends → Ends) : (s.onEnds f).yard = s.yard := rfl
@[simp] theorem onEnds_host (s : State) (f : Ends → Ends) : (s.onEnds f).host = s.host := rfl
@[simp] theorem onEnds_cmd (s : State) (f : Ends → Ends) : (s.onEnds f).cmd = s.cmd := rfl
@[simp] theorem onEnds_strm (s : State) (f : Ends → Ends) : (s.onEnds f).strm = s.strm := rfl
@[simp] theorem onEnds_brg (s : State) (f : Ends → Ends) : (s.onEnds f).brg = s.brg := rfl
@[simp] theorem onEnds_ev (s : State) (f : Ends → Ends) : (s.onEnds f).ev = s.ev := rfl
@[simp] theorem onEnds_loft (s : State) (f : Ends → Ends) : (s.onEnds f).loft = s.loft := rfl
@[simp] theorem onEnds_flash (s : State) (f : Ends → Ends) : (s.onEnds f).flash = s.flash := rfl
@[simp] theorem onEnds_snap (s : State) (f : Ends → Ends) : (s.onEnds f).snap = s.snap := rfl
@[simp] theorem onEnds_rcp (s : State) (f : Ends → Ends) : (s.onEnds f).rcp = s.rcp := rfl
@[simp] theorem onEnds_ctr (s : State) (f : Ends → Ends) : (s.onEnds f).ctr = s.ctr := rfl
@[simp] theorem onEnds_ports (s : State) (f : Ends → Ends) : (s.onEnds f).ports = s.ports := rfl
@[simp] theorem onEnds_free (s : State) (f : Ends → Ends) : (s.onEnds f).free = s.free := rfl
@[simp] theorem onEnds_pending (s : State) (f : Ends → Ends) : (s.onEnds f).pending = s.pending := rfl

@[simp] theorem onLane_lane (s : State) (f : Lane → Lane) : (s.onLane f).lane = f s.lane := rfl
@[simp] theorem onLane_sys (s : State) (f : Lane → Lane) : (s.onLane f).sys = s.sys := rfl
@[simp] theorem onLane_ends (s : State) (f : Lane → Lane) : (s.onLane f).ends = s.ends := rfl
@[simp] theorem onLane_inaug (s : State) (f : Lane → Lane) : (s.onLane f).inaug = s.inaug := rfl
@[simp] theorem onLane_ldr (s : State) (f : Lane → Lane) : (s.onLane f).ldr = s.ldr := rfl
@[simp] theorem onLane_clk (s : State) (f : Lane → Lane) : (s.onLane f).clk = s.clk := rfl
@[simp] theorem onLane_ref (s : State) (f : Lane → Lane) : (s.onLane f).ref = s.ref := rfl
@[simp] theorem onLane_teth (s : State) (f : Lane → Lane) : (s.onLane f).teth = s.teth := rfl
@[simp] theorem onLane_plan (s : State) (f : Lane → Lane) : (s.onLane f).plan = s.plan := rfl
@[simp] theorem onLane_sent (s : State) (f : Lane → Lane) : (s.onLane f).sent = s.sent := rfl
@[simp] theorem onLane_fld (s : State) (f : Lane → Lane) : (s.onLane f).fld = s.fld := rfl
@[simp] theorem onLane_sec (s : State) (f : Lane → Lane) : (s.onLane f).sec = s.sec := rfl
@[simp] theorem onLane_yard (s : State) (f : Lane → Lane) : (s.onLane f).yard = s.yard := rfl
@[simp] theorem onLane_host (s : State) (f : Lane → Lane) : (s.onLane f).host = s.host := rfl
@[simp] theorem onLane_cmd (s : State) (f : Lane → Lane) : (s.onLane f).cmd = s.cmd := rfl
@[simp] theorem onLane_strm (s : State) (f : Lane → Lane) : (s.onLane f).strm = s.strm := rfl
@[simp] theorem onLane_brg (s : State) (f : Lane → Lane) : (s.onLane f).brg = s.brg := rfl
@[simp] theorem onLane_ev (s : State) (f : Lane → Lane) : (s.onLane f).ev = s.ev := rfl
@[simp] theorem onLane_loft (s : State) (f : Lane → Lane) : (s.onLane f).loft = s.loft := rfl
@[simp] theorem onLane_flash (s : State) (f : Lane → Lane) : (s.onLane f).flash = s.flash := rfl
@[simp] theorem onLane_snap (s : State) (f : Lane → Lane) : (s.onLane f).snap = s.snap := rfl
@[simp] theorem onLane_rcp (s : State) (f : Lane → Lane) : (s.onLane f).rcp = s.rcp := rfl
@[simp] theorem onLane_ctr (s : State) (f : Lane → Lane) : (s.onLane f).ctr = s.ctr := rfl
@[simp] theorem onLane_ports (s : State) (f : Lane → Lane) : (s.onLane f).ports = s.ports := rfl
@[simp] theorem onLane_free (s : State) (f : Lane → Lane) : (s.onLane f).free = s.free := rfl
@[simp] theorem onLane_pending (s : State) (f : Lane → Lane) : (s.onLane f).pending = s.pending := rfl

@[simp] theorem onInaug_inaug (s : State) (f : Inaug → Inaug) : (s.onInaug f).inaug = f s.inaug := rfl
@[simp] theorem onInaug_sys (s : State) (f : Inaug → Inaug) : (s.onInaug f).sys = s.sys := rfl
@[simp] theorem onInaug_ends (s : State) (f : Inaug → Inaug) : (s.onInaug f).ends = s.ends := rfl
@[simp] theorem onInaug_lane (s : State) (f : Inaug → Inaug) : (s.onInaug f).lane = s.lane := rfl
@[simp] theorem onInaug_ldr (s : State) (f : Inaug → Inaug) : (s.onInaug f).ldr = s.ldr := rfl
@[simp] theorem onInaug_clk (s : State) (f : Inaug → Inaug) : (s.onInaug f).clk = s.clk := rfl
@[simp] theorem onInaug_ref (s : State) (f : Inaug → Inaug) : (s.onInaug f).ref = s.ref := rfl
@[simp] theorem onInaug_teth (s : State) (f : Inaug → Inaug) : (s.onInaug f).teth = s.teth := rfl
@[simp] theorem onInaug_plan (s : State) (f : Inaug → Inaug) : (s.onInaug f).plan = s.plan := rfl
@[simp] theorem onInaug_sent (s : State) (f : Inaug → Inaug) : (s.onInaug f).sent = s.sent := rfl
@[simp] theorem onInaug_fld (s : State) (f : Inaug → Inaug) : (s.onInaug f).fld = s.fld := rfl
@[simp] theorem onInaug_sec (s : State) (f : Inaug → Inaug) : (s.onInaug f).sec = s.sec := rfl
@[simp] theorem onInaug_yard (s : State) (f : Inaug → Inaug) : (s.onInaug f).yard = s.yard := rfl
@[simp] theorem onInaug_host (s : State) (f : Inaug → Inaug) : (s.onInaug f).host = s.host := rfl
@[simp] theorem onInaug_cmd (s : State) (f : Inaug → Inaug) : (s.onInaug f).cmd = s.cmd := rfl
@[simp] theorem onInaug_strm (s : State) (f : Inaug → Inaug) : (s.onInaug f).strm = s.strm := rfl
@[simp] theorem onInaug_brg (s : State) (f : Inaug → Inaug) : (s.onInaug f).brg = s.brg := rfl
@[simp] theorem onInaug_ev (s : State) (f : Inaug → Inaug) : (s.onInaug f).ev = s.ev := rfl
@[simp] theorem onInaug_loft (s : State) (f : Inaug → Inaug) : (s.onInaug f).loft = s.loft := rfl
@[simp] theorem onInaug_flash (s : State) (f : Inaug → Inaug) : (s.onInaug f).flash = s.flash := rfl
@[simp] theorem onInaug_snap (s : State) (f : Inaug → Inaug) : (s.onInaug f).snap = s.snap := rfl
@[simp] theorem onInaug_rcp (s : State) (f : Inaug → Inaug) : (s.onInaug f).rcp = s.rcp := rfl
@[simp] theorem onInaug_ctr (s : State) (f : Inaug → Inaug) : (s.onInaug f).ctr = s.ctr := rfl
@[simp] theorem onInaug_ports (s : State) (f : Inaug → Inaug) : (s.onInaug f).ports = s.ports := rfl
@[simp] theorem onInaug_free (s : State) (f : Inaug → Inaug) : (s.onInaug f).free = s.free := rfl
@[simp] theorem onInaug_pending (s : State) (f : Inaug → Inaug) : (s.onInaug f).pending = s.pending := rfl

@[simp] theorem onLdr_ldr (s : State) (f : LeadSt → LeadSt) : (s.onLdr f).ldr = f s.ldr := rfl
@[simp] theorem onLdr_sys (s : State) (f : LeadSt → LeadSt) : (s.onLdr f).sys = s.sys := rfl
@[simp] theorem onLdr_ends (s : State) (f : LeadSt → LeadSt) : (s.onLdr f).ends = s.ends := rfl
@[simp] theorem onLdr_lane (s : State) (f : LeadSt → LeadSt) : (s.onLdr f).lane = s.lane := rfl
@[simp] theorem onLdr_inaug (s : State) (f : LeadSt → LeadSt) : (s.onLdr f).inaug = s.inaug := rfl
@[simp] theorem onLdr_clk (s : State) (f : LeadSt → LeadSt) : (s.onLdr f).clk = s.clk := rfl
@[simp] theorem onLdr_ref (s : State) (f : LeadSt → LeadSt) : (s.onLdr f).ref = s.ref := rfl
@[simp] theorem onLdr_teth (s : State) (f : LeadSt → LeadSt) : (s.onLdr f).teth = s.teth := rfl
@[simp] theorem onLdr_plan (s : State) (f : LeadSt → LeadSt) : (s.onLdr f).plan = s.plan := rfl
@[simp] theorem onLdr_sent (s : State) (f : LeadSt → LeadSt) : (s.onLdr f).sent = s.sent := rfl
@[simp] theorem onLdr_fld (s : State) (f : LeadSt → LeadSt) : (s.onLdr f).fld = s.fld := rfl
@[simp] theorem onLdr_sec (s : State) (f : LeadSt → LeadSt) : (s.onLdr f).sec = s.sec := rfl
@[simp] theorem onLdr_yard (s : State) (f : LeadSt → LeadSt) : (s.onLdr f).yard = s.yard := rfl
@[simp] theorem onLdr_host (s : State) (f : LeadSt → LeadSt) : (s.onLdr f).host = s.host := rfl
@[simp] theorem onLdr_cmd (s : State) (f : LeadSt → LeadSt) : (s.onLdr f).cmd = s.cmd := rfl
@[simp] theorem onLdr_strm (s : State) (f : LeadSt → LeadSt) : (s.onLdr f).strm = s.strm := rfl
@[simp] theorem onLdr_brg (s : State) (f : LeadSt → LeadSt) : (s.onLdr f).brg = s.brg := rfl
@[simp] theorem onLdr_ev (s : State) (f : LeadSt → LeadSt) : (s.onLdr f).ev = s.ev := rfl
@[simp] theorem onLdr_loft (s : State) (f : LeadSt → LeadSt) : (s.onLdr f).loft = s.loft := rfl
@[simp] theorem onLdr_flash (s : State) (f : LeadSt → LeadSt) : (s.onLdr f).flash = s.flash := rfl
@[simp] theorem onLdr_snap (s : State) (f : LeadSt → LeadSt) : (s.onLdr f).snap = s.snap := rfl
@[simp] theorem onLdr_rcp (s : State) (f : LeadSt → LeadSt) : (s.onLdr f).rcp = s.rcp := rfl
@[simp] theorem onLdr_ctr (s : State) (f : LeadSt → LeadSt) : (s.onLdr f).ctr = s.ctr := rfl
@[simp] theorem onLdr_ports (s : State) (f : LeadSt → LeadSt) : (s.onLdr f).ports = s.ports := rfl
@[simp] theorem onLdr_free (s : State) (f : LeadSt → LeadSt) : (s.onLdr f).free = s.free := rfl
@[simp] theorem onLdr_pending (s : State) (f : LeadSt → LeadSt) : (s.onLdr f).pending = s.pending := rfl

@[simp] theorem onClk_clk (s : State) (f : Clock → Clock) : (s.onClk f).clk = f s.clk := rfl
@[simp] theorem onClk_sys (s : State) (f : Clock → Clock) : (s.onClk f).sys = s.sys := rfl
@[simp] theorem onClk_ends (s : State) (f : Clock → Clock) : (s.onClk f).ends = s.ends := rfl
@[simp] theorem onClk_lane (s : State) (f : Clock → Clock) : (s.onClk f).lane = s.lane := rfl
@[simp] theorem onClk_inaug (s : State) (f : Clock → Clock) : (s.onClk f).inaug = s.inaug := rfl
@[simp] theorem onClk_ldr (s : State) (f : Clock → Clock) : (s.onClk f).ldr = s.ldr := rfl
@[simp] theorem onClk_ref (s : State) (f : Clock → Clock) : (s.onClk f).ref = s.ref := rfl
@[simp] theorem onClk_teth (s : State) (f : Clock → Clock) : (s.onClk f).teth = s.teth := rfl
@[simp] theorem onClk_plan (s : State) (f : Clock → Clock) : (s.onClk f).plan = s.plan := rfl
@[simp] theorem onClk_sent (s : State) (f : Clock → Clock) : (s.onClk f).sent = s.sent := rfl
@[simp] theorem onClk_fld (s : State) (f : Clock → Clock) : (s.onClk f).fld = s.fld := rfl
@[simp] theorem onClk_sec (s : State) (f : Clock → Clock) : (s.onClk f).sec = s.sec := rfl
@[simp] theorem onClk_yard (s : State) (f : Clock → Clock) : (s.onClk f).yard = s.yard := rfl
@[simp] theorem onClk_host (s : State) (f : Clock → Clock) : (s.onClk f).host = s.host := rfl
@[simp] theorem onClk_cmd (s : State) (f : Clock → Clock) : (s.onClk f).cmd = s.cmd := rfl
@[simp] theorem onClk_strm (s : State) (f : Clock → Clock) : (s.onClk f).strm = s.strm := rfl
@[simp] theorem onClk_brg (s : State) (f : Clock → Clock) : (s.onClk f).brg = s.brg := rfl
@[simp] theorem onClk_ev (s : State) (f : Clock → Clock) : (s.onClk f).ev = s.ev := rfl
@[simp] theorem onClk_loft (s : State) (f : Clock → Clock) : (s.onClk f).loft = s.loft := rfl
@[simp] theorem onClk_flash (s : State) (f : Clock → Clock) : (s.onClk f).flash = s.flash := rfl
@[simp] theorem onClk_snap (s : State) (f : Clock → Clock) : (s.onClk f).snap = s.snap := rfl
@[simp] theorem onClk_rcp (s : State) (f : Clock → Clock) : (s.onClk f).rcp = s.rcp := rfl
@[simp] theorem onClk_ctr (s : State) (f : Clock → Clock) : (s.onClk f).ctr = s.ctr := rfl
@[simp] theorem onClk_ports (s : State) (f : Clock → Clock) : (s.onClk f).ports = s.ports := rfl
@[simp] theorem onClk_free (s : State) (f : Clock → Clock) : (s.onClk f).free = s.free := rfl
@[simp] theorem onClk_pending (s : State) (f : Clock → Clock) : (s.onClk f).pending = s.pending := rfl

@[simp] theorem onRef_ref (s : State) (f : RefSt → RefSt) : (s.onRef f).ref = f s.ref := rfl
@[simp] theorem onRef_sys (s : State) (f : RefSt → RefSt) : (s.onRef f).sys = s.sys := rfl
@[simp] theorem onRef_ends (s : State) (f : RefSt → RefSt) : (s.onRef f).ends = s.ends := rfl
@[simp] theorem onRef_lane (s : State) (f : RefSt → RefSt) : (s.onRef f).lane = s.lane := rfl
@[simp] theorem onRef_inaug (s : State) (f : RefSt → RefSt) : (s.onRef f).inaug = s.inaug := rfl
@[simp] theorem onRef_ldr (s : State) (f : RefSt → RefSt) : (s.onRef f).ldr = s.ldr := rfl
@[simp] theorem onRef_clk (s : State) (f : RefSt → RefSt) : (s.onRef f).clk = s.clk := rfl
@[simp] theorem onRef_teth (s : State) (f : RefSt → RefSt) : (s.onRef f).teth = s.teth := rfl
@[simp] theorem onRef_plan (s : State) (f : RefSt → RefSt) : (s.onRef f).plan = s.plan := rfl
@[simp] theorem onRef_sent (s : State) (f : RefSt → RefSt) : (s.onRef f).sent = s.sent := rfl
@[simp] theorem onRef_fld (s : State) (f : RefSt → RefSt) : (s.onRef f).fld = s.fld := rfl
@[simp] theorem onRef_sec (s : State) (f : RefSt → RefSt) : (s.onRef f).sec = s.sec := rfl
@[simp] theorem onRef_yard (s : State) (f : RefSt → RefSt) : (s.onRef f).yard = s.yard := rfl
@[simp] theorem onRef_host (s : State) (f : RefSt → RefSt) : (s.onRef f).host = s.host := rfl
@[simp] theorem onRef_cmd (s : State) (f : RefSt → RefSt) : (s.onRef f).cmd = s.cmd := rfl
@[simp] theorem onRef_strm (s : State) (f : RefSt → RefSt) : (s.onRef f).strm = s.strm := rfl
@[simp] theorem onRef_brg (s : State) (f : RefSt → RefSt) : (s.onRef f).brg = s.brg := rfl
@[simp] theorem onRef_ev (s : State) (f : RefSt → RefSt) : (s.onRef f).ev = s.ev := rfl
@[simp] theorem onRef_loft (s : State) (f : RefSt → RefSt) : (s.onRef f).loft = s.loft := rfl
@[simp] theorem onRef_flash (s : State) (f : RefSt → RefSt) : (s.onRef f).flash = s.flash := rfl
@[simp] theorem onRef_snap (s : State) (f : RefSt → RefSt) : (s.onRef f).snap = s.snap := rfl
@[simp] theorem onRef_rcp (s : State) (f : RefSt → RefSt) : (s.onRef f).rcp = s.rcp := rfl
@[simp] theorem onRef_ctr (s : State) (f : RefSt → RefSt) : (s.onRef f).ctr = s.ctr := rfl
@[simp] theorem onRef_ports (s : State) (f : RefSt → RefSt) : (s.onRef f).ports = s.ports := rfl
@[simp] theorem onRef_free (s : State) (f : RefSt → RefSt) : (s.onRef f).free = s.free := rfl
@[simp] theorem onRef_pending (s : State) (f : RefSt → RefSt) : (s.onRef f).pending = s.pending := rfl

@[simp] theorem onTeth_teth (s : State) (f : TethSt → TethSt) : (s.onTeth f).teth = f s.teth := rfl
@[simp] theorem onTeth_sys (s : State) (f : TethSt → TethSt) : (s.onTeth f).sys = s.sys := rfl
@[simp] theorem onTeth_ends (s : State) (f : TethSt → TethSt) : (s.onTeth f).ends = s.ends := rfl
@[simp] theorem onTeth_lane (s : State) (f : TethSt → TethSt) : (s.onTeth f).lane = s.lane := rfl
@[simp] theorem onTeth_inaug (s : State) (f : TethSt → TethSt) : (s.onTeth f).inaug = s.inaug := rfl
@[simp] theorem onTeth_ldr (s : State) (f : TethSt → TethSt) : (s.onTeth f).ldr = s.ldr := rfl
@[simp] theorem onTeth_clk (s : State) (f : TethSt → TethSt) : (s.onTeth f).clk = s.clk := rfl
@[simp] theorem onTeth_ref (s : State) (f : TethSt → TethSt) : (s.onTeth f).ref = s.ref := rfl
@[simp] theorem onTeth_plan (s : State) (f : TethSt → TethSt) : (s.onTeth f).plan = s.plan := rfl
@[simp] theorem onTeth_sent (s : State) (f : TethSt → TethSt) : (s.onTeth f).sent = s.sent := rfl
@[simp] theorem onTeth_fld (s : State) (f : TethSt → TethSt) : (s.onTeth f).fld = s.fld := rfl
@[simp] theorem onTeth_sec (s : State) (f : TethSt → TethSt) : (s.onTeth f).sec = s.sec := rfl
@[simp] theorem onTeth_yard (s : State) (f : TethSt → TethSt) : (s.onTeth f).yard = s.yard := rfl
@[simp] theorem onTeth_host (s : State) (f : TethSt → TethSt) : (s.onTeth f).host = s.host := rfl
@[simp] theorem onTeth_cmd (s : State) (f : TethSt → TethSt) : (s.onTeth f).cmd = s.cmd := rfl
@[simp] theorem onTeth_strm (s : State) (f : TethSt → TethSt) : (s.onTeth f).strm = s.strm := rfl
@[simp] theorem onTeth_brg (s : State) (f : TethSt → TethSt) : (s.onTeth f).brg = s.brg := rfl
@[simp] theorem onTeth_ev (s : State) (f : TethSt → TethSt) : (s.onTeth f).ev = s.ev := rfl
@[simp] theorem onTeth_loft (s : State) (f : TethSt → TethSt) : (s.onTeth f).loft = s.loft := rfl
@[simp] theorem onTeth_flash (s : State) (f : TethSt → TethSt) : (s.onTeth f).flash = s.flash := rfl
@[simp] theorem onTeth_snap (s : State) (f : TethSt → TethSt) : (s.onTeth f).snap = s.snap := rfl
@[simp] theorem onTeth_rcp (s : State) (f : TethSt → TethSt) : (s.onTeth f).rcp = s.rcp := rfl
@[simp] theorem onTeth_ctr (s : State) (f : TethSt → TethSt) : (s.onTeth f).ctr = s.ctr := rfl
@[simp] theorem onTeth_ports (s : State) (f : TethSt → TethSt) : (s.onTeth f).ports = s.ports := rfl
@[simp] theorem onTeth_free (s : State) (f : TethSt → TethSt) : (s.onTeth f).free = s.free := rfl
@[simp] theorem onTeth_pending (s : State) (f : TethSt → TethSt) : (s.onTeth f).pending = s.pending := rfl

@[simp] theorem onPlan_plan (s : State) (f : PlanSt → PlanSt) : (s.onPlan f).plan = f s.plan := rfl
@[simp] theorem onPlan_sys (s : State) (f : PlanSt → PlanSt) : (s.onPlan f).sys = s.sys := rfl
@[simp] theorem onPlan_ends (s : State) (f : PlanSt → PlanSt) : (s.onPlan f).ends = s.ends := rfl
@[simp] theorem onPlan_lane (s : State) (f : PlanSt → PlanSt) : (s.onPlan f).lane = s.lane := rfl
@[simp] theorem onPlan_inaug (s : State) (f : PlanSt → PlanSt) : (s.onPlan f).inaug = s.inaug := rfl
@[simp] theorem onPlan_ldr (s : State) (f : PlanSt → PlanSt) : (s.onPlan f).ldr = s.ldr := rfl
@[simp] theorem onPlan_clk (s : State) (f : PlanSt → PlanSt) : (s.onPlan f).clk = s.clk := rfl
@[simp] theorem onPlan_ref (s : State) (f : PlanSt → PlanSt) : (s.onPlan f).ref = s.ref := rfl
@[simp] theorem onPlan_teth (s : State) (f : PlanSt → PlanSt) : (s.onPlan f).teth = s.teth := rfl
@[simp] theorem onPlan_sent (s : State) (f : PlanSt → PlanSt) : (s.onPlan f).sent = s.sent := rfl
@[simp] theorem onPlan_fld (s : State) (f : PlanSt → PlanSt) : (s.onPlan f).fld = s.fld := rfl
@[simp] theorem onPlan_sec (s : State) (f : PlanSt → PlanSt) : (s.onPlan f).sec = s.sec := rfl
@[simp] theorem onPlan_yard (s : State) (f : PlanSt → PlanSt) : (s.onPlan f).yard = s.yard := rfl
@[simp] theorem onPlan_host (s : State) (f : PlanSt → PlanSt) : (s.onPlan f).host = s.host := rfl
@[simp] theorem onPlan_cmd (s : State) (f : PlanSt → PlanSt) : (s.onPlan f).cmd = s.cmd := rfl
@[simp] theorem onPlan_strm (s : State) (f : PlanSt → PlanSt) : (s.onPlan f).strm = s.strm := rfl
@[simp] theorem onPlan_brg (s : State) (f : PlanSt → PlanSt) : (s.onPlan f).brg = s.brg := rfl
@[simp] theorem onPlan_ev (s : State) (f : PlanSt → PlanSt) : (s.onPlan f).ev = s.ev := rfl
@[simp] theorem onPlan_loft (s : State) (f : PlanSt → PlanSt) : (s.onPlan f).loft = s.loft := rfl
@[simp] theorem onPlan_flash (s : State) (f : PlanSt → PlanSt) : (s.onPlan f).flash = s.flash := rfl
@[simp] theorem onPlan_snap (s : State) (f : PlanSt → PlanSt) : (s.onPlan f).snap = s.snap := rfl
@[simp] theorem onPlan_rcp (s : State) (f : PlanSt → PlanSt) : (s.onPlan f).rcp = s.rcp := rfl
@[simp] theorem onPlan_ctr (s : State) (f : PlanSt → PlanSt) : (s.onPlan f).ctr = s.ctr := rfl
@[simp] theorem onPlan_ports (s : State) (f : PlanSt → PlanSt) : (s.onPlan f).ports = s.ports := rfl
@[simp] theorem onPlan_free (s : State) (f : PlanSt → PlanSt) : (s.onPlan f).free = s.free := rfl
@[simp] theorem onPlan_pending (s : State) (f : PlanSt → PlanSt) : (s.onPlan f).pending = s.pending := rfl

@[simp] theorem onSent_sent (s : State) (f : Sent → Sent) : (s.onSent f).sent = f s.sent := rfl
@[simp] theorem onSent_sys (s : State) (f : Sent → Sent) : (s.onSent f).sys = s.sys := rfl
@[simp] theorem onSent_ends (s : State) (f : Sent → Sent) : (s.onSent f).ends = s.ends := rfl
@[simp] theorem onSent_lane (s : State) (f : Sent → Sent) : (s.onSent f).lane = s.lane := rfl
@[simp] theorem onSent_inaug (s : State) (f : Sent → Sent) : (s.onSent f).inaug = s.inaug := rfl
@[simp] theorem onSent_ldr (s : State) (f : Sent → Sent) : (s.onSent f).ldr = s.ldr := rfl
@[simp] theorem onSent_clk (s : State) (f : Sent → Sent) : (s.onSent f).clk = s.clk := rfl
@[simp] theorem onSent_ref (s : State) (f : Sent → Sent) : (s.onSent f).ref = s.ref := rfl
@[simp] theorem onSent_teth (s : State) (f : Sent → Sent) : (s.onSent f).teth = s.teth := rfl
@[simp] theorem onSent_plan (s : State) (f : Sent → Sent) : (s.onSent f).plan = s.plan := rfl
@[simp] theorem onSent_fld (s : State) (f : Sent → Sent) : (s.onSent f).fld = s.fld := rfl
@[simp] theorem onSent_sec (s : State) (f : Sent → Sent) : (s.onSent f).sec = s.sec := rfl
@[simp] theorem onSent_yard (s : State) (f : Sent → Sent) : (s.onSent f).yard = s.yard := rfl
@[simp] theorem onSent_host (s : State) (f : Sent → Sent) : (s.onSent f).host = s.host := rfl
@[simp] theorem onSent_cmd (s : State) (f : Sent → Sent) : (s.onSent f).cmd = s.cmd := rfl
@[simp] theorem onSent_strm (s : State) (f : Sent → Sent) : (s.onSent f).strm = s.strm := rfl
@[simp] theorem onSent_brg (s : State) (f : Sent → Sent) : (s.onSent f).brg = s.brg := rfl
@[simp] theorem onSent_ev (s : State) (f : Sent → Sent) : (s.onSent f).ev = s.ev := rfl
@[simp] theorem onSent_loft (s : State) (f : Sent → Sent) : (s.onSent f).loft = s.loft := rfl
@[simp] theorem onSent_flash (s : State) (f : Sent → Sent) : (s.onSent f).flash = s.flash := rfl
@[simp] theorem onSent_snap (s : State) (f : Sent → Sent) : (s.onSent f).snap = s.snap := rfl
@[simp] theorem onSent_rcp (s : State) (f : Sent → Sent) : (s.onSent f).rcp = s.rcp := rfl
@[simp] theorem onSent_ctr (s : State) (f : Sent → Sent) : (s.onSent f).ctr = s.ctr := rfl
@[simp] theorem onSent_ports (s : State) (f : Sent → Sent) : (s.onSent f).ports = s.ports := rfl
@[simp] theorem onSent_free (s : State) (f : Sent → Sent) : (s.onSent f).free = s.free := rfl
@[simp] theorem onSent_pending (s : State) (f : Sent → Sent) : (s.onSent f).pending = s.pending := rfl

@[simp] theorem onFld_fld (s : State) (f : FieldSt → FieldSt) : (s.onFld f).fld = f s.fld := rfl
@[simp] theorem onFld_sys (s : State) (f : FieldSt → FieldSt) : (s.onFld f).sys = s.sys := rfl
@[simp] theorem onFld_ends (s : State) (f : FieldSt → FieldSt) : (s.onFld f).ends = s.ends := rfl
@[simp] theorem onFld_lane (s : State) (f : FieldSt → FieldSt) : (s.onFld f).lane = s.lane := rfl
@[simp] theorem onFld_inaug (s : State) (f : FieldSt → FieldSt) : (s.onFld f).inaug = s.inaug := rfl
@[simp] theorem onFld_ldr (s : State) (f : FieldSt → FieldSt) : (s.onFld f).ldr = s.ldr := rfl
@[simp] theorem onFld_clk (s : State) (f : FieldSt → FieldSt) : (s.onFld f).clk = s.clk := rfl
@[simp] theorem onFld_ref (s : State) (f : FieldSt → FieldSt) : (s.onFld f).ref = s.ref := rfl
@[simp] theorem onFld_teth (s : State) (f : FieldSt → FieldSt) : (s.onFld f).teth = s.teth := rfl
@[simp] theorem onFld_plan (s : State) (f : FieldSt → FieldSt) : (s.onFld f).plan = s.plan := rfl
@[simp] theorem onFld_sent (s : State) (f : FieldSt → FieldSt) : (s.onFld f).sent = s.sent := rfl
@[simp] theorem onFld_sec (s : State) (f : FieldSt → FieldSt) : (s.onFld f).sec = s.sec := rfl
@[simp] theorem onFld_yard (s : State) (f : FieldSt → FieldSt) : (s.onFld f).yard = s.yard := rfl
@[simp] theorem onFld_host (s : State) (f : FieldSt → FieldSt) : (s.onFld f).host = s.host := rfl
@[simp] theorem onFld_cmd (s : State) (f : FieldSt → FieldSt) : (s.onFld f).cmd = s.cmd := rfl
@[simp] theorem onFld_strm (s : State) (f : FieldSt → FieldSt) : (s.onFld f).strm = s.strm := rfl
@[simp] theorem onFld_brg (s : State) (f : FieldSt → FieldSt) : (s.onFld f).brg = s.brg := rfl
@[simp] theorem onFld_ev (s : State) (f : FieldSt → FieldSt) : (s.onFld f).ev = s.ev := rfl
@[simp] theorem onFld_loft (s : State) (f : FieldSt → FieldSt) : (s.onFld f).loft = s.loft := rfl
@[simp] theorem onFld_flash (s : State) (f : FieldSt → FieldSt) : (s.onFld f).flash = s.flash := rfl
@[simp] theorem onFld_snap (s : State) (f : FieldSt → FieldSt) : (s.onFld f).snap = s.snap := rfl
@[simp] theorem onFld_rcp (s : State) (f : FieldSt → FieldSt) : (s.onFld f).rcp = s.rcp := rfl
@[simp] theorem onFld_ctr (s : State) (f : FieldSt → FieldSt) : (s.onFld f).ctr = s.ctr := rfl
@[simp] theorem onFld_ports (s : State) (f : FieldSt → FieldSt) : (s.onFld f).ports = s.ports := rfl
@[simp] theorem onFld_free (s : State) (f : FieldSt → FieldSt) : (s.onFld f).free = s.free := rfl
@[simp] theorem onFld_pending (s : State) (f : FieldSt → FieldSt) : (s.onFld f).pending = s.pending := rfl

@[simp] theorem onSec_sec (s : State) (f : Sec → Sec) : (s.onSec f).sec = f s.sec := rfl
@[simp] theorem onSec_sys (s : State) (f : Sec → Sec) : (s.onSec f).sys = s.sys := rfl
@[simp] theorem onSec_ends (s : State) (f : Sec → Sec) : (s.onSec f).ends = s.ends := rfl
@[simp] theorem onSec_lane (s : State) (f : Sec → Sec) : (s.onSec f).lane = s.lane := rfl
@[simp] theorem onSec_inaug (s : State) (f : Sec → Sec) : (s.onSec f).inaug = s.inaug := rfl
@[simp] theorem onSec_ldr (s : State) (f : Sec → Sec) : (s.onSec f).ldr = s.ldr := rfl
@[simp] theorem onSec_clk (s : State) (f : Sec → Sec) : (s.onSec f).clk = s.clk := rfl
@[simp] theorem onSec_ref (s : State) (f : Sec → Sec) : (s.onSec f).ref = s.ref := rfl
@[simp] theorem onSec_teth (s : State) (f : Sec → Sec) : (s.onSec f).teth = s.teth := rfl
@[simp] theorem onSec_plan (s : State) (f : Sec → Sec) : (s.onSec f).plan = s.plan := rfl
@[simp] theorem onSec_sent (s : State) (f : Sec → Sec) : (s.onSec f).sent = s.sent := rfl
@[simp] theorem onSec_fld (s : State) (f : Sec → Sec) : (s.onSec f).fld = s.fld := rfl
@[simp] theorem onSec_yard (s : State) (f : Sec → Sec) : (s.onSec f).yard = s.yard := rfl
@[simp] theorem onSec_host (s : State) (f : Sec → Sec) : (s.onSec f).host = s.host := rfl
@[simp] theorem onSec_cmd (s : State) (f : Sec → Sec) : (s.onSec f).cmd = s.cmd := rfl
@[simp] theorem onSec_strm (s : State) (f : Sec → Sec) : (s.onSec f).strm = s.strm := rfl
@[simp] theorem onSec_brg (s : State) (f : Sec → Sec) : (s.onSec f).brg = s.brg := rfl
@[simp] theorem onSec_ev (s : State) (f : Sec → Sec) : (s.onSec f).ev = s.ev := rfl
@[simp] theorem onSec_loft (s : State) (f : Sec → Sec) : (s.onSec f).loft = s.loft := rfl
@[simp] theorem onSec_flash (s : State) (f : Sec → Sec) : (s.onSec f).flash = s.flash := rfl
@[simp] theorem onSec_snap (s : State) (f : Sec → Sec) : (s.onSec f).snap = s.snap := rfl
@[simp] theorem onSec_rcp (s : State) (f : Sec → Sec) : (s.onSec f).rcp = s.rcp := rfl
@[simp] theorem onSec_ctr (s : State) (f : Sec → Sec) : (s.onSec f).ctr = s.ctr := rfl
@[simp] theorem onSec_ports (s : State) (f : Sec → Sec) : (s.onSec f).ports = s.ports := rfl
@[simp] theorem onSec_free (s : State) (f : Sec → Sec) : (s.onSec f).free = s.free := rfl
@[simp] theorem onSec_pending (s : State) (f : Sec → Sec) : (s.onSec f).pending = s.pending := rfl

@[simp] theorem onYard_yard (s : State) (f : YardSt → YardSt) : (s.onYard f).yard = f s.yard := rfl
@[simp] theorem onYard_sys (s : State) (f : YardSt → YardSt) : (s.onYard f).sys = s.sys := rfl
@[simp] theorem onYard_ends (s : State) (f : YardSt → YardSt) : (s.onYard f).ends = s.ends := rfl
@[simp] theorem onYard_lane (s : State) (f : YardSt → YardSt) : (s.onYard f).lane = s.lane := rfl
@[simp] theorem onYard_inaug (s : State) (f : YardSt → YardSt) : (s.onYard f).inaug = s.inaug := rfl
@[simp] theorem onYard_ldr (s : State) (f : YardSt → YardSt) : (s.onYard f).ldr = s.ldr := rfl
@[simp] theorem onYard_clk (s : State) (f : YardSt → YardSt) : (s.onYard f).clk = s.clk := rfl
@[simp] theorem onYard_ref (s : State) (f : YardSt → YardSt) : (s.onYard f).ref = s.ref := rfl
@[simp] theorem onYard_teth (s : State) (f : YardSt → YardSt) : (s.onYard f).teth = s.teth := rfl
@[simp] theorem onYard_plan (s : State) (f : YardSt → YardSt) : (s.onYard f).plan = s.plan := rfl
@[simp] theorem onYard_sent (s : State) (f : YardSt → YardSt) : (s.onYard f).sent = s.sent := rfl
@[simp] theorem onYard_fld (s : State) (f : YardSt → YardSt) : (s.onYard f).fld = s.fld := rfl
@[simp] theorem onYard_sec (s : State) (f : YardSt → YardSt) : (s.onYard f).sec = s.sec := rfl
@[simp] theorem onYard_host (s : State) (f : YardSt → YardSt) : (s.onYard f).host = s.host := rfl
@[simp] theorem onYard_cmd (s : State) (f : YardSt → YardSt) : (s.onYard f).cmd = s.cmd := rfl
@[simp] theorem onYard_strm (s : State) (f : YardSt → YardSt) : (s.onYard f).strm = s.strm := rfl
@[simp] theorem onYard_brg (s : State) (f : YardSt → YardSt) : (s.onYard f).brg = s.brg := rfl
@[simp] theorem onYard_ev (s : State) (f : YardSt → YardSt) : (s.onYard f).ev = s.ev := rfl
@[simp] theorem onYard_loft (s : State) (f : YardSt → YardSt) : (s.onYard f).loft = s.loft := rfl
@[simp] theorem onYard_flash (s : State) (f : YardSt → YardSt) : (s.onYard f).flash = s.flash := rfl
@[simp] theorem onYard_snap (s : State) (f : YardSt → YardSt) : (s.onYard f).snap = s.snap := rfl
@[simp] theorem onYard_rcp (s : State) (f : YardSt → YardSt) : (s.onYard f).rcp = s.rcp := rfl
@[simp] theorem onYard_ctr (s : State) (f : YardSt → YardSt) : (s.onYard f).ctr = s.ctr := rfl
@[simp] theorem onYard_ports (s : State) (f : YardSt → YardSt) : (s.onYard f).ports = s.ports := rfl
@[simp] theorem onYard_free (s : State) (f : YardSt → YardSt) : (s.onYard f).free = s.free := rfl
@[simp] theorem onYard_pending (s : State) (f : YardSt → YardSt) : (s.onYard f).pending = s.pending := rfl

@[simp] theorem onHost_host (s : State) (f : HostSt → HostSt) : (s.onHost f).host = f s.host := rfl
@[simp] theorem onHost_sys (s : State) (f : HostSt → HostSt) : (s.onHost f).sys = s.sys := rfl
@[simp] theorem onHost_ends (s : State) (f : HostSt → HostSt) : (s.onHost f).ends = s.ends := rfl
@[simp] theorem onHost_lane (s : State) (f : HostSt → HostSt) : (s.onHost f).lane = s.lane := rfl
@[simp] theorem onHost_inaug (s : State) (f : HostSt → HostSt) : (s.onHost f).inaug = s.inaug := rfl
@[simp] theorem onHost_ldr (s : State) (f : HostSt → HostSt) : (s.onHost f).ldr = s.ldr := rfl
@[simp] theorem onHost_clk (s : State) (f : HostSt → HostSt) : (s.onHost f).clk = s.clk := rfl
@[simp] theorem onHost_ref (s : State) (f : HostSt → HostSt) : (s.onHost f).ref = s.ref := rfl
@[simp] theorem onHost_teth (s : State) (f : HostSt → HostSt) : (s.onHost f).teth = s.teth := rfl
@[simp] theorem onHost_plan (s : State) (f : HostSt → HostSt) : (s.onHost f).plan = s.plan := rfl
@[simp] theorem onHost_sent (s : State) (f : HostSt → HostSt) : (s.onHost f).sent = s.sent := rfl
@[simp] theorem onHost_fld (s : State) (f : HostSt → HostSt) : (s.onHost f).fld = s.fld := rfl
@[simp] theorem onHost_sec (s : State) (f : HostSt → HostSt) : (s.onHost f).sec = s.sec := rfl
@[simp] theorem onHost_yard (s : State) (f : HostSt → HostSt) : (s.onHost f).yard = s.yard := rfl
@[simp] theorem onHost_cmd (s : State) (f : HostSt → HostSt) : (s.onHost f).cmd = s.cmd := rfl
@[simp] theorem onHost_strm (s : State) (f : HostSt → HostSt) : (s.onHost f).strm = s.strm := rfl
@[simp] theorem onHost_brg (s : State) (f : HostSt → HostSt) : (s.onHost f).brg = s.brg := rfl
@[simp] theorem onHost_ev (s : State) (f : HostSt → HostSt) : (s.onHost f).ev = s.ev := rfl
@[simp] theorem onHost_loft (s : State) (f : HostSt → HostSt) : (s.onHost f).loft = s.loft := rfl
@[simp] theorem onHost_flash (s : State) (f : HostSt → HostSt) : (s.onHost f).flash = s.flash := rfl
@[simp] theorem onHost_snap (s : State) (f : HostSt → HostSt) : (s.onHost f).snap = s.snap := rfl
@[simp] theorem onHost_rcp (s : State) (f : HostSt → HostSt) : (s.onHost f).rcp = s.rcp := rfl
@[simp] theorem onHost_ctr (s : State) (f : HostSt → HostSt) : (s.onHost f).ctr = s.ctr := rfl
@[simp] theorem onHost_ports (s : State) (f : HostSt → HostSt) : (s.onHost f).ports = s.ports := rfl
@[simp] theorem onHost_free (s : State) (f : HostSt → HostSt) : (s.onHost f).free = s.free := rfl
@[simp] theorem onHost_pending (s : State) (f : HostSt → HostSt) : (s.onHost f).pending = s.pending := rfl

@[simp] theorem onCmd_cmd (s : State) (f : CmdSt → CmdSt) : (s.onCmd f).cmd = f s.cmd := rfl
@[simp] theorem onCmd_sys (s : State) (f : CmdSt → CmdSt) : (s.onCmd f).sys = s.sys := rfl
@[simp] theorem onCmd_ends (s : State) (f : CmdSt → CmdSt) : (s.onCmd f).ends = s.ends := rfl
@[simp] theorem onCmd_lane (s : State) (f : CmdSt → CmdSt) : (s.onCmd f).lane = s.lane := rfl
@[simp] theorem onCmd_inaug (s : State) (f : CmdSt → CmdSt) : (s.onCmd f).inaug = s.inaug := rfl
@[simp] theorem onCmd_ldr (s : State) (f : CmdSt → CmdSt) : (s.onCmd f).ldr = s.ldr := rfl
@[simp] theorem onCmd_clk (s : State) (f : CmdSt → CmdSt) : (s.onCmd f).clk = s.clk := rfl
@[simp] theorem onCmd_ref (s : State) (f : CmdSt → CmdSt) : (s.onCmd f).ref = s.ref := rfl
@[simp] theorem onCmd_teth (s : State) (f : CmdSt → CmdSt) : (s.onCmd f).teth = s.teth := rfl
@[simp] theorem onCmd_plan (s : State) (f : CmdSt → CmdSt) : (s.onCmd f).plan = s.plan := rfl
@[simp] theorem onCmd_sent (s : State) (f : CmdSt → CmdSt) : (s.onCmd f).sent = s.sent := rfl
@[simp] theorem onCmd_fld (s : State) (f : CmdSt → CmdSt) : (s.onCmd f).fld = s.fld := rfl
@[simp] theorem onCmd_sec (s : State) (f : CmdSt → CmdSt) : (s.onCmd f).sec = s.sec := rfl
@[simp] theorem onCmd_yard (s : State) (f : CmdSt → CmdSt) : (s.onCmd f).yard = s.yard := rfl
@[simp] theorem onCmd_host (s : State) (f : CmdSt → CmdSt) : (s.onCmd f).host = s.host := rfl
@[simp] theorem onCmd_strm (s : State) (f : CmdSt → CmdSt) : (s.onCmd f).strm = s.strm := rfl
@[simp] theorem onCmd_brg (s : State) (f : CmdSt → CmdSt) : (s.onCmd f).brg = s.brg := rfl
@[simp] theorem onCmd_ev (s : State) (f : CmdSt → CmdSt) : (s.onCmd f).ev = s.ev := rfl
@[simp] theorem onCmd_loft (s : State) (f : CmdSt → CmdSt) : (s.onCmd f).loft = s.loft := rfl
@[simp] theorem onCmd_flash (s : State) (f : CmdSt → CmdSt) : (s.onCmd f).flash = s.flash := rfl
@[simp] theorem onCmd_snap (s : State) (f : CmdSt → CmdSt) : (s.onCmd f).snap = s.snap := rfl
@[simp] theorem onCmd_rcp (s : State) (f : CmdSt → CmdSt) : (s.onCmd f).rcp = s.rcp := rfl
@[simp] theorem onCmd_ctr (s : State) (f : CmdSt → CmdSt) : (s.onCmd f).ctr = s.ctr := rfl
@[simp] theorem onCmd_ports (s : State) (f : CmdSt → CmdSt) : (s.onCmd f).ports = s.ports := rfl
@[simp] theorem onCmd_free (s : State) (f : CmdSt → CmdSt) : (s.onCmd f).free = s.free := rfl
@[simp] theorem onCmd_pending (s : State) (f : CmdSt → CmdSt) : (s.onCmd f).pending = s.pending := rfl

@[simp] theorem onStrm_strm (s : State) (f : StreamSt → StreamSt) : (s.onStrm f).strm = f s.strm := rfl
@[simp] theorem onStrm_sys (s : State) (f : StreamSt → StreamSt) : (s.onStrm f).sys = s.sys := rfl
@[simp] theorem onStrm_ends (s : State) (f : StreamSt → StreamSt) : (s.onStrm f).ends = s.ends := rfl
@[simp] theorem onStrm_lane (s : State) (f : StreamSt → StreamSt) : (s.onStrm f).lane = s.lane := rfl
@[simp] theorem onStrm_inaug (s : State) (f : StreamSt → StreamSt) : (s.onStrm f).inaug = s.inaug := rfl
@[simp] theorem onStrm_ldr (s : State) (f : StreamSt → StreamSt) : (s.onStrm f).ldr = s.ldr := rfl
@[simp] theorem onStrm_clk (s : State) (f : StreamSt → StreamSt) : (s.onStrm f).clk = s.clk := rfl
@[simp] theorem onStrm_ref (s : State) (f : StreamSt → StreamSt) : (s.onStrm f).ref = s.ref := rfl
@[simp] theorem onStrm_teth (s : State) (f : StreamSt → StreamSt) : (s.onStrm f).teth = s.teth := rfl
@[simp] theorem onStrm_plan (s : State) (f : StreamSt → StreamSt) : (s.onStrm f).plan = s.plan := rfl
@[simp] theorem onStrm_sent (s : State) (f : StreamSt → StreamSt) : (s.onStrm f).sent = s.sent := rfl
@[simp] theorem onStrm_fld (s : State) (f : StreamSt → StreamSt) : (s.onStrm f).fld = s.fld := rfl
@[simp] theorem onStrm_sec (s : State) (f : StreamSt → StreamSt) : (s.onStrm f).sec = s.sec := rfl
@[simp] theorem onStrm_yard (s : State) (f : StreamSt → StreamSt) : (s.onStrm f).yard = s.yard := rfl
@[simp] theorem onStrm_host (s : State) (f : StreamSt → StreamSt) : (s.onStrm f).host = s.host := rfl
@[simp] theorem onStrm_cmd (s : State) (f : StreamSt → StreamSt) : (s.onStrm f).cmd = s.cmd := rfl
@[simp] theorem onStrm_brg (s : State) (f : StreamSt → StreamSt) : (s.onStrm f).brg = s.brg := rfl
@[simp] theorem onStrm_ev (s : State) (f : StreamSt → StreamSt) : (s.onStrm f).ev = s.ev := rfl
@[simp] theorem onStrm_loft (s : State) (f : StreamSt → StreamSt) : (s.onStrm f).loft = s.loft := rfl
@[simp] theorem onStrm_flash (s : State) (f : StreamSt → StreamSt) : (s.onStrm f).flash = s.flash := rfl
@[simp] theorem onStrm_snap (s : State) (f : StreamSt → StreamSt) : (s.onStrm f).snap = s.snap := rfl
@[simp] theorem onStrm_rcp (s : State) (f : StreamSt → StreamSt) : (s.onStrm f).rcp = s.rcp := rfl
@[simp] theorem onStrm_ctr (s : State) (f : StreamSt → StreamSt) : (s.onStrm f).ctr = s.ctr := rfl
@[simp] theorem onStrm_ports (s : State) (f : StreamSt → StreamSt) : (s.onStrm f).ports = s.ports := rfl
@[simp] theorem onStrm_free (s : State) (f : StreamSt → StreamSt) : (s.onStrm f).free = s.free := rfl
@[simp] theorem onStrm_pending (s : State) (f : StreamSt → StreamSt) : (s.onStrm f).pending = s.pending := rfl

@[simp] theorem onBrg_brg (s : State) (f : BridgeSt → BridgeSt) : (s.onBrg f).brg = f s.brg := rfl
@[simp] theorem onBrg_sys (s : State) (f : BridgeSt → BridgeSt) : (s.onBrg f).sys = s.sys := rfl
@[simp] theorem onBrg_ends (s : State) (f : BridgeSt → BridgeSt) : (s.onBrg f).ends = s.ends := rfl
@[simp] theorem onBrg_lane (s : State) (f : BridgeSt → BridgeSt) : (s.onBrg f).lane = s.lane := rfl
@[simp] theorem onBrg_inaug (s : State) (f : BridgeSt → BridgeSt) : (s.onBrg f).inaug = s.inaug := rfl
@[simp] theorem onBrg_ldr (s : State) (f : BridgeSt → BridgeSt) : (s.onBrg f).ldr = s.ldr := rfl
@[simp] theorem onBrg_clk (s : State) (f : BridgeSt → BridgeSt) : (s.onBrg f).clk = s.clk := rfl
@[simp] theorem onBrg_ref (s : State) (f : BridgeSt → BridgeSt) : (s.onBrg f).ref = s.ref := rfl
@[simp] theorem onBrg_teth (s : State) (f : BridgeSt → BridgeSt) : (s.onBrg f).teth = s.teth := rfl
@[simp] theorem onBrg_plan (s : State) (f : BridgeSt → BridgeSt) : (s.onBrg f).plan = s.plan := rfl
@[simp] theorem onBrg_sent (s : State) (f : BridgeSt → BridgeSt) : (s.onBrg f).sent = s.sent := rfl
@[simp] theorem onBrg_fld (s : State) (f : BridgeSt → BridgeSt) : (s.onBrg f).fld = s.fld := rfl
@[simp] theorem onBrg_sec (s : State) (f : BridgeSt → BridgeSt) : (s.onBrg f).sec = s.sec := rfl
@[simp] theorem onBrg_yard (s : State) (f : BridgeSt → BridgeSt) : (s.onBrg f).yard = s.yard := rfl
@[simp] theorem onBrg_host (s : State) (f : BridgeSt → BridgeSt) : (s.onBrg f).host = s.host := rfl
@[simp] theorem onBrg_cmd (s : State) (f : BridgeSt → BridgeSt) : (s.onBrg f).cmd = s.cmd := rfl
@[simp] theorem onBrg_strm (s : State) (f : BridgeSt → BridgeSt) : (s.onBrg f).strm = s.strm := rfl
@[simp] theorem onBrg_ev (s : State) (f : BridgeSt → BridgeSt) : (s.onBrg f).ev = s.ev := rfl
@[simp] theorem onBrg_loft (s : State) (f : BridgeSt → BridgeSt) : (s.onBrg f).loft = s.loft := rfl
@[simp] theorem onBrg_flash (s : State) (f : BridgeSt → BridgeSt) : (s.onBrg f).flash = s.flash := rfl
@[simp] theorem onBrg_snap (s : State) (f : BridgeSt → BridgeSt) : (s.onBrg f).snap = s.snap := rfl
@[simp] theorem onBrg_rcp (s : State) (f : BridgeSt → BridgeSt) : (s.onBrg f).rcp = s.rcp := rfl
@[simp] theorem onBrg_ctr (s : State) (f : BridgeSt → BridgeSt) : (s.onBrg f).ctr = s.ctr := rfl
@[simp] theorem onBrg_ports (s : State) (f : BridgeSt → BridgeSt) : (s.onBrg f).ports = s.ports := rfl
@[simp] theorem onBrg_free (s : State) (f : BridgeSt → BridgeSt) : (s.onBrg f).free = s.free := rfl
@[simp] theorem onBrg_pending (s : State) (f : BridgeSt → BridgeSt) : (s.onBrg f).pending = s.pending := rfl

@[simp] theorem onEv_ev (s : State) (f : EvSt → EvSt) : (s.onEv f).ev = f s.ev := rfl
@[simp] theorem onEv_sys (s : State) (f : EvSt → EvSt) : (s.onEv f).sys = s.sys := rfl
@[simp] theorem onEv_ends (s : State) (f : EvSt → EvSt) : (s.onEv f).ends = s.ends := rfl
@[simp] theorem onEv_lane (s : State) (f : EvSt → EvSt) : (s.onEv f).lane = s.lane := rfl
@[simp] theorem onEv_inaug (s : State) (f : EvSt → EvSt) : (s.onEv f).inaug = s.inaug := rfl
@[simp] theorem onEv_ldr (s : State) (f : EvSt → EvSt) : (s.onEv f).ldr = s.ldr := rfl
@[simp] theorem onEv_clk (s : State) (f : EvSt → EvSt) : (s.onEv f).clk = s.clk := rfl
@[simp] theorem onEv_ref (s : State) (f : EvSt → EvSt) : (s.onEv f).ref = s.ref := rfl
@[simp] theorem onEv_teth (s : State) (f : EvSt → EvSt) : (s.onEv f).teth = s.teth := rfl
@[simp] theorem onEv_plan (s : State) (f : EvSt → EvSt) : (s.onEv f).plan = s.plan := rfl
@[simp] theorem onEv_sent (s : State) (f : EvSt → EvSt) : (s.onEv f).sent = s.sent := rfl
@[simp] theorem onEv_fld (s : State) (f : EvSt → EvSt) : (s.onEv f).fld = s.fld := rfl
@[simp] theorem onEv_sec (s : State) (f : EvSt → EvSt) : (s.onEv f).sec = s.sec := rfl
@[simp] theorem onEv_yard (s : State) (f : EvSt → EvSt) : (s.onEv f).yard = s.yard := rfl
@[simp] theorem onEv_host (s : State) (f : EvSt → EvSt) : (s.onEv f).host = s.host := rfl
@[simp] theorem onEv_cmd (s : State) (f : EvSt → EvSt) : (s.onEv f).cmd = s.cmd := rfl
@[simp] theorem onEv_strm (s : State) (f : EvSt → EvSt) : (s.onEv f).strm = s.strm := rfl
@[simp] theorem onEv_brg (s : State) (f : EvSt → EvSt) : (s.onEv f).brg = s.brg := rfl
@[simp] theorem onEv_loft (s : State) (f : EvSt → EvSt) : (s.onEv f).loft = s.loft := rfl
@[simp] theorem onEv_flash (s : State) (f : EvSt → EvSt) : (s.onEv f).flash = s.flash := rfl
@[simp] theorem onEv_snap (s : State) (f : EvSt → EvSt) : (s.onEv f).snap = s.snap := rfl
@[simp] theorem onEv_rcp (s : State) (f : EvSt → EvSt) : (s.onEv f).rcp = s.rcp := rfl
@[simp] theorem onEv_ctr (s : State) (f : EvSt → EvSt) : (s.onEv f).ctr = s.ctr := rfl
@[simp] theorem onEv_ports (s : State) (f : EvSt → EvSt) : (s.onEv f).ports = s.ports := rfl
@[simp] theorem onEv_free (s : State) (f : EvSt → EvSt) : (s.onEv f).free = s.free := rfl
@[simp] theorem onEv_pending (s : State) (f : EvSt → EvSt) : (s.onEv f).pending = s.pending := rfl

@[simp] theorem onLoft_loft (s : State) (f : LoftSt → LoftSt) : (s.onLoft f).loft = f s.loft := rfl
@[simp] theorem onLoft_sys (s : State) (f : LoftSt → LoftSt) : (s.onLoft f).sys = s.sys := rfl
@[simp] theorem onLoft_ends (s : State) (f : LoftSt → LoftSt) : (s.onLoft f).ends = s.ends := rfl
@[simp] theorem onLoft_lane (s : State) (f : LoftSt → LoftSt) : (s.onLoft f).lane = s.lane := rfl
@[simp] theorem onLoft_inaug (s : State) (f : LoftSt → LoftSt) : (s.onLoft f).inaug = s.inaug := rfl
@[simp] theorem onLoft_ldr (s : State) (f : LoftSt → LoftSt) : (s.onLoft f).ldr = s.ldr := rfl
@[simp] theorem onLoft_clk (s : State) (f : LoftSt → LoftSt) : (s.onLoft f).clk = s.clk := rfl
@[simp] theorem onLoft_ref (s : State) (f : LoftSt → LoftSt) : (s.onLoft f).ref = s.ref := rfl
@[simp] theorem onLoft_teth (s : State) (f : LoftSt → LoftSt) : (s.onLoft f).teth = s.teth := rfl
@[simp] theorem onLoft_plan (s : State) (f : LoftSt → LoftSt) : (s.onLoft f).plan = s.plan := rfl
@[simp] theorem onLoft_sent (s : State) (f : LoftSt → LoftSt) : (s.onLoft f).sent = s.sent := rfl
@[simp] theorem onLoft_fld (s : State) (f : LoftSt → LoftSt) : (s.onLoft f).fld = s.fld := rfl
@[simp] theorem onLoft_sec (s : State) (f : LoftSt → LoftSt) : (s.onLoft f).sec = s.sec := rfl
@[simp] theorem onLoft_yard (s : State) (f : LoftSt → LoftSt) : (s.onLoft f).yard = s.yard := rfl
@[simp] theorem onLoft_host (s : State) (f : LoftSt → LoftSt) : (s.onLoft f).host = s.host := rfl
@[simp] theorem onLoft_cmd (s : State) (f : LoftSt → LoftSt) : (s.onLoft f).cmd = s.cmd := rfl
@[simp] theorem onLoft_strm (s : State) (f : LoftSt → LoftSt) : (s.onLoft f).strm = s.strm := rfl
@[simp] theorem onLoft_brg (s : State) (f : LoftSt → LoftSt) : (s.onLoft f).brg = s.brg := rfl
@[simp] theorem onLoft_ev (s : State) (f : LoftSt → LoftSt) : (s.onLoft f).ev = s.ev := rfl
@[simp] theorem onLoft_flash (s : State) (f : LoftSt → LoftSt) : (s.onLoft f).flash = s.flash := rfl
@[simp] theorem onLoft_snap (s : State) (f : LoftSt → LoftSt) : (s.onLoft f).snap = s.snap := rfl
@[simp] theorem onLoft_rcp (s : State) (f : LoftSt → LoftSt) : (s.onLoft f).rcp = s.rcp := rfl
@[simp] theorem onLoft_ctr (s : State) (f : LoftSt → LoftSt) : (s.onLoft f).ctr = s.ctr := rfl
@[simp] theorem onLoft_ports (s : State) (f : LoftSt → LoftSt) : (s.onLoft f).ports = s.ports := rfl
@[simp] theorem onLoft_free (s : State) (f : LoftSt → LoftSt) : (s.onLoft f).free = s.free := rfl
@[simp] theorem onLoft_pending (s : State) (f : LoftSt → LoftSt) : (s.onLoft f).pending = s.pending := rfl

@[simp] theorem onFlash_flash (s : State) (f : FlashSt → FlashSt) : (s.onFlash f).flash = f s.flash := rfl
@[simp] theorem onFlash_sys (s : State) (f : FlashSt → FlashSt) : (s.onFlash f).sys = s.sys := rfl
@[simp] theorem onFlash_ends (s : State) (f : FlashSt → FlashSt) : (s.onFlash f).ends = s.ends := rfl
@[simp] theorem onFlash_lane (s : State) (f : FlashSt → FlashSt) : (s.onFlash f).lane = s.lane := rfl
@[simp] theorem onFlash_inaug (s : State) (f : FlashSt → FlashSt) : (s.onFlash f).inaug = s.inaug := rfl
@[simp] theorem onFlash_ldr (s : State) (f : FlashSt → FlashSt) : (s.onFlash f).ldr = s.ldr := rfl
@[simp] theorem onFlash_clk (s : State) (f : FlashSt → FlashSt) : (s.onFlash f).clk = s.clk := rfl
@[simp] theorem onFlash_ref (s : State) (f : FlashSt → FlashSt) : (s.onFlash f).ref = s.ref := rfl
@[simp] theorem onFlash_teth (s : State) (f : FlashSt → FlashSt) : (s.onFlash f).teth = s.teth := rfl
@[simp] theorem onFlash_plan (s : State) (f : FlashSt → FlashSt) : (s.onFlash f).plan = s.plan := rfl
@[simp] theorem onFlash_sent (s : State) (f : FlashSt → FlashSt) : (s.onFlash f).sent = s.sent := rfl
@[simp] theorem onFlash_fld (s : State) (f : FlashSt → FlashSt) : (s.onFlash f).fld = s.fld := rfl
@[simp] theorem onFlash_sec (s : State) (f : FlashSt → FlashSt) : (s.onFlash f).sec = s.sec := rfl
@[simp] theorem onFlash_yard (s : State) (f : FlashSt → FlashSt) : (s.onFlash f).yard = s.yard := rfl
@[simp] theorem onFlash_host (s : State) (f : FlashSt → FlashSt) : (s.onFlash f).host = s.host := rfl
@[simp] theorem onFlash_cmd (s : State) (f : FlashSt → FlashSt) : (s.onFlash f).cmd = s.cmd := rfl
@[simp] theorem onFlash_strm (s : State) (f : FlashSt → FlashSt) : (s.onFlash f).strm = s.strm := rfl
@[simp] theorem onFlash_brg (s : State) (f : FlashSt → FlashSt) : (s.onFlash f).brg = s.brg := rfl
@[simp] theorem onFlash_ev (s : State) (f : FlashSt → FlashSt) : (s.onFlash f).ev = s.ev := rfl
@[simp] theorem onFlash_loft (s : State) (f : FlashSt → FlashSt) : (s.onFlash f).loft = s.loft := rfl
@[simp] theorem onFlash_snap (s : State) (f : FlashSt → FlashSt) : (s.onFlash f).snap = s.snap := rfl
@[simp] theorem onFlash_rcp (s : State) (f : FlashSt → FlashSt) : (s.onFlash f).rcp = s.rcp := rfl
@[simp] theorem onFlash_ctr (s : State) (f : FlashSt → FlashSt) : (s.onFlash f).ctr = s.ctr := rfl
@[simp] theorem onFlash_ports (s : State) (f : FlashSt → FlashSt) : (s.onFlash f).ports = s.ports := rfl
@[simp] theorem onFlash_free (s : State) (f : FlashSt → FlashSt) : (s.onFlash f).free = s.free := rfl
@[simp] theorem onFlash_pending (s : State) (f : FlashSt → FlashSt) : (s.onFlash f).pending = s.pending := rfl

@[simp] theorem onSnap_snap (s : State) (f : SnapSt → SnapSt) : (s.onSnap f).snap = f s.snap := rfl
@[simp] theorem onSnap_sys (s : State) (f : SnapSt → SnapSt) : (s.onSnap f).sys = s.sys := rfl
@[simp] theorem onSnap_ends (s : State) (f : SnapSt → SnapSt) : (s.onSnap f).ends = s.ends := rfl
@[simp] theorem onSnap_lane (s : State) (f : SnapSt → SnapSt) : (s.onSnap f).lane = s.lane := rfl
@[simp] theorem onSnap_inaug (s : State) (f : SnapSt → SnapSt) : (s.onSnap f).inaug = s.inaug := rfl
@[simp] theorem onSnap_ldr (s : State) (f : SnapSt → SnapSt) : (s.onSnap f).ldr = s.ldr := rfl
@[simp] theorem onSnap_clk (s : State) (f : SnapSt → SnapSt) : (s.onSnap f).clk = s.clk := rfl
@[simp] theorem onSnap_ref (s : State) (f : SnapSt → SnapSt) : (s.onSnap f).ref = s.ref := rfl
@[simp] theorem onSnap_teth (s : State) (f : SnapSt → SnapSt) : (s.onSnap f).teth = s.teth := rfl
@[simp] theorem onSnap_plan (s : State) (f : SnapSt → SnapSt) : (s.onSnap f).plan = s.plan := rfl
@[simp] theorem onSnap_sent (s : State) (f : SnapSt → SnapSt) : (s.onSnap f).sent = s.sent := rfl
@[simp] theorem onSnap_fld (s : State) (f : SnapSt → SnapSt) : (s.onSnap f).fld = s.fld := rfl
@[simp] theorem onSnap_sec (s : State) (f : SnapSt → SnapSt) : (s.onSnap f).sec = s.sec := rfl
@[simp] theorem onSnap_yard (s : State) (f : SnapSt → SnapSt) : (s.onSnap f).yard = s.yard := rfl
@[simp] theorem onSnap_host (s : State) (f : SnapSt → SnapSt) : (s.onSnap f).host = s.host := rfl
@[simp] theorem onSnap_cmd (s : State) (f : SnapSt → SnapSt) : (s.onSnap f).cmd = s.cmd := rfl
@[simp] theorem onSnap_strm (s : State) (f : SnapSt → SnapSt) : (s.onSnap f).strm = s.strm := rfl
@[simp] theorem onSnap_brg (s : State) (f : SnapSt → SnapSt) : (s.onSnap f).brg = s.brg := rfl
@[simp] theorem onSnap_ev (s : State) (f : SnapSt → SnapSt) : (s.onSnap f).ev = s.ev := rfl
@[simp] theorem onSnap_loft (s : State) (f : SnapSt → SnapSt) : (s.onSnap f).loft = s.loft := rfl
@[simp] theorem onSnap_flash (s : State) (f : SnapSt → SnapSt) : (s.onSnap f).flash = s.flash := rfl
@[simp] theorem onSnap_rcp (s : State) (f : SnapSt → SnapSt) : (s.onSnap f).rcp = s.rcp := rfl
@[simp] theorem onSnap_ctr (s : State) (f : SnapSt → SnapSt) : (s.onSnap f).ctr = s.ctr := rfl
@[simp] theorem onSnap_ports (s : State) (f : SnapSt → SnapSt) : (s.onSnap f).ports = s.ports := rfl
@[simp] theorem onSnap_free (s : State) (f : SnapSt → SnapSt) : (s.onSnap f).free = s.free := rfl
@[simp] theorem onSnap_pending (s : State) (f : SnapSt → SnapSt) : (s.onSnap f).pending = s.pending := rfl

@[simp] theorem onRcp_rcp (s : State) (f : Recipe → Recipe) : (s.onRcp f).rcp = f s.rcp := rfl
@[simp] theorem onRcp_sys (s : State) (f : Recipe → Recipe) : (s.onRcp f).sys = s.sys := rfl
@[simp] theorem onRcp_ends (s : State) (f : Recipe → Recipe) : (s.onRcp f).ends = s.ends := rfl
@[simp] theorem onRcp_lane (s : State) (f : Recipe → Recipe) : (s.onRcp f).lane = s.lane := rfl
@[simp] theorem onRcp_inaug (s : State) (f : Recipe → Recipe) : (s.onRcp f).inaug = s.inaug := rfl
@[simp] theorem onRcp_ldr (s : State) (f : Recipe → Recipe) : (s.onRcp f).ldr = s.ldr := rfl
@[simp] theorem onRcp_clk (s : State) (f : Recipe → Recipe) : (s.onRcp f).clk = s.clk := rfl
@[simp] theorem onRcp_ref (s : State) (f : Recipe → Recipe) : (s.onRcp f).ref = s.ref := rfl
@[simp] theorem onRcp_teth (s : State) (f : Recipe → Recipe) : (s.onRcp f).teth = s.teth := rfl
@[simp] theorem onRcp_plan (s : State) (f : Recipe → Recipe) : (s.onRcp f).plan = s.plan := rfl
@[simp] theorem onRcp_sent (s : State) (f : Recipe → Recipe) : (s.onRcp f).sent = s.sent := rfl
@[simp] theorem onRcp_fld (s : State) (f : Recipe → Recipe) : (s.onRcp f).fld = s.fld := rfl
@[simp] theorem onRcp_sec (s : State) (f : Recipe → Recipe) : (s.onRcp f).sec = s.sec := rfl
@[simp] theorem onRcp_yard (s : State) (f : Recipe → Recipe) : (s.onRcp f).yard = s.yard := rfl
@[simp] theorem onRcp_host (s : State) (f : Recipe → Recipe) : (s.onRcp f).host = s.host := rfl
@[simp] theorem onRcp_cmd (s : State) (f : Recipe → Recipe) : (s.onRcp f).cmd = s.cmd := rfl
@[simp] theorem onRcp_strm (s : State) (f : Recipe → Recipe) : (s.onRcp f).strm = s.strm := rfl
@[simp] theorem onRcp_brg (s : State) (f : Recipe → Recipe) : (s.onRcp f).brg = s.brg := rfl
@[simp] theorem onRcp_ev (s : State) (f : Recipe → Recipe) : (s.onRcp f).ev = s.ev := rfl
@[simp] theorem onRcp_loft (s : State) (f : Recipe → Recipe) : (s.onRcp f).loft = s.loft := rfl
@[simp] theorem onRcp_flash (s : State) (f : Recipe → Recipe) : (s.onRcp f).flash = s.flash := rfl
@[simp] theorem onRcp_snap (s : State) (f : Recipe → Recipe) : (s.onRcp f).snap = s.snap := rfl
@[simp] theorem onRcp_ctr (s : State) (f : Recipe → Recipe) : (s.onRcp f).ctr = s.ctr := rfl
@[simp] theorem onRcp_ports (s : State) (f : Recipe → Recipe) : (s.onRcp f).ports = s.ports := rfl
@[simp] theorem onRcp_free (s : State) (f : Recipe → Recipe) : (s.onRcp f).free = s.free := rfl
@[simp] theorem onRcp_pending (s : State) (f : Recipe → Recipe) : (s.onRcp f).pending = s.pending := rfl

@[simp] theorem onCtr_ctr (s : State) (f : Ctrs → Ctrs) : (s.onCtr f).ctr = f s.ctr := rfl
@[simp] theorem onCtr_sys (s : State) (f : Ctrs → Ctrs) : (s.onCtr f).sys = s.sys := rfl
@[simp] theorem onCtr_ends (s : State) (f : Ctrs → Ctrs) : (s.onCtr f).ends = s.ends := rfl
@[simp] theorem onCtr_lane (s : State) (f : Ctrs → Ctrs) : (s.onCtr f).lane = s.lane := rfl
@[simp] theorem onCtr_inaug (s : State) (f : Ctrs → Ctrs) : (s.onCtr f).inaug = s.inaug := rfl
@[simp] theorem onCtr_ldr (s : State) (f : Ctrs → Ctrs) : (s.onCtr f).ldr = s.ldr := rfl
@[simp] theorem onCtr_clk (s : State) (f : Ctrs → Ctrs) : (s.onCtr f).clk = s.clk := rfl
@[simp] theorem onCtr_ref (s : State) (f : Ctrs → Ctrs) : (s.onCtr f).ref = s.ref := rfl
@[simp] theorem onCtr_teth (s : State) (f : Ctrs → Ctrs) : (s.onCtr f).teth = s.teth := rfl
@[simp] theorem onCtr_plan (s : State) (f : Ctrs → Ctrs) : (s.onCtr f).plan = s.plan := rfl
@[simp] theorem onCtr_sent (s : State) (f : Ctrs → Ctrs) : (s.onCtr f).sent = s.sent := rfl
@[simp] theorem onCtr_fld (s : State) (f : Ctrs → Ctrs) : (s.onCtr f).fld = s.fld := rfl
@[simp] theorem onCtr_sec (s : State) (f : Ctrs → Ctrs) : (s.onCtr f).sec = s.sec := rfl
@[simp] theorem onCtr_yard (s : State) (f : Ctrs → Ctrs) : (s.onCtr f).yard = s.yard := rfl
@[simp] theorem onCtr_host (s : State) (f : Ctrs → Ctrs) : (s.onCtr f).host = s.host := rfl
@[simp] theorem onCtr_cmd (s : State) (f : Ctrs → Ctrs) : (s.onCtr f).cmd = s.cmd := rfl
@[simp] theorem onCtr_strm (s : State) (f : Ctrs → Ctrs) : (s.onCtr f).strm = s.strm := rfl
@[simp] theorem onCtr_brg (s : State) (f : Ctrs → Ctrs) : (s.onCtr f).brg = s.brg := rfl
@[simp] theorem onCtr_ev (s : State) (f : Ctrs → Ctrs) : (s.onCtr f).ev = s.ev := rfl
@[simp] theorem onCtr_loft (s : State) (f : Ctrs → Ctrs) : (s.onCtr f).loft = s.loft := rfl
@[simp] theorem onCtr_flash (s : State) (f : Ctrs → Ctrs) : (s.onCtr f).flash = s.flash := rfl
@[simp] theorem onCtr_snap (s : State) (f : Ctrs → Ctrs) : (s.onCtr f).snap = s.snap := rfl
@[simp] theorem onCtr_rcp (s : State) (f : Ctrs → Ctrs) : (s.onCtr f).rcp = s.rcp := rfl
@[simp] theorem onCtr_ports (s : State) (f : Ctrs → Ctrs) : (s.onCtr f).ports = s.ports := rfl
@[simp] theorem onCtr_free (s : State) (f : Ctrs → Ctrs) : (s.onCtr f).free = s.free := rfl
@[simp] theorem onCtr_pending (s : State) (f : Ctrs → Ctrs) : (s.onCtr f).pending = s.pending := rfl

@[simp] theorem onPorts_ports (s : State) (f : List PortSt → List PortSt) : (s.onPorts f).ports = f s.ports := rfl
@[simp] theorem onPorts_sys (s : State) (f : List PortSt → List PortSt) : (s.onPorts f).sys = s.sys := rfl
@[simp] theorem onPorts_ends (s : State) (f : List PortSt → List PortSt) : (s.onPorts f).ends = s.ends := rfl
@[simp] theorem onPorts_lane (s : State) (f : List PortSt → List PortSt) : (s.onPorts f).lane = s.lane := rfl
@[simp] theorem onPorts_inaug (s : State) (f : List PortSt → List PortSt) : (s.onPorts f).inaug = s.inaug := rfl
@[simp] theorem onPorts_ldr (s : State) (f : List PortSt → List PortSt) : (s.onPorts f).ldr = s.ldr := rfl
@[simp] theorem onPorts_clk (s : State) (f : List PortSt → List PortSt) : (s.onPorts f).clk = s.clk := rfl
@[simp] theorem onPorts_ref (s : State) (f : List PortSt → List PortSt) : (s.onPorts f).ref = s.ref := rfl
@[simp] theorem onPorts_teth (s : State) (f : List PortSt → List PortSt) : (s.onPorts f).teth = s.teth := rfl
@[simp] theorem onPorts_plan (s : State) (f : List PortSt → List PortSt) : (s.onPorts f).plan = s.plan := rfl
@[simp] theorem onPorts_sent (s : State) (f : List PortSt → List PortSt) : (s.onPorts f).sent = s.sent := rfl
@[simp] theorem onPorts_fld (s : State) (f : List PortSt → List PortSt) : (s.onPorts f).fld = s.fld := rfl
@[simp] theorem onPorts_sec (s : State) (f : List PortSt → List PortSt) : (s.onPorts f).sec = s.sec := rfl
@[simp] theorem onPorts_yard (s : State) (f : List PortSt → List PortSt) : (s.onPorts f).yard = s.yard := rfl
@[simp] theorem onPorts_host (s : State) (f : List PortSt → List PortSt) : (s.onPorts f).host = s.host := rfl
@[simp] theorem onPorts_cmd (s : State) (f : List PortSt → List PortSt) : (s.onPorts f).cmd = s.cmd := rfl
@[simp] theorem onPorts_strm (s : State) (f : List PortSt → List PortSt) : (s.onPorts f).strm = s.strm := rfl
@[simp] theorem onPorts_brg (s : State) (f : List PortSt → List PortSt) : (s.onPorts f).brg = s.brg := rfl
@[simp] theorem onPorts_ev (s : State) (f : List PortSt → List PortSt) : (s.onPorts f).ev = s.ev := rfl
@[simp] theorem onPorts_loft (s : State) (f : List PortSt → List PortSt) : (s.onPorts f).loft = s.loft := rfl
@[simp] theorem onPorts_flash (s : State) (f : List PortSt → List PortSt) : (s.onPorts f).flash = s.flash := rfl
@[simp] theorem onPorts_snap (s : State) (f : List PortSt → List PortSt) : (s.onPorts f).snap = s.snap := rfl
@[simp] theorem onPorts_rcp (s : State) (f : List PortSt → List PortSt) : (s.onPorts f).rcp = s.rcp := rfl
@[simp] theorem onPorts_ctr (s : State) (f : List PortSt → List PortSt) : (s.onPorts f).ctr = s.ctr := rfl
@[simp] theorem onPorts_free (s : State) (f : List PortSt → List PortSt) : (s.onPorts f).free = s.free := rfl
@[simp] theorem onPorts_pending (s : State) (f : List PortSt → List PortSt) : (s.onPorts f).pending = s.pending := rfl

end Sys2Proof.Machine
end

