-- ==== Sys2Proof/Laws/Msg.lean ====
section
/-!
SUPPORT. What taking a firmware command says once: when it runs, its body is all that happens; when no message waits, nothing does.
-/

namespace Sys2Proof.Laws

open Sys2Proof Sys2Proof.Machine

/-- The common checks pass, so the command's own body is done. -/
theorem checkCmd_of_passes {used : Nat} {need : Need} {body : Ctx → State → State} {c : Ctx} {s : State}
    (h : passes used need c s = true) : checkCmd used need body c s = body c s := by
  simp only [passes, Bool.and_eq_true, bne_iff_ne, ne_eq, decide_eq_true_eq, Bool.not_eq_true', Bool.or_eq_true] at h
  obtain ⟨⟨⟨⟨⟨h1, h2⟩, h3⟩, h4⟩, h5⟩, h6⟩ := h
  have e1 : (s.sys.dev == .recovery && !recoveryCodes.contains (msgCode c.words)) = false := by
    cases h1 with
    | inl h => simp [h]
    | inr h => simp only [h]; simp
  have e2 : (c.tag == 0) = false := by simpa using h2
  simp only [checkCmd, e1, e2, h4, h5, h6, Nat.not_lt.mpr h3, if_false, Bool.false_eq_true, Bool.not_true]

/-- A command that runs does its body in the state in which it has been taken (R386, R393). -/
theorem firmware_runs {code used : Nat} {need : Need} {body : Ctx → State → State} {via : Via} {s : State}
    (h : cmdRuns code used need via s = true) :
    firmware code used need body via s = body (cmdOf code via s) (takenBy code via s) := by
  simp only [cmdRuns, Bool.and_eq_true] at h
  obtain ⟨⟨h1, h2⟩, h3⟩ := h
  simp only [firmware, h1, Bool.not_true, Bool.false_eq_true, if_false]
  simp only [cmdOf, takenBy] at h3 ⊢
  cases hr : readyFor code via s with
  | some c =>
    simp only [hr, Bool.and_eq_true, Bool.not_eq_true'] at h2 h3 ⊢
    simp only [h2.1, h2.2, Bool.or_false, Bool.false_eq_true, if_false]
    exact checkCmd_of_passes h3
  | none =>
    simp only [hr, Bool.and_eq_true, Bool.not_eq_true'] at h2 h3 ⊢
    obtain ⟨⟨h2r, h2t⟩, h2⟩ := h2
    cases hw : waitingMsg s via with
    | none => simp [hw] at h2
    | some ws =>
      simp only [hw, Option.getD_some] at h2 h3 ⊢
      simp only [Bool.and_eq_true, beq_iff_eq, Bool.not_eq_true'] at h2
      obtain ⟨⟨h2a, h2p⟩, h2b⟩ := h2
      have e : (msgCode ws != code) = false := by simp [h2a]
      simp only [h2r, h2t, h2p, e, Bool.not_true, Bool.or_false, Bool.false_or, Bool.false_eq_true, if_false]
      cases hs : serialised need code with
      | false =>
        have h2b : earlierWaits via s = false := by simpa [hs] using h2b
        simp only [h2b, Bool.not_false, Bool.and_false, Bool.false_eq_true, if_false]
        exact checkCmd_of_passes h3
      | true =>
        have hb : (s.cmd.busy.isNone && s.cmd.waiting.isEmpty && !(s.sys.braced && heldWhenBraced code)) = true := by simpa [hs] using h2b
        simp only [Bool.and_eq_true, Bool.not_eq_true'] at hb
        obtain ⟨⟨hb1, hb3⟩, hb2⟩ := hb
        have t1 : (takeMsg via s).cmd.busy = s.cmd.busy := by cases via <;> rfl
        have t2 : (takeMsg via s).sys = s.sys := by cases via <;> rfl
        have t3 : (takeMsg via s).cmd.waiting = s.cmd.waiting := by cases via <;> rfl
        simp only [Bool.not_true, Bool.false_and, Bool.false_eq_true, if_false, if_true]
        rw [checkCmd_of_passes h3]
        simp only [beginSerial, t1, t2, t3]
        split
        · exact checkCmd_of_passes h3
        · cases hb : s.cmd.busy with
          | some x => simp [hb] at hb1
          | none =>
            simp only [hb3, Option.isSome_none, Bool.not_true, Bool.or_false, Bool.false_eq_true, if_false, startSerial, t2, hb2]
            exact checkCmd_of_passes h3

/-- A state in which the firmware takes no message, and a channel on which none waits, are left as they are (R364, R387). -/
theorem firmware_no_message {code used : Nat} {need : Need} {body : Ctx → State → State} {via : Via} {s : State}
    (hr : s.cmd.ready = none) (hw : waitingMsg s via = none) : firmware code used need body via s = s := by
  simp [firmware, readyFor, hr, hw]

/-! Parcels (R389, R390). -/

theorem withParcel_ok {i : Nat} {f : Nat → Nat → State → State} {c : Ctx} {s : State} (h : parcelOk i c s = true) :
    withParcel i f c s = f (wd c.words i) (wd c.words (i + 1)) s := by
  simp only [parcelOk, Bool.and_eq_true, Bool.not_eq_true'] at h
  simp [withParcel, h.1, h.2]

/-- An input parcel that is sound is read whole. -/
theorem readParcel_ok {i : Nat} {f : List Byte → State → State} {c : Ctx} {s : State} (h : parcelOk i c s = true)
    (hr : (parcelRead i c s).1 = true) : readParcel i f c s = f (parcelBytes i c s) (parcelRead i c s).2 := by
  cases hc : c.copy with
  | some p => simp [readParcel, withParcel_ok h, parcelBytes, parcelRead, hc]
  | none =>
    simp only [parcelRead, hc] at hr
    simp [readParcel, withParcel_ok h, parcelBytes, parcelRead, hc, hr]

/-- An output parcel takes the whole items that fit. -/
theorem writeItems_ok {i : Nat} {items : List (List Byte)} {done : Nat → State → State} {c : Ctx} {s : State} (h : parcelOk i c s = true)
    (hf : items = [] ∨ 0 < parcelFit i items c) : writeItems i items done c s = done (parcelFit i items c) (parcelPut i items c s) := by
  have e : (fitCount (wd c.words (i + 1)) (items.map (·.length)) == 0 && !items.isEmpty) = false := by
    cases hf with
    | inl h0 => simp [h0]
    | inr h0 =>
      simp only [parcelFit] at h0
      have : (fitCount (wd c.words (i + 1)) (items.map (·.length)) == 0) = false := by simpa using Nat.pos_iff_ne_zero.mp h0
      simp only [this, Bool.false_and]
  simp only [writeItems, withParcel_ok h, e, Bool.false_eq_true, if_false, parcelPut, parcelFit]

/-! Taking a message touches the host port or the yard, the commands' queue and a counter. -/

@[simp] theorem takenBy_sys (code : Nat) (via : Via) (s : State) : (takenBy code via s).sys = s.sys := by
  unfold takenBy; split
  · rfl
  · cases via <;> rfl
@[simp] theorem takenBy_ends (code : Nat) (via : Via) (s : State) : (takenBy code via s).ends = s.ends := by
  unfold takenBy; split
  · rfl
  · cases via <;> rfl
@[simp] theorem takenBy_lane (code : Nat) (via : Via) (s : State) : (takenBy code via s).lane = s.lane := by
  unfold takenBy; split
  · rfl
  · cases via <;> rfl
@[simp] theorem takenBy_inaug (code : Nat) (via : Via) (s : State) : (takenBy code via s).inaug = s.inaug := by
  unfold takenBy; split
  · rfl
  · cases via <;> rfl
@[simp] theorem takenBy_ldr (code : Nat) (via : Via) (s : State) : (takenBy code via s).ldr = s.ldr := by
  unfold takenBy; split
  · rfl
  · cases via <;> rfl
@[simp] theorem takenBy_clk (code : Nat) (via : Via) (s : State) : (takenBy code via s).clk = s.clk := by
  unfold takenBy; split
  · rfl
  · cases via <;> rfl
@[simp] theorem takenBy_ref (code : Nat) (via : Via) (s : State) : (takenBy code via s).ref = s.ref := by
  unfold takenBy; split
  · rfl
  · cases via <;> rfl
@[simp] theorem takenBy_teth (code : Nat) (via : Via) (s : State) : (takenBy code via s).teth = s.teth := by
  unfold takenBy; split
  · rfl
  · cases via <;> rfl
@[simp] theorem takenBy_plan (code : Nat) (via : Via) (s : State) : (takenBy code via s).plan = s.plan := by
  unfold takenBy; split
  · rfl
  · cases via <;> rfl
@[simp] theorem takenBy_sent (code : Nat) (via : Via) (s : State) : (takenBy code via s).sent = s.sent := by
  unfold takenBy; split
  · rfl
  · cases via <;> rfl
@[simp] theorem takenBy_fld (code : Nat) (via : Via) (s : State) : (takenBy code via s).fld = s.fld := by
  unfold takenBy; split
  · rfl
  · cases via <;> rfl
@[simp] theorem takenBy_sec (code : Nat) (via : Via) (s : State) : (takenBy code via s).sec = s.sec := by
  unfold takenBy; split
  · rfl
  · cases via <;> rfl
@[simp] theorem takenBy_strm (code : Nat) (via : Via) (s : State) : (takenBy code via s).strm = s.strm := by
  unfold takenBy; split
  · rfl
  · cases via <;> rfl
@[simp] theorem takenBy_brg (code : Nat) (via : Via) (s : State) : (takenBy code via s).brg = s.brg := by
  unfold takenBy; split
  · rfl
  · cases via <;> rfl
@[simp] theorem takenBy_ev (code : Nat) (via : Via) (s : State) : (takenBy code via s).ev = s.ev := by
  unfold takenBy; split
  · rfl
  · cases via <;> rfl
@[simp] theorem takenBy_loft (code : Nat) (via : Via) (s : State) : (takenBy code via s).loft = s.loft := by
  unfold takenBy; split
  · rfl
  · cases via <;> rfl
@[simp] theorem takenBy_flash (code : Nat) (via : Via) (s : State) : (takenBy code via s).flash = s.flash := by
  unfold takenBy; split
  · rfl
  · cases via <;> rfl
@[simp] theorem takenBy_snap (code : Nat) (via : Via) (s : State) : (takenBy code via s).snap = s.snap := by
  unfold takenBy; split
  · rfl
  · cases via <;> rfl
@[simp] theorem takenBy_rcp (code : Nat) (via : Via) (s : State) : (takenBy code via s).rcp = s.rcp := by
  unfold takenBy; split
  · rfl
  · cases via <;> rfl
@[simp] theorem takenBy_ports (code : Nat) (via : Via) (s : State) : (takenBy code via s).ports = s.ports := by
  unfold takenBy; split
  · rfl
  · cases via <;> rfl
@[simp] theorem takenBy_free (code : Nat) (via : Via) (s : State) : (takenBy code via s).free = s.free := by
  unfold takenBy; split
  · rfl
  · cases via <;> rfl
@[simp] theorem takenBy_pending (code : Nat) (via : Via) (s : State) : (takenBy code via s).pending = s.pending := by
  unfold takenBy; split
  · rfl
  · cases via <;> rfl

end Sys2Proof.Laws
end

