-- ==== Sys2Proof/Laws/Train.lean ====
section
/-!
SUPPORT. What the shared operations of the car as part of a train do to the device record: a transition changes the state and the bypass
pins, and nothing else does.
-/

namespace Sys2Proof.Laws

open Sys2Proof Sys2Proof.Machine

theorem sys_each {α : Type} (l : List α) (f : α → State → State) (h : ∀ a s, (f a s).sys = s.sys) (s : State) :
    (each l f s).sys = s.sys := by
  unfold each
  induction l generalizing s with
  | nil => rfl
  | cons a r ih => simp only [List.foldl_cons, ih, h]

@[simp] theorem sys_raise (a b : Nat) (s : State) : (raise a b s).sys = s.sys := sys_of_quiet (quiet_raise _ _ _)
@[simp] theorem sys_raise2 (a b c : Nat) (s : State) : (raise2 a b c s).sys = s.sys := sys_of_quiet (quiet_raise2 _ _ _ _)
@[simp] theorem sys_raiseCode (a b c d : Nat) (s : State) : (raiseCode a b c d s).sys = s.sys :=
  sys_of_quiet (quiet_raiseCode _ _ _ _ _)
@[simp] theorem sys_notifyState (a : Nat) (s : State) : (notifyState a s).sys = s.sys := sys_of_quiet (quiet_notifyState _ _)
@[simp] theorem sys_replyOk (c : Ctx) (l : List Nat) (s : State) : (replyOk c l s).sys = s.sys := sys_of_quiet (quiet_replyOk _ _ _)
@[simp] theorem sys_reply (c : Ctx) (a d : Nat) (l : List Nat) (s : State) : (reply c a d l s).sys = s.sys :=
  sys_of_quiet (quiet_reply _ _ _ _ _)
@[simp] theorem sys_fieldSettle (s : State) : (fieldSettle s).sys = s.sys := rfl
@[simp] theorem sys_when (c : Bool) (f : State → State) (h : ∀ s, (f s).sys = s.sys) (s : State) : (when' c f s).sys = s.sys := by
  unfold when'; split
  · exact h s
  · rfl

@[simp] theorem sys_ownNotify (o : Owner) (g w : Nat) (s : State) : (ownNotify o g w s).sys = s.sys := by
  unfold ownNotify
  split
  · split
    · exact sys_of_quiet (quiet_notifySession _ _ _)
    · rfl
  · rfl
  · rfl

@[simp] theorem sys_endOwner (g a b : Nat) (s : State) : (endOwner g a b s).sys = s.sys := by
  unfold endOwner
  simp only
  split
  · rfl
  · split
    · simp only [ownEvent, sys_raise, sys_fieldSettle]; rfl
    · simp only [sys_ownNotify, ownEvent, sys_raise, sys_fieldSettle]; rfl

@[simp] theorem sys_endOwners (a b : Nat) (s : State) : (endOwners a b s).sys = s.sys :=
  sys_each _ _ (fun g t => sys_endOwner g a b t) s

@[simp] theorem sys_setRole (r : Role) (k : Nat) (d : Bool) (s : State) : (setRole r k d s).sys = s.sys := by
  unfold setRole; simp only; split
  · rfl
  · rw [sys_raise]; rfl

@[simp] theorem sys_roleIn (d : Dev) (s : State) : (roleIn d s).sys = s.sys := by
  unfold roleIn; split <;> first | rfl | exact sys_setRole _ _ _ _ | (split <;> first | rfl | exact sys_setRole _ _ _ _)

/-- A transition (R25, R26): the state and the bypass pins. -/
theorem sys_setDev (d : Dev) (s : State) : (setDev d s).sys
    = if s.sys.dev = d then s.sys
      else { s.sys with dev := d, bypassA := bypassOf d s.sys.bypassA, bypassB := bypassOf d s.sys.bypassB } := by
  unfold setDev
  simp only [beq_iff_eq]
  split
  · rfl
  · simp only [sys_notifyState, sys_fieldSettle, sys_roleIn]
    have e : ∀ u : State, (when' (d == .integrating) (fun t => t.onPlan fun p => { p with markSince := trainTime t }) u).sys = u.sys := by
      intro u; unfold when'; split <;> rfl
    rw [e, sys_when _ _ (fun _ => sys_endOwners _ _ _)]
    rfl

end Sys2Proof.Laws
end

