-- ==== Sys2Proof/Tests/Slice0.lean ====
section
/-!
SUPPORT. Tests of this model's author: well-formedness, words and values worked by hand from the rules, and for every statement a state and
operands that meet its hypotheses.
-/

set_option Elab.async false

namespace Sys2Proof.Tests

open Sys2Proof Sys2Proof.Machine

theorem some_of {α : Type} {o : Option α} (h : o.isSome = true) : o = some (o.get h) := by
  cases o with
  | none => cases h
  | some a => rfl

theorem noneBelow {n : Nat} {p : Nat → Prop} (z : n = 0) (i : Nat) (h : i < n) : p i := absurd (z ▸ h) (Nat.not_lt_zero i)

/-! Small states: `State.reset` with what a test needs. -/

/-- A device state. -/
def tDev (d : Dev) (s : State) : State := s.onSys fun x => { x with dev := d }

/-- The counter at an instant. -/
def tAt (c : Nat) (s : State) : State := s.onClk fun k => { k with c := c }

def tStop : State := tDev .stopped State.reset
def tRun : State := tDev .running State.reset
def tTest : State := tDev .test State.reset

/-- The words of a message with tag 1. -/
def tWords (code : Nat) (args : List Nat) : List Word := (wordOf (65536 + code * 16 + (args.length + 1) % 16) :: args.map wordOf) ++ List.replicate (15 - args.length) 0

/-- A message of the host's session, with SERVICE in every scope, waits on channel 0. -/
def tAsk (code : Nat) (args : List Nat) (s : State) : State :=
  modMang 0 (fun m => { m with inFull := true, inSession := 1, inMsg := tWords code args })
    (s.onHost fun h => { h with session := 1, priv := .service, scope := 7 })

/-- A message of session `n` waits on channel m, with OPERATE. -/
def tMsg (m n code : Nat) (args : List Nat) (s : State) : State :=
  modMang m (fun x => { x with inFull := true, inSession := n, inPriv := .operate, inMsg := tWords code args }) s

/-- The command of an accepted envelope. -/
def tEnv (code : Nat) (args : List Nat) (s : State) : State :=
  s.onCmd fun q =>
    { q with
      ready := some { via := .manger 0, session := 1, priv := .service, scope := 7, config := true, badge := s.sys.badge, tag := 1, rcode := code,
                      words := tWords code args } }

/-- One coupler end changed. -/
def tEnd (endB : Bool) (f : CplEnd → CplEnd) (s : State) : State := onEnd endB f s

/-- Both ends UP. -/
def tUp (s : State) : State := tEnd false (fun e => { e with st := .up }) (tEnd true (fun e => { e with st := .up }) s)

/-- A header of ADMIT a. -/
def tHdr (a : Nat) : Hdr :=
  { ftype := 8, prio := 0, grp := false, all := false, conf := false, rsv1 := 0, inaug := 0, key := 0, rsv4 := 0, src := 0, rsv6 := 0, dst := 0,
    seq := 5, stall := 0, cycle := 0, len := 0, adm := a, rsv20 := 0, dirY := false, hops := 0, poison := false, held := false, rsvM := 0, corr := 0 }

/-- A frame of ADMIT a that is arriving. -/
def tRx (a : Nat) : RxFrame :=
  { hdr := tHdr a, badge := none, rxAt := 0, tl := 0, stamp := ⟨0, 0, false⟩, dec := .forwarded, full := false, inBuf := false }

/-- A delivered frame. -/
def tIn (ftype a : Nat) (p : List Byte) : RxMsg :=
  { hdr := { tHdr a with ftype := ftype }, endB := false, stamp := ⟨0, 0, false⟩, at_ := 0, payload := p }

def tGot (m : RxMsg) (s : State) : State := s.onLane fun l => { l with rxq := [m] }

/-- Key epoch 0 held. -/
def tKey (s : State) : State := s.onSec fun x => { x with keys := [{ epoch := 0, key := 1 }] }

/-- The car's role on the train, with a numbering of one car. -/
def tRole (r : Role) (s : State) : State :=
  s.onInaug fun x => { x with role := r, car := some 0, adm := 1, numbering := [{ badge := s.sys.badge, adm := 1, role := 0, prev := 255 }] }

/-- The TRAIN record of the recipe. -/
def tTrain (ws : List Nat) (s : State) : State := s.onRcp fun r => { r with train := ws.map wordOf }

/-- A plan of basic cycles of 100 µs, four in a matrix cycle, with one stall of a type, from 0 to 50 µs, owned by this car. -/
def tPlan (type kind : Nat) (s : State) : State :=
  s.onPlan fun p =>
    { p with
      hdr := [0x00020101, 0x03E80000, 7, 0, 0, 0, 0, 0]
      entries := [[wordOf (type * 8192 + kind * 1024), 0x000001F4, wordOf (s.sys.badge % 2 ^ 32), wordOf (s.sys.badge / 2 ^ 32), 0, 0, 0, 0]] }

/-- A firmware image with an empty body. -/
def tImage : List Word := 0x57464E4B :: List.replicate 103 0

/-- A delivered frame with the prefix of R88: badge 7 and a subtype. -/
def tSub (ftype a sub : Nat) (body : List Byte) : RxMsg := tIn ftype a (beBytes 8 7 ++ [byteOf sub, 0, 0, 0] ++ body)

/-- A car on the train that is master, with that stall now and both ends UP. -/
def tNet (r : Role) (type kind : Nat) : State := (tUp (tRole r (tPlan type kind tRun))).onClk fun k => { k with st := .master }

/-- A plain CONTROL frame. -/
def tFrame : TxFrame :=
  { ftype := ftControl, prio := 3, grp := false, all := true, dst := 0x3FFF, open_ := false, tag := .plain, payload := [0] }

def tImg (out : Bool) : Image :=
  { entry := 0, out := out, flips := 0, ready := 0, fill := 1, pend := 3, stale := false, absent := false, never := false, hostBuf := 0,
    hostValid := false, stamp := ⟨0, 0, false⟩, cycle := 0, adm := 0, pubSeq := 0, len := 4, frozen := false, copying := none, pendIn := none,
    got := [], checked := none }

def tImgs (out : Bool) (s : State) : State := s.onPlan fun p => { p with images := [tImg out] }

/-- A guest's request that its lead has accepted. -/
def tReq : GuestReq := { badge := 7, cert := [], ok := true, nl := 0, adm := 2, quoteHash := 0, granted := false, done := false }

/-- A SHARED occurrence. -/
def tO : Occ := { e := [0x6000, 0x000001F4], idx := 0, start := 0, cycle := 0 }

/-- A launch at end A now; end B is UP and not ready. -/
def tOcc : State := tEnd true (fun e => { e with busyUntil := 5 }) (tNet .member 3 0)

def tImgIn : ImageIn := { data := [0, 0, 0, 0], stamp := ⟨0, 0, false⟩, cycle := 0, adm := 7, pubSeq := 1 }

/-- A CYCLIC stall of another car, broadcast, has passed. -/
def tCyc (got : List Nat) : State :=
  tAt 50000 (((tNet .lead 2 0).onPlan fun p =>
    { p with entries := [[0x4000, 0x000001F4, 7, 0, 0x00044000, 0, 0, 0]], images := [{ tImg false with got := got }] }).onInaug fun x =>
      { x with numbering := x.numbering ++ [{ badge := 7, adm := 2, role := 0x80, prev := 255 }] })

/-- A guest that may claim after listening. -/
def tCold (signed : Bool) : State :=
  tAt 10000000 (((tTrain [0x00020000] ((tDev .integrating State.reset).onTeth fun t => { t with tether := true })).onInaug fun x =>
    { x with role := .guest, cold := .listening 0, claimSigned := signed }).onSec fun x => { x with entropyOk := true })

def tGuest (g : GuestStep) (b : Beacon) (s : State) : State := s.onInaug fun x => { x with guest := g, beacon := some b }

/-- A lead that hands over to BACKUP 1, badge 7. -/
def tHand : State :=
  ((((tNet .lead 5 0).onClk fun k => { k with st := .locked }).onInaug fun x =>
    { x with numbering := x.numbering ++ [{ badge := 7, adm := 2, role := 0x50, prev := 255 }] }).onLdr fun l =>
      { l with handTarget := some 7, committed := true }).onRef fun r => { r with fit := 1 }


/-- The record of an enabled serial port: 160 ns a bit, TIMEOUT 2, STUCK 1 ms, a ring of 4 KiB. -/
def tPortRec : List Nat := [0x80010000, 0, 0, 0x00020100, 4, 0]

/-- Port 0, enabled, and changed. -/
def tSer (f : PortSt → PortSt) : State :=
  modPort 0 (fun x => f { x with rec_ := tPortRec.map wordOf, rxSet := tPortRec.map wordOf, txSet := tPortRec.map wordOf }) tRun

def tChar : RxChar := ⟨0, ⟨0, 0, false⟩, false⟩

/-- The record of a talker slot. -/
def tTalk (slot : Nat) (r : List Nat) (s : State) : State := s.onSent fun t => { t with talkers := t.talkers.set slot (r.map wordOf) }

/-- The record of a listener slot. -/
def tList (slot : Nat) (r : List Nat) (s : State) : State := s.onSent fun t => { t with listeners := t.listeners.set slot (r.map wordOf) }

/-- A sentence of one byte from talker 0. -/
def tSent : Sentence :=
  { slot := 0, talker := 0, stamp := ⟨0, 0, true⟩, endStamp := none, noise := false, addr := false, checked := false, yard := false,
    late := false, replay := false, gap := false, tseq := 0, cls := 0, sup := false, hist := false, rule := 0, key := [0, 0, 0, 0], body := [65],
    arrived := 0 }

def tInq (s : State) : State := s.onSent fun t => { t with inq := [tSent] }

/-- The first address of the host parcels at reset. -/
def tP : Nat := 0x6800000

/-- Bytes in a parcel. -/
def tPut (p : List Byte) (s : State) : State := loftWrite tP p 0 s

/-- Channel 31 with that record, changed. -/
def tCh (w0 w1 : Nat) (f : Chan → Chan) (s : State) : State :=
  modChan 31 f (s.onFld fun d => { d with chanRec := d.chanRec.set 31 [wordOf w0, wordOf w1] })

/-- Group 3 is owned by the host's session 1 under generation 3. -/
def tOwn (s : State) : State := modGrp 3 (fun y => { y with owner := .host s.sys.badge 1, gen := 3, inRange := some 0 }) s

/-- A command that a host gave. -/
def tCtx (code : Nat) : Ctx :=
  { via := .manger 0, session := 1, priv := .service, scope := 7, config := false, badge := 0, tag := 1, rcode := code, words := [] }

def tOutX (kind : XferKind) (badge : Nat) : BulkOut :=
  { xid := 0, badge := badge, dst := 0, kind := kind, ctx := tCtx 0xB06, started := 0, recs := 0, len := 0 }

def tTimed : Timed := { slot := 0, g := 3, gen := 3, mask := 1, vals := 1, at_ := 0, ep := 0 }

/-- Another car, badge 7 and ADMIT 2, is car 1. -/
def tTwo (s : State) : State :=
  (tRole .member s).onInaug fun x => { x with numbering := x.numbering ++ [{ badge := 7, adm := 2, role := 0x80, prev := 255 }] }

/-- A key rotation with one block, for ADMIT 2. -/
def tRot (wrapped : Bool) : Rotation :=
  { rid := 0, next := 1, key := 0, switchM := 100, blocks := [{ adm := 2, guest := false, wrapped := wrapped, acked := false, sentAt := some 0, resent := 0 }] }

def tEntropy (s : State) : State := s.onSec fun x => { x with entropyOk := true }

/-- An owner is enrolled. -/
def tOwned (s : State) : State := s.onSec fun x => { x with enrol := some { cert := [1], hash := 0, cosign := false, envSeq := 0, floor := 0, sealMac := 0 } }

/-- The yard port with IPv4 address 10.0.0.1 and session port 5000, its link up. -/
def tYard (s : State) : State :=
  s.onYard fun y =>
    { y with
      record := [0x440005EE, 0x0A000001, 0, 0, 0, 0, 0, 0, 0x1388, 7] ++ List.replicate 18 0
      link := true, modAbs := false, los := false }

/-- A received frame. -/
def tFr (b : List Byte) : YFrame := { queue := 0, used := 0, stamp := ⟨0, 0, false⟩, tagged := false, tci := 0, bytes := b, first := 0, seen := [] }

def tInbox (b : List Byte) (s : State) : State := (tYard s).onYard fun y => { y with inbox := [tFr b] }

/-- A frame with an IPv4 packet: its length, protocol, header checksum and data; to 10.0.0.1. -/
def tIp (len proto ck : Nat) (d : List Byte) : List Byte :=
  List.replicate 12 0 ++ [8, 0, 0x45, 0] ++ beBytes 2 len ++ [0, 0, 0, 0, 0x40, byteOf proto] ++ beBytes 2 ck ++ [0, 0, 0, 0, 10, 0, 0, 1] ++ d

/-- A fragment. -/
def tFrag : List Byte :=
  List.replicate 12 0 ++ [8, 0, 0x45, 0, 0, 20, 0, 0, 0x20, 0, 0x40, 1, 0x50, 0xE9, 0, 0, 0, 0, 10, 0, 0, 1]

/-- The second message of session 2, from port 1. -/
def tSecond : List Byte := tIp 40 17 0x70C5 ([0, 1, 0x13, 0x88, 0, 20, 0, 0, 0, 2, 0, 0, 0, 0, 0, 2] ++ wordBytes [wordOf (65536 + 0x11)])

/-- A datagram to port 5000. -/
def tUdp (len ck : Nat) (d : List Byte) : List Byte := tIp (len + 20) 17 ck ([0, 0, 0x13, 0x88] ++ beBytes 2 len ++ [0, 0] ++ d)

/-- An ARP request for 10.0.0.1. -/
def tArp : List Byte := List.replicate 12 0 ++ [8, 6, 0, 1, 8, 0, 6, 4, 0, 1] ++ List.replicate 16 0 ++ [10, 0, 0, 1]

/-- A datagram of one sentence record. -/
def tSentData : List Byte := [0x4B, 0x4E, 0x59, 0x53, 1, 1, 0, 0, 0, 0, 0, 0, 0, 0, 0, 0] ++ List.replicate 28 0

/-- A request that opens a session. -/
def tOpen : List Byte := [0, 0, 0, 0, 0, 0, 0, 1] ++ wordBytes [wordOf (65536 + 0x31)]

def tPtp : List Byte := List.replicate 12 0 ++ [0x88, 0xF7, 0, 2] ++ List.replicate 32 0

/-- An envelope of sequence 1 for this device, around STOP. -/
def tEnvelope : List Byte :=
  [0x4B, 0x4E, 0x45, 0x56, 1, 0, 0, 0] ++ leBytes 8 State.reset.sys.badge ++ leBytes 8 1 ++ List.replicate 32 0 ++ [1, 0, 0, 0] ++ wordBytes (tWords 8 [])
    ++ List.replicate 384 0

def tYSess : YSess :=
  { id := 2, addr := 0, port := 1, mseq := 0, reply := [], heard := 0, priv := .observe, scope := 0, operKey := 0, inbox := none }

def tYRx : YRx := { queue := 0, claimed := 0, stamp := ⟨0, 0, false⟩, tagged := false, tci := 0, hdr := List.replicate 14 0, len := 64 }

def tStrm (s : State) : State := s.onStrm fun t => { t with cfg := [0x80000000, 0xFFFFFFFF, 0xFFFFFFFF, 0], so := .up, si := .up, credits := 1 }

def tSFrame (ch : Nat) : SFrame := { ch := ch, seq := 0, param := 0, payload := [0] }

def tProxy : Proxy :=
  { k := 63, c := 3, st := .sent, inMsg := List.replicate 16 0, outMsg := List.replicate 16 0, session := 0, reqId := 0, at_ := 0, far := 0 }

def tFar (s : State) : State := s.onHost fun h => { h with proxies := [tProxy] }

def tHeld : HeldCommit := { origin := 1, sys := 0, reqId := 0, at_ := 0, session := 1, priv := 0, win := 15, words := [0] }

def tBuf (b : RdBuf) (s : State) : State := s.onHost fun h => { h with rdBuf := b }

def tEvt : Event := { sysSrc := 0, code := 1, data := 0, data2 := 0, remote := false, stamp := ⟨0, 0, false⟩ }

def tFlash (retried : Bool) : FlashOp :=
  { erase := true, addr := 0, retried := retried, started := true, slot := 4, words := [], ctx := none }

/-- Page 13 of the window: it begins at the host parcels. -/
def tPage (s : State) : State := s.onHost fun h => { h with page := 13 }

theorem listed (p : List Byte) (s : State) (h : s.sec.operators = [(shaNat p, true)]) : operListed (tCtx 1) p s = true := by
  simp [operListed, h, tCtx]

theorem msgCode_sentBy (who : Nat) (ws : List Word) : msgCode (sentBy who ws) = msgCode ws := by
  cases ws with
  | nil => rfl
  | cons w r =>
    simp only [sentBy, msgCode, bits, natBits, List.getD_cons_zero, wordOf, BitVec.toNat_ofNat]
    omega

/-! States for what rests on a hash or on a certificate: the opaque functions of Config stand in them as they are. -/

theorem be_beBytes_8 (n : Nat) (r : List Byte) (h : n < 2 ^ 64) : be (beBytes 8 n ++ r) 0 8 = n := by
  simp only [be, beBytes, List.drop_zero, List.cons_append, List.nil_append, List.take_succ_cons, List.take_zero, List.foldl_cons, List.foldl_nil,
    byteOf, BitVec.toNat_ofNat]
  omega

/-- The state after the first verification of a content. -/
def tVer (c : List Byte) (v : Bool) (s : State) : State := cntSec 7 (s.onInaug fun x => { x with verified := (shaNat c, v) :: x.verified })

theorem verify_first (c : List Byte) (v : Bool) (s : State) (h : s.inaug.verified = []) : verifyOnce c v s = (v, tVer c v s) := by
  simp only [verifyOnce, h, List.find?_nil]
  rfl

theorem tVer_verified (c : List Byte) (v : Bool) (s : State) (h : s.inaug.verified = []) : (tVer c v s).inaug.verified = [(shaNat c, v)] := by
  rw [← h]
  rfl

/-- A content that has been verified once counts as it did then. -/
theorem verify_again (c : List Byte) (v : Bool) (s : State) (h : s.inaug.verified = []) :
    verifyOnce c v (verifyOnce c true s).2 = (true, (verifyOnce c true s).2) := by
  rw [verify_first c true s h]
  simp only [verifyOnce, tVer_verified c true s h, List.find?_cons, beq_self_eq_true]

theorem verify_true (c d : List Byte) (s : State) (h : s.inaug.verified = []) :
    (verifyOnce d true (verifyOnce c true s).2).1 = true := by
  rw [verify_first c true s h]
  simp only [verifyOnce, tVer_verified c true s h]
  by_cases g : (shaNat c == shaNat d) = true
  · simp only [List.find?_cons, g]
  · simp only [List.find?_cons, g, List.find?_nil]

theorem verify_both (c : List Byte) (v : Bool) (s : State) (h : s.inaug.verified = []) : (true, tVer c true s) = verifyOnce c v (tVer c true s) := by
  simp only [verifyOnce, tVer_verified c true s h, List.find?_cons, beq_self_eq_true]

theorem bits_move (x : BitVec 128) : x + 1 ≠ x := by bv_omega

theorem admCheck_verified (cert p c : List Byte) (badge : Nat) (a b v : Bool) (s : State) :
    admCheck cert p badge a b (verifyOnce c v s).2 = admCheck cert p badge a b s := by
  cases e : (s.inaug.verified.find? fun x => x.1 == shaNat c) <;> simp only [verifyOnce, e]
  rfl

/-- A BEACON of badge 7 without its quote. -/
def tPre : List Byte := beBytes 8 7 ++ [byteOf 1, 0, 0, 0] ++ List.replicate 104 0

def tBeacon : RxMsg := tIn ftInauguration 0 (tPre ++ ([0x4B, 0x4E, 0x51, 0x54, 0, 1] ++ beBytes 8 7 ++ sha tPre ++ List.replicate 492 0))

/-- A POLICY record with one firmware measurement and an owner hash, all zeros. -/
def tPolicy (s : State) : State := s.onRcp fun r => { r with policy := (0x00010000 : Word) :: List.replicate 16 0 }

/-- The badge that a certificate names. -/
def tBadge (cert : List Byte) : Nat := (Config.badgeOf (Config.certKey cert)).toNat

theorem tBadge_lt (cert : List Byte) : tBadge cert < 2 ^ 64 := (Config.badgeOf (Config.certKey cert)).isLt

/-- The BEACON whose lead is verified. -/
def tLeadBc : Beacon := ⟨tBadge (List.replicate 154 0), List.replicate 654 0⟩

def tLeadS : State := (tPolicy (tGuest .verifying tLeadBc tRun)).onInaug fun x => { x with leadCert := List.replicate 154 0 }

/-- A guest whose lead wrapped the key. -/
def tBlock : List Byte := beBytes 100 (Config.unwrapKey 0 [])
def tKeyBc : Beacon := ⟨7, List.replicate 84 0 ++ keyCheck (be tBlock 2 1) (be tBlock 3 32) ++ List.replicate 554 0⟩

/-- An ADMIT_REQUEST of the car with certificate [1]. -/
def tAdmPay : List Byte :=
  beBytes 8 (tBadge [1]) ++ ([byteOf 0x22, 0, 0, 0] ++ List.replicate 64 0 ++ ([0x4B, 0x4E, 0x51, 0x54, 0, 1] ++ beBytes 8 (tBadge [1])
    ++ sha (List.replicate 64 0) ++ List.replicate 492 0))

def tAdm : State :=
  ((tGot (tIn ftAdmission 0 tAdmPay) (tPolicy (tRole .lead tRun))).onLdr fun l =>
    { l with guests := [{ tReq with badge := tBadge [1], cert := [1] }] })

theorem tAdm_find : (tAdm.ldr.guests.find? fun g => g.badge == msgBadge (tIn ftAdmission 0 tAdmPay)) = some { tReq with badge := tBadge [1], cert := [1] } := by
  have e : msgBadge (tIn ftAdmission 0 tAdmPay) = tBadge [1] := be_beBytes_8 _ _ (tBadge_lt _)
  have l : tAdm.ldr.guests = [{ tReq with badge := tBadge [1], cert := [1] }] := rfl
  rw [e, l]
  simp

set_option maxRecDepth 8192 in
theorem tAdm_base : admCheck [1] tAdmPay (tBadge [1]) true true tAdm = 0 := by
  have q : part tAdmPay 76 538 = [0x4B, 0x4E, 0x51, 0x54, 0, 1] ++ beBytes 8 (tBadge [1]) ++ sha (List.replicate 64 0) ++ List.replicate 492 0 := rfl
  have n : be tAdmPay 12 32 = 0 := rfl
  have o : part tAdmPay 44 32 = List.replicate 32 0 := rfl
  have f : quForm (tBadge [1]) (part tAdmPay 76 538) = true := by
    rw [q]
    have b : be ([0x4B, 0x4E, 0x51, 0x54, 0, 1] ++ beBytes 8 (tBadge [1]) ++ sha (List.replicate 64 0) ++ List.replicate 492 0) 6 8 = tBadge [1] := by
      refine Eq.trans ?_ (be_beBytes_8 (tBadge [1]) (sha (List.replicate 64 0) ++ List.replicate 492 0) (tBadge_lt _))
      simp only [be, List.append_assoc, List.cons_append, List.nil_append, List.drop_succ_cons, List.drop_zero]
    simp only [quForm, b, beq_self_eq_true, Bool.and_true]
    rfl
  have h : quNonce (part tAdmPay 76 538) = sha (beBytes 32 0 ++ List.replicate 32 0) :=
    Eq.trans (b := sha (List.replicate 64 0)) rfl (congrArg sha (by decide +kernel))
  have w : quFw (part tAdmPay 76 538) = List.replicate 32 0 := rfl
  have r : quArb (part tAdmPay 76 538) = 0 := rfl
  have k : (Config.badgeOf (Config.certKey [1])).toNat = tBadge [1] := rfl
  have c1 : ¬ 64 ≤ tAdm.inaug.numbering.length := by decide +kernel
  have c2 : tAdm.ldr.nl = 0 := rfl
  have c3 : polOwner tAdm = List.replicate 32 0 := by decide +kernel
  have c4 : polFwOk tAdm (List.replicate 32 0) = true := by decide +kernel
  have c5 : polMin tAdm = 0 := by decide +kernel
  have c6 : admitFree tAdm = true := by decide +kernel
  unfold admCheck
  simp only [n, o, h, f, w, r, k, c1, c2, c3, c4, c5, c6, if_false, bne_self_eq_false, beq_self_eq_true, Bool.not_true, Bool.or_self,
    Bool.true_or, List.isEmpty_cons, Nat.lt_irrefl, Bool.false_eq_true]

set_option maxRecDepth 8192 in
theorem tAdm_check :
    admCheck (((tAdm.ldr.guests.find? fun g => g.badge == msgBadge (tIn ftAdmission 0 tAdmPay)).map (·.cert)).getD []) (tIn ftAdmission 0 tAdmPay).payload
      (msgBadge (tIn ftAdmission 0 tAdmPay)) (verifyOnce (((tAdm.ldr.guests.find? fun g => g.badge == msgBadge (tIn ftAdmission 0 tAdmPay)).map (·.cert)).getD []) true (takenMsg (tIn ftAdmission 0 tAdmPay) tAdm)).1
      (verifyOnce (part (tIn ftAdmission 0 tAdmPay).payload 76 154) true (verifyOnce (((tAdm.ldr.guests.find? fun g => g.badge == msgBadge (tIn ftAdmission 0 tAdmPay)).map (·.cert)).getD []) true (takenMsg (tIn ftAdmission 0 tAdmPay) tAdm)).2).1
      (verifyOnce (part (tIn ftAdmission 0 tAdmPay).payload 76 154) true (verifyOnce (((tAdm.ldr.guests.find? fun g => g.badge == msgBadge (tIn ftAdmission 0 tAdmPay)).map (·.cert)).getD []) true (takenMsg (tIn ftAdmission 0 tAdmPay) tAdm)).2).2 = 0 := by
  have b : msgBadge (tIn ftAdmission 0 tAdmPay) = tBadge [1] := be_beBytes_8 _ _ (tBadge_lt _)
  have v : (takenMsg (tIn ftAdmission 0 tAdmPay) tAdm).inaug.verified = [] := rfl
  rw [tAdm_find, verify_true _ _ _ v, admCheck_verified, admCheck_verified, verify_first _ _ _ v, b]
  exact tAdm_base

/-! TRANSIT_T and LEAD_LOSS_T of a car that does not lead are its lead's: within the ranges of R86 (log 35). -/

theorem transitLe (s : State) (h : isLead s = false) : pTransit s ≤ 140000 := by
  unfold pTransit
  simp only [h, Bool.false_eq_true, if_false]
  omega

theorem lossDue {s : State} {a b : Nat} (h : isLead s = false) (k : a + 100000000 + b ≤ trainTime s) : a + pLeadLoss s + b ≤ trainTime s := by
  unfold pLeadLoss
  simp only [h, Bool.false_eq_true, if_false]
  omega

def tHeard : State := tAt 200000 ((tNet .member 5 0).onInaug fun x => { x with heard := some (1, 0, 0, 0) })

theorem tHeard_due : specialsDue tHeard = [0 + pTransit tHeard] := rfl

theorem send_answer : (sendExpressFrom (0 + pTransit tHeard) (0 + pTransit tHeard) (posFrame tHeard .plain 1 0 0 0) tHeard).isSome = true := by
  have p := transitLe tHeard rfl
  obtain ⟨o, ho, hs, h1, h2, h3, h4, h6, h5⟩ : ∃ o, occOfType tHeard tyExpress = some o ∧ 140000 ≤ o.start ∧ permitted tHeard o (posFrame tHeard .plain 1 0 0 0) = true
      ∧ deadlineOk tHeard o = true ∧ turns tHeard o = [] ∧ (enType o.e == tyExpress) = true ∧ blockedAll tHeard o 7 = false ∧ (commit (posFrame tHeard .plain 1 0 0 0) o false tHeard).isSome = true :=
    ⟨_, some_of (by decide +kernel), by decide +kernel⟩
  have c : decide (0 + pTransit tHeard ≤ o.start) = true := decide_eq_true (by omega)
  unfold sendExpressFrom expressTurn
  rw [ho]
  simp only [c, h1, Bool.and_self, if_true, h2, expressFree, behindSpecial, tHeard_due, h3, List.any_cons,
    List.any_nil, Nat.lt_irrefl, decide_false, Bool.and_false, Bool.or_false, Bool.not_false, h4, h6]
  exact h5

/-! Well-formedness: for every check a term that it refuses. -/

def tSHdr : SHdr := { ch := 0, type := 0, rsv := 0, len := 0, seq := 0, param := 0 }

/-- A header at the ends of its fields. -/
def tTop : Hdr :=
  { ftype := 255, prio := 7, grp := true, all := true, conf := true, rsv1 := 3, inaug := 4095, key := 15, rsv4 := 3, src := 16383, rsv6 := 3, dst := 16383,
    seq := 2 ^ 48 - 1, stall := 255, cycle := 255, len := 65535, adm := 65535, rsv20 := 2 ^ 32 - 1, dirY := true, hops := 127, poison := true, held := true,
    rsvM := 63, corr := -(2 ^ 47) }

theorem test_header_accepted : tTop.wf = true ∧ { tTop with corr := 2 ^ 47 - 1 }.wf = true := by decide

theorem test_header_refused :
    [{ tTop with ftype := 256 }, { tTop with prio := 8 }, { tTop with rsv1 := 4 }, { tTop with inaug := 4096 }, { tTop with key := 16 },
     { tTop with rsv4 := 4 }, { tTop with src := 16384 }, { tTop with rsv6 := 4 }, { tTop with dst := 16384 }, { tTop with seq := 2 ^ 48 },
     { tTop with stall := 256 }, { tTop with cycle := 256 }, { tTop with len := 65536 }, { tTop with adm := 65536 }, { tTop with rsv20 := 2 ^ 32 },
     { tTop with hops := 128 }, { tTop with rsvM := 64 }, { tTop with corr := -(2 ^ 47) - 1 }, { tTop with corr := 2 ^ 47 }].any Hdr.wf = false := by
  decide +kernel

theorem test_streamHeader_refused :
    tSHdr.wf = true ∧ [{ tSHdr with ch := 64 }, { tSHdr with type := 16 }, { tSHdr with rsv := 128 }, { tSHdr with len := 32768 }, { tSHdr with seq := 65536 },
      { tSHdr with param := 65536 }].any SHdr.wf = false := by
  decide +kernel

theorem test_via_refused : Via.wf (.manger 15) = true ∧ Via.wf (.yard 3) = true ∧ Via.wf (.manger 16) = false ∧ Via.wf (.yard 4) = false := by decide

theorem test_illFormed_1 :
    ([.vinLogicRise 65536, .supplyReset 65536 false, .resetRelease 65536 false false false false false, .dieTemperatureSample (-32769),
     .dieTemperatureSample 32768, .bracedEntry 65536, .bracedExit 65536 0, .bracedExit 0 65536, .supplyThreshold 65536, .supplyReturned 65536,
     .barnWake 5 0, .barnWake 0 32, .helloChunkReceive false 256 0, .helloChunkReceive false 0 65536, .frameHeader false { tHdr 1 with prio := 8 },
     .openFrameBadge false (2 ^ 64), .cyclicLaunch 8192, .openEntryRelease (2 ^ 64), .grantBuilt (2 ^ 64), .cyclicOccurrenceCheck 8192,
     .imageCopyComplete 8192, .cycleMarkFire 16, .sentenceFramed 64, .reseqHoldExpiry 65536 0, .reseqHoldExpiry 0 65536, .mergeRelease 64,
     .listenerEmit 64, .startEdge 16 [], .characterComplete 16 [] [], .characterComplete 0 [List.replicate 17 false] [], .lineStuckTimeout 16,
     .lineResumed ⟨16, 0⟩, .fifoItemTransfer 16, .rxTimeoutFlush 16, .txCharacterEnd 16, .deTailEnd 16, .echoMuteEnd 16, .inputTransitionAccept 32,
     .currentLimitTimeout 32 none, .shortRetry 32] : List Instr).any Instr.wf = false := by
  decide +kernel

theorem test_illFormed_2 :
    ([.retryCountReset ⟨32, false⟩, .overloadShed 4 false, .readbackFault ⟨32, false⟩, .readbackFaultEnd 32, .openLoadTestStart 32,
     .openLoadTestEnd 32 false, .groupSupplyCrossing 4 ⟨0, 0⟩, .groupSupplyCrossing 0 ⟨65536, 0⟩, .groupAutoRestore 4, .fieldDieTemp (-32769),
     .fieldDieTemp 32768, .leaseExpiry 4, .rekeyResendTimeout 65536, .yardFrameStart [] 65536, .yardFrameTail [] false ⟨4, 0, true⟩, .datagramSend 32,
     .datagramReceive 8, .datagramPairForget 8 0 0, .datagramPairForget 0 16384 0, .datagramPairForget 0 0 32, .yardSessionTimeout 4,
     .unknownOpcode 256 0, .unknownOpcode 0 (2 ^ 24), .registerWrite false (2 ^ 24) 0, .inMsgWrite false 16 0 0, .inMsgWrite false 0 16 0,
     .inCommit false 16, .outCommitRead false 16 false, .outboundHeldDeliver 16, .dropCountRead false 16 false, .lockRead false 32 ⟨true, []⟩ false,
     .lockRead false 0 ⟨true, [32]⟩ false, .lockWrite false 32 ⟨1, 0⟩, .lockWrite false 0 ⟨32, 0⟩, .fwBellTake 32, .eventPendClear false 4 0,
     .hayloftWindowAccess false (2 ^ 23) none, .remoteRegisterRead false 64 0 0, .remoteRegisterRead false 0 (2 ^ 16) 0,
     .remoteRegisterRead false 0 0 17] : List Instr).any Instr.wf = false := by
  decide +kernel

theorem test_illFormed_3 :
    ([.proxyInCommit false 64 0, .proxyInCommit false 0 4, .proxyOutCommitRead false 64 0 false, .proxyOutCommitRead false 0 4 false,
     .proxyNoAnswer 64 0, .proxyNoAnswer 0 4, .parcelTransferTimeout (2 ^ 32), .streamSubmit { tSHdr with ch := 64 } [] false,
     .streamHostIn { tSHdr with ch := 64 } [] false, .streamYardIn { tSHdr with ch := 64 } [] false, .dmaWrite { tSHdr with ch := 64 } [] false,
     .dmaRead { tSHdr with ch := 64 } [] false, .streamMessageIn { tSHdr with ch := 64 } [] false, .scrubRead 3, .unknownCommandCode (.manger 16),
     .deviceId (.manger 16), .deviceStatus (.manger 16), .sessionOpen (.manger 16), .sessionClose (.manger 16), .operatorChallenge (.manger 16),
     .operatorResponse (.manger 16), .start (.manger 16), .stop (.manger 16), .barn (.manger 16), .test (.manger 16), .reset (.manger 16),
     .recipeActivate (.manger 16), .trainStatus (.manger 16), .rosterRead (.manger 16), .sourceRead (.manger 16), .couplerStatus (.manger 16),
     .admissionRetry (.manger 16), .groupChange (.manger 16), .groupRead (.manger 16), .timeRead (.manger 16), .timeStatus (.manger 16),
     .planRead (.manger 16), .imageDirectory (.manger 16), .markSet (.manger 16), .bindingSet (.manger 16)] : List Instr).any Instr.wf = false := by
  decide +kernel

theorem test_illFormed_4 :
    ([.couplingRead (.manger 16), .talkerSet (.manger 16), .listenerSet (.manger 16), .ruleReplace (.manger 16), .submit (.manger 16),
     .fetch (.manger 16), .directSend (.manger 16), .replay (.manger 16), .sentenceCounters (.manger 16), .portSet (.manger 16),
     .portStatus (.manger 16), .rawRead (.manger 16), .fieldModuleSet (.manger 16), .fieldGroupSet (.manger 16), .fieldChannelSet (.manger 16),
     .fieldRuleSet (.manger 16), .fieldStatus (.manger 16), .take (.manger 16), .release (.manger 16), .fieldOutput (.manger 16),
     .timedApply (.manger 16), .faultClear (.manger 16), .rearm (.manger 16), .quote (.manger 16), .certRead (.manger 16), .ownChallenge (.manger 16),
     .takeOwnership (.manger 16), .envelope (.manger 16), .rotate (.manger 16), .rollbackCommit (.manger 16), .ownerTransfer (.manger 16),
     .zeroise (.manger 16), .serviceChallenge (.manger 16), .serviceToken (.manger 16), .yardSet (.manger 16), .steerSet (.manger 16),
     .endpointSet (.manger 16), .yardStatus (.manger 16), .snapshot (.manger 16), .trainSnapshot (.manger 16)] : List Instr).any Instr.wf = false := by
  decide +kernel

theorem test_illFormed_5 :
    ([.segmentSend (.manger 16), .snapshotSend (.manger 16), .streamStatus (.manger 16), .streamSet (.manger 16), .recorderRead (.manger 16),
     .routeSet (.manger 16), .counterClear (.manger 16), .parcelAlloc (.manger 16), .parcelFree (.manger 16), .hayloftStatus (.manger 16),
     .slotWrite (.manger 16), .slotInfo (.manger 16), .parcelPush (.manger 16), .diagRead (.manger 16), .loopback (.manger 16), .lanePrbs (.manger 16),
     .inputLevelChange 32 false, .idleGapSentenceEnd 64] : List Instr).any Instr.wf = false := by
  decide +kernel

theorem test_payload_refused :
    Instr.wf (.frameTail false (List.replicate 4097 0) 0 0 false false) = false
    ∧ Instr.wf (.startEdge 0 (List.replicate 17 false)) = false
    ∧ Instr.wf (.characterComplete 0 (List.replicate 11 []) []) = false
    ∧ Instr.wf (.characterComplete 0 [] (List.replicate 17 false)) = false
    ∧ Instr.wf (.streamSubmit tSHdr (List.replicate 16385 0) false) = false
    ∧ Instr.wf (.streamHostIn tSHdr (List.replicate 16385 0) false) = false
    ∧ Instr.wf (.streamYardIn tSHdr (List.replicate 16385 0) false) = false
    ∧ Instr.wf (.dmaWrite tSHdr (List.replicate 16385 0) false) = false
    ∧ Instr.wf (.dmaRead tSHdr (List.replicate 16385 0) false) = false
    ∧ Instr.wf (.streamMessageIn tSHdr (List.replicate 16385 0) false) = false := by
  refine ⟨?_, ?_, ?_, ?_, ?_, ?_, ?_, ?_, ?_, ?_⟩ <;>
    (simp only [Instr.wf, List.length_replicate]; decide)

/-! Values worked by hand. -/

/-- R48: FTYPE 0x21; PRIO 6 and GRP give 0xD0; EPOCH 0xABC and 5; SRC 0x1234, DST 0x3F07, SEQ 1, STALL 9, CYCLE 63, LEN 4, ADMIT 0x0102; DIR = 1 and HOPS 3
give 0x83, HELD gives 0x40; CORR is -1. -/
theorem test_header_bytes :
    encodeHdr { tHdr 0x0102 with ftype := 0x21, prio := 6, grp := true, inaug := 0xABC, key := 5, src := 0x1234, dst := 0x3F07, seq := 1, stall := 9,
                                 cycle := 63, len := 4, dirY := true, hops := 3, held := true, corr := -1 }
      = [0x21, 0xD0, 0xAB, 0xC5, 0x12, 0x34, 0x3F, 0x07, 0, 0, 0, 0, 0, 1, 9, 63, 0, 4, 1, 2, 0, 0, 0, 0, 0x83, 0x40, 0xFF, 0xFF, 0xFF, 0xFF, 0xFF, 0xFF]
    := by decide +kernel

theorem test_header_back : decodeHdr (encodeHdr tTop) = tTop := by decide +kernel

/-- The check value that IEEE 802.3 users publish for the nine digits 1 to 9. -/
theorem test_crc32 : crc32 [0x31, 0x32, 0x33, 0x34, 0x35, 0x36, 0x37, 0x38, 0x39] = 0xCBF43926#32 := by decide +kernel

/-- R9: words are little-endian. -/
theorem test_words : wordBytes [0x04030201] = [1, 2, 3, 4] ∧ be [1, 2] 0 2 = 0x102 ∧ le [1, 2] 0 2 = 0x201 := by decide +kernel

/-- No row of the table gives bits. -/
theorem test_decode_none : decodeTableWord 32 0 = none ∧ State.reset.withFetchWord 32 0 = State.reset := ⟨rfl, rfl⟩

/-- R493: a logic supply above 3,800 mV is outside the ratings; at 3,800 mV it is not. -/
theorem test_ratings : exec (.supplyThreshold 3801) tRun = .fault .outsideRatings := by rfl

/-- R367, R370: the host port reads a free lock as 0 and holds it. -/
theorem test_lock_read :
    (match exec (.lockRead true 31 { host := true, others := [] } true) tRun with | .next t => (t.host.out.toNat, t.host.locks.getD 31 0) | _ => (9, 9)) = (0, 1) := by
  decide +kernel

/-- R363, R365: a commit fills the inbound slot. -/
theorem test_in_commit : (match exec (.inCommit true 9) tRun with | .next t => (mangOf t 9).inFull | _ => false) = true := by decide +kernel

/-- R29: STOP of a car that is not on the train answers at once, and the car is STOPPED. -/
theorem test_stop : (match exec (.stop (.manger 0)) (tAsk 8 [] tTest) with | .next t => t.sys.dev | _ => .off) = .stopped := by decide +kernel

/-- R271: TAKE of group 2, generation 0 goes to the barrier link. -/
theorem test_take :
    (match exec (.take (.manger 0)) (tAsk 0x606 [2] tRun) with | .next t => (t.fld.cmds.length, t.host.mang.length) | _ => (0, 0)) = (1, 16) := by
  decide +kernel

/-- R386: a command code that is not in the map is answered with BAD_CODE and taken from its slot. -/
theorem test_unknown_code :
    (match exec (.unknownCommandCode (.manger 0)) (tAsk 0xFFF [] tRun) with | .next t => ((mangOf t 0).inFull, (mangOf t 0).outFull) | _ => (true, false))
      = (false, true) := by
  decide +kernel

/-- R231: with OS 16 a bit is the majority of its samples at ticks 7, 8 and 9. R233: with 7 data bits, no parity and one stop bit a character takes 9 bit times of 160 ns. -/
theorem test_serial_bit : bitOf (tPortRec.map wordOf) (List.replicate 7 false ++ [true, false, true]) = true
    ∧ bitOf (tPortRec.map wordOf) (List.replicate 7 true ++ [true, false, false]) = false ∧ charTime (tPortRec.map wordOf) = 1440 := by decide +kernel

/-- R46: the pad makes header, payload and tag up to 60 bytes. R51: the nonce is ADMIT, SEQ and four zero bytes. -/
theorem test_frame_parts : padBody [1] = [1, 0, 0, 0, 0, 0, 0, 0, 0, 0, 0, 0] ∧ nonceOf (tHdr 0x0102) = [1, 2, 0, 0, 0, 0, 0, 5, 0, 0, 0, 0] := by decide +kernel

/-- R371: of the masters that read a free lock in one cycle, the lowest ID has it. -/
theorem test_lock_order : (lockTake 31 [31, 2] tRun).host.locks.getD 31 0 = 2 := by decide +kernel

/-! For every statement, states and operands that meet the hypotheses of each of its clauses. -/

/-- States and operands that meet the hypotheses of SupplyEdges, clause by clause. -/
theorem witness_supplyEdges :
    (∃ (mv : _) (s : State), alive s = true ∧ 3435 < mv ∧ mv ≤ 3800 ∧ s.sys.supplyOut ≠ 1)
  ∧ (∃ (mv : _) (s : State), alive s = true ∧ mv < 3165 ∧ s.sys.supplyOut ≠ 2)
  ∧ (∃ (mv : _) (s : State), alive s = true ∧ mv < 3165 ∧ s.sys.supplyOut = 2)
  ∧ (∃ (mv : _) (s : State), alive s = true ∧ s.sys.supplyOut ≠ 0 ∧ 3105 < mv ∧ mv < 3495)
  ∧ (∃ (mv : _) (s : State), s.sys.dev = .off ∧ mv ≤ 3800)
  ∧ (∃ (mv : _) (s : State), s.sys.dev ≠ .off ∧ mv < 2930) :=
  ⟨⟨3436, tStop, by decide +kernel⟩,
    ⟨3164, tStop, by decide +kernel⟩,
    ⟨3164, tStop.onSys fun x => { x with supplyOut := 2 }, by decide +kernel⟩,
    ⟨3106, tStop.onSys fun x => { x with supplyOut := 2 }, by decide +kernel⟩,
    ⟨3800, tDev .off State.reset, by decide +kernel⟩,
    ⟨2929, tStop, by decide +kernel⟩⟩

/-- States and operands that meet the hypotheses of OnlyRatingsStop, clause by clause. -/
theorem witness_onlyRatingsStop :
    ∃ mv, 3800 < mv :=
  ⟨3801, by decide +kernel⟩

/-- States and operands that meet the hypotheses of ResetEdges, clause by clause. -/
theorem witness_resetEdges :
    (∃ (s : State), s.sys.dev ≠ .off)
  ∧ (∃ (s : State), watchdogRuns s = true)
  ∧ (∃ (t : _) (s : State), alive s = true ∧ 1350 ≤ t)
  ∧ (∃ (t : _) (s : State), alive s = true ∧ 1150 < t ∧ t < 1350 ∧ s.sys.thermalWarn = false)
  ∧ (∃ (t : _) (s : State), alive s = true ∧ t < 1100 ∧ s.sys.thermalWarn = true)
  ∧ (∃ (mv : _) (s : State), s.sys.dev = .reset ∧ s.sys.thermalHold = false ∧ 3070 < mv ∧ mv ≤ 3800)
  ∧ (∃ (mv : _) (s : State), s.sys.dev = .reset ∧ s.sys.thermalHold = false ∧ 3070 < mv ∧ mv ≤ 3800)
  ∧ (∃ (via : Via) (s : State), cmdRuns 0x00B 1 .operate via s = true) :=
  ⟨⟨tStop, by decide +kernel⟩,
    ⟨tAt 100000000 tStop, by decide +kernel⟩,
    ⟨1350, tStop, by decide +kernel⟩,
    ⟨1349, tStop, by decide +kernel⟩,
    ⟨1099, tStop.onSys fun x => { x with thermalWarn := true }, by decide +kernel⟩,
    ⟨3071, tDev .reset State.reset, by decide +kernel⟩,
    ⟨3800, tDev .reset State.reset, by decide +kernel⟩,
    ⟨.manger 0, tAsk 0x00B [] tStop, by decide +kernel⟩⟩

/-- States and operands that meet the hypotheses of Braced, clause by clause. -/
theorem witness_braced :
    (∃ (mv : _) (s : State), alive s = true ∧ s.sys.dev ≠ .barn ∧ s.sys.braced = false ∧ mv < 3080)
  ∧ (∃ (mv : _) (s : State), s.sys.braced = true ∧ 3070 < mv ∧ mv ≤ 3800 ∧ s.cmd.held = [] ∧ s.cmd.waiting = [] ∧ s.sys.autoHeld = false) :=
  ⟨⟨3079, tStop, by decide +kernel⟩,
    ⟨3071, tStop.onSys fun x => { x with braced := true }, by decide +kernel⟩⟩

/-- States and operands that meet the hypotheses of BootToStopped, clause by clause. -/
theorem witness_bootToStopped :
    (∃ (ok : _) (s : State), s.sys.dev = .boot ∧ s.sys.running = none ∧ imageOk (wordBytes (slotOf s (b2n s.sys.triedA)).words) ok s = true)
  ∧ (∃ (s : State), s.sys.dev = .boot ∧ s.sys.running = none ∧ s.sys.triedA = false ∧ imageForm (wordBytes (slotOf s 0).words) = false)
  ∧ (∃ (ok : _) (s : State), s.sys.dev = .boot ∧ s.sys.running = none ∧ s.sys.triedA = false ∧ imageForm (wordBytes (slotOf s 0).words) = true ∧ imageOk
    (wordBytes (slotOf s 0).words) ok s = false)
  ∧ (∃ (s : State), s.sys.dev = .boot ∧ s.sys.running = none ∧ s.sys.triedA = true ∧ imageForm (wordBytes (slotOf s 1).words) = false)
  ∧ (∃ (ok : _) (s : State), s.sys.dev = .boot ∧ s.sys.running = none ∧ s.sys.triedA = true ∧ imageForm (wordBytes (slotOf s 1).words) = true ∧ imageOk
    (wordBytes (slotOf s 1).words) ok s = false)
  ∧ (∃ (s : State), s.sys.dev = .boot ∧ s.sys.running ≠ none ∧ s.sys.braced = false)
  ∧ (∃ (s : State), s.sys.dev = .startup ∧ s.ends.a.lock = true ∧ s.ends.b.lock = true)
  ∧ (∃ (s : State), s.sys.dev = .startup ∧ s.sys.recipeDone = true) :=
  ⟨⟨true, State.reset.onFlash fun f => { f with slots := [{ valid := true, words := tImage }] }, by decide +kernel⟩,
    ⟨State.reset, by decide +kernel⟩,
    ⟨false, State.reset.onFlash fun f => { f with slots := [{ valid := true, words := tImage }] }, by decide +kernel⟩,
    ⟨State.reset.onSys fun x => { x with triedA := true }, by decide +kernel⟩,
    ⟨false, (State.reset.onFlash fun f => { f with slots := [{ valid := false, words := [] }, { valid := true, words := tImage }] }).onSys fun x =>
    { x with triedA := true }, by decide +kernel⟩,
    ⟨State.reset.onSys fun x => { x with running := some false }, by decide +kernel⟩,
    ⟨tDev .startup (tEnd false (fun e => { e with lock := true }) (tEnd true (fun e => { e with lock := true }) State.reset)), by decide +kernel⟩,
    ⟨(tDev .startup State.reset).onSys fun x => { x with recipeDone := true }, by decide +kernel⟩⟩

/-- States and operands that meet the hypotheses of Barn, clause by clause. -/
theorem witness_barn :
    (∃ (via : Via) (s : State), cmdRuns 0x009 2 .operate via s = true ∧ s.sys.dev = .stopped)
  ∧ (∃ (via : Via) (s : State), cmdRuns 0x009 2 .operate via s = true ∧ s.sys.dev ≠ .stopped)
  ∧ (∃ (s : State), s.sys.dev = .stopped ∧ s.sys.barn = .entering ∧ s.ports.any portBusy = false)
  ∧ (∃ (s : State), s.sys.dev = .stopped ∧ s.sys.barn = .entering ∧ s.ports.any portBusy = false)
  ∧ (∃ (idx : _) (s : State), (s.sys.barn = .entering ∨ s.sys.dev = .barn) ∧ bit (portOf s idx).rec_ 1 21 = true)
  ∧ (∃ (idx : _) (s : State), (s.sys.barn = .entering ∨ s.sys.dev = .barn) ∧ barnWatch s = true ∧ fcMode (chRec s idx) = 1 ∧ fcWake (chRec s idx) = true)
  ∧ (∃ (endB : Bool) (a : _) (s : State), s.sys.dev = .barn ∧ (endOf s endB).absentAt = some a ∧ a + 1000000 ≤ s.clk.c ∧ s.sys.barnIn + 1000000 ≤ s.clk.c)
  ∧ (∃ (s : State), (s.sys.barn = .entering ∨ s.sys.dev = .barn))
  ∧ (∃ (s : State), (s.sys.barn = .entering ∨ s.sys.dev = .barn) ∧ s.sys.wakeTimer ≠ 0 ∧ s.sys.barnAt + s.sys.wakeTimer * 1000000 ≤ s.clk.c)
  ∧ (∃ (s : State), s.sys.barn = .asleep)
  ∧ (∃ (s : State), s.sys.barn ≠ .asleep)
  ∧ (∃ (s : State), s.sys.dev = .barn ∧ s.sys.barn = .waking ∧ s.ends.a.lock = true ∧ s.ends.b.lock = true)
  ∧ (∃ (s : State), s.sys.dev = .barn ∧ s.sys.barn = .waking ∧ s.ends.a.lock = true ∧ s.ends.b.lock = true)
  ∧ (∃ (s : State), s.sys.dev = .barn ∧ s.sys.barn = .waking) :=
  ⟨⟨.manger 0, tAsk 0x009 [0] tStop, by decide +kernel⟩,
    ⟨.manger 0, tAsk 0x009 [0] tRun, by decide +kernel⟩,
    ⟨tStop.onSys fun x => { x with barn := .entering }, by decide +kernel⟩,
    ⟨tStop.onSys fun x => { x with barn := .entering }, by decide +kernel⟩,
    ⟨0, modPort 0 (fun x => { x with rec_ := [0x80010000, 0x200000, 0, 0x00020100, 4, 0] }) (tDev .barn State.reset), by decide +kernel⟩,
    ⟨31, (tCh 0x40010000 0 id (tDev .barn State.reset)).onFld fun d => { d with module := 0x800000 }, by decide +kernel⟩,
    ⟨false, 0, tAt 1000000 (tEnd false (fun e => { e with absentAt := some 0 }) (tDev .barn State.reset)), by decide +kernel⟩,
    ⟨tDev .barn State.reset, by decide +kernel⟩,
    ⟨tAt 2000000 ((tDev .barn State.reset).onSys fun x => { x with wakeTimer := 2 }), by decide +kernel⟩,
    ⟨(tDev .barn State.reset).onSys fun x => { x with barn := .asleep }, by decide +kernel⟩,
    ⟨tStop.onSys fun x => { x with barn := .entering }, by decide +kernel⟩,
    ⟨tEnd false (fun e => { e with lock := true }) (tEnd true (fun e => { e with lock := true }) ((tDev .barn State.reset).onSys fun x =>
    { x with barn := .waking })), by decide +kernel⟩,
    ⟨tEnd false (fun e => { e with lock := true }) (tEnd true (fun e => { e with lock := true }) ((tDev .barn State.reset).onSys fun x =>
    { x with barn := .waking })), by decide +kernel⟩,
    ⟨(tDev .barn State.reset).onSys fun x => { x with barn := .waking }, by decide +kernel⟩⟩

/-- States and operands that meet the hypotheses of CouplerLink, clause by clause. -/
theorem witness_couplerLink :
    (∃ (endB : Bool) (level : _) (s : State), s.sys.dev ≠ .off ∧ s.sys.dev ≠ .reset ∧ pNoPresence s endB = false ∧ (endOf s endB).present ≠ level)
  ∧ (∃ (endB : Bool) (s : State), (endOf s endB).st = .down ∧ lanesOn s = true ∧ coupled s endB = true)
  ∧ (∃ (endB : Bool) (signal : _) (lock : _) (hiBer : _) (s : State), (endOf s endB).st = .up ∧ (signal && lock && !hiBer) = false)
  ∧ (∃ (endB : Bool) (a : _) (s : State), (endOf s endB).leftUp = some a ∧ pLine s = true ∧ (endOf s endB).st ≠ .up ∧ a + 3 * cycleP s ≤ trainTime s)
  ∧ (∃ (endB : Bool) (s : State), ((endOf s endB).st = .up ∨ (endOf s endB).st = .locked) ∧ lanesOn s = true ∧ (endOf s endB).helloAt ≤ s.clk.c ∧
    egressIdle s endB = true)
  ∧ (∃ (endB : Bool) (idx : _) (s : State), ((endOf s endB).st = .up ∨ (endOf s endB).st = .locked) ∧ lanesOn s = true ∧ idx < 4 ∧ (endOf s
    endB).helloCur.length = idx ∧ (endOf s endB).helloLast = none)
  ∧ (∃ (endB : Bool) (val : _) (s : State), (endOf s endB).st = .locked ∧ lanesOn s = true ∧ (endOf s endB).helloCur.length = 4 ∧ (endOf s endB).helloLast
    = some ((endOf s endB).helloCur ++ [(4, val)])) :=
  ⟨⟨false, true, tStop, by decide +kernel⟩,
    ⟨true, tEnd true (fun e => { e with present := true }) tStop, by decide +kernel⟩,
    ⟨false, true, true, true, tUp tRun, by decide +kernel⟩,
    ⟨false, 0, tAt 300000 (tPlan 5 0 (tTrain [0x00800000] (tEnd false (fun e => { e with leftUp := some 0 }) tRun))), by decide +kernel⟩,
    ⟨false, tUp tRun, by decide +kernel⟩,
    ⟨false, 3, tEnd false (fun e => { e with helloCur := [(0, 0), (1, 0), (2, 0)] }) (tUp tRun), by decide +kernel⟩,
    ⟨false, 0, tEnd false (fun e =>
    { e with st := .locked, helloCur := [(0, 0), (1, 0), (2, 0), (3, 0)], helloLast := some [(0, 0), (1, 0), (2, 0), (3, 0), (4, 0)] }) tRun,
    by decide +kernel⟩⟩

/-- States and operands that meet the hypotheses of HeaderDecision, clause by clause. -/
theorem witness_headerDecision :
    ∃ (endB : Bool) (h : Hdr) (s : State), (endOf s endB).st = .up ∧ (endOf s endB).rx = none ∧ forwards s = true ∧ h.adm ≠ 0 :=
  ⟨false, tHdr 1, tUp tRun, by decide +kernel⟩

/-- States and operands that meet the hypotheses of OpenFrames, clause by clause. -/
theorem witness_openFrames :
    (∃ (endB : Bool) (h : Hdr) (s : State), (endOf s endB).st = .up ∧ (endOf s endB).rx = none ∧ forwards s = true ∧ h.adm = 0)
  ∧ (∃ (endB : Bool) (r : RxFrame) (s : State), (endOf s endB).rx = some r ∧ r.hdr.adm = 0 ∧ r.badge = none) :=
  ⟨⟨true, tHdr 0, tUp tRun, by decide +kernel⟩,
    ⟨true, tRx 0, tEnd true (fun e => { e with rx := some (tRx 0) }) tRun, by decide +kernel⟩⟩

/-- States and operands that meet the hypotheses of FrameTails, clause by clause. -/
theorem witness_frameTails :
    (∃ (endB : Bool) (r : RxFrame) (s : State), (endOf s endB).rx = some r ∧ r.dec ≠ .returned)
  ∧ (∃ (endB : Bool) (r : RxFrame) (s : State), (endOf s endB).rx = some r ∧ r.dec = .returned)
  ∧ (∃ (endB : Bool) (body : List Byte) (tag : _) (fcs : _) (r : RxFrame) (s : State), (endOf s endB).rx = some r ∧ r.hdr.poison = false ∧ (fcs ≠ fcsOf
    r.hdr body tag ∨ body.length ≠ max r.hdr.len 12))
  ∧ (∃ (endB : Bool) (body : List Byte) (tag : _) (k : _) (r : RxFrame) (s : State), (endOf s endB).rx = some r ∧ r.hdr.poison = false ∧ body.length = max
    r.hdr.len 12 ∧ tailKey s r.hdr = some k ∧ tag ≠ tagOf k r.hdr (body.take r.hdr.len))
  ∧ (∃ (endB : Bool) (body : List Byte) (tag : _) (k : _) (r : RxFrame) (s : State), (endOf s endB).rx = some r ∧ r.hdr.poison = false ∧ body.length = max
    r.hdr.len 12 ∧ tailKey s r.hdr = some k ∧ tag = tagOf k r.hdr (body.take r.hdr.len)) :=
  ⟨⟨true, tRx 1, tEnd true (fun e => { e with rx := some (tRx 1) }) tRun, by decide +kernel⟩,
    ⟨true, { tRx 1 with dec := .returned }, tEnd true (fun e => { e with rx := some { tRx 1 with dec := .returned } }) tRun, by decide +kernel⟩,
    ⟨true, [], 0, 0, tRx 1, tEnd true (fun e => { e with rx := some (tRx 1) }) tRun, by decide +kernel, by decide +kernel, Or.inr (by decide)⟩,
    ⟨true, List.replicate 12 0, tagOf 0 (tHdr 0) [] + 1, 0, tRx 0, tEnd true (fun e => { e with rx := some (tRx 0) }) tRun, rfl, rfl, rfl, rfl, bits_move
    _⟩,
    ⟨true, List.replicate 12 0, tagOf 0 (tHdr 0) [], 0, tRx 0, tEnd true (fun e => { e with rx := some (tRx 0) }) tRun, rfl, rfl, rfl, rfl, rfl⟩⟩

/-- States and operands that meet the hypotheses of LaneTimers, clause by clause. -/
theorem witness_laneTimers :
    (∃ (endB : Bool) (w : _) (rest : _) (s : State), (endOf s endB).buf = w :: rest ∧ (endOf s endB).busyUntil ≤ s.clk.c ∧ s.clk.c * 10 ≤ w.at_ * 10 +
    16448)
  ∧ (∃ (badge : _) (e : _) (s : State), srcFind s true badge = some e ∧ e.seen + 1000000000 ≤ s.clk.c)
  ∧ (∃ (s : State), planLoaded s = true) :=
  ⟨⟨true, { hdr := tHdr 1, payload := [], prot := .own 0, bad := false, at_ := 0 }, [], tEnd true (fun e =>
    { e with buf := [{ hdr := tHdr 1, payload := [], prot := .own 0, bad := false, at_ := 0 }] }) tRun, by decide +kernel⟩,
    ⟨7, newEntry true 7 0 0, tAt 1000000000 (tRun.onLane fun l => { l with src := [newEntry true 7 0 0] }), by decide +kernel⟩,
    ⟨tPlan 5 0 tRun, by decide +kernel⟩⟩

/-- States and operands that meet the hypotheses of Launches, clause by clause. -/
theorem witness_launches :
    (∃ (o : _) (x : _) (s : State) (s2 : State), occNow s = some o ∧ firstTurn (blockedAll (packEvents o (enterOcc o s)) o) (turns (packEvents o (enterOcc
    o s)) o) = some x ∧ deadlineOk (packEvents o (enterOcc o s)) o = true ∧ (x.frame.prio = 7 → behindSpecial (packEvents o (enterOcc o s)) o x.at_ =
    false) ∧ roomLeft (packEvents o (enterOcc o s)) o x.frame.payload.length = true ∧ commit x.frame o false (packEvents o (enterOcc o s)) = some s2)
  ∧ (∃ (endB : Bool) (c : _) (s : State), s.lane.copies.find? (fun c => c.endB == endB) = some c ∧ (endOf s endB).st = .up ∧ trainTime s * 10 + wireTime
    c.payload.length ≤ c.occEnd ∧ egressIdle s endB = true ∧ copyMay s c = true)
  ∧ (∃ (entry : _) (o : _) (i : _) (s : State) (s1 : State), occFind s (fun e => enCyclic e && enOwner e == s.sys.badge) = some o ∧ o.idx = entry ∧
    s.lane.cyclicOcc ≠ some o.start ∧ admitted s = true ∧ s.sys.dev = .running ∧ s.inaug.omitted = 0 ∧ deadlineOk s o = true ∧ roomLeft s o (8 +
    enImgLen o.e) = true ∧ s.plan.images.find? (fun i => i.entry == entry && i.out) = some i ∧ (imgBind s entry).1 = true ∧ (loftCheck (imgBuf s i
    i.ready) i.len 0 s).1 = true ∧ commit
    { ftype := ftCyclic, prio := 6, grp := enDest o.e == 2, all := enDest o.e != 2, dst := if enDest o.e = 2 then 0x3F00 + enGroup o.e else 0x3FFF, open_ := false, tag := .plain, payload := beBytes 4 i.pubSeq ++ beBytes 4 0 ++ loftBytes (imgBuf s i i.ready) i.len (loftCheck (imgBuf s i i.ready) i.len 0 s).2 }
    o false (loftCheck (imgBuf s i i.ready) i.len 0 s).2 = some s1) :=
  ⟨⟨_, _, (tNet .member 3 0).onLane fun l => { l with txq := [tFrame] }, _, some_of (by decide +kernel), some_of (by decide +kernel), by decide +kernel,
    by decide +kernel, (by decide +kernel), some_of (by decide +kernel)⟩,
    ⟨true, { endB := true, hdr := { tHdr 1 with ftype := ftControl }, payload := [], occEnd := 499000 }, (tNet .member 3 0).onLane fun l =>
    { l with copies := [{ endB := true, hdr := { tHdr 1 with ftype := ftControl }, payload := [], occEnd := 499000 }] }, by decide +kernel⟩,
    ⟨0, _, tImg true, ((tImgs true (tNet .member 2 0)).onPlan fun p => { p with binds := [4] }), _, some_of (by decide +kernel), by decide +kernel,
    by decide +kernel, (by decide +kernel), by decide +kernel, by decide +kernel, (by decide +kernel), by decide +kernel, by decide +kernel,
    (by decide +kernel), by decide +kernel, some_of (by decide +kernel)⟩⟩

/-- States and operands that meet the hypotheses of StallEngine, clause by clause. -/
theorem witness_stallEngine :
    (∃ (s : State), planLoaded s = true ∧ onTrain s = true ∧ withinDeadline s = s.lane.silenced)
  ∧ (∃ (entry : _) (e : _) (i : _) (st : _) (s : State), s.plan.entries[entry]? = some e ∧ s.plan.images.find? (fun i => i.entry == entry && !i.out) =
    some i ∧ lastOcc s e = some st ∧ onTrain s = true ∧ errBound s ≠ none ∧ enCyclic e = true ∧ enOwner e ≠ s.sys.badge ∧ destHere s e = true ∧
    i.checked ≠ some st ∧ checkNow s e st = true ∧ (carOfBadge s (enOwner e)).isSome = true ∧ i.got.contains st = true)
  ∧ (∃ (entry : _) (e : _) (i : _) (st : _) (s : State), s.plan.entries[entry]? = some e ∧ s.plan.images.find? (fun i => i.entry == entry && !i.out) =
    some i ∧ lastOcc s e = some st ∧ onTrain s = true ∧ errBound s ≠ none ∧ enCyclic e = true ∧ enOwner e ≠ s.sys.badge ∧ destHere s e = true ∧
    i.checked ≠ some st ∧ checkNow s e st = true ∧ (carOfBadge s (enOwner e)).isSome = true ∧ i.got.contains st = false)
  ∧ (∃ (entry : _) (i : _) (d : _) (s : State), s.plan.images.find? (fun i => i.entry == entry && !i.out) = some i ∧ i.copying = some d ∧ (beforeMarks s
    i).1.frozen = false)
  ∧ (∃ (m : _) (s : State), planLoaded s = true ∧ onTrain s = true ∧ markEnabled (markRec s m) = true ∧ markIn (markRec s m) (cycleOf s (trainTime s)) =
    true ∧ trainTime s = markInstant s (markRec s m) (trainTime s) ∧ s.plan.fired.getD m 0 ≠ trainTime s / cycleP s + 1 ∧ passedOver s (trainTime s) =
    false ∧ (∀ k, k < m → markDue s k = false))
  ∧ (∃ (k : _) (m : _) (s : State), k < m ∧ markDue s m = true ∧ markDue s k = true ∧ markInstant s (markRec s k) (trainTime s) = markInstant s (markRec s
    m) (trainTime s) ∧ (∀ j, j < m → j ≠ k → markDue s j = false))
  ∧ (∃ (s : State), fwRuns s = true ∧ planLoaded s = true ∧ trainTime s / cycleP s ≠ s.plan.cycle ∧ s.cmd.stopping = none ∧ s.cmd.commitWait = none ∧
    s.cmd.waiting = [])
  ∧ (∃ (c : _) (old : _) (s : State), fwRuns s = true ∧ onTrain s = true ∧ trainTime s / cycleP s = s.plan.cycle ∧ s.cmd.stopping = some (c, old) ∧
    s.plan.cycle ≠ old)
  ∧ (∃ (via : Via) (s : State), cmdRuns 0x008 1 .operate via s = true ∧ onTrain s = true)
  ∧ (∃ (via : Via) (s : State), cmdRuns 0x008 1 .operate via s = true ∧ s.sys.dev = .test) :=
  ⟨⟨(tNet .member 3 0).onLane fun l => { l with silenced := true }, by decide +kernel⟩,
    ⟨0, _, { tImg false with got := [0] }, 0, tCyc [0], some_of (by decide +kernel), by decide +kernel⟩,
    ⟨0, _, { tImg false with got := [] }, 0, tCyc [], some_of (by decide +kernel), by decide +kernel⟩,
    ⟨0, { tImg false with copying := some tImgIn }, tImgIn, tRun.onPlan fun p => { p with images := [{ tImg false with copying := some tImgIn }] },
    by decide +kernel⟩,
    ⟨0, (tNet .member 3 0).onPlan fun p => { p with marks := [[0x40, 0]] }, by decide +kernel⟩,
    ⟨0, 1, (tNet .member 3 0).onPlan fun p => { p with marks := [[0x40, 0], [0x40, 0]] }, by decide +kernel⟩,
    ⟨tAt 100000 (tNet .member 3 0), by decide +kernel⟩,
    ⟨{ via := .manger 0, session := 1, priv := .operate, scope := 0, config := false, badge := 0, tag := 1, rcode := 8, words := [] }, 5, (tNet .member 3
    0).onCmd fun q =>
    { q with stopping := some ({ via := .manger 0, session := 1, priv := .operate, scope := 0, config := false, badge := 0, tag := 1, rcode := 8, words := [] }, 5) },
    by decide +kernel⟩,
    ⟨.manger 0, tAsk 8 [] tRun, by decide +kernel⟩,
    ⟨.manger 0, tAsk 8 [] tTest, by decide +kernel⟩⟩

/-- States and operands that meet the hypotheses of TimeFrames, clause by clause. -/
theorem witness_timeFrames :
    (∃ (o : _) (s : State) (s1 : State), s.clk.st = .master ∧ s.inaug.omitted = 0 ∧ planLoaded s = true ∧ s.ref.skipped ≠ trainTime s / cycleP s + 1 ∧
    occOfType s tyReference = some o ∧ roomLeft s o (refFrame s).payload.length = true ∧ commit (refFrame s) o true s = some s1 ∧ s.ref.abdicate =
    none)
  ∧ (∃ (s : State), s.inaug.omitted ≠ 0)
  ∧ (∃ (o : _) (s : State), s.clk.st = .master ∧ s.inaug.omitted = 0 ∧ planLoaded s = true ∧ s.ref.skipped ≠ trainTime s / cycleP s + 1 ∧ occOfType s
    tyReference = some o ∧ roomLeft s o (refFrame s).payload.length = false)
  ∧ (∃ (o : _) (s : State) (s1 : State), occFind s (fun e => enType e == tyShadow && enStall e == s.inaug.rank) = some o ∧ s.inaug.role = .backup ∧
    s.clk.st = .locked ∧ s.inaug.omitted = 0 ∧ onTrain s = true ∧ s.ref.shadowAt ≠ some o.start ∧ deadlineOk s o = true ∧ commit
    { ftype := ftShadow, prio := 7, grp := false, all := true, dst := 0x3FFF, open_ := false, tag := .plain, payload := timePayload s s.inaug.rank (b2n s.clk.slewing * 32) 0 0 0xFFFFFFFF }
    o true s = some s1)
  ∧ (∃ (o : _) (dst : _) (s : State) (s1 : State), occFind s (fun e => enDelay e && enOwner e == s.sys.badge) = some o ∧ s.teth.master = some dst ∧
    (s.teth.dc = .acquiring ∨ s.teth.dc = .dcLocked) ∧ admitted s = true ∧ onTrain s = true ∧ s.inaug.omitted = 0 ∧ s.clk.st ≠ .master ∧
    s.teth.delayAt ≠ some o.start ∧ deadlineOk s o = true ∧ commit (delayFrame s dst ((s.teth.reqId + 1) % 2 ^ 32)) o true s = some s1) :=
  ⟨⟨_, tNet .member 0 0, _, by decide +kernel, by decide +kernel, (by decide +kernel), by decide +kernel, some_of (by decide +kernel), by decide +kernel,
    some_of (by decide +kernel), by decide +kernel⟩,
    ⟨tRun.onInaug fun x => { x with omitted := 1 }, by decide +kernel⟩,
    ⟨_, tAt 49990 (tNet .member 0 0), by decide +kernel, by decide +kernel, (by decide +kernel), by decide +kernel, some_of (by decide +kernel),
    by decide +kernel⟩,
    ⟨_, (tNet .backup 1 0).onClk fun k => { k with st := .locked }, _, some_of (by decide +kernel), by decide +kernel, by decide +kernel,
    (by decide +kernel), by decide +kernel, by decide +kernel, (by decide +kernel), some_of (by decide +kernel)⟩,
    ⟨_, 1, (((tNet .member 2 1).onTeth fun t => { t with master := some 1, dc := .dcLocked }).onClk fun k => { k with st := .locked }), _, some_of
    (by decide +kernel), by decide +kernel, by decide +kernel, (by decide +kernel), by decide +kernel, by decide +kernel, (by decide +kernel),
    by decide +kernel, by decide +kernel, some_of (by decide +kernel)⟩⟩

/-- States and operands that meet the hypotheses of TimeWatch, clause by clause. -/
theorem witness_timeWatch :
    (∃ (s : State), s.clk.st = .locked ∧ 3 ≤ s.ref.missRun)
  ∧ (∃ (s : State), fwRuns s = true ∧ s.clk.sec < trainTime s / 1000000000)
  ∧ (∃ (s : State), fwRuns s = true ∧ s.clk.st = .master)
  ∧ (∃ (s : State), fwRuns s = true ∧ s.clk.st ≠ .master)
  ∧ (∃ (diff : Int) (s : State), fwRuns s = true ∧ s.clk.st = .master ∧ 2 < diff.natAbs)
  ∧ (∃ (diff : Int) (s : State), fwRuns s = true ∧ diff.natAbs ≤ 2)
  ∧ (∃ (s : State), lanesOn s = true ∧ s.teth.tether = true)
  ∧ (∃ (s : State), lanesOn s = true ∧ pTetherFitted s = true ∧ fwRuns s = true ∧ s.teth.tether = false)
  ∧ (∃ (s : State), pTetherFitted s = true ∧ s.teth.tfault = false ∧ s.teth.tether = false ∧ 8 < s.teth.lowRun ∧ s.clk.st ≠ .master)
  ∧ (∃ (s : State), (occOfType s tyReference).isSome = true ∧ onTrain s = true ∧ s.inaug.omitted = 0 ∧ s.ref.takeNext = none ∧ s.inaug.role = .lead ∧
    claimEligible s = true ∧ tetherAllows 0 s = true)
  ∧ (∃ (s : State), (occOfType s tyReference).isSome = true ∧ onTrain s = true ∧ s.inaug.omitted = 0 ∧ s.ref.takeNext = some (trainTime s / cycleP s - 1)
    ∧ 1 ≤ trainTime s / cycleP s ∧ s.inaug.role = .backup ∧ s.clk.st ≠ .master ∧ s.ref.barred = []) :=
  ⟨⟨(tRun.onClk fun k => { k with st := .locked }).onRef fun r => { r with missRun := 3 }, by decide +kernel⟩,
    ⟨tAt 1000000000 tRun, by decide +kernel⟩,
    ⟨tNet .member 0 0, by decide +kernel⟩,
    ⟨tRun, by decide +kernel⟩,
    ⟨3, tNet .member 0 0, by decide +kernel⟩,
    ⟨2, tRun, by decide +kernel⟩,
    ⟨(tTrain [0x00200000] tRun).onTeth fun t => { t with tether := true }, by decide +kernel⟩,
    ⟨(tTrain [0x00200000] tRun).onTeth fun t => { t with tether := false }, by decide +kernel⟩,
    ⟨(tTrain [0x00200000] tRun).onTeth fun t => { t with tether := false, lowRun := 9 }, by decide +kernel⟩,
    ⟨((tNet .lead 0 0).onClk fun k => { k with st := .holdover }).onTeth fun t => { t with eligible := 2 }, by decide +kernel⟩,
    ⟨tAt 100000 (((tNet .backup 0 0).onClk fun k => { k with st := .locked }).onRef fun r => { r with takeNext := some 0 }), by decide +kernel⟩⟩

/-- States and operands that meet the hypotheses of ColdStart, clause by clause. -/
theorem witness_coldStart :
    (∃ (since : _) (s : State), s.inaug.cold = .listening since ∧ s.sys.dev = .integrating ∧ s.inaug.role = .guest ∧ 1 ≤ pColdRank s ∧ pColdRank s ≤ 4 ∧
    s.teth.tether = true ∧ since + listenT s + (pColdRank s - 1) * 6000000 ≤ trainTime s ∧ s.inaug.claimSigned = true)
  ∧ (∃ (since : _) (s : State), s.inaug.cold = .listening since ∧ s.sys.dev = .integrating ∧ s.inaug.role = .guest ∧ 1 ≤ pColdRank s ∧ pColdRank s ≤ 4 ∧
    s.teth.tether = true ∧ since + listenT s + (pColdRank s - 1) * 6000000 ≤ trainTime s ∧ s.inaug.claimSigned = false ∧ s.sec.entropyOk = true)
  ∧ (∃ (first : _) (s : State) (s1 : State), s.inaug.cold = .claiming first ∧ (∀ a, s.inaug.claimSent = some a → a + 1000000 ≤ trainTime s) ∧ sendGuest
    ((s.inaug.claimSent.map (· + 1000000)).getD 0) (beaconFrame s) s = some s1)
  ∧ (∃ (badge : _) (since : _) (s : State), s.inaug.cold = .waiting badge since ∧ since + 50000000 ≤ trainTime s)
  ∧ (∃ (first : _) (s : State), s.inaug.cold = .claiming first ∧ s.inaug.claimSent ≠ none ∧ first + 5000000 ≤ trainTime s ∧ s.sec.entropyOk = true ∧
    onTrain s = true) :=
  ⟨⟨0, tCold true, by decide +kernel⟩,
    ⟨0, tCold false, by decide +kernel⟩,
    ⟨0, (tNet .guest 4 0).onInaug fun x => { x with cold := .claiming 0 }, _, by decide +kernel, (by intro a h; cases h), some_of (by decide +kernel)⟩,
    ⟨7, 0, tAt 50000000 (tRun.onInaug fun x => { x with cold := .waiting 7 0 }), by decide +kernel⟩,
    ⟨0, tAt 5000000 ((tRun.onInaug fun x => { x with cold := .claiming 0, claimSent := some 0 }).onSec fun x => { x with entropyOk := true }),
    by decide +kernel⟩⟩

/-- States and operands that meet the hypotheses of Beacons, clause by clause. -/
theorem witness_beacons :
    (∃ (s : State) (s1 : State), isLead s = true ∧ (∀ a, s.ldr.beaconAt = some a → a + 1000000 ≤ trainTime s) ∧ s.ldr.beaconNow ≠ [] ∧ bcClaim
    s.ldr.beaconNow = false ∧ sendGuest ((s.ldr.beaconAt.map (· + 1000000)).getD 0) (beaconFrame s) s = some s1)
  ∧ (∃ (s : State), isLead s = true ∧ s.sec.entropyOk = true ∧ s.ldr.nlAt + 1000000000 ≤ trainTime s)
  ∧ (∃ (s : State), rsaTurn .signBeacon s = true)
  ∧ (∃ (sigOk : _) (m : RxMsg) (s : State), firstMsg (isSub ftInauguration true 1) s = some m ∧ (verifyOnce (part m.payload 116 154) sigOk (takenMsg m
    s)).1 = true ∧ bcForm (msgBadge m) m.payload = true)
  ∧ (∃ (m : RxMsg) (s : State), firstMsg (isSub ftInauguration true 1) s = some m ∧ bcForm (msgBadge m) m.payload = false) :=
  ⟨⟨(tNet .lead 4 0).onLdr fun l => { l with beaconNow := List.replicate 20 0 }, _, by decide +kernel, (by intro a h; cases h), by decide +kernel,
    by decide +kernel, some_of (by decide +kernel)⟩,
    ⟨tAt 1000000000 ((tRole .lead tRun).onSec fun x => { x with entropyOk := true }), by decide +kernel⟩,
    ⟨(tRole .lead tRun).onLdr fun l => { l with beaconNext := [0] }, by decide +kernel⟩,
    ⟨true, tBeacon, tGot tBeacon tRun, rfl, rfl, Bool.and_eq_true_iff.mpr ⟨by decide +kernel, beq_iff_eq.mpr (Eq.trans (b := sha tPre) rfl (congrArg sha
    (by decide +kernel)))⟩⟩,
    ⟨_, tGot (tSub ftInauguration 0 1 []) tRun, some_of (by decide +kernel), by decide +kernel⟩⟩

set_option maxRecDepth 8192 in
/-- States and operands that meet the hypotheses of GuestSteps, clause by clause. -/
theorem witness_guestSteps :
    (∃ (m : RxMsg) (b : _) (s : State), firstMsg (isSub ftInauguration true 2) s = some m ∧ s.inaug.guest = .haveBeacon ∧ s.inaug.beacon = some b ∧
    b.badge = msgBadge m)
  ∧ (∃ (chainOk : _) (sigOk : _) (b : _) (s : State) (r1 : _) (r2 : _), s.inaug.guest = .verifying ∧ s.inaug.beacon = some b ∧ r1 = verifyOnce
    s.inaug.leadCert chainOk s ∧ r2 = verifyOnce (part b.raw 116 154) sigOk r1.2 ∧ (r1.1 = false ∨ r2.1 = false ∨ (Config.badgeOf (Config.certKey
    r2.2.inaug.leadCert)).toNat ≠ b.badge ∨ policyOk r2.2 (bcQuote b.raw) = false))
  ∧ (∃ (chainOk : _) (sigOk : _) (b : _) (s : State) (r1 : _) (r2 : _), s.inaug.guest = .verifying ∧ s.inaug.beacon = some b ∧ r1 = verifyOnce
    s.inaug.leadCert chainOk s ∧ r2 = verifyOnce (part b.raw 116 154) sigOk r1.2 ∧ r1.1 = true ∧ r2.1 = true ∧ (Config.badgeOf (Config.certKey
    r2.2.inaug.leadCert)).toNat = b.badge ∧ policyOk r2.2 (bcQuote b.raw) = true)
  ∧ (∃ (b : _) (s : State) (q : _) (s1 : State), rsaTurn .signQuote s = true ∧ s.inaug.guest = .signing ∧ s.inaug.beacon = some b ∧ q = quoteSigned
    s.sec.idKey s.inaug.quoteDue ∧ s1 = rsaBegin (rsaEnd true (s.onInaug fun x =>
    { x with guest := .sending, quoteHash := shaNat q, quoteDue := [] })))
  ∧ (∃ (m : RxMsg) (b : _) (a : _) (s : State), firstMsg (isSub ftAdmission true 0x23) s = some m ∧ be m.payload 12 8 = s.sys.badge ∧ s.inaug.guest =
    .asked a ∧ s.inaug.beacon = some b ∧ b.badge = msgBadge m ∧ be m.payload 20 32 = bcNl b.raw ∧ part m.payload 52 384 = bcSig b.raw)
  ∧ (∃ (sigOk : _) (m : RxMsg) (b : _) (a : _) (s : State), firstMsg (isSub ftAdmission true 0x23) s = some m ∧ be m.payload 12 8 = s.sys.badge ∧
    s.inaug.guest = .asked a ∧ s.inaug.beacon = some b ∧ b.badge = msgBadge m ∧ (sigOk = false ∨ be m.payload 20 32 ≠ bcNl b.raw ∨ part m.payload 52
    384 ≠ bcSig b.raw))
  ∧ (∃ (ok : _) (b : _) (s : State) (p : _), rsaTurn .grantOpen s = true ∧ s.inaug.guest = .unwrapping ∧ s.inaug.beacon = some b ∧ p = beBytes 100
    (Config.unwrapKey s.sec.idKey s.inaug.block) ∧ (ok = false ∨ be p 68 32 ≠ s.inaug.quoteHash ∨ keyCheck (be p 2 1) (be p 3 32) ≠ bcCheckCur b.raw ∨
    (bcNextValid b.raw = true ∧ be p 35 1 ≠ 0xFF ∧ keyCheck (be p 35 1) (be p 36 32) ≠ bcCheckNext b.raw)))
  ∧ (∃ (b : _) (s : State) (p : _) (u : _), rsaTurn .grantOpen s = true ∧ s.inaug.guest = .unwrapping ∧ s.inaug.beacon = some b ∧ p = beBytes 100
    (Config.unwrapKey s.sec.idKey s.inaug.block) ∧ be p 68 32 = s.inaug.quoteHash ∧ keyCheck (be p 2 1) (be p 3 32) = bcCheckCur b.raw ∧ (bcNextValid
    b.raw = false ∨ be p 35 1 = 0xFF ∨ keyCheck (be p 35 1) (be p 36 32) = bcCheckNext b.raw) ∧ u = when' (be p 35 1 != 0xFF) (raise 97 (be p 35 1 %
    16 * 256 + 2)) ((((releaseEntries ((rsaEnd true s).onSec fun x =>
    { x with keys := { epoch := be p 2 1 % 16, key := be p 3 32 } :: (if be p 35 1 == 0xFF then [] else [{ epoch := be p 35 1 % 16, key := be p 36 32 }]), cur := be p 2 1 % 16, inst := none, unwrap := [], oldKey := none })).onInaug
    fun x => { x with adm := be p 0 2, epoch := be b.raw 14 2 / 16, adoptSys := srcField s, guest := .done, block := [] }).onLane fun l =>
    { l with seq := 0 }).onSent fun t => { t with gseq := [] }))
  ∧ (∃ (a : _) (s : State), s.inaug.guest = .asked a ∧ a + 20000000 ≤ trainTime s) :=
  ⟨⟨_, ⟨7, []⟩, tGuest .haveBeacon ⟨7, []⟩ (tGot (tSub ftInauguration 0 2 []) tRun), some_of (by decide +kernel), by decide +kernel⟩,
    ⟨false, false, ⟨7, []⟩, tGuest .verifying ⟨7, []⟩ tRun, _, _, by decide +kernel, by decide +kernel, rfl, rfl, Or.inl rfl⟩,
    ⟨true, true, tLeadBc, tLeadS, (true, tVer (List.replicate 154 0) true tLeadS), (true, tVer (List.replicate 154 0) true tLeadS), rfl, rfl,
    (verify_first _ _ _ rfl).symm, verify_both _ _ _ rfl, rfl, rfl, rfl, by decide +kernel⟩,
    ⟨⟨7, []⟩, tGuest .signing ⟨7, []⟩ tRun, _, _, by decide +kernel, by decide +kernel, (by decide +kernel), rfl, rfl⟩,
    ⟨_, ⟨7, List.replicate 654 0⟩, 0, tGuest (.asked 0) ⟨7, List.replicate 654 0⟩ (tGot (tSub ftAdmission 0 0x23 (beBytes 8 State.reset.sys.badge ++
    List.replicate 416 0)) tRun), some_of (by decide +kernel), by decide +kernel⟩,
    ⟨false, _, ⟨7, []⟩, 0, tGuest (.asked 0) ⟨7, []⟩ (tGot (tSub ftAdmission 0 0x23 (beBytes 8 State.reset.sys.badge)) tRun), some_of (by decide +kernel),
    by decide +kernel⟩,
    ⟨false, ⟨7, []⟩, tGuest .unwrapping ⟨7, []⟩ tRun, _, by decide +kernel, by decide +kernel, (by decide +kernel), rfl, Or.inl rfl⟩,
    ⟨tKeyBc, (tGuest .unwrapping tKeyBc tRun).onInaug fun x => { x with quoteHash := be tBlock 68 32 }, _, _, by decide +kernel, rfl, rfl, rfl, rfl, rfl,
    Or.inl rfl, rfl⟩,
    ⟨0, tAt 20000000 (tGuest (.asked 0) ⟨7, []⟩ tRun), by decide +kernel⟩⟩

/-- States and operands that meet the hypotheses of LeadAdmits, clause by clause. -/
theorem witness_leadAdmits :
    (∃ (m : RxMsg) (s : State) (r : _), firstMsg (isSub ftAdmission true 0x21) s = some m ∧ isLead s = true ∧ r = verifyOnce (m.payload.drop 12)
    (Config.certVerifies (m.payload.drop 12)) (takenMsg m s))
  ∧ (∃ (chainOk : _) (sigOk : _) (m : RxMsg) (s : State) (cert : _) (r1 : _) (r2 : _), firstMsg (isSub ftAdmission true 0x22) s = some m ∧ isLead s = true
    ∧ cert = ((s.ldr.guests.find? fun g => g.badge == msgBadge m).map (·.cert)).getD [] ∧ r1 = verifyOnce cert chainOk (takenMsg m s) ∧ r2 =
    verifyOnce (part m.payload 76 154) sigOk r1.2 ∧ admCheck cert m.payload (msgBadge m) r1.1 r2.1 r2.2 ≠ 0)
  ∧ (∃ (chainOk : _) (sigOk : _) (m : RxMsg) (s : State) (cert : _) (r1 : _) (r2 : _), firstMsg (isSub ftAdmission true 0x22) s = some m ∧ isLead s = true
    ∧ cert = ((s.ldr.guests.find? fun g => g.badge == msgBadge m).map (·.cert)).getD [] ∧ r1 = verifyOnce cert chainOk (takenMsg m s) ∧ r2 =
    verifyOnce (part m.payload 76 154) sigOk r1.2 ∧ admCheck cert m.payload (msgBadge m) r1.1 r2.1 r2.2 = 0)
  ∧ (∃ (badge : _) (g : _) (s : State) (u : _), s.ldr.guests.find? grantWaits = some g ∧ g.badge = badge ∧ rsaTurn .grantWrap s = true ∧ u = rsaBegin
    (rsaEnd false ((s.onLdr fun l => { l with guests := l.guests.map fun x => if x.badge == badge then { x with granted := true } else x }).onSec fun
    x => { x with wrapAhead := x.wrapAhead - 1 })))
  ∧ (∃ (m : RxMsg) (g : _) (s : State), firstMsg (isSub ftAdmission false 0x24) s = some m ∧ isLead s = true ∧ g.done = false ∧ s.ldr.guests.find? (fun g
    => g.granted && g.adm == m.hdr.adm && g.adm == be m.payload 12 2 && g.quoteHash == be m.payload 16 32) = some g)
  ∧ (∃ (sigOk : _) (m : RxMsg) (s : State), firstMsg (isSub ftInauguration true 12) s = some m ∧ isLead s = true ∧ (verifyOnce (m.payload.drop 12) sigOk
    (takenMsg m s)).1 = true ∧ (Config.badgeOf (Config.certKey (m.payload.drop 12))).toNat = msgBadge m ∧ (verifyOnce (m.payload.drop 12) sigOk
    (takenMsg m s)).2.ldr.present.contains (msgBadge m) = false) :=
  ⟨⟨_, tGot (tSub ftAdmission 0 0x21 []) (tRole .lead tRun), _, some_of (by decide +kernel), by decide +kernel, rfl⟩,
    ⟨true, true, _, (tGot (tSub ftAdmission 0 0x22 []) (tRole .lead tRun)).onInaug fun x =>
    { x with numbering := List.replicate 64 { badge := 7, adm := 2, role := 0x80, prev := 255 } }, _, _, _, some_of (by decide +kernel),
    by decide +kernel, rfl, rfl, rfl, (by rw [admCheck_verified, admCheck_verified]; decide +kernel)⟩,
    ⟨true, true, tIn ftAdmission 0 tAdmPay, tAdm, _, _, _, rfl, by decide +kernel, rfl, rfl, rfl, tAdm_check⟩,
    ⟨7, tReq, (tRole .lead tRun).onLdr fun l => { l with guests := [tReq] }, _, by decide +kernel, by decide +kernel, (by decide +kernel), rfl⟩,
    ⟨_, { tReq with granted := true }, tGot (tSub ftAdmission 2 0x24 ([0, 2, 0, 0] ++ List.replicate 32 0)) ((tRole .lead tRun).onLdr fun l =>
    { l with guests := [{ tReq with granted := true }] }), some_of (by decide +kernel), by decide +kernel⟩,
    ⟨true, tIn ftInauguration 0 (beBytes 8 (tBadge [1]) ++ [12, 0, 0, 0, 1]), tGot (tIn ftInauguration 0 (beBytes 8 (tBadge [1]) ++ [12, 0, 0, 0, 1]))
    (tRole .lead tRun), rfl, by decide +kernel, rfl, (be_beBytes_8 _ _ (tBadge_lt _)).symm, rfl⟩⟩

/-- States and operands that meet the hypotheses of LeadCensus, clause by clause. -/
theorem witness_leadCensus :
    (∃ (s : State) (s1 : State), isLead s = true ∧ sendExpressFrom (statusFrom s) (statusFrom s) (inaugFrame s .plain 3 ([byteOf s.inaug.numbering.length,
    byteOf s.inaug.train, 0, 0] ++ beBytes 4 s.ldr.stateVer ++ ((List.range 3).flatMap fun i => beBytes 2 (s.inaug.backups.getD i 0)))) s = some s1)
  ∧ (∃ (m : RxMsg) (s : State), firstMsg (isSub ftInauguration false 3) s = some m ∧ isLead s = false)
  ∧ (∃ (g : _) (s : State), s.inaug.graceUntil = some g ∧ g ≤ trainTime s)
  ∧ (∃ (s : State), s.inaug.role = .member ∧ onTrain s = true ∧ s.inaug.heardLead + pLeadLoss s + 9000000 ≤ trainTime s)
  ∧ (∃ (c : _) (s : State) (s1 : State), s.ldr.census = some c ∧ isLead s = true ∧ c.sentAt = none ∧ sendExpressFrom c.since c.since (inaugFrame s .plain
    4 (beBytes 4 c.cid ++ [byteOf c.cause, 0, 0, 0])) s = some s1)
  ∧ (∃ (m : RxMsg) (s : State), firstMsg (isSub ftInauguration false 4) s = some m ∧ admitted s = true ∧ isLead s = false)
  ∧ (∃ (m : RxMsg) (s : State), firstMsg (isSub ftInauguration false 5) s = some m ∧ isLead s = true ∧ knownMember s m.hdr.adm = true ∧ be m.payload 12 4
    = 0)
  ∧ (∃ (m : RxMsg) (s : State), firstMsg (isSub ftInauguration false 5) s = some m ∧ isLead s = true ∧ knownMember s m.hdr.adm = true ∧ be m.payload 12 4
    ≠ 0)
  ∧ (∃ (cid : _) (a : _) (px : _) (py : _) (s : State) (s1 : State), s.inaug.heard = some (cid, a, px, py) ∧ admitted s = true ∧ isLead s = false ∧ cid ≠
    s.inaug.replied ∧ sendExpressFrom (a + pTransit s) (a + pTransit s) (posFrame s .plain cid 0 px py) s = some s1)
  ∧ (∃ (c : _) (a : _) (s : State), s.ldr.census = some c ∧ c.sentAt = some a ∧ isLead s = true ∧ c.closed = false ∧ (allReplied c s = true ∨ a + 500000 +
    3 * pTransit s ≤ trainTime s)) :=
  ⟨⟨tNet .lead 5 0, _, by decide +kernel, some_of (by decide +kernel)⟩,
    ⟨_, tGot (tSub ftInauguration 1 3 []) (tRole .member tRun), some_of (by decide +kernel), by decide +kernel⟩,
    ⟨0, tRun.onInaug fun x => { x with graceUntil := some 0 }, by decide +kernel⟩,
    ⟨tAt 109000000 (tRole .member tRun), by decide +kernel, by decide +kernel, lossDue rfl (by decide +kernel)⟩,
    ⟨{ cid := 1, cause := 0, since := 0, sentAt := none, folded := [], replies := [], closed := false }, (tNet .lead 5 0).onLdr fun l =>
    { l with census := some { cid := 1, cause := 0, since := 0, sentAt := none, folded := [], replies := [], closed := false } }, _,
    by decide +kernel, by decide +kernel, (by decide +kernel), some_of (by decide +kernel)⟩,
    ⟨_, tGot (tSub ftInauguration 1 4 []) (tRole .member tRun), some_of (by decide +kernel), by decide +kernel⟩,
    ⟨_, tGot (tSub ftInauguration 1 5 []) (tRole .lead tRun), some_of (by decide +kernel), by decide +kernel⟩,
    ⟨_, tGot (tSub ftInauguration 1 5 [0, 0, 0, 1]) (tRole .lead tRun), some_of (by decide +kernel), by decide +kernel⟩,
    ⟨1, 0, 0, 0, tHeard, _, by decide +kernel, by decide +kernel, (by decide +kernel), by decide +kernel, some_of send_answer⟩,
    ⟨{ cid := 1, cause := 0, since := 0, sentAt := some 0, folded := [], replies := [], closed := false }, 0, (tRole .lead tRun).onLdr fun l =>
    { l with census := some { cid := 1, cause := 0, since := 0, sentAt := some 0, folded := [], replies := [], closed := false } }, by decide +kernel⟩⟩

/-- States and operands that meet the hypotheses of Numberings, clause by clause. -/
theorem witness_numberings :
    (∃ (es : _) (cause : _) (s : State) (s1 : State), s.ldr.numberingDue = some (es, cause) ∧ isLead s = true ∧ sendExpressFrom (numberingFrom s)
    (numberingFrom s) (inaugFrame s .plain 6 (numberingBody ((s.ldr.nextEpoch.getD ((s.inaug.epoch + 1) % 4096) + 4095) % 4096) (pTrain s) cause
    (pGrace s) es)) s = some s1)
  ∧ (∃ (m : RxMsg) (n : _) (s : State), firstMsg (isSub ftInauguration false 6) s = some m ∧ isLead s = false ∧ (numberingEntries m.payload).findIdx? (fun
    e => e.badge == s.sys.badge && e.adm == s.inaug.adm) = some n ∧ s.inaug.guest ≠ .done)
  ∧ (∃ (m : RxMsg) (s : State), firstMsg (isSub ftInauguration false 6) s = some m ∧ isLead s = false ∧ (numberingEntries m.payload).findIdx? (fun e =>
    e.badge == s.sys.badge && e.adm == s.inaug.adm) = none ∧ admitted s = true ∧ s.inaug.omitted = 0)
  ∧ (∃ (m : RxMsg) (s : State), firstMsg (isSub ftInauguration false 6) s = some m ∧ isLead s = false ∧ (numberingEntries m.payload).findIdx? (fun e =>
    e.badge == s.sys.badge && e.adm == s.inaug.adm) = none ∧ admitted s = true ∧ 1 ≤ s.inaug.omitted) :=
  ⟨⟨[], 0, (tNet .lead 5 0).onLdr fun l => { l with numberingDue := some ([], 0) }, _, by decide +kernel, by decide +kernel, some_of (by decide +kernel)⟩,
    ⟨_, 0, tGot (tSub ftInauguration 1 6 ([0, 0, 1, 0, 0, 0, 0, 0] ++ beBytes 8 State.reset.sys.badge ++ [0, 1, 0x80, 255])) (tRole .member tRun), some_of
    (by decide +kernel), by decide +kernel⟩,
    ⟨_, tGot (tSub ftInauguration 1 6 []) (tRole .member tRun), some_of (by decide +kernel), by decide +kernel⟩,
    ⟨_, tGot (tSub ftInauguration 1 6 []) ((tRole .member tRun).onInaug fun x => { x with omitted := 1 }), some_of (by decide +kernel), by decide +kernel⟩⟩

/-- States and operands that meet the hypotheses of LeadChanges, clause by clause. -/
theorem witness_leadChanges :
    (∃ (b : _) (s : State), s.inaug.role = .backup ∧ onTrain s = true ∧ s.inaug.omitted = 0 ∧ s.inaug.heardLead + pLeadLoss s + (s.inaug.rank - 1) *
    3000000 ≤ trainTime s ∧ s.ldr.active = some b)
  ∧ (∃ (s : State) (t : _) (s1 : State), s.inaug.role = .backup ∧ onTrain s = true ∧ s.inaug.omitted = 0 ∧ s.inaug.heardLead + pLeadLoss s + (s.inaug.rank
    - 1) * 3000000 ≤ trainTime s ∧ s.ldr.active = none ∧ s.sec.entropyOk = true ∧ t = (moveUp s).onLdr (fun l =>
    { l with dissolveSince := some (dissolveFrom s) }) ∧ sendExpressFrom 0 (dissolveFrom s) (inaugFrame t .plain 7 (beBytes 8 t.sys.badge ++ [byteOf
    (pTrain t)])) t = some s1)
  ∧ (∃ (s : State) (t : _), s.inaug.role = .backup ∧ onTrain s = true ∧ s.inaug.omitted = 0 ∧ s.inaug.heardLead + pLeadLoss s + (s.inaug.rank - 1) *
    3000000 ≤ trainTime s ∧ s.ldr.active = none ∧ s.sec.entropyOk = true ∧ t = (moveUp s).onLdr (fun l =>
    { l with dissolveSince := some (dissolveFrom s) }) ∧ sendExpressFrom 0 (dissolveFrom s) (inaugFrame t .plain 7 (beBytes 8 t.sys.badge ++ [byteOf
    (pTrain t)])) t = none)
  ∧ (∃ (m : RxMsg) (s : State), firstMsg (isSub ftInauguration false 7) s = some m ∧ onTrain s = true)
  ∧ (∃ (b : _) (s : State) (s1 : State), s.ldr.handTarget = some b ∧ isLead s = true ∧ s.ldr.committed = true ∧ s.clk.st ≠ .master ∧ natBit s.ref.fit 0 =
    true ∧ backupBadge s.inaug.numbering 1 = some b ∧ s.ldr.census = none ∧ sendExpressFrom 0 (handFrom s) (inaugFrame s .plain 8 (beBytes 8 b ++
    beBytes 4 s.ldr.stateVer)) s = some s1 ∧ s1.clk.st ≠ .master)
  ∧ (∃ (b : _) (s : State), s.ldr.handTarget = some b ∧ isLead s = true ∧ s.ldr.committed = true ∧ s.clk.st ≠ .master ∧ natBit s.ref.fit 0 = true ∧
    backupBadge s.inaug.numbering 1 = some b ∧ s.ldr.census = none ∧ sendExpressFrom 0 (handFrom s) (inaugFrame s .plain 8 (beBytes 8 b ++ beBytes 4
    s.ldr.stateVer)) s = none)
  ∧ (∃ (m : RxMsg) (b : _) (s : State), firstMsg (isSub ftInauguration false 8) s = some m ∧ be m.payload 12 8 = s.sys.badge ∧ s.inaug.role = .backup ∧
    s.ldr.active = some b)
  ∧ (∃ (m : RxMsg) (s : State), firstMsg (isSub ftInauguration false 8) s = some m ∧ be m.payload 12 8 ≠ s.sys.badge) :=
  ⟨⟨{ version := 0, chunks := [] }, tAt 100000000 (((tRole .backup tRun).onInaug fun x => { x with rank := 1 }).onLdr fun l =>
    { l with active := some { version := 0, chunks := [] } }), by decide +kernel, by decide +kernel, (by decide +kernel), lossDue rfl
    (by decide +kernel), by decide +kernel⟩,
    ⟨tAt 100000000 (((tNet .backup 5 0).onInaug fun x => { x with rank := 1 }).onSec fun x => { x with entropyOk := true }), _, _, by decide +kernel,
    by decide +kernel, (by decide +kernel), lossDue rfl (by decide +kernel), by decide +kernel, by decide +kernel, rfl, some_of (by decide +kernel)⟩,
    ⟨tAt 100000000 (((tRole .backup tRun).onInaug fun x => { x with rank := 1 }).onSec fun x => { x with entropyOk := true }), _, by decide +kernel,
    by decide +kernel, (by decide +kernel), lossDue rfl (by decide +kernel), by decide +kernel, by decide +kernel, rfl, by decide +kernel⟩,
    ⟨_, tGot (tSub ftInauguration 1 7 []) tRun, some_of (by decide +kernel), by decide +kernel⟩,
    ⟨7, tHand, _, by decide +kernel, by decide +kernel, (by decide +kernel), by decide +kernel, by decide +kernel, (by decide +kernel), by decide +kernel,
    some_of (by decide +kernel), by decide +kernel⟩,
    ⟨7, tHand.onPlan fun p => { p with entries := [] }, by decide +kernel⟩,
    ⟨_, { version := 0, chunks := [] }, tGot (tSub ftInauguration 1 8 (beBytes 8 State.reset.sys.badge)) ((tRole .backup tRun).onLdr fun l =>
    { l with active := some { version := 0, chunks := [] } }), some_of (by decide +kernel), by decide +kernel⟩,
    ⟨_, tGot (tSub ftInauguration 1 8 (beBytes 8 (State.reset.sys.badge + 1))) tRun, some_of (by decide +kernel), by decide +kernel⟩⟩

/-- States and operands that meet the hypotheses of StateCopy, clause by clause. -/
theorem witness_stateCopy :
    (∃ (m : RxMsg) (b : _) (s : State), firstMsg (isSub ftInauguration false 9) s = some m ∧ isBackup1 s = true ∧ s.ldr.build = some b ∧ b.version = be
    m.payload 12 4)
  ∧ (∃ (m : RxMsg) (s : State), firstMsg (isSub ftInauguration false 9) s = some m ∧ isBackup1 s = true ∧ (∀ b, s.ldr.build = some b → b.version ≠ be
    m.payload 12 4))
  ∧ (∃ (m : RxMsg) (used : _) (s : State) (t : _), firstMsg (isSub ftInauguration false 10) s = some m ∧ isBackup1 s = true ∧ (∀ i, i < be m.payload 16 1
    → (heldChunks (be m.payload 12 4) s.ldr).any (fun c => c.1 == i) = true) ∧ used = sortBy (·.1) ((heldChunks (be m.payload 12 4) s.ldr).filter fun
    c => decide (c.1 < be m.payload 16 1)) ∧ sha (used.flatMap (·.2)) = part m.payload 20 32 ∧ t = cntInaug 7 ((takenMsg m s).onLdr fun l =>
    { l with active := some { version := be m.payload 12 4, chunks := used }, build := l.active }))
  ∧ (∃ (m : RxMsg) (s : State) (t : _), firstMsg (isSub ftInauguration false 10) s = some m ∧ isBackup1 s = true ∧ (∀ i, i < be m.payload 16 1 →
    (heldChunks (be m.payload 12 4) s.ldr).any (fun c => c.1 == i) = true) ∧ sha ((sortBy (·.1) ((heldChunks (be m.payload 12 4) s.ldr).filter fun c
    => decide (c.1 < be m.payload 16 1))).flatMap (·.2)) ≠ part m.payload 20 32 ∧ t = cntInaug 8 (takenMsg m s))
  ∧ (∃ (m : RxMsg) (i : _) (s : State) (t : _), firstMsg (isSub ftInauguration false 10) s = some m ∧ isBackup1 s = true ∧ i < be m.payload 16 1 ∧
    (heldChunks (be m.payload 12 4) s.ldr).any (fun c => c.1 == i) = false ∧ (∀ j, j < i → (heldChunks (be m.payload 12 4) s.ldr).any (fun c => c.1 ==
    j) = true) ∧ t = cntInaug 8 (takenMsg m s))
  ∧ (∃ (m : RxMsg) (s : State), firstMsg (isSub ftInauguration false 11) s = some m ∧ isLead s = true ∧ be m.payload 12 4 = s.ldr.version ∧ m.hdr.adm =
    backup1 s ∧ be m.payload 16 1 = 0)
  ∧ (∃ (m : RxMsg) (s : State), firstMsg (isSub ftInauguration false 11) s = some m ∧ isLead s = true ∧ be m.payload 12 4 = s.ldr.version ∧ m.hdr.adm =
    backup1 s ∧ be m.payload 16 1 ≠ 0)
  ∧ (∃ (s : State), s.ldr.copyFails = 2)
  ∧ (∃ (s : State), s.ldr.copyFails < 2)
  ∧ (∃ (a : _) (s : State), s.ldr.copyAt = some a ∧ isLead s = true ∧ a + 2000000 ≤ trainTime s)
  ∧ (∃ (s : State), isLead s = true ∧ 3 ≤ s.ldr.copyFails ∧ s.ldr.copyAt = none ∧ s.ldr.copyTry + 100000000 ≤ trainTime s) :=
  ⟨⟨_, { version := 0, chunks := [] }, tGot (tSub ftInauguration 1 9 []) (((tRole .backup tRun).onInaug fun x => { x with rank := 1 }).onLdr fun l =>
    { l with build := some { version := 0, chunks := [] } }), some_of (by decide +kernel), by decide +kernel⟩,
    ⟨_, tGot (tSub ftInauguration 1 9 []) ((tRole .backup tRun).onInaug fun x => { x with rank := 1 }), some_of (by decide +kernel), by decide +kernel,
    (fun _ h => nomatch (show (none : Option Bank) = some _ from h))⟩,
    ⟨tSub ftInauguration 1 10 (List.replicate 8 0 ++ sha []), _, tGot (tSub ftInauguration 1 10 (List.replicate 8 0 ++ sha [])) ((tRole .backup
    tRun).onInaug fun x => { x with rank := 1 }), _, rfl, rfl, noneBelow rfl, rfl, rfl, rfl⟩,
    ⟨tSub ftInauguration 1 10 (List.replicate 8 0), tGot (tSub ftInauguration 1 10 (List.replicate 8 0)) ((tRole .backup tRun).onInaug fun x =>
    { x with rank := 1 }), _, rfl, rfl, noneBelow rfl, (fun h => nomatch (show sha [] = [] from h)), rfl⟩,
    ⟨tSub ftInauguration 1 10 [0, 0, 0, 0, 1, 0, 0, 0], 0, tGot (tSub ftInauguration 1 10 [0, 0, 0, 0, 1, 0, 0, 0]) ((tRole .backup tRun).onInaug fun x =>
    { x with rank := 1 }), _, rfl, by decide +kernel, by decide +kernel, (by decide +kernel), noneBelow rfl, rfl⟩,
    ⟨_, tGot (tSub ftInauguration 1 11 []) ((tRole .lead tRun).onInaug fun x => { x with backups := [1, 0, 0] }), some_of (by decide +kernel),
    by decide +kernel⟩,
    ⟨_, tGot (tSub ftInauguration 1 11 [0, 0, 0, 0, 1]) ((tRole .lead tRun).onInaug fun x => { x with backups := [1, 0, 0] }), some_of
    (by decide +kernel), by decide +kernel⟩,
    ⟨State.reset.onLdr fun l => { l with copyFails := 2 }, by decide +kernel⟩,
    ⟨State.reset, by decide +kernel⟩,
    ⟨0, tAt 2000000 ((tRole .lead tRun).onLdr fun l => { l with copyAt := some 0 }), by decide +kernel⟩,
    ⟨tAt 100000000 ((tRole .lead tRun).onLdr fun l => { l with copyFails := 3 }), by decide +kernel⟩⟩

/-- States and operands that meet the hypotheses of SerialReceive, clause by clause. -/
theorem witness_serialReceive :
    (∃ (p : _) (v : _) (s : State), portOpen s p = true ∧ (portOf s p).echo = false ∧ (portOf s p).phase = .hunting ∧ (portOf s p).rxPend = false ∧ bitOf
    (portOf s p).rxSet v = false)
  ∧ (∃ (p : _) (v : _) (s : State), portOpen s p = true ∧ (portOf s p).echo = false ∧ (portOf s p).phase = .hunting ∧ (portOf s p).rxPend = false ∧ bitOf
    (portOf s p).rxSet v = true)
  ∧ (∃ (p : _) (s : State), portOpen s p = true ∧ (portOf s p).echo = false ∧ ((portOf s p).phase = .stuck ∨ (portOf s p).phase = .waitIdle))
  ∧ (∃ (p : _) (s : State), (portOf s p).phase = .character ∧ portsClocked s = true ∧ stopCentre (portOf s p) ≤ s.clk.c ∧ poData (portOf s p).rxSet ≠ 2)
  ∧ (∃ (p : _) (body : _) (sp : _) (s : State), (portOf s p).phase = .character ∧ portsClocked s = true ∧ stopCentre (portOf s p) ≤ s.clk.c ∧ poData
    (portOf s p).rxSet = 2 ∧ poMute (portOf s p).rec_ = true ∧ (portOf s p).muted = true ∧ natBit (charRead p body sp s).1 8 = false)
  ∧ (∃ (p : _) (s : State), portOpen s p = true ∧ (portOf s p).echo = false ∧ (portOf s p).phase = .breakHold ∧ (portOf s p).stuckAt + poStuckMs (portOf s
    p).rec_ * 1000000 ≤ s.clk.c)
  ∧ (∃ (p : _) (high : _) (s : State), portOpen s p = true ∧ (portOf s p).echo = false ∧ (portOf s p).phase = .stuck ∧ quietTime (portOf s p).rxSet ≤ high
    ∧ (portOf s p).lowAt + high ≤ s.clk.c)
  ∧ (∃ (p : _) (high : _) (s : State), portOpen s p = true ∧ (portOf s p).echo = false ∧ ((portOf s p).phase = .breakHold ∨ ((portOf s p).phase =
    .waitIdle ∧ quietTime (portOf s p).rxSet ≤ high ∧ (portOf s p).lowAt + high ≤ s.clk.c)))
  ∧ (∃ (p : _) (s : State), (portOf s p).echo = true ∧ (portOf s p).de = false ∧ (portOf s p).deOff + sixteenths (portOf s p).txSet 16 ≤ s.clk.c) :=
  ⟨⟨0, List.replicate 16 false, tSer id, by decide +kernel⟩,
    ⟨0, [], tSer id, by decide +kernel⟩,
    ⟨0, tSer fun x => { x with phase := .stuck }, by decide +kernel, by decide +kernel, Or.inl (by decide +kernel)⟩,
    ⟨0, tAt 1520 (tSer fun x => { x with phase := .character }), by decide +kernel⟩,
    ⟨0, List.replicate 9 (List.replicate 16 false), [], tAt 100000 (tSer fun x =>
    { x with phase := .character, muted := true, rec_ := x.rec_.set 1 0x81000000, rxSet := x.rxSet.set 1 0x81000000 }), by decide +kernel⟩,
    ⟨0, tAt 1000000 (tSer fun x => { x with phase := .breakHold }), by decide +kernel⟩,
    ⟨0, 100000, tAt 1000000 (tSer fun x => { x with phase := .stuck }), by decide +kernel⟩,
    ⟨0, 0, tSer fun x => { x with phase := .breakHold }, by decide +kernel, by decide +kernel, Or.inl (by decide +kernel)⟩,
    ⟨0, tAt 1000000 (tSer fun x => { x with echo := true }), by decide +kernel⟩⟩

/-- States and operands that meet the hypotheses of SerialDma, clause by clause. -/
theorem witness_serialDma :
    (∃ (p : _) (b : _) (s : State), portLive s p = true ∧ 4 ≤ (portOf s p).fifo.length ∧ (portOf s p).cur = some b ∧ b.items.length < 14)
  ∧ (∃ (p : _) (b : _) (s : State), portLive s p = true ∧ 4 ≤ (portOf s p).fifo.length ∧ (portOf s p).cur = some b ∧ b.items.length = 14)
  ∧ (∃ (p : _) (s : State), portLive s p = true ∧ 4 ≤ (portOf s p).fifo.length ∧ (portOf s p).cur = none ∧ ringFree (portOf s p) ≠ 0)
  ∧ (∃ (p : _) (b : _) (s : State), portLive s p = true ∧ (portOf s p).phase ≠ .character ∧ (portOf s p).fifo = [] ∧ (portOf s p).cur = some b ∧ (portOf s
    p).lastEnd + bitTimes (portOf s p).rxSet (poTimeout (portOf s p).rec_) ≤ s.clk.c)
  ∧ (∃ (p : _) (c : _) (s : State), (portOf s p).txCh = some c ∧ portOpen s p = true ∧ (portOf s p).txAt + charTime (portOf s p).txSet ≤ s.clk.c)
  ∧ (∃ (p : _) (s : State), (portOf s p).txPhase = .tail ∧ tailEnd (portOf s p) ≤ s.clk.c) :=
  ⟨⟨0, ⟨0, 0, [], false⟩, tSer fun x => { x with fifo := [tChar, tChar, tChar, tChar], cur := some ⟨0, 0, [], false⟩ }, by decide +kernel⟩,
    ⟨0, ⟨0, 0, List.replicate 14 [], false⟩, tSer fun x =>
    { x with fifo := [tChar, tChar, tChar, tChar], cur := some ⟨0, 0, List.replicate 14 [], false⟩ }, by decide +kernel⟩,
    ⟨0, tSer fun x => { x with fifo := [tChar, tChar, tChar, tChar] }, by decide +kernel⟩,
    ⟨0, ⟨0, 0, [], false⟩, tAt 320 (tSer fun x => { x with cur := some ⟨0, 0, [], false⟩ }), by decide +kernel⟩,
    ⟨0, 5, tAt 10000 (tSer fun x => { x with txCh := some 5 }), by decide +kernel⟩,
    ⟨0, tSer fun x => { x with txPhase := .tail }, by decide +kernel⟩⟩

/-- States and operands that meet the hypotheses of SerialCommands, clause by clause. -/
theorem witness_serialCommands :
    (∃ (via : Via) (s : State) (c : _), c = cmdOf 0x501 via s ∧ cmdRuns 0x501 8 .config via s = true ∧ wd c.words 1 ≤ 15 ∧ portCheck ((c.words.drop
    2).take 6) = none ∧ ringBytes s.yard.record + ringsKib ((s.ports.map (·.rec_)).set (wd c.words 1) ((c.words.drop 2).take 6)) * 1024 ≤ s.loft.fq *
    mib)
  ∧ (∃ (via : Via) (s : State) (c : _) (i : _), c = cmdOf 0x501 via s ∧ cmdRuns 0x501 8 .config via s = true ∧ wd c.words 1 ≤ 15 ∧ portCheck
    ((c.words.drop 2).take 6) = some i)
  ∧ (∃ (via : Via) (s : State) (c : _) (x : _), c = cmdOf 0x502 via s ∧ x = portOf s (wd c.words 1) ∧ cmdRuns 0x502 2 .observe via s = true ∧ wd c.words 1
    ≤ 15 ∧ x.fifo.length < 64)
  ∧ (∃ (via : Via) (s : State) (c : _) (x : _), c = cmdOf 0x502 via s ∧ x = portOf s (wd c.words 1) ∧ cmdRuns 0x502 2 .observe via s = true ∧ wd c.words 1
    ≤ 15 ∧ 64 ≤ x.fifo.length)
  ∧ (∃ (via : Via) (s : State) (c : _) (t : State) (u : _) (bs : _), c = cmdOf 0x503 via s ∧ t = takenBy 0x503 via s ∧ u = dropBad (wd c.words 1) t ∧ bs =
    (portOf u (wd c.words 1)).ring.map blockBytes ∧ cmdRuns 0x503 4 .observe via s = true ∧ wd c.words 1 ≤ 15 ∧ parcelOk 2 c t = true ∧ parcelOk 2 c u
    = true ∧ (bs = [] ∨ 0 < parcelFit 2 bs c) ∧ bit (s.sent.talkers.getD (wd c.words 1) []) 0 31 = false) :=
  ⟨⟨.manger 0, tEnv 0x501 (0 :: tPortRec) tRun, _, rfl, by decide +kernel⟩,
    ⟨.manger 0, tEnv 0x501 [15, 1, 0, 0, 0, 0, 0] tRun, _, _, rfl, by decide +kernel, by decide +kernel, some_of (by decide +kernel)⟩,
    ⟨.manger 0, tAsk 0x502 [0] tRun, _, _, rfl, rfl, by decide +kernel⟩,
    ⟨.manger 0, tAsk 0x502 [0] (tSer fun x => { x with fifo := List.replicate 64 tChar }), _, _, rfl, rfl, by decide +kernel⟩,
    ⟨.manger 0, tAsk 0x503 [0, tP, 64] (tSer id), _, _, _, [], rfl, rfl, rfl, by decide +kernel⟩⟩

/-- States and operands that meet the hypotheses of SentenceEngine, clause by clause. -/
theorem witness_sentenceEngine :
    (∃ (slot : _) (s : State), slot < 16 ∧ tkEnable (s.sent.talkers.getD slot []) = true ∧ s.sys.dev ≠ .barn)
  ∧ (∃ (slot : _) (s : State), slot < 16 ∧ tkEnable (s.sent.talkers.getD slot []) = true ∧ portLive s slot = true ∧ (portOf s slot).phase ≠ .character ∧ 2
    ≤ tkProfile (s.sent.talkers.getD slot []) ∧ (portOf s slot).fifo = [] ∧ (ringChars (portOf s slot)).length ≤ (portOf s slot).framed ∧ (portOf s
    slot).lastEnd + bitTimes (portOf s slot).rxSet (tkPc (s.sent.talkers.getD slot [])) ≤ s.clk.c)
  ∧ (∃ (x : _) (r : _) (i : _) (ru : _) (s : State), s.sent.inq = x :: r ∧ ruleOf s x = (i, ru) ∧ ruDrop ru.rec_ = true)
  ∧ (∃ (x : _) (r : _) (i : _) (ru : _) (s : State), s.sent.inq = x :: r ∧ ruleOf s x = (i, ru) ∧ ruDrop ru.rec_ = false ∧ bits ru.rec_ 11 31 16 < 2 ∧
    ruRate ru.rec_ = 0) :=
  ⟨⟨0, tTalk 0 [0x80000000] tRun, by decide +kernel⟩,
    ⟨0, tAt 320 (tTalk 0 [0xA0000000, 2] (tSer id)), by decide +kernel⟩,
    ⟨tSent, [], 2047, freshRule ((List.replicate 16 0).set 10 0x40000000) 0, tInq tRun, by decide +kernel⟩,
    ⟨tSent, [], 5, freshRule (((List.replicate 16 0).set 10 0x88000000).set 0 1) 0, (tInq tRun).onSent fun t =>
    { t with rules := [(5, freshRule (((List.replicate 16 0).set 10 0x88000000).set 0 1) 0)] }, by decide +kernel⟩⟩

/-- States and operands that meet the hypotheses of SentenceTrain, clause by clause. -/
theorem witness_sentenceTrain :
    (∃ (m : RxMsg) (s : State), firstMsg (fun m => m.hdr.ftype == ftSentence) s = some m ∧ parseRecords (trainTime s) (be m.payload 2 1) (m.payload.drop
    8) = none)
  ∧ (∃ (m : RxMsg) (xs : _) (s : State), firstMsg (fun m => m.hdr.ftype == ftSentence) s = some m ∧ parseRecords (trainTime s) (be m.payload 2 1)
    (m.payload.drop 8) = some xs ∧ xs ≠ [] ∧ 8 ≤ m.payload.length ∧ be m.payload 3 1 = 0 ∧ streamOk m.hdr (be m.payload 0 2) = true ∧ m.hdr.grp =
    false)
  ∧ (∃ (adm : _) (stream : _) (p : _) (s : State), s.sent.reseq.find? (fun p => p.adm == adm && p.stream == stream) = some p ∧ (p.held.any fun h => decide
    (h.2.1 + pTransit s ≤ trainTime s)) = true)
  ∧ (∃ (n : _) (x : _) (r : _) (s : State), (lqOf s n).held = x :: r ∧ mergeDue s n x = true)
  ∧ (∃ (n : _) (x : _) (r : _) (s : State), (lqOf s n).held = x :: r ∧ mergeDue s n x = false)
  ∧ (∃ (m : RxMsg) (s : State), firstMsg (fun m => m.hdr.ftype == ftControl && be m.payload 0 1 == 0x10) s = some m ∧ m.hdr.adm = s.inaug.leadAdmit) :=
  ⟨⟨_, tGot (tIn ftSentence 1 [1, 0, 1, 0, 0, 0, 0, 0]) tRun, some_of (by decide +kernel), by decide +kernel⟩,
    ⟨_, _, tGot (tIn ftSentence 1 ([1, 0, 1, 0, 0, 0, 0, 0] ++ List.replicate 28 0)) tRun, some_of (by decide +kernel), some_of (by decide +kernel),
    by decide +kernel⟩,
    ⟨2, 0, { adm := 2, stream := 0, next := 0, held := [(1, 0, [])] }, tAt 100000 ((tNet .lead 0 0).onSent fun t =>
    { t with reseq := [{ adm := 2, stream := 0, next := 0, held := [(1, 0, [])] }] }), by decide +kernel⟩,
    ⟨0, tSent, [], modLq 0 (fun l => { l with held := [tSent] }) tRun, by decide +kernel⟩,
    ⟨0, tSent, [], modLq 0 (fun l => { l with held := [tSent] }) (tList 0 [0x8800000A, 0] tRun), by decide +kernel⟩,
    ⟨_, tGot (tIn ftControl 0 [0x10]) tRun, some_of (by decide +kernel), by decide +kernel⟩⟩

/-- States and operands that meet the hypotheses of ListenerEmit, clause by clause. -/
theorem witness_listenerEmit :
    (∃ (n : _) (x : _) (r : _) (s : State), n < 16 ∧ replayFill n 129 s = s ∧ portOpen s n = true ∧ (portOf s n).txPhase = .idle ∧ (portOf s n).txFifo =
    [] ∧ (lqOf s n).emitting = none ∧ (lqOf s n).q = x :: r)
  ∧ (∃ (n : _) (x : _) (r : _) (s : State), 16 ≤ n ∧ n < 32 ∧ replayFill n 129 s = s ∧ lsParcel (s.sent.listeners.getD n []) = false ∧ strmEnabled s (n +
    16) = true ∧ (lqOf s n).emitting = none ∧ (lqOf s n).q = x :: r)
  ∧ (∃ (n : _) (x : _) (r : _) (s : State), 32 ≤ n ∧ replayFill n 129 s = s ∧ epEnable (epRec s (n - 32)) = true ∧ (lqOf s n).q = x :: r ∧ epFits s (n -
    32) x = true) :=
  ⟨⟨0, tSent, [], modLq 0 (fun l => { l with q := [tSent] }) (tSer id), by decide +kernel, rfl, by decide +kernel⟩,
    ⟨31, tSent, [], modLq 31 (fun l => { l with q := [tSent] }) (tRun.onStrm fun x => { x with cfg := [0x80000000, 0, 0x8000, 0] }), by decide +kernel,
    by decide +kernel, rfl, by decide +kernel⟩,
    ⟨32, tSent, [], modLq 32 (fun l => { l with q := [tSent] }) (tRun.onYard fun y => { y with record := [1518], eps := y.eps.set 0 [0x80000000] }),
    by decide +kernel, rfl, by decide +kernel⟩⟩

/-- States and operands that meet the hypotheses of SentenceControl, clause by clause. -/
theorem witness_sentenceControl :
    (∃ (via : Via) (s : State) (c : _), c = cmdOf 0x401 via s ∧ cmdRuns 0x401 14 .config via s = true ∧ wd c.words 1 ≤ 63 ∧ talkerCheck (s.ports.map
    (·.rec_)) (wd c.words 1) ((c.words.drop 2).take 12) = none ∧ (framerOf s (wd c.words 1)).active = false)
  ∧ (∃ (via : Via) (s : State) (c : _), c = cmdOf 0x401 via s ∧ cmdRuns 0x401 14 .config via s = true ∧ wd c.words 1 ≤ 63 ∧ talkerCheck (s.ports.map
    (·.rec_)) (wd c.words 1) ((c.words.drop 2).take 12) = none ∧ (framerOf s (wd c.words 1)).active = true)
  ∧ (∃ (via : Via) (s : State) (c : _), c = cmdOf 0x402 via s ∧ cmdRuns 0x402 4 .config via s = true ∧ wd c.words 1 ≤ 63 ∧ listenerCheck (wd c.words 1)
    ((c.words.drop 2).take 2) = none)
  ∧ (∃ (via : Via) (s : State) (c : _) (t : State), c = cmdOf 0x403 via s ∧ t = takenBy 0x403 via s ∧ cmdRuns 0x403 4 .config via s = true ∧ wd c.words 1
    ≤ 2047 ∧ wd c.words 3 = 64 ∧ parcelOk 2 c t = true ∧ (parcelRead 2 c t).1 = true ∧ ruleCheck (wd c.words 1) (bytesWords (parcelBytes 2 c t)) =
    none)
  ∧ (∃ (via : Via) (s : State) (c : _) (t : State) (items : _), c = cmdOf 0x404 via s ∧ t = takenBy 0x404 via s ∧ cmdRuns 0x404 4 .operate via s = true ∧
    16 ≤ wd c.words 1 ∧ wd c.words 1 ≤ 47 ∧ parcelOk 2 c t = true ∧ (parcelRead 2 c t).1 = true ∧ parseItems (parcelBytes 2 c t).length (parcelBytes 2
    c t) = (items, true) ∧ tkEnable ((parcelRead 2 c t).2.sent.talkers.getD (wd c.words 1) []) = true)
  ∧ (∃ (via : Via) (s : State) (c : _) (t : State) (u : _) (items : _), c = cmdOf 0x405 via s ∧ t = takenBy 0x405 via s ∧ u = replayFill (wd c.words 1)
    129 t ∧ items = ((lqOf u (wd c.words 1)).q.map fun x => leBytes 4 (formBytes u (wd c.words 1) x).1.length ++ padTo (roundUp (formBytes u (wd
    c.words 1) x).1.length 4) (formBytes u (wd c.words 1) x).1) ∧ cmdRuns 0x405 4 .observe via s = true ∧ 16 ≤ wd c.words 1 ∧ wd c.words 1 ≤ 31 ∧
    lsParcel (s.sent.listeners.getD (wd c.words 1) []) = true ∧ parcelOk 2 c u = true ∧ (items = [] ∨ 0 < parcelFit 2 items c))
  ∧ (∃ (via : Via) (s : State) (c : _) (t : State) (i : _), c = cmdOf 0x406 via s ∧ t = takenBy 0x406 via s ∧ cmdRuns 0x406 4 .operate via s = true ∧
    natBits (wd c.words 1) 28 20 = 0 ∧ parcelOk 2 c t = true ∧ (parcelRead 2 c t).1 = true ∧ parseItems (parcelBytes 2 c t).length (parcelBytes 2 c t)
    = ([i], true) ∧ natBits (wd c.words 1) 19 0 / 64 = sysAddr (parcelRead 2 c t).2)
  ∧ (∃ (via : Via) (s : State) (c : _) (t : State), c = cmdOf 0x408 via s ∧ t = takenBy 0x408 via s ∧ cmdRuns 0x408 3 .observe via s = true ∧ parcelOk 1 c
    t = true ∧ 0 < parcelFit 1 [ctrBlock 7 t.ctr.talk, ctrBlock 8 t.ctr.rule, ctrBlock 9 t.ctr.sent, ctrBlock 10 t.ctr.lstn] c)
  ∧ (∃ (via : Via) (s : State) (c : _) (g : _) (m : _) (t : State), c = cmdOf 0x106 via s ∧ t = takenBy 0x106 via s ∧ g = natBits (wd c.words 1) 31 24 ∧ m
    = (wd64 c.words 2, natBits (wd c.words 1) 5 0) ∧ cmdRuns 0x106 4 .config via s = true ∧ natBits (wd c.words 1) 23 9 = 0 ∧ natBits (wd c.words 1) 7
    6 = 0 ∧ isLead s = true ∧ natBit (wd c.words 1) 8 = false ∧ (membersOf s g).contains m = false ∧ (membersOf s g).length < 255 ∧ (s.sent.groups.map
    fun x => x.members.length).sum < 4096)
  ∧ (∃ (via : Via) (s : State) (c : _) (g : _) (m : _) (t : State), c = cmdOf 0x106 via s ∧ t = takenBy 0x106 via s ∧ g = natBits (wd c.words 1) 31 24 ∧ m
    = (wd64 c.words 2, natBits (wd c.words 1) 5 0) ∧ cmdRuns 0x106 4 .config via s = true ∧ natBits (wd c.words 1) 23 9 = 0 ∧ natBits (wd c.words 1) 7
    6 = 0 ∧ isLead s = true ∧ natBit (wd c.words 1) 8 = true ∧ (membersOf s g).contains m = true)
  ∧ (∃ (via : Via) (s : State) (c : _) (t : State), c = cmdOf 0x107 via s ∧ t = takenBy 0x107 via s ∧ cmdRuns 0x107 3 .observe via s = true ∧ isLead s =
    true ∧ parcelOk 1 c t = true ∧ (s.sent.groups.map groupBytes = [] ∨ 0 < parcelFit 1 (s.sent.groups.map groupBytes) c)) :=
  ⟨⟨.manger 0, tEnv 0x401 [63, 0, 0, 0, 0, 0, 0, 0, 0, 0, 0, 0, 0] tRun, _, rfl, by decide +kernel⟩,
    ⟨.manger 0, (tEnv 0x401 [0, 0, 0, 0, 0, 0, 0, 0, 0, 0, 0, 0, 0] tRun).onSent fun t =>
    { t with framers := t.framers.set 0 { Framer.reset with active := true } }, _, rfl, by decide +kernel⟩,
    ⟨.manger 0, tEnv 0x402 [63, 0x30000000, 0] tRun, _, rfl, by decide +kernel⟩,
    ⟨.manger 0, tPut (List.replicate 43 0 ++ [0x40]) (tEnv 0x403 [2046, tP, 64] tRun), _, _, rfl, rfl, by decide +kernel⟩,
    ⟨.manger 0, tAsk 0x404 [47, tP, 12] (tPut [0, 0, 0, 0, 1, 0, 0, 0, 65] (tTalk 47 [0x80000000] tRun)), _, _, [(0, 1, [65])], rfl, rfl,
    by decide +kernel⟩,
    ⟨.manger 0, tAsk 0x405 [31, tP, 64] (tList 31 [0x84000000, 0] tRun), _, _, _, [], rfl, rfl, rfl, by decide +kernel⟩,
    ⟨.manger 0, tAsk 0x406 [0, tP, 12] (tPut [0, 0, 0, 0, 1, 0, 0, 0, 65] tRun), _, _, (0, 1, [65]), rfl, rfl, by decide +kernel⟩,
    ⟨.manger 0, tAsk 0x408 [tP, 2048] tRun, _, _, rfl, rfl, by decide +kernel⟩,
    ⟨.manger 0, tEnv 0x106 [0xFF000000, 7, 0] (tRole .lead tRun), _, _, _, _, rfl, rfl, rfl, rfl, by decide +kernel⟩,
    ⟨.manger 0, tEnv 0x106 [0xFF000100, 7, 0] ((tRole .lead tRun).onSent fun t => { t with groups := [{ num := 255, members := [(7, 0)] }] }), _, _, _, _,
    rfl, rfl, rfl, rfl, by decide +kernel⟩,
    ⟨.manger 0, tAsk 0x107 [tP, 64] (tRole .lead tRun), _, _, rfl, rfl, by decide +kernel⟩⟩

/-- States and operands that meet the hypotheses of Transfers, clause by clause. -/
theorem witness_transfers :
    (∃ (m : RxMsg) (s : State), firstMsg (fun m => m.hdr.ftype == ftBulk && !(s.sys.braced && Config.bulkTarget m.hdr.adm (be m.payload 0 4) % 2 == 0)) s
    = some m ∧ (m.payload.length < 16 ∨ be m.payload 12 4 < be m.payload 4 8 + (m.payload.drop 16).length))
  ∧ (∃ (m : RxMsg) (b : _) (s : State) (x : _), firstMsg (fun m => m.hdr.ftype == ftBulk && !(s.sys.braced && Config.bulkTarget m.hdr.adm (be m.payload 0
    4) % 2 == 0)) s = some m ∧ 16 ≤ m.payload.length ∧ be m.payload 4 8 + (m.payload.drop 16).length ≤ be m.payload 12 4 ∧ s.lane.bulkIn.find? (fun x
    => x.src == m.hdr.adm && x.xid == be m.payload 0 4) = some b ∧ b.bad = false ∧ x = Config.bulkTarget m.hdr.adm (be m.payload 0 4))
  ∧ (∃ (m : RxMsg) (b : _) (s : State), firstMsg (isCtl 0x15) s = some m ∧ s.lane.bulkOut.find? (fun b => b.xid == be m.payload 8 4 && b.dst == m.hdr.src)
    = some b)
  ∧ (∃ (xid : _) (b : _) (s : State), s.lane.bulkOut.find? (fun b => b.xid == xid) = some b ∧ carOfBadge s b.badge = none)
  ∧ (∃ (xid : _) (b : _) (n : _) (s : State), s.lane.bulkOut.find? (fun b => b.xid == xid) = some b ∧ carOfBadge s b.badge = some n ∧ b.kind = .push ∧
    b.started + 2000000000 ≤ trainTime s)
  ∧ (∃ (via : Via) (s : State) (c : _) (t : State) (u : _), c = cmdOf 0xB06 via s ∧ t = takenBy 0xB06 via s ∧ u = (parcelRead 2 c t).2 ∧ cmdRuns 0xB06 5
    .operate via s = true ∧ wd c.words 1 ≤ 16383 ∧ wd c.words 3 ≤ bulkMax ∧ parcelOk 2 c t = true ∧ (parcelRead 2 c t).1 = true ∧ bulkCount u < 4 ∧ wd
    c.words 1 ≠ sysAddr u ∧ carKnown u (wd c.words 1) = true ∧ parcelBytes 2 c t ≠ [])
  ∧ (∃ (via : Via) (s : State) (c : _) (t : State) (sel : _) (trunc : _) (first : _), c = cmdOf 0x407 via s ∧ t = takenBy 0x407 via s ∧ cmdRuns 0x407 9
    .operate via s = true ∧ wd c.words 1 ≤ 0xFFFFF ∧ wd64 c.words 2 ≤ wd64 c.words 4 ∧ wd c.words 6 ≤ 511 ∧ s.sent.replays.length < 4 ∧ wd c.words 1 /
    64 = sysAddr s ∧ lsEnable (s.sent.listeners.getD (wd c.words 1 % 64) []) = true ∧ sel = replaySelect s (wd64 c.words 2) (wd64 c.words 4) (wd
    c.words 6 % 256) (if natBit (wd c.words 6) 8 then some (wd64 c.words 7) else none) ∧ sel ≠ [] ∧ trunc =
    (match s.sent.history.head? with | some b => decide (0 < b.seq) && (if b.ep == wd c.words 6 % 256 then decide (wd64 c.words 2 < b.time) else epochNewer b.ep (wd c.words 6 % 256)) | none => false)
    ∧ first = (if trunc then (s.sent.history.head?.bind fun b => b.recs.head?.map (recTime b)).getD 0 else (sel.head?.map (·.1)).getD 0)) :=
  ⟨⟨_, tGot (tIn ftBulk 1 [0]) tRun, some_of (by decide +kernel), by decide +kernel⟩,
    ⟨_, { src := 1, xid := 0, total := 10, got := [], data := [], bad := false }, (tGot (tIn ftBulk 1 (List.replicate 15 0 ++ [10])) tRun).onLane fun l =>
    { l with bulkIn := [{ src := 1, xid := 0, total := 10, got := [], data := [], bad := false }] }, _, some_of (by decide +kernel),
    by decide +kernel, by decide +kernel, (by decide +kernel), by decide +kernel, rfl⟩,
    ⟨_, tOutX .push 7, (tGot (tIn ftControl 1 (0x15 :: List.replicate 15 0)) tRun).onLane fun l => { l with bulkOut := [tOutX .push 7] }, some_of
    (by decide +kernel), by decide +kernel⟩,
    ⟨0, tOutX .push 7, tRun.onLane fun l => { l with bulkOut := [tOutX .push 7] }, by decide +kernel⟩,
    ⟨0, tOutX .push 7, 1, tAt 2000000000 ((tTwo tRun).onLane fun l => { l with bulkOut := [tOutX .push 7] }), by decide +kernel⟩,
    ⟨.manger 0, tAsk 0xB06 [1, tP, 4, tP] (tTwo tRun), _, _, _, rfl, rfl, rfl, by decide +kernel⟩,
    ⟨.manger 0, tAsk 0x407 [63, 0, 0, 0, 0, 0, 0, 0] (((tList 63 [0xB0000000, 0] tRun)).onSent fun t =>
    { t with history := [{ time := 0, ep := 0, seq := 0, unsynced := false, recs := [tSent] }] }), _, _, _, _, _, rfl, rfl, by decide +kernel,
    by decide +kernel, (by decide +kernel), by decide +kernel, by decide +kernel, (by decide +kernel), by decide +kernel, rfl, by decide +kernel, rfl,
    rfl⟩⟩

/-- States and operands that meet the hypotheses of Snapshots, clause by clause. -/
theorem witness_snapshots :
    (∃ (via : Via) (s : State) (c : _) (t : State), c = cmdOf 0x805 via s ∧ t = takenBy 0x805 via s ∧ cmdRuns 0x805 2 .operate via s = true ∧ wd c.words 1
    ≤ 1)
  ∧ (∃ (via : Via) (s : State) (c : _) (t : State), c = cmdOf 0x806 via s ∧ t = takenBy 0x806 via s ∧ cmdRuns 0x806 5 .operate via s = true ∧ wd c.words 3
    ≠ 0 ∧ wd c.words 4 ≤ 1 ∧ trainTime s + 2000000 ≤ wd64 c.words 1 ∧ wd64 c.words 1 ≤ trainTime s + 10000000000)
  ∧ (∃ (m : RxMsg) (s : State), firstMsg (isCtl 0x13) s = some m ∧ s.snap.pend = none ∧ trainTime s ≤ be m.payload 8 8)
  ∧ (∃ (r : _) (s : State), s.snap.pend = some r ∧ r.ts ≤ trainTime s)
  ∧ (∃ (via : Via) (s : State) (c : _) (t : State), c = cmdOf 0x808 via s ∧ t = takenBy 0x808 via s ∧ cmdRuns 0x808 4 .observe via s = true ∧ wd c.words 1
    ≤ 16383 ∧ wd c.words 1 = sysAddr s ∧ wd c.words 2 % 4 = 0 ∧ inParcels t (wd c.words 2) ((wordBytes s.snap.bank).take (wd c.words 3)).length = true
    ∧ reservedByOther t c (wd c.words 2) ((wordBytes s.snap.bank).take (wd c.words 3)).length = false)
  ∧ (∃ (via : Via) (s : State) (c : _) (t : State) (p : List Byte), c = cmdOf 0x808 via s ∧ t = takenBy 0x808 via s ∧ p = (wordBytes s.snap.bank).take (wd
    c.words 3) ∧ cmdRuns 0x808 4 .observe via s = true ∧ wd c.words 1 ≤ 16383 ∧ wd c.words 1 ≠ sysAddr s ∧ wd c.words 2 % 4 = 0 ∧ p ≠ [] ∧ p.length ≤
    bulkMax ∧ carKnown t (wd c.words 1) = true ∧ bulkCount t < 4)
  ∧ (∃ (via : Via) (s : State) (c : _), c = cmdOf 0xA03 via s ∧ cmdRuns 0xA03 1 .operate via s = true) :=
  ⟨⟨.manger 0, tAsk 0x805 [1] tRun, _, _, rfl, rfl, by decide +kernel⟩,
    ⟨.manger 0, tAsk 0x806 [2000000, 0, 1, 1] tRun, _, _, rfl, rfl, by decide +kernel⟩,
    ⟨_, tGot (tIn ftControl 1 (0x13 :: List.replicate 23 0)) tRun, some_of (by decide +kernel), by decide +kernel⟩,
    ⟨{ ts := 0, sid := 1, clear := false, ctx := none }, tRun.onSnap fun n => { n with pend := some { ts := 0, sid := 1, clear := false, ctx := none } },
    by decide +kernel⟩,
    ⟨.manger 0, tAsk 0x808 [0, tP, 64] (tRun.onSnap fun n => { n with bank := List.replicate 16 0 }), _, _, rfl, rfl, by decide +kernel⟩,
    ⟨.manger 0, tAsk 0x808 [1, tP, 64] (tTwo (tRun.onSnap fun n => { n with bank := List.replicate 16 0 })), _, _, _, rfl, rfl, rfl, by decide +kernel⟩,
    ⟨.manger 0, tAsk 0xA03 [] tRun, _, rfl, by decide +kernel⟩⟩

/-- States and operands that meet the hypotheses of FieldLink, clause by clause. -/
theorem witness_fieldLink :
    (∃ (s : State), fieldPowered s = true)
  ∧ (∃ (k : LinkCrc) (s : State), fieldPowered s = true ∧ s.fld.txIdx = 0 ∧ s.fld.stateStop = false ∧ k.toField = false)
  ∧ (∃ (k : LinkCrc) (s : State), fieldPowered s = true ∧ s.fld.txIdx = 0 ∧ s.fld.stateStop = false ∧ k.toField = true ∧ s.fld.hbLost = false)
  ∧ (∃ (k : LinkCrc) (s : State), fieldPowered s = true ∧ s.fld.txIdx ≠ 0 ∧ k.toField = false)
  ∧ (∃ (k : LinkCrc) (s : State), fieldPowered s = true ∧ s.fld.txIdx ≠ 0 ∧ k.toField = true)
  ∧ (∃ (k : LinkCrc) (s : State), fieldPowered s = true ∧ s.fld.txIdx ≠ 0 ∧ k.toField = true ∧ s.fld.cmds = [] ∧ k.toLogic = false)
  ∧ (∃ (k : LinkCrc) (s : State), fieldPowered s = true ∧ s.fld.txIdx ≠ 0 ∧ k.toField = true ∧ s.fld.cmds = [] ∧ k.toLogic = true ∧ s.fld.rxIdx ≠ 0)
  ∧ (∃ (k : LinkCrc) (s : State), fieldPowered s = true ∧ s.fld.txIdx ≠ 0 ∧ k.toField = true ∧ s.fld.cmds = [] ∧ k.toLogic = true ∧ s.fld.rxIdx = 0 ∧
    s.fld.linkError = false)
  ∧ (∃ (s : State), fieldPowered s = true ∧ s.fld.linkError = false ∧ s.fld.lastField + 30000 ≤ s.clk.c)
  ∧ (∃ (s : State), takesMsgs s = true)
  ∧ (∃ (s : State), fieldPowered s = true ∧ s.fld.confirmAt + 2000000 ≤ s.clk.c)
  ∧ (∃ (s : State), fieldPowered s = true ∧ s.fld.hbLost = false ∧ s.fld.lastState + hbTimeout s ≤ s.clk.c)
  ∧ (∃ (n : _) (level : _) (s : State), (chanOf s n).runLevel ≠ level ∧ (chanOf s n).runStart < sampleAt s.clk.c ∧ (chanOf s n).runStart + chDebounce s n
    ≤ sampleAt s.clk.c)
  ∧ (∃ (n : _) (level : _) (s : State), (chanOf s n).runLevel ≠ level ∧ (chanOf s n).runStart < sampleAt s.clk.c ∧ sampleAt s.clk.c < (chanOf s
    n).runStart + chDebounce s n ∧ fieldPowered s = true ∧ chIsIn s n = true ∧ (grpOf s (n / 8)).under = false ∧ (chanOf s n).known = true ∧ (chanOf s
    n).level ≠ (chanOf s n).runLevel)
  ∧ (∃ (n : _) (s : State), fieldPowered s = true ∧ chIsIn s n = true ∧ chIsOut s n = false ∧ (grpOf s (n / 8)).under = false ∧ (chanOf s n).known = true
    ∧ (chanOf s n).runStart + chDebounce s n ≤ s.clk.c ∧ (chanOf s n).runLevel ≠ (chanOf s n).level ∧ s.fld.edges.length < 256)
  ∧ (∃ (e : _) (r : _) (s : State), s.fld.arrived = e :: r ∧ e.starting = true)
  ∧ (∃ (e : _) (r : _) (s : State), s.fld.arrived = e :: r ∧ e.starting = false ∧ e.level = true ∧ bit (chRec s e.ch) 1 31 = true ∧ (∀ w ∈ s.fld.ruleRec,
    natBit w.toNat 31 = false)) :=
  ⟨⟨tRun, by decide +kernel⟩,
    ⟨⟨false, true⟩, tRun, by decide +kernel⟩,
    ⟨⟨true, true⟩, tRun, by decide +kernel⟩,
    ⟨⟨false, true⟩, tRun.onFld fun d => { d with txIdx := 1 }, by decide +kernel⟩,
    ⟨⟨true, true⟩, tRun.onFld fun d => { d with txIdx := 1 }, by decide +kernel⟩,
    ⟨⟨true, false⟩, tRun.onFld fun d => { d with txIdx := 1 }, by decide +kernel⟩,
    ⟨⟨true, true⟩, tRun.onFld fun d => { d with txIdx := 1, rxIdx := 1 }, by decide +kernel⟩,
    ⟨⟨true, true⟩, tRun.onFld fun d => { d with txIdx := 1 }, by decide +kernel⟩,
    ⟨tAt 30000 tRun, by decide +kernel⟩,
    ⟨tRun, by decide +kernel⟩,
    ⟨tAt 2000000 tRun, by decide +kernel⟩,
    ⟨tAt 10000000 tRun, by decide +kernel⟩,
    ⟨31, true, tAt 149 tRun, by decide +kernel⟩,
    ⟨31, true, tAt 149 (tCh 0x40000001 0 (fun y => { y with known := true, level := true }) tRun), by decide +kernel⟩,
    ⟨31, tCh 0x40000000 0 (fun y => { y with known := true, level := true }) tRun, by decide +kernel⟩,
    ⟨{ ch := 31, level := true, starting := true, at_ := 0, overrun := false }, [], tRun.onFld fun d =>
    { d with arrived := [{ ch := 31, level := true, starting := true, at_ := 0, overrun := false }] }, by decide +kernel⟩,
    ⟨{ ch := 31, level := true, starting := false, at_ := 0, overrun := false }, [], (tCh 0x40000000 0x80000000 id tRun).onFld fun d =>
    { d with arrived := [{ ch := 31, level := true, starting := false, at_ := 0, overrun := false }] }, by decide +kernel, by decide +kernel,
    (by decide +kernel), by decide +kernel, fun w h => by have e := List.eq_of_mem_replicate (n := 32) (a := (0 : Word)) h; subst e; rfl⟩⟩

/-- States and operands that meet the hypotheses of OutputFaults, clause by clause. -/
theorem witness_outputFaults :
    (∃ (n : _) (since : Option Nat) (s : State), fieldPowered s = true ∧ chIsOut s n = true ∧ (chanOf s n).drive = true ∧ (∀ k, since = some k → max k
    (chanOf s n).onSince + chLimit s n ≤ s.clk.c) ∧ (chRetryMax s n = 15 ∨ (chanOf s n).retry < chRetryMax s n))
  ∧ (∃ (n : _) (since : Option Nat) (s : State), fieldPowered s = true ∧ chIsOut s n = true ∧ (chanOf s n).drive = true ∧ chRetryMax s n ≠ 15 ∧ (∀ k,
    since = some k → max k (chanOf s n).onSince + chLimit s n ≤ s.clk.c) ∧ chRetryMax s n ≤ (chanOf s n).retry)
  ∧ (∃ (n : _) (s : State), fieldPowered s = true ∧ (chanOf s n).short = true ∧ (chanOf s n).offAt + 100000000 ≤ s.clk.c)
  ∧ (∃ (n : _) (s : State), fieldPowered s = true ∧ (chanOf s n).drive = true ∧ (chanOf s n).retry ≠ 0 ∧ (chanOf s n).onSince + 100000000 ≤ s.clk.c)
  ∧ (∃ (g : _) (n : _) (s : State), fieldPowered s = true ∧ (∀ k, s.fld.modShed = some k → k + 10000000 ≤ s.clk.c) ∧ ((List.range 8).map fun i => 8 * g +
    7 - i).find? (fun n => chIsOut s n && (chanOf s n).drive) = some n)
  ∧ (∃ (g : _) (n : _) (s : State), fieldPowered s = true ∧ (∀ k, (grpOf s g).shedAt = some k → k + 10000000 ≤ s.clk.c) ∧ ((List.range 8).map fun i => 8 *
    g + 7 - i).find? (fun n => chIsOut s n && (chanOf s n).drive) = some n)
  ∧ (∃ (n : _) (lim : _) (s : State), fieldPowered s = true ∧ chIsOut s n = true ∧ (grpOf s (n / 8)).suppress = false ∧ (chanOf s n).drive = true ∧ lim =
    false ∧ (chanOf s n).runLevel = false ∧ cmpSince s n + chDebounce s n < s.clk.c)
  ∧ (∃ (n : _) (s : State), fieldPowered s = true ∧ chIsOut s n = true ∧ (grpOf s (n / 8)).suppress = false ∧ (chanOf s n).drive = false ∧ (chanOf s
    n).runLevel = true ∧ cmpSince s n + chDebounce s n < s.clk.c ∧ (chanOf s n).backfeed = false ∧ backfeedExempt s n = false)
  ∧ (∃ (n : _) (s : State), fieldPowered s = true ∧ (chanOf s n).backfeed = true ∧ (grpOf s (n / 8)).suppress = false ∧ (chanOf s n).runLevel = (chanOf s
    n).drive ∧ testExempt s n = false ∧ cmpSince s n + chDebounce s n ≤ s.clk.c)
  ∧ (∃ (n : _) (s : State), fieldPowered s = true ∧ chIsOut s n = true ∧ bit (chRec s n) 0 21 = true ∧ (chanOf s n).drive = false ∧ (chanOf s n).testing =
    false ∧ (grpOf s (n / 8)).suppress = false ∧ (chanOf s n).runLevel = false ∧ sampleAt s.clk.c % 100000000 = 0)
  ∧ (∃ (n : _) (s : State), fieldPowered s = true ∧ (chanOf s n).testing = true ∧ (chanOf s n).testAt + 1000000 ≤ s.clk.c ∧ (chanOf s n).drive = false ∧
    (grpOf s (n / 8)).suppress = false ∧ (chanOf s n).openLoad = false)
  ∧ (∃ (n : _) (s : State), fieldPowered s = true ∧ (chanOf s n).testing = true ∧ (chanOf s n).testAt + 1000000 ≤ s.clk.c ∧ (chanOf s n).drive = false ∧
    (grpOf s (n / 8)).suppress = false ∧ (chanOf s n).openLoad = true)
  ∧ (∃ (n : _) (b : _) (s : State), fieldPowered s = true ∧ (chanOf s n).testing = true ∧ (chanOf s n).testAt + 1000000 ≤ s.clk.c ∧ (chanOf s n).drive =
    false ∧ (grpOf s (n / 8)).suppress = false ∧ (chanOf s n).openLoad = b)
  ∧ (∃ (n : _) (s : State), fieldPowered s = true ∧ (chanOf s n).testing = true ∧ (chanOf s n).testAt + 1000000 ≤ s.clk.c ∧ ((chanOf s n).drive = true ∨
    (grpOf s (n / 8)).suppress = true)) :=
  ⟨⟨31, none, tCh 0x80000000 0x3C000000 (fun y => { y with drive := true }) tRun, by decide +kernel, by decide +kernel, (by decide +kernel), (fun _ h =>
    nomatch h), by decide +kernel⟩,
    ⟨31, none, tCh 0x80000000 0 (fun y => { y with drive := true }) tRun, by decide +kernel, by decide +kernel, (by decide +kernel), by decide +kernel,
    (fun _ h => nomatch h), by decide +kernel⟩,
    ⟨31, tAt 100000000 (tCh 0x80000000 0 (fun y => { y with short := true }) tRun), by decide +kernel⟩,
    ⟨31, tAt 100000000 (tCh 0x80000000 0 (fun y => { y with drive := true, retry := 1 }) tRun), by decide +kernel⟩,
    ⟨3, 31, tCh 0x80000000 0 (fun y => { y with drive := true }) tRun, by decide +kernel⟩,
    ⟨3, 31, tCh 0x80000000 0 (fun y => { y with drive := true }) tRun, by decide +kernel⟩,
    ⟨31, _, tAt 1 (tCh 0x80000000 0 (fun y => { y with drive := true }) tRun), by decide +kernel, by decide +kernel, (by decide +kernel),
    by decide +kernel, rfl, by decide +kernel⟩,
    ⟨31, tAt 1 (tCh 0x80000000 0 (fun y => { y with runLevel := true }) tRun), by decide +kernel⟩,
    ⟨31, tCh 0x80000000 0 (fun y => { y with backfeed := true }) tRun, by decide +kernel⟩,
    ⟨31, tAt 100000049 (tCh 0x80200000 0 id tRun), by decide +kernel⟩,
    ⟨31, tAt 1000000 (tCh 0x80200000 0 (fun y => { y with testing := true }) tRun), by decide +kernel⟩,
    ⟨31, tAt 1000000 (tCh 0x80200000 0 (fun y => { y with testing := true, openLoad := true }) tRun), by decide +kernel⟩,
    ⟨31, false, tAt 1000000 (tCh 0x80200000 0 (fun y => { y with testing := true }) tRun), by decide +kernel⟩,
    ⟨31, tAt 1000000 (tCh 0x80200000 0 (fun y => { y with testing := true, drive := true }) tRun), by decide +kernel, by decide +kernel,
    (by decide +kernel), Or.inl (by decide +kernel)⟩⟩

/-- States and operands that meet the hypotheses of GroupEvents, clause by clause. -/
theorem witness_groupEvents :
    (∃ (g : _) (v : SupplyObs) (s : State) (s0 : State) (away : _), 50000 ≤ v.held ∧ away = (decide (v.mv < 12000) || decide (35000 < v.mv) || ((grpOf s
    g).under && (grpOf s g).ov && decide (32000 ≤ v.mv))) ∧ s0 = when' ((grpOf s g).under && !away) (runsRestart g) (modGrp g (fun y =>
    { y with vfield := v.mv, under := away, above := if 15500 < v.mv then some (y.above.getD (s.clk.c - v.held)) else none, inRange := if decide (18000 < v.mv) && (!(grpOf s g).ov || decide (v.mv < 32000)) then some (y.inRange.getD (s.clk.c - v.held)) else none })
    s) ∧ fieldPowered s = true ∧ (grpOf s g).suppress = decide (v.mv < 15000))
  ∧ (∃ (g : _) (v : SupplyObs) (s : State), v.held < 20000 ∧ fieldPowered s = true ∧ (grpOf s g).suppress = false)
  ∧ (∃ (g : _) (v : SupplyObs) (s : State) (c : _), s.clk.c = c ∧ fieldPowered s = true ∧ (grpOf s g).suppress = true ∧ (grpOf s g).warn = false ∧ (grpOf
    s g).under = false ∧ 19600 < v.mv ∧ v.mv ≤ 35000 ∧ 50000 ≤ v.held ∧ c ≤ (grpOf s g).above.getD (c - v.held) + 9999999)
  ∧ (∃ (g : _) (s : State), fieldPowered s = true ∧ grpRearm s g = false ∧ restoreOk s g = true ∧ (grpOf s g).uv = true)
  ∧ (∃ t, t ≤ 1250)
  ∧ (∃ (t : _) (s : State), 1250 < t ∧ s.fld.fieldHot = false ∧ fieldPowered s = true)
  ∧ (∃ (g : _) (s : State), leaseGone s g = true)
  ∧ (∃ (g : _) (s : State), (grpOf s g).owner ≠ .none ∧ (grpOf s g).lease = 0)
  ∧ (∃ (x : _) (s : State) (t : _), s.fld.timed.find? (fun x => x.ep != s.clk.tepoch || decide (x.at_ ≤ trainTime s)) = some x ∧ t = ((s.onFld fun d =>
    { d with timed := d.timed.filter fun y => y.slot != x.slot }).onPlan fun p =>
    { p with strobes := p.strobes.filter fun y => y.for_ != .timed x.slot })) :=
  ⟨⟨3, ⟨15000, 50000⟩, tRun, _, _, by decide +kernel, rfl, rfl, by decide +kernel⟩,
    ⟨3, ⟨0, 19999⟩, tRun, by decide +kernel⟩,
    ⟨3, ⟨35000, 50000⟩, modGrp 3 (fun y => { y with suppress := true }) tRun, 0, by decide +kernel⟩,
    ⟨3, tAt 100000000 (modGrp 3 (fun y => { y with uv := true, inRange := some 0 }) tRun), by decide +kernel⟩,
    ⟨1250, by decide +kernel⟩,
    ⟨1251, tRun, by decide +kernel⟩,
    ⟨3, tAt 1000 ((modGrp 3 (fun y => { y with owner := .host 1 1, lease := 0 }) (tOwn tRun)).onFld fun d =>
    { d with leaseAt := some 0, groupRec := [0, 0, 0, 1] }), by decide +kernel⟩,
    ⟨3, modGrp 3 (fun y => { y with owner := .firmware }) tRun, by decide +kernel⟩,
    ⟨tTimed, tRun.onFld fun d => { d with timed := [tTimed] }, _, by decide +kernel, rfl⟩⟩

/-- States and operands that meet the hypotheses of FieldCommands, clause by clause. -/
theorem witness_fieldCommands :
    (∃ (via : Via) (s : State) (c : _), c = cmdOf 0x606 via s ∧ cmdRuns 0x606 2 .operate via s = true ∧ natBits (wd c.words 1) 15 3 = 0)
  ∧ (∃ (via : Via) (s : State) (c : _), c = cmdOf 0x607 via s ∧ cmdRuns 0x607 2 .operate via s = true ∧ natBits (wd c.words 1) 15 2 = 0 ∧ ownsGen c
    (natBits (wd c.words 1) 1 0) (natBits (wd c.words 1) 31 16) s = true)
  ∧ (∃ (g : _) (gen : _) (s : State), (grpOf s g).gen = gen)
  ∧ (∃ (g : _) (gen : _) (s : State), (grpOf s g).gen = gen)
  ∧ (∃ (g : _) (gen : _) (s : State), (grpOf s g).gen ≠ gen)
  ∧ (∃ (g : _) (gen : _) (s : State), (grpOf s g).gen ≠ gen)
  ∧ (∃ (via : Via) (s : State) (c : _), c = cmdOf 0x608 via s ∧ cmdRuns 0x608 3 .operate via s = true ∧ wd c.words 2 ≤ 3 ∧ (grpOf s (wd c.words 2)).owner
    ≠ .none ∧ ownsGen c (wd c.words 2) (natBits (wd c.words 1) 31 16) s = true)
  ∧ (∃ (via : Via) (s : State) (c : _) (g : _) (k : _), c = cmdOf 0x609 via s ∧ g = natBits (wd c.words 2) 1 0 ∧ cmdRuns 0x609 5 .operate via s = true ∧
    natBits (wd c.words 2) 7 2 = 0 ∧ natBits (wd c.words 2) 31 16 = 0 ∧ natBits (wd c.words 2) 15 8 = s.clk.tepoch ∧ (grpOf s g).owner ≠ .none ∧
    ownsGen c g (natBits (wd c.words 1) 31 16) s = true ∧ (List.range 4).find? (fun k => !(s.fld.timed.any fun x => x.slot == k)) = some k ∧ trainTime
    s + 15000 ≤ wd64 c.words 3)
  ∧ (∃ (via : Via) (s : State) (c : _) (g : _), c = cmdOf 0x60A via s ∧ g = natBits (wd c.words 1) 1 0 ∧ cmdRuns 0x60A 2 .operate via s = true ∧ natBits
    (wd c.words 1) 7 2 = 0 ∧ ownsGen c g (natBits (wd c.words 1) 31 16) s = true)
  ∧ (∃ (g : _) (gen : _) (s : State), (grpOf s g).gen = gen)
  ∧ (∃ (via : Via) (s : State) (c : _) (g : _), c = cmdOf 0x60B via s ∧ g = natBits (wd c.words 1) 1 0 ∧ cmdRuns 0x60B 2 .operate via s = true ∧ natBits
    (wd c.words 1) 15 2 = 0 ∧ ownsGen c g (natBits (wd c.words 1) 31 16) s = true)
  ∧ (∃ (g : _) (gen : _) (s : State), (grpOf s g).gen = gen ∧ restoreOk s g = true)
  ∧ (∃ (g : _) (gen : _) (s : State), (grpOf s g).gen = gen ∧ restoreOk s g = false)
  ∧ (∃ (via : Via) (s : State) (c : _), c = cmdOf 0x605 via s ∧ cmdRuns 0x605 3 .observe via s = true ∧ parcelOk 1 c (takenBy 0x605 via s) = true ∧ 208 ≤
    wd c.words 2)
  ∧ (∃ (via : Via) (s : State) (c : _), c = cmdOf 0x601 via s ∧ cmdRuns 0x601 2 .config via s = true ∧ fieldModCheck s.fld.chanRec (c.words.getD 1 0) =
    none)
  ∧ (∃ (via : Via) (s : State) (c : _), c = cmdOf 0x602 via s ∧ cmdRuns 0x602 3 .config via s = true ∧ wd c.words 1 ≤ 3 ∧ fieldGrpCheck s.fld.chanRec (wd
    c.words 1) (c.words.getD 2 0) = none)
  ∧ (∃ (via : Via) (s : State) (c : _) (n : _) (r : _), c = cmdOf 0x603 via s ∧ n = wd c.words 1 ∧ r = (c.words.drop 2).take 2 ∧ cmdRuns 0x603 4 .config
    via s = true ∧ n ≤ 31 ∧ fieldChanCheck s.fld.module s.fld.groupRec (s.fld.chanRec.set n r) n r = none ∧ (fcFixed r = fcFixed (chRec s n) ∨
    s.sys.dev = .stopped))
  ∧ (∃ (via : Via) (s : State) (c : _) (n : _) (r : _), c = cmdOf 0x603 via s ∧ n = wd c.words 1 ∧ r = (c.words.drop 2).take 2 ∧ cmdRuns 0x603 4 .config
    via s = true ∧ n ≤ 31 ∧ fieldChanCheck s.fld.module s.fld.groupRec (s.fld.chanRec.set n r) n r = none ∧ fcFixed r ≠ fcFixed (chRec s n) ∧
    s.sys.dev ≠ .stopped)
  ∧ (∃ (via : Via) (s : State) (c : _), c = cmdOf 0x604 via s ∧ cmdRuns 0x604 3 .config via s = true ∧ wd c.words 1 ≤ 31 ∧ fieldRuleCheck s.fld.groupRec
    s.fld.chanRec s.fld.ruleRec (wd c.words 1) (c.words.getD 2 0) = none) :=
  ⟨⟨.manger 0, tAsk 0x606 [0xFFFF0007] tRun, _, rfl, by decide +kernel⟩,
    ⟨.manger 0, tAsk 0x607 [0x30003] (tOwn tRun), _, rfl, by decide +kernel⟩,
    ⟨3, 3, tOwn tRun, by decide +kernel⟩,
    ⟨3, 3, tOwn tRun, by decide +kernel⟩,
    ⟨3, 4, tOwn tRun, by decide +kernel⟩,
    ⟨3, 4, tOwn tRun, by decide +kernel⟩,
    ⟨.manger 0, tAsk 0x608 [0x30000, 3] (tOwn tRun), _, rfl, by decide +kernel⟩,
    ⟨.manger 0, tAsk 0x609 [0x30000, 3, 15000, 0] (tOwn tRun), _, _, 0, rfl, rfl, by decide +kernel⟩,
    ⟨.manger 0, tAsk 0x60A [0x30003] (tOwn tRun), _, _, rfl, rfl, by decide +kernel⟩,
    ⟨3, 3, tOwn tRun, by decide +kernel⟩,
    ⟨.manger 0, tAsk 0x60B [0x30003] (tOwn tRun), _, _, rfl, rfl, by decide +kernel⟩,
    ⟨3, 3, tAt 100000000 (tOwn tRun), by decide +kernel⟩,
    ⟨3, 3, tAt 99999999 (tOwn tRun), by decide +kernel⟩,
    ⟨.manger 0, tAsk 0x605 [tP, 208] tRun, _, rfl, by decide +kernel⟩,
    ⟨.manger 0, tEnv 0x601 [0] tRun, _, rfl, by decide +kernel⟩,
    ⟨.manger 0, tEnv 0x602 [3, 0] tRun, _, rfl, by decide +kernel⟩,
    ⟨.manger 0, tEnv 0x603 [31, 0x40000001, 0] tStop, _, _, _, rfl, rfl, rfl, by decide +kernel⟩,
    ⟨.manger 0, tEnv 0x603 [31, 0x40000001, 0] tRun, _, _, _, rfl, rfl, rfl, by decide +kernel⟩,
    ⟨.manger 0, tEnv 0x604 [31, 0] tRun, _, rfl, by decide +kernel⟩⟩

/-- States and operands that meet the hypotheses of KeyRotation, clause by clause. -/
theorem witness_keyRotation :
    (∃ (s : State), s.sys.dev ≠ .off ∧ s.sys.dev ≠ .reset ∧ s.sys.dev ≠ .barn)
  ∧ (∃ (s : State), isLead s = true ∧ s.sec.rot = none ∧ s.sec.rotWait = false ∧ s.sec.switchAt + pKeyLife s ≤ trainTime s)
  ∧ (∃ (r : _) (b : _) (s : State), s.sec.rot = some r ∧ r.blocks.find? (fun b => !b.wrapped) = some b ∧ rsaTurn .rekeyWrap s = true)
  ∧ (∃ (s : State), wrapWaits s = true ∧ s.sec.runPub = .idle ∧ s.sec.wrapAhead = 0)
  ∧ (∃ (adm : _) (r : _) (b : _) (t : _) (s : State), s.sec.rot = some r ∧ r.blocks.find? (fun b => b.adm == adm) = some b ∧ b.sentAt = some t ∧ b.wrapped
    = true ∧ b.acked = false ∧ b.resent < 2 ∧ t + 20000000 ≤ trainTime s ∧ matrixReached s r.switchM = false ∧ 5000000 ≤ matrixAhead s r.switchM)
  ∧ (∃ (adm : _) (r : _) (b : _) (s : State), s.sec.rot = some r ∧ r.blocks.find? (fun b => b.adm == adm) = some b ∧ (b.acked = true ∨ 2 ≤ b.resent ∨
    matrixReached s r.switchM = true ∨ matrixAhead s r.switchM < 5000000))
  ∧ (∃ (m : RxMsg) (r : _) (s : State), firstMsg (isCtl 0x12) s = some m ∧ s.sec.rot = some r ∧ isLead s = true ∧ be m.payload 8 4 = r.rid ∧ r.blocks.any
    (fun b => b.adm == m.hdr.adm) = true)
  ∧ (∃ (m : RxMsg) (u : Installed) (s : State), firstMsg (isCtl 0x11) s = some m ∧ isLead s = false ∧ s.sec.keys ≠ [] ∧ fromLead m s = true ∧ (∀ i,
    s.sec.inst = some i → ¬(i.rid = be m.payload 8 4 ∧ i.epoch = be m.payload 12 1 % 16 ∧ i.switchM = be m.payload 16 4)) ∧ u =
    { rid := be m.payload 8 4, epoch := be m.payload 12 1 % 16, switchM := be m.payload 16 4, key := Config.unwrapKey s.sec.idKey (part m.payload 20 384) })
  ∧ (∃ (u : Installed) (i : _) (s : State), s.inaug.guest ≠ .done ∧ u ∉ s.sec.unwrap ∧ s.sec.inst = some i)
  ∧ (∃ (u : Installed) (s : State), s.inaug.guest ≠ .done ∧ u ∉ s.sec.unwrap ∧ s.sec.inst = none)
  ∧ (∃ (u : Installed) (s : State), s.inaug.guest = .done ∧ u ∉ s.sec.unwrap ∧ s.sec.unwrap.length < 16)
  ∧ (∃ (m : RxMsg) (i : _) (s : State), firstMsg (isCtl 0x11) s = some m ∧ isLead s = false ∧ s.sec.keys ≠ [] ∧ fromLead m s = true ∧ s.sec.inst = some i
    ∧ i.rid = be m.payload 8 4 ∧ i.epoch = be m.payload 12 1 % 16 ∧ i.switchM = be m.payload 16 4)
  ∧ (∃ (u : Installed) (i : _) (r : _) (s : State), s.sec.unwrap = u :: r ∧ i = { u with key := u.key / 2 ^ 64 % 2 ^ 256 } ∧ u.key = rekeyPlain u.epoch
    i.key u.rid u.switchM ∧ u.epoch ≠ s.sec.cur ∧ rsaTurn .rekeyOpen s = true)
  ∧ (∃ (u : Installed) (r : _) (s : State), s.sec.unwrap = u :: r ∧ rsaTurn .rekeyOpen s = true ∧ (u.key ≠ rekeyPlain u.epoch (u.key / 2 ^ 64 % 2 ^ 256)
    u.rid u.switchM ∨ u.epoch = s.sec.cur))
  ∧ (∃ (s : State), s.inaug.guest ≠ .unwrapping ∧ s.sec.unwrap ≠ [] ∧ s.sec.runPriv = .idle)
  ∧ (∃ (i : _) (s : State), s.sec.oldKey = none ∧ s.sec.inst = some i ∧ matrixReached s i.switchM = true ∧ isLead s = false)
  ∧ (∃ (i : _) (r : _) (s : State), s.sec.oldKey = none ∧ s.sec.inst = some i ∧ matrixReached s i.switchM = true ∧ isLead s = true ∧ s.sec.rot = some r)
  ∧ (∃ (u : Installed) (r : _) (s : State), s.sec.oldKey = none ∧ s.sec.inst = none ∧ s.sec.unwrap = u :: r ∧ matrixReached s u.switchM = true)
  ∧ (∃ (e : _) (s : State), s.sec.oldKey = some e ∧ s.sec.switchAt + 1000000 ≤ trainTime s)
  ∧ (∃ (via : Via) (s : State) (c : _), c = cmdOf 0x706 via s ∧ cmdRuns 0x706 1 .config via s = true ∧ isLead s = true ∧ s.sec.keys ≠ [])
  ∧ (∃ (s : State), isLead s = true ∧ s.sec.keys ≠ [] ∧ s.sec.oldKey = none ∧ s.sec.entropyOk = true ∧ s.sec.rot = none) :=
  ⟨⟨tRun, by decide +kernel⟩,
    ⟨tRole .lead tRun, by decide +kernel⟩,
    ⟨tRot false, { adm := 2, guest := false, wrapped := false, acked := false, sentAt := some 0, resent := 0 }, tRun.onSec fun x =>
    { x with rot := some (tRot false) }, by decide +kernel⟩,
    ⟨tRun.onSec fun x => { x with rot := some (tRot false) }, by decide +kernel⟩,
    ⟨2, tRot true, { adm := 2, guest := false, wrapped := true, acked := false, sentAt := some 0, resent := 0 }, 0, tAt 20000000 ((tNet .lead 0 0).onSec
    fun x => { x with rot := some (tRot true) }), by decide +kernel⟩,
    ⟨2, { tRot true with blocks := [{ adm := 2, guest := false, wrapped := true, acked := true, sentAt := some 0, resent := 0 }] },
    { adm := 2, guest := false, wrapped := true, acked := true, sentAt := some 0, resent := 0 }, (tNet .lead 0 0).onSec fun x =>
    { x with rot := some { tRot true with blocks := [{ adm := 2, guest := false, wrapped := true, acked := true, sentAt := some 0, resent := 0 }] } },
    by decide +kernel, by decide +kernel, Or.inl rfl⟩,
    ⟨_, tRot true, (tGot (tIn ftControl 2 (0x12 :: List.replicate 11 0)) (tRole .lead tRun)).onSec fun x => { x with rot := some (tRot true) }, some_of
    (by decide +kernel), by decide +kernel⟩,
    ⟨_, _, tGot (tIn ftControl 0 [0x11]) (tKey tRun), some_of (by decide +kernel), by decide +kernel, by decide +kernel, (by decide +kernel), (fun _ h =>
    nomatch (show (none : Option Installed) = some _ from h)), rfl⟩,
    ⟨{ rid := 1, epoch := 1, switchM := 0, key := 5 }, { rid := 2, epoch := 1, switchM := 0, key := 5 }, (tNet .member 0 0).onSec fun x =>
    { x with inst := some { rid := 2, epoch := 1, switchM := 0, key := 5 } }, by decide +kernel⟩,
    ⟨{ rid := 1, epoch := 1, switchM := 0, key := 5 }, tNet .member 0 0, by decide +kernel⟩,
    ⟨{ rid := 1, epoch := 1, switchM := 0, key := 5 }, tRun.onInaug fun x => { x with guest := .done }, by decide +kernel⟩,
    ⟨_, { rid := 0, epoch := 0, switchM := 0, key := 5 }, (tGot (tIn ftControl 0 (0x11 :: List.replicate 19 0)) (tKey tRun)).onSec fun x =>
    { x with inst := some { rid := 0, epoch := 0, switchM := 0, key := 5 } }, some_of (by decide +kernel), by decide +kernel⟩,
    ⟨{ rid := 1, epoch := 1, switchM := 0, key := rekeyPlain 1 5 1 0 }, _, [], tRun.onSec fun x =>
    { x with unwrap := [{ rid := 1, epoch := 1, switchM := 0, key := rekeyPlain 1 5 1 0 }] }, by decide +kernel, rfl, by decide +kernel⟩,
    ⟨{ rid := 1, epoch := 1, switchM := 0, key := 0 }, [], tRun.onSec fun x => { x with unwrap := [{ rid := 1, epoch := 1, switchM := 0, key := 0 }] },
    by decide +kernel⟩,
    ⟨tRun.onSec fun x => { x with unwrap := [{ rid := 1, epoch := 1, switchM := 0, key := 5 }] }, by decide +kernel⟩,
    ⟨{ rid := 1, epoch := 1, switchM := 0, key := 5 }, (tNet .member 0 0).onSec fun x =>
    { x with inst := some { rid := 1, epoch := 1, switchM := 0, key := 5 } }, by decide +kernel⟩,
    ⟨{ rid := 1, epoch := 1, switchM := 0, key := 5 }, tRot true, (tNet .lead 0 0).onSec fun x =>
    { x with rot := some (tRot true), inst := some { rid := 1, epoch := 1, switchM := 0, key := 5 } }, by decide +kernel⟩,
    ⟨{ rid := 1, epoch := 1, switchM := 0, key := 5 }, [], (tNet .member 0 0).onSec fun x =>
    { x with unwrap := [{ rid := 1, epoch := 1, switchM := 0, key := 5 }] }, by decide +kernel⟩,
    ⟨1, tAt 1000000 (tRun.onSec fun x => { x with oldKey := some 1 }), by decide +kernel⟩,
    ⟨.manger 0, tEnv 0x706 [] (tKey (tRole .lead tRun)), _, rfl, by decide +kernel⟩,
    ⟨tEntropy (tKey (tRole .lead tRun)), by decide +kernel⟩⟩

/-- States and operands that meet the hypotheses of Challenges, clause by clause. -/
theorem witness_challenges :
    (∃ (t : _) (s : State), s.sec.lockout = some t ∧ t ≤ s.clk.c)
  ∧ (∃ (via : Via) (s : State) (c : Ctx), c = cmdOf 0x005 via s ∧ cmdRuns 0x005 1 .observe via s = true ∧ s.sec.entropyOk = true ∧ s.sec.lockout = none ∧
    (∀ k, c.via = .yard k → yardSecured s = true))
  ∧ (∃ (via : Via) (s : State) (c : _) (t : State) (u : _) (p : List Byte) (k : _), c = cmdOf 0x006 via s ∧ t = takenBy 0x006 via s ∧ u = (parcelRead 1 c
    t).2 ∧ p = parcelBytes 1 c t ∧ k = sessKey u c ∧ cmdRuns 0x006 4 .observe via s = true ∧ 0 < wd c.words 3 ∧ wd c.words 3 < p.length ∧ wd c.words 3
    < 65536 ∧ parcelOk 1 c t = true ∧ (parcelRead 1 c t).1 = true ∧ u.sec.lockout = none ∧ u.sec.operators.any (fun o => o.1 == shaNat (p.take (wd
    c.words 3)) && (match c.via with | .yard _ => o.2 && yardSecured u | .manger _ => true)) = true ∧ u.sec.operChal.any (fun y => y.session == k &&
    decide (u.clk.c < y.until_)) = true ∧ rsaWaiting false u < 16)
  ∧ (∃ (via : Via) (s : State) (c : _) (t : State), c = cmdOf 0x701 via s ∧ t = takenBy 0x701 via s ∧ cmdRuns 0x701 11 .observe via s = true ∧ parcelOk 9
    c t = true ∧ 538 ≤ wd c.words 10 ∧ rsaWaiting true t < 16)
  ∧ (∃ (via : Via) (s : State) (c : _) (t : State), c = cmdOf 0x702 via s ∧ t = takenBy 0x702 via s ∧ cmdRuns 0x702 4 .observe via s = true ∧ wd c.words 1
    = 0 ∧ s.sec.devCert ≠ [] ∧ parcelOk 2 c t = true ∧ s.sec.devCert.length ≤ wd c.words 3)
  ∧ (∃ (via : Via) (s : State) (c : _), c = cmdOf 0x70A via s ∧ cmdRuns 0x70A 1 .observe via s = true ∧ s.sec.entropyOk = true)
  ∧ (∃ (via : Via) (s : State) (c : _) (t : State) (u : _) (p : List Byte), c = cmdOf 0x70B via s ∧ t = takenBy 0x70B via s ∧ u = (parcelRead 1 c t).2 ∧ p
    = parcelBytes 1 c t ∧ cmdRuns 0x70B 3 .proof via s = true ∧ parcelOk 1 c t = true ∧ (parcelRead 1 c t).1 = true ∧ p.length = (if owned u then 816
    else 432) ∧ part p 0 4 = ascii [0x4B, 0x4E, 0x53, 0x56] ∧ le p 4 2 = 1 ∧ le p 6 2 < 8 ∧ le p 8 8 = u.sys.badge ∧ u.sec.svcChal.any (fun y =>
    y.nonce == be p 16 32 && decide (u.clk.c < y.until_)) = true ∧ rsaWaiting false u < 16)
  ∧ (∃ (via : Via) (s : State) (c : _) (t : State) (u : _) (p : List Byte), c = cmdOf 0x705 via s ∧ t = takenBy 0x705 via s ∧ u = (parcelRead 1 c t).2 ∧ p
    = parcelBytes 1 c t ∧ cmdRuns 0x705 3 .proof via s = true ∧ parcelOk 1 c t = true ∧ (parcelRead 1 c t).1 = true ∧ p.length = 508 ∧ owned u = true
    ∧ rsaWaiting false u < 16) :=
  ⟨⟨0, tRun.onSec fun x => { x with lockout := some 0 }, by decide +kernel⟩,
    ⟨.manger 0, tAsk 0x005 [] (tEntropy tRun), _, rfl, by decide +kernel, by decide +kernel, (by decide +kernel), fun _ h => nomatch (show Via.manger 0 =
    Via.yard _ from h)⟩,
    ⟨.manger 0, tAsk 0x006 [tP, 8, 4] (tRun.onSec fun x =>
    { x with operators := [(shaNat [0, 0, 0, 0], true)], operChal := [{ session := 1, nonce := 0, until_ := 1 }] }), _, _, _, _, _, rfl, rfl, rfl,
    rfl, rfl, by decide +kernel, by decide +kernel, (by decide +kernel), by decide +kernel, by decide +kernel, (by decide +kernel), by decide +kernel,
    List.any_eq_true.mpr ⟨(shaNat [0, 0, 0, 0], true), List.mem_singleton.mpr rfl, Bool.and_eq_true_iff.mpr ⟨beq_iff_eq.mpr (congrArg shaNat
    (by decide +kernel)), rfl⟩⟩, by decide +kernel⟩,
    ⟨.manger 0, tAsk 0x701 (List.replicate 8 0 ++ [tP, 538]) tRun, _, _, rfl, rfl, by decide +kernel⟩,
    ⟨.manger 0, tAsk 0x702 [0, tP, 1] (tRun.onSec fun x => { x with devCert := [1] }), _, _, rfl, rfl, by decide +kernel⟩,
    ⟨.manger 0, tAsk 0x70A [] (tEntropy tRun), _, rfl, by decide +kernel⟩,
    ⟨.manger 0, tAsk 0x70B [tP, 432] (tPut ([0x4B, 0x4E, 0x53, 0x56, 1, 0, 7, 0] ++ leBytes 8 State.reset.sys.badge) (tRun.onSec fun x =>
    { x with svcChal := [{ session := 1, nonce := 0, until_ := 1 }] })), _, _, _, _, rfl, rfl, rfl, rfl, by decide +kernel⟩,
    ⟨.manger 0, tAsk 0x705 [tP, 508] (tOwned tRun), _, _, _, _, rfl, rfl, rfl, rfl, by decide +kernel⟩⟩

/-- States and operands that meet the hypotheses of OwnerCommands, clause by clause. -/
theorem witness_ownerCommands :
    (∃ (via : Via) (s : State) (c : _), c = cmdOf 0x703 via s ∧ cmdRuns 0x703 1 .observe via s = true ∧ s.sec.entropyOk = true)
  ∧ (∃ (via : Via) (s : State) (c : _) (t : State) (u : _) (p : _) (v : _) (end_ : _), c = cmdOf 0x704 via s ∧ t = takenBy 0x704 via s ∧ u = (parcelRead 1
    c t).2 ∧ p = parcelBytes 1 c t ∧ cmdRuns 0x704 3 .proof via s = true ∧ ceremonyOpen s = true ∧ parcelOk 1 c t = true ∧ (parcelRead 1 c t).1 = true
    ∧ owned u = false ∧ u.sec.ownChal = some (v, end_) ∧ u.clk.c < end_ ∧ rsaWaiting false u < 16)
  ∧ (∃ (via : Via) (s : State) (c : _) (t : State) (u : _) (p : _), c = cmdOf 0x708 via s ∧ t = takenBy 0x708 via s ∧ u = (parcelRead 1 c t).2 ∧ p =
    parcelBytes 1 c t ∧ cmdRuns 0x708 3 .config via s = true ∧ parcelOk 1 c t = true ∧ (parcelRead 1 c t).1 = true ∧ rsaWaiting false u < 16)
  ∧ (∃ (via : Via) (s : State) (c : _), c = cmdOf 0x707 via s ∧ cmdRuns 0x707 1 .config via s = true)
  ∧ (∃ (via : Via) (s : State) (c : _), c = cmdOf 0x709 via s ∧ cmdRuns 0x709 1 .config via s = true ∧ (c.config = true ∨ s.sys.ownLow = true) ∧
    s.sys.braced = false)
  ∧ (∃ (via : Via) (s : State) (c : _), c = cmdOf 0x709 via s ∧ cmdRuns 0x709 1 .config via s = true ∧ (c.config = true ∨ s.sys.ownLow = true) ∧
    s.sys.braced = true) :=
  ⟨⟨.manger 0, tAsk 0x703 [] (tEntropy tRun), _, rfl, by decide +kernel⟩,
    ⟨.manger 0, tAsk 0x704 [tP, 8] ((tStop.onSec fun x => { x with ownChal := some (5, 1) }).onSys fun x => { x with ownLow := true }), _, _, _, _, 5, 1,
    rfl, rfl, rfl, rfl, by decide +kernel⟩,
    ⟨.manger 0, tEnv 0x708 [tP, 8] tRun, _, _, _, _, rfl, rfl, rfl, rfl, by decide +kernel⟩,
    ⟨.manger 0, tEnv 0x707 [] tRun, _, rfl, by decide +kernel⟩,
    ⟨.manger 0, tEnv 0x709 [] tRun, _, rfl, by decide +kernel⟩,
    ⟨.manger 0, tEnv 0x709 [] (tRun.onSys fun x => { x with braced := true }), _, rfl, by decide +kernel⟩⟩

/-- States and operands that meet the hypotheses of RsaCompletion, clause by clause. -/
theorem witness_rsaCompletion :
    (∃ (j : _) (r : _) (s : State), takesMsgs s = true ∧ (rsaBegin s).sec.rsaPriv = j :: r ∧ (s.sys.braced = false ∨ jobWrites j.job = false) ∧ rsaTurn
    .hostPriv s = true)
  ∧ (∃ (j : _) (r : _) (s : State), takesMsgs s = true ∧ s.sec.rsaPub = j :: r ∧ (s.sys.braced = false ∨ jobWrites j.job = false) ∧ rsaTurn .hostPub s =
    true)
  ∧ (∃ (u : _) (s : State), rsaAsked s s.sec.runPriv = true ∧ s.sec.runPriv = u)
  ∧ (∃ (u : _) (s : State), rsaAsked s s.sec.runPub = true ∧ s.sec.runPub = u)
  ∧ (∃ (s : State), s.sec.runPriv = .idle)
  ∧ (∃ (s : State), s.sec.runPub = .idle)
  ∧ (∃ (priv : Bool) (s : State), 16 ≤ rsaWaiting priv s)
  ∧ (∃ (c : _) (p : _) (s : State), operListed c p s = true ∧ ownSession c s = true)
  ∧ (∃ (c : _) (p : _) (s : State), operListed c p s = true)
  ∧ (∃ (c : _) (p : _) (s : State), operListed c p s = false)
  ∧ (∃ (s : State), s.sec.operators = [])
  ∧ (∃ (c : Ctx) (s : State) (k : _), c.via = .yard k ∧ yardSecured s = false)
  ∧ (∃ (p : List Byte), p.length = 432 ∧ natBit (le p 6 2) 0 = false)
  ∧ (∃ (p : _) (s : State), envCheck p true s = none) :=
  ⟨⟨{ ctx := tCtx 0x701, job := .quote, data := [] }, [], tRun.onSec fun x => { x with rsaPriv := [{ ctx := tCtx 0x701, job := .quote, data := [] }] },
    by decide +kernel⟩,
    ⟨{ ctx := tCtx 0x701, job := .envelope, data := [] }, [], tRun.onSec fun x =>
    { x with rsaPub := [{ ctx := tCtx 0x701, job := .envelope, data := [] }] }, by decide +kernel, by decide +kernel, Or.inl (by decide +kernel),
    by decide +kernel⟩,
    ⟨.hostPriv, tRun.onSec fun x => { x with rsaPriv := [{ ctx := tCtx 0x701, job := .envelope, data := [] }], runPriv := .hostPriv }, by decide +kernel⟩,
    ⟨.hostPub, tRun.onSec fun x => { x with rsaPub := [{ ctx := tCtx 0x701, job := .envelope, data := [] }], runPub := .hostPub }, by decide +kernel⟩,
    ⟨tRun, by decide +kernel⟩,
    ⟨tRun, by decide +kernel⟩,
    ⟨true, tRun.onSec fun x => { x with rsaPriv := List.replicate 16 { ctx := tCtx 0x701, job := .envelope, data := [] } }, by decide +kernel⟩,
    ⟨tCtx 1, [], (tRun.onSec fun x => { x with operators := [(shaNat [], true)] }).onHost fun h => { h with session := 1 }, listed _ _ rfl,
    by decide +kernel⟩,
    ⟨tCtx 1, [], tRun.onSec fun x => { x with operators := [(shaNat [], true)] }, listed _ _ rfl⟩,
    ⟨tCtx 1, [], tRun, by decide +kernel⟩,
    ⟨tRun, by decide +kernel⟩,
    ⟨{ tCtx 1 with via := .yard 0 }, tRun, 0, by decide +kernel⟩,
    ⟨List.replicate 432 0, by decide +kernel⟩,
    ⟨tEnvelope, tOwned tRun, by decide +kernel⟩⟩

/-- States and operands that meet the hypotheses of YardPort, clause by clause. -/
theorem witness_yardPort :
    (∃ (s : State), s.yard.link = false ∧ yardHeld s = false ∧ yardServed s = true ∧ s.yard.quietAt + 100000000 ≤ s.clk.c)
  ∧ (∃ (s : State), s.yard.link = true ∧ s.yard.rx = none ∧ s.sec.macOpen = false)
  ∧ (∃ (s : State), s.yard.modAbs = true ∧ s.yard.los = false ∧ yMode s ≠ 0)
  ∧ (∃ (s : State), s.yard.modAbs = false ∧ s.yard.los = false)
  ∧ (∃ (s : State), fwRuns s = true ∧ s.yard.link = true ∧ yMacsec s = true ∧ s.sec.cak.isSome = true)
  ∧ (∃ (s : State), s.sec.macOpen = true)
  ∧ (∃ (hdr : _) (len : _) (q : _) (n : _) (s : State), s.yard.link = true ∧ s.yard.rx = none ∧ 64 ≤ len ∧ len ≤ yardMaxlen s + (if (hdrTci hdr).isSome
    then 4 else 0) ∧ hdrType hdr ≠ 0x8808 ∧ rxQueue s hdr = some q ∧ n = (if yBuf s q == 0 then 0 else (yardMaxlen s - 4 + yBuf s q - 1) / yBuf s q) ∧
    rxClaim (noteStamp s) q n = true)
  ∧ (∃ (hdr : _) (len : _) (q : _) (n : _) (s : State), s.yard.link = true ∧ s.yard.rx = none ∧ 64 ≤ len ∧ len ≤ yardMaxlen s + (if (hdrTci hdr).isSome
    then 4 else 0) ∧ hdrType hdr ≠ 0x8808 ∧ rxQueue s hdr = some q ∧ n = (if yBuf s q == 0 then 0 else (yardMaxlen s - 4 + yBuf s q - 1) / yBuf s q) ∧
    rxClaim (noteStamp s) q n = false)
  ∧ (∃ (len : _) (s : State), s.yard.link = true ∧ s.yard.rx = none ∧ len < 64)
  ∧ (∃ (r : YRx) (s : State), s.yard.rx = some r)
  ∧ (∃ (m : _) (r : YRx) (s : State), s.yard.rx = some r ∧ portPasses s (hdrType r.hdr) m = false)
  ∧ (∃ (rest : _) (m : _) (r : YRx) (f : _) (s : State), s.yard.rx = some r ∧ portPasses s (hdrType r.hdr) m = true ∧ f = tailFrame r rest s)
  ∧ (∃ (f : YFrame) (s : State), bit s.strm.cfg 3 f.queue = false ∧ ((ipOf f.bytes).map (·.frag)).getD false = false)
  ∧ (∃ (f : YFrame) (s : State), bit s.strm.cfg 3 f.queue = false ∧ ((ipOf f.bytes).map (·.frag)).getD false = true)
  ∧ (∃ (f : YFrame) (s : State), bit s.strm.cfg 3 f.queue = true)
  ∧ (∃ (f : YFrame), f.used = 1)
  ∧ (∃ k, 0 < k)
  ∧ (∃ (f : _) (s : State), headYard s = some f)
  ∧ (∃ (f : YFrame) (s : State), s.yard.inbox = [f])
  ∧ (∃ (f : YFrame) (g : YFrame) (s : State), s.yard.inbox = [f, g])
  ∧ (∃ (x : _) (s : State), s.yard.link = true ∧ yardServed s = true ∧ macReady s = true ∧ firstYardOut s = some x ∧ (∀ g, s.yard.seg = some g → g.queue ≤
    x.queue))
  ∧ (∃ (g : _) (s : State), s.yard.link = true ∧ yardServed s = true ∧ macReady s = true ∧ s.yard.seg = some g ∧ (∀ x, firstYardOut s = some x → x.queue <
    g.queue))
  ∧ (∃ (s : State), yMacsec s = false)
  ∧ (∃ (a : _) (r : _) (s : State), yMacsec s = true ∧ s.sec.macOpen = true ∧ s.sec.txSas = a :: r ∧ a.pn < 2 ^ 32)
  ∧ (∃ (f : _) (s : State), yardServed s = true ∧ firstYard (fun f => !otherRow s f) s = some f ∧ be f.bytes 12 2 = 0x0806 ∧ be f.bytes 20 2 = 1 ∧ be
    f.bytes 38 4 = yIp4 s ∧ yIp4 s ≠ 0)
  ∧ (∃ (f : _) (i : _) (s : State), yardServed s = true ∧ firstYard (fun f => !otherRow s f) s = some f ∧ be f.bytes 12 2 ≠ 0x0806 ∧ ipOf f.bytes = some i
    ∧ i.proto ≠ 17)
  ∧ (∃ (f : _) (i : _) (s : State), yardServed s = true ∧ firstYard (fun f => !otherRow s f) s = some f ∧ be f.bytes 12 2 ≠ 0x0806 ∧ ipOf f.bytes = some i
    ∧ i.proto = 17 ∧ ownIp s i.dst = true ∧ (udpOf f.bytes).isSome = true) :=
  ⟨⟨tAt 100000000 ((tYard tRun).onYard fun y => { y with link := false }), by decide +kernel⟩,
    ⟨tYard tRun, by decide +kernel⟩,
    ⟨(tYard tRun).onYard fun y => { y with modAbs := true }, by decide +kernel⟩,
    ⟨tYard tRun, by decide +kernel⟩,
    ⟨((tYard tRun).onYard fun y => { y with record := y.record.set 0 0x500005EE }).onSec fun x => { x with cak := some ⟨[0], 0⟩ }, by decide +kernel⟩,
    ⟨tRun.onSec fun x => { x with macOpen := true }, by decide +kernel⟩,
    ⟨List.replicate 6 255 ++ List.replicate 8 0, 1518, _, _, tYard tRun, by decide +kernel, by decide +kernel, (by decide +kernel), by decide +kernel,
    by decide +kernel, some_of (by decide +kernel), rfl, by decide +kernel⟩,
    ⟨List.replicate 6 255 ++ List.replicate 8 0, 1518, _, _, (tYard tRun).onYard fun y => { y with record := y.record.set 14 0x100 }, by decide +kernel,
    by decide +kernel, (by decide +kernel), by decide +kernel, by decide +kernel, some_of (by decide +kernel), rfl, by decide +kernel⟩,
    ⟨63, tYard tRun, by decide +kernel⟩,
    ⟨tYRx, tRun.onYard fun y => { y with rx := some tYRx }, by decide +kernel⟩,
    ⟨⟨0, 0, true⟩, tYRx, tRun.onYard fun y => { y with rx := some tYRx, record := y.record.set 0 0x500005EE }, by decide +kernel⟩,
    ⟨[], ⟨0, 0, true⟩, tYRx, _, tRun.onYard fun y => { y with rx := some tYRx }, by decide +kernel, by decide +kernel, rfl⟩,
    ⟨tFr [], tRun, by decide +kernel⟩,
    ⟨tFr tFrag, tRun, by decide +kernel⟩,
    ⟨tFr [], tRun.onStrm fun t => { t with cfg := [0, 0, 0, 1] }, by decide +kernel⟩,
    ⟨{ tFr [] with used := 1 }, by decide +kernel⟩,
    ⟨1, by decide +kernel⟩,
    ⟨tFr [], tRun.onYard fun y => { y with inbox := [tFr []] }, by decide +kernel⟩,
    ⟨tFr [], tRun.onYard fun y => { y with inbox := [tFr []] }, by decide +kernel⟩,
    ⟨tFr [], tFr [0], tRun.onYard fun y => { y with inbox := [tFr [], tFr [0]] }, by decide +kernel⟩,
    ⟨{ queue := 0, udp := none, sport := 0, hop := 0, bytes := [], timed := none, tsub := 0, relayed := none }, (tYard tRun).onYard fun y =>
    { y with txq := [{ queue := 0, udp := none, sport := 0, hop := 0, bytes := [], timed := none, tsub := 0, relayed := none }] }, by decide +kernel⟩,
    ⟨{ ctx := tCtx 0x807, mss := 256, queue := 0, hdr := [], left := [1], sent := 0, ipId := 0 }, (tYard tRun).onYard fun y =>
    { y with seg := some { ctx := tCtx 0x807, mss := 256, queue := 0, hdr := [], left := [1], sent := 0, ipId := 0 } }, by decide +kernel⟩,
    ⟨tRun, by decide +kernel⟩,
    ⟨⟨0, 1, 1⟩, [], (tRun.onYard fun y => { y with record := y.record.set 0 0x500005EE }).onSec fun x => { x with macOpen := true, txSas := [⟨0, 1, 1⟩] },
    by decide +kernel⟩,
    ⟨tFr tArp, tInbox tArp tRun, by decide +kernel⟩,
    ⟨tFr (tIp 20 1 0x70E9 []), _, tInbox (tIp 20 1 0x70E9 []) tRun, by decide +kernel, by decide +kernel, (by decide +kernel), some_of
    (by decide +kernel), by decide +kernel⟩,
    ⟨tFr (tIp 28 17 0x70D1 [0, 0, 0, 0, 0, 8, 0, 0]), _, tInbox (tIp 28 17 0x70D1 [0, 0, 0, 0, 0, 8, 0, 0]) tRun, by decide +kernel, by decide +kernel,
    (by decide +kernel), some_of (by decide +kernel), by decide +kernel⟩⟩

set_option maxRecDepth 8192 in
/-- States and operands that meet the hypotheses of YardServices, clause by clause. -/
theorem witness_yardServices :
    (∃ (e : _) (s : State) (p : _), p = s.yard.epSt.getD e ⟨[], 0, 0, 0⟩ ∧ epEnable (epRec s e) = true ∧ p.pack ≠ [] ∧ p.first + bits (epRec s e) 0 25 16
    * 1000 ≤ s.clk.c)
  ∧ (∃ (k : _) (f : _) (u : _) (xs : _) (s : State), fwRuns s = true ∧ firstYard (isSubFrame s k) s = some f ∧ udpOf f.bytes = some u ∧ be u.data 5 1 ≠ 0
    ∧ parseRecords (trainTime s) (be u.data 5 1) (u.data.drop 16) = some xs ∧ 16 ≤ u.data.length ∧ be u.data 0 4 = 0x4B4E5953 ∧ be u.data 4 1 = 1 ∧ be
    u.data 6 2 < 16384 ∧ be u.data 8 1 < 32 ∧ be u.data 9 1 = 0 ∧ bit (subRec s k) 0 29 = false ∧ (s.inaug.car = none ∨ be u.data 6 2 / 64 ≠
    s.inaug.train))
  ∧ (∃ (k : _) (f : _) (s : State), subsLeft s f = [k])
  ∧ (∃ (k : _) (src : _) (e : _) (run : _) (dseq : _) (p : _) (s : State), (s.yard.pairs.getD k []).find? (fun p => p.src == src && p.ep == e) = some p ∧
    s.clk.c < p.heard + 10000000000 ∧ p.run = run ∧ p.next = dseq ∧ dseq < 2 ^ 32)
  ∧ (∃ (f : _) (u : _) (s : State), yardServed s = true ∧ firstYard (isSessFrame s) s = some f ∧ udpOf f.bytes = some u ∧ 12 ≤ u.data.length ∧
    u.data.length ≤ 72 ∧ u.data.length % 4 = 0 ∧ be u.data 2 2 = 0 ∧ be u.data 0 2 = 0 ∧ be u.data 4 4 ≠ 0 ∧ msgCode (sentBy coreId (bytesWords
    (u.data.drop 8))) = 0x003)
  ∧ (∃ (f : _) (u : Udp) (k : _) (y : _) (s : State), yardServed s = true ∧ firstYard (isSessFrame s) s = some f ∧ udpOf f.bytes = some u ∧ 12 ≤
    u.data.length ∧ u.data.length ≤ 72 ∧ u.data.length % 4 = 0 ∧ be u.data 2 2 = 0 ∧ be u.data 0 2 ≠ 0 ∧ (takenYard f s).yard.sess.findIdx? (fun y =>
    sessLive y && y.id == be u.data 0 2 && y.addr == u.src && y.port == u.sport) = some k ∧ sessOf (takenYard f s) k = some y ∧ be u.data 4 4 =
    mseqNext y.mseq ∧ y.inbox = none ∧ y.reply ≠ [] ∧ be u.data 4 4 ≠ y.mseq)
  ∧ (∃ (u : Udp) (mseq : _) (s : State), s.yard.sess.find? (fun y => sessLive y && y.addr == u.src && y.port == u.sport && y.mseq == mseq) = none ∧
    sessFree s = none)
  ∧ (∃ (u : Udp) (k : _) (mseq : _) (s : State), s.yard.sess.find? (fun y => sessLive y && y.addr == u.src && y.port == u.sport && y.mseq == mseq) = none
    ∧ sessFree s = some k)
  ∧ (∃ (k : _) (y : _) (s : State), sessOf s k = some y ∧ sessLive y = true ∧ y.heard + 10000000000 ≤ s.clk.c)
  ∧ (∃ (m : RxMsg) (e : _) (s : State), firstMsg (isCtl 0x14) s = some m ∧ yRelayEn s = true ∧ numbered s (m.hdr.src % 64) = some e ∧ e.badge = yRelayPeer
    s)
  ∧ (∃ (s : State), pPtpTransport s ≠ 2)
  ∧ (∃ (s : State), pPtpTransport s = 2)
  ∧ (∃ (f : _) (m : _) (s : State), fwRuns s = true ∧ firstYard (fun f => (ptpOf f.bytes).isSome) s = some f ∧ ptpOf f.bytes = some m ∧ ptpMine s f.bytes
    m = true)
  ∧ (∃ (s : State), s.clk.st = .master ∧ s.teth.plant = .locked) :=
  ⟨⟨31, tRun.onYard fun y => { y with eps := y.eps.set 31 [0x80000000], epSt := y.epSt.set 31 ⟨[tSent], 0, 0, 0⟩ }, _, rfl, by decide +kernel⟩,
    ⟨7, tFr (tUdp 52 0x70A5 tSentData), _, _, (tInbox (tUdp 52 0x70A5 tSentData) tRun).onYard fun y =>
    { y with record := y.record.set 8 0, subs := y.subs.set 7 [0x80000000, 0x13880000, 0x0A000001] }, by decide +kernel, by decide +kernel, some_of
    (by decide +kernel), by decide +kernel, some_of (by decide +kernel), by decide +kernel⟩,
    ⟨7, tFr (tUdp 52 0x70A5 tSentData), (tInbox (tUdp 52 0x70A5 tSentData) tRun).onYard fun y =>
    { y with record := y.record.set 8 0, subs := y.subs.set 7 [0x80000000, 0x13880000, 0x0A000001] }, by decide +kernel⟩,
    ⟨7, 1, 0, 0, 5, { src := 1, ep := 0, run := 0, next := 5, heard := 0 }, tRun.onYard fun y =>
    { y with pairs := y.pairs.set 7 [{ src := 1, ep := 0, run := 0, next := 5, heard := 0 }] }, by decide +kernel⟩,
    ⟨tFr (tUdp 20 0x70C5 tOpen), _, tInbox (tUdp 20 0x70C5 tOpen) tRun, by decide +kernel, by decide +kernel, some_of (by decide +kernel),
    by decide +kernel, by decide +kernel, (by decide +kernel), by decide +kernel, by decide +kernel, (by decide +kernel), Eq.trans (msgCode_sentBy _
    _) (by decide +kernel)⟩,
    ⟨tFr tSecond, _, 0, { tYSess with mseq := 1, reply := [0] }, (tInbox tSecond tRun).onYard fun d =>
    { d with sess := [{ tYSess with mseq := 1, reply := [0] }] }, by decide +kernel, by decide +kernel, some_of (by decide +kernel),
    by decide +kernel⟩,
    ⟨(⟨0, 0, 0, 0, []⟩ : Udp), 1, tRun.onYard fun y => { y with sess := List.replicate 4 tYSess }, by decide +kernel⟩,
    ⟨(⟨0, 0, 0, 0, []⟩ : Udp), 0, 1, tRun, by decide +kernel⟩,
    ⟨0, tYSess, tAt 10000000000 (tRun.onYard fun y => { y with sess := [tYSess] }), by decide +kernel⟩,
    ⟨_, _, tGot { tIn ftControl 2 [0x14] with hdr := { tHdr 2 with ftype := ftControl, src := 1 } } (tTwo (tYard tRun)), some_of (by decide +kernel),
    by decide +kernel, some_of (by decide +kernel), by decide +kernel⟩,
    ⟨tRun, by decide +kernel⟩,
    ⟨tRun.onRcp fun r => { r with train := [0x2000] }, by decide +kernel⟩,
    ⟨tFr tPtp, _, (tInbox tPtp tRun).onRcp fun r => { r with train := [0x2000] }, by decide +kernel, by decide +kernel, some_of (by decide +kernel),
    by decide +kernel⟩,
    ⟨(tRun.onClk fun k => { k with st := .master }).onTeth fun t => { t with plant := .locked }, by decide +kernel⟩⟩

/-- States and operands that meet the hypotheses of YardCommands, clause by clause. -/
theorem witness_yardCommands :
    (∃ (via : Via) (s : State) (c : _) (t : State) (u : _) (r : _), c = cmdOf 0x801 via s ∧ t = takenBy 0x801 via s ∧ u = (parcelRead 1 c t).2 ∧ r =
    bytesWords ((parcelBytes 1 c t).take 112) ∧ cmdRuns 0x801 3 .config via s = true ∧ wd c.words 2 = 176 ∧ parcelOk 1 c t = true ∧ (parcelRead 1 c
    t).1 = true ∧ yardCheck r = none ∧ (u.sys.dev = .stopped ∨ yardFixed r = yardFixed u.yard.record) ∧ ringBytes r + ringsKib (u.ports.map (·.rec_))
    * 1024 ≤ regionSize u 1)
  ∧ (∃ (via : Via) (s : State) (c : _), c = cmdOf 0x802 via s ∧ cmdRuns 0x802 4 .config via s = true ∧ wd c.words 1 ≤ 63 ∧ steerCheck ((c.words.drop
    2).take 2) = none)
  ∧ (∃ (via : Via) (s : State) (c : _) (r : _), c = cmdOf 0x803 via s ∧ r = (c.words.drop 2).take 6 ∧ cmdRuns 0x803 8 .config via s = true ∧ wd c.words 1
    < 32 ∧ endpointCheck false (yV6En s) r = none)
  ∧ (∃ (via : Via) (s : State) (c : _) (r : _), c = cmdOf 0x803 via s ∧ r = (c.words.drop 2).take 6 ∧ cmdRuns 0x803 8 .config via s = true ∧ 32 ≤ wd
    c.words 1 ∧ wd c.words 1 < 40 ∧ endpointCheck true (yV6En s) r = none)
  ∧ (∃ (via : Via) (s : State) (c : _), c = cmdOf 0x804 via s ∧ cmdRuns 0x804 1 .observe via s = true)
  ∧ (∃ (via : Via) (s : State) (c : _) (t : State) (u : _) (p : List Byte) (n : _) (g : SegSend), c = cmdOf 0x807 via s ∧ t = takenBy 0x807 via s ∧ u =
    (parcelRead 2 c t).2 ∧ p = parcelBytes 2 c t ∧ cmdRuns 0x807 4 (if s.sys.dev == .recovery then .observe else .operate) via s = true ∧ wd c.words 1
    % 65536 < 6 ∧ 256 ≤ wd c.words 1 / 65536 ∧ wd c.words 1 / 65536 ≤ 8952 ∧ (s.sys.dev = .startup ∨ s.sys.dev = .test ∨ s.sys.dev = .recovery) ∧
    parcelOk 2 c t = true ∧ (parcelRead 2 c t).1 = true ∧ segHdr p = some n ∧ p.length - (n - 8) ≤ 4194304 ∧ g =
    { ctx := c, mss := wd c.words 1 / 65536, queue := wd c.words 1 % 8, hdr := p.take n, left := p.drop n, sent := 0, ipId := be p 18 2 })
  ∧ (∃ (via : Via) (s : State) (c : _) (t : State), c = cmdOf 0x201 via s ∧ t = takenBy 0x201 via s ∧ cmdRuns 0x201 1 .observe via s = true)
  ∧ (∃ (via : Via) (s : State) (c : _), c = cmdOf 0x202 via s ∧ cmdRuns 0x202 1 .observe via s = true) :=
  ⟨⟨.manger 0, tEnv 0x801 [tP, 176] tStop, _, _, _, _, rfl, rfl, rfl, rfl, by decide +kernel⟩,
    ⟨.manger 0, tEnv 0x802 [63, 0, 0] tRun, _, rfl, by decide +kernel⟩,
    ⟨.manger 0, tEnv 0x803 [31, 0, 0, 0, 0, 0, 0] tRun, _, _, rfl, rfl, by decide +kernel⟩,
    ⟨.manger 0, tEnv 0x803 [39, 0, 0, 0, 0, 0, 0] tRun, _, _, rfl, rfl, by decide +kernel⟩,
    ⟨.manger 0, tAsk 0x804 [] tRun, _, rfl, by decide +kernel⟩,
    ⟨.manger 0, tAsk 0x807 [0x1000005, tP, 44] (tPut ((tIp 30 17 0 [0, 0, 0, 0, 0, 10, 0, 0]).take 44) tTest), _, _, _, _, _, _, rfl, rfl, rfl, rfl,
    by decide +kernel, by decide +kernel, (by decide +kernel), by decide +kernel, by decide +kernel, (by decide +kernel), by decide +kernel, some_of
    (by decide +kernel), by decide +kernel, rfl⟩,
    ⟨.manger 0, tAsk 0x201 [] tRun, _, _, rfl, rfl, by decide +kernel⟩,
    ⟨.manger 0, tAsk 0x202 [] tRun, _, rfl, by decide +kernel⟩⟩

/-- States and operands that meet the hypotheses of HostWords, clause by clause. -/
theorem witness_hostWords :
    (∃ (s : State), portAnswers s = true ∧ s.sys.dev ≠ .barn)
  ∧ (∃ (s : State), portAnswers s = true ∧ s.sys.dev = .barn)
  ∧ (∃ (a : _) (s : State) (t : State), t = txnState true a s ∧ wordOk true a s = true ∧ ownReadRow a = false)
  ∧ (∃ (a : _) (s : State) (t : State), t = txnState true a s ∧ portAnswers s = true ∧ t.host.txn.bus = false ∧ rejects t a = some 1)
  ∧ (∃ (s : State), portAnswers s = true ∧ s.sys.dev ≠ .barn)
  ∧ (∃ (a : _) (s : State), portAnswers s = true ∧ s.host.nextAddr ≠ some a)
  ∧ (∃ (op : _) (s : State), portAnswers s = true ∧ [0x02, 0x32, 0x03, 0x6B, 0xEB, 0x05].contains op = false ∧ s.sys.dev ≠ .barn)
  ∧ (∃ (s : State), portAnswers s = true)
  ∧ (∃ (n : _) (ch : _) (off : _) (s : State) (t : State), t = txnState n (mangAddr ch (4 * off)) s ∧ wordOk n (mangAddr ch (4 * off)) s = true ∧ ch < 10
    ∧ (mangOf t ch).inFull = false)
  ∧ (∃ (n : _) (ch : _) (off : _) (s : State) (t : State), t = txnState n (mangAddr ch (4 * off)) s ∧ wordOk n (mangAddr ch (4 * off)) s = true ∧ ch < 10
    ∧ (mangOf t ch).inFull = true)
  ∧ (∃ (n : _) (ch : _) (s : State) (t : State), t = txnState n (mangAddr ch 0x40) s ∧ wordOk n (mangAddr ch 0x40) s = true ∧ ch < 10 ∧ (mangOf t
    ch).inFull = false)
  ∧ (∃ (n : _) (ch : _) (s : State) (t : State), t = txnState n (mangAddr ch 0xC0) s ∧ provOf s (.outCommit ch) = none ∧ wordOk n (mangAddr ch 0xC0) s =
    true)
  ∧ (∃ v, natBit v 31 = true)
  ∧ (∃ (n : _) (ch : _) (s : State) (t : State), t = txnState n (mangAddr ch 0x48) s ∧ provOf s (.drop ch) = none ∧ wordOk n (mangAddr ch 0x48) s = true)
  ∧ (∃ (ch : _) (p : _) (s : State), provOf s (.drop ch) = some p)
  ∧ (∃ (n : _) (k : _) (s : State) (t : State), t = txnState n (0x2100 + 4 * k) s ∧ provOf s (.lock k) = none ∧ wordOk n (0x2100 + 4 * k) s = true ∧
    lockVal k t = 0)
  ∧ (∃ (n : _) (k : _) (ids : List Nat) (s : State) (t : State), t = txnState n (0x2100 + 4 * k) (cntHost 2 s) ∧ provOf s (.lock k) = none ∧ wordOk n
    (0x2100 + 4 * k) s = true ∧ lockVal k t = 0 ∧ ids.any (lockMaster s) = true)
  ∧ (∃ (n : _) (k : _) (s : State) (t : State), t = txnState n (0x2100 + 4 * k) s ∧ provOf s (.lock k) = none ∧ wordOk n (0x2100 + 4 * k) s = true ∧
    lockVal k t ≠ 0)
  ∧ (∃ (k : _) (ids : List Nat) (w : _) (s : State), (ids.filter (lockMaster s)).min? = some w ∧ s.host.locks.getD k 1 = 0)
  ∧ (∃ (n : _) (k : _) (s : State) (t : State), t = txnState n (0x2100 + 4 * k) s ∧ wordOk n (0x2100 + 4 * k) s = true ∧ s.host.locks.getD k 0 = 1)
  ∧ (∃ (n : _) (k : _) (v : _) (s : State) (t : State), t = txnState n (0x2100 + 4 * k) s ∧ wordOk n (0x2100 + 4 * k) s = true ∧ (s.host.locks.getD k 0 ≠
    1 ∨ v ≠ 1))
  ∧ (∃ (k : _) (w : LockWriter) (s : State), w.id ≠ 1 ∧ lockMaster s w.id = true ∧ s.host.locks.getD k 0 = w.id ∧ w.val.toNat = w.id) :=
  ⟨⟨tRun, by decide +kernel⟩,
    ⟨tDev .barn State.reset, by decide +kernel⟩,
    ⟨0, tRun, _, rfl, by decide +kernel⟩,
    ⟨0x2180, tRun, _, rfl, by decide +kernel⟩,
    ⟨tRun, by decide +kernel⟩,
    ⟨0, tRun, by decide +kernel⟩,
    ⟨0xFF, tRun, by decide +kernel⟩,
    ⟨tRun, by decide +kernel⟩,
    ⟨true, 9, 15, tRun, _, rfl, by decide +kernel⟩,
    ⟨true, 9, 15, modMang 9 (fun m => { m with inFull := true }) tRun, _, rfl, by decide +kernel⟩,
    ⟨true, 9, tRun, _, rfl, by decide +kernel⟩,
    ⟨true, 15, tRun, _, rfl, by decide +kernel⟩,
    ⟨0x80000000, by decide +kernel⟩,
    ⟨true, 15, tRun, _, rfl, by decide +kernel⟩,
    ⟨15, { reg := .drop 15, val := 0 }, tRun.onHost fun h => { h with prov := [{ reg := .drop 15, val := 0 }] }, by decide +kernel⟩,
    ⟨true, 31, tRun, _, rfl, by decide +kernel⟩,
    ⟨true, 31, [31], tRun, _, rfl, by decide +kernel⟩,
    ⟨true, 31, tRun.onHost fun h => { h with locks := h.locks.set 31 5 }, _, rfl, by decide +kernel⟩,
    ⟨31, [31, 16, 5], 16, tRun, by decide +kernel⟩,
    ⟨true, 31, tRun.onHost fun h => { h with locks := h.locks.set 31 1 }, _, rfl, by decide +kernel⟩,
    ⟨true, 31, 0, tRun, _, rfl, by decide +kernel, Or.inl (by decide +kernel)⟩,
    ⟨31, ⟨2, 2⟩, tRun.onHost fun h => { h with locks := h.locks.set 31 2 }, by decide +kernel⟩⟩

/-- States and operands that meet the hypotheses of HostRegisters, clause by clause. -/
theorem witness_hostRegisters :
    (∃ (n : _) (s : State) (t : State), t = txnState n 0x3000 s ∧ provOf s .overflow = none ∧ wordOk n 0x3000 s = true)
  ∧ (∃ (n : _) (s : State) (t : State), t = txnState n 0x2000 s ∧ wordOk n 0x2000 s = true)
  ∧ (∃ (n : _) (s : State) (t : State), t = txnState n 0x2008 s ∧ wordOk n 0x2008 s = true)
  ∧ (∃ (n : _) (s : State), takesMsgs s = true ∧ natBit s.host.fwBell n = true ∧ n < 31)
  ∧ (∃ (s : State), takesMsgs s = true ∧ natBit s.host.fwBell 31 = true)
  ∧ (∃ (n : _) (k : _) (s : State) (t : State), t = txnState n (0x2210 + 4 * k) s ∧ wordOk n (0x2210 + 4 * k) s = true)
  ∧ (∃ (n : _) (s : State) (t : State), t = txnState n 0x2208 s ∧ wordOk n 0x2208 s = true)
  ∧ (∃ (n : _) (s : State) (t : State), t = txnState n 0x3004 s ∧ wordOk n 0x3004 s = true)
  ∧ (∃ (n : _) (w : Word) (s : State) (t : State), t = txnState n 0x1C s ∧ wordOk n 0x1C s = true ∧ natBit w.toNat 31 = true ∧ natBit w.toNat 0 = true)
  ∧ (∃ (n : _) (s : State) (t : State), t = txnState n 0x24 s ∧ wordOk n 0x24 s = true)
  ∧ (∃ (n : _) (s : State) (t : State), t = txnState n 0x2204 s ∧ wordOk n 0x2204 s = true)
  ∧ (∃ (n : _) (a : _) (s : State) (t : State), t = txnState n a s ∧ wordComes n a s = true ∧ t.host.txn.bus = false ∧ mapped a = false ∧ a % 4 = 0 ∧
    s.sys.dev ≠ .barn ∧ s.sys.dev ≠ .boot)
  ∧ (∃ (n : _) (off : _) (s : State) (t : State) (b : _), t = txnState n (0x800000 + off) s ∧ b = t.host.pageNow * (8 * mib) + off ∧ wordOk n (0x800000 +
    off) s = true ∧ windowAllows t t.host.priv b true = true ∧ ctlBlockAt t b = none)
  ∧ (∃ (n : _) (off : _) (s : State) (t : State) (b : _), t = txnState n (0x800000 + off) s ∧ b = t.host.pageNow * (8 * mib) + off ∧ wordOk n (0x800000 +
    off) s = true ∧ windowAllows t t.host.priv b false = true ∧ regionOf t b ≠ 2 ∧ (loftCheck b 4 1 t).1 = true ∧ regionOf (loftCheck b 4 1 t).2 b ≠
    2)
  ∧ (∃ (ch : _) (m : _) (r : _) (s : State), takesMsgs s = true ∧ (mangOf s ch).outFull = false ∧ (mangOf s ch).held = m :: r)
  ∧ (∃ (s : State), s.sys.dev ≠ .off) :=
  ⟨⟨true, tRun, _, rfl, by decide +kernel⟩,
    ⟨true, tRun, _, rfl, by decide +kernel⟩,
    ⟨true, tRun, _, rfl, by decide +kernel⟩,
    ⟨30, tRun.onHost fun h => { h with fwBell := 0x40000000 }, by decide +kernel⟩,
    ⟨tRun.onHost fun h => { h with fwBell := 0x80000000 }, by decide +kernel⟩,
    ⟨true, 2, tRun, _, rfl, by decide +kernel⟩,
    ⟨true, tRun, _, rfl, by decide +kernel⟩,
    ⟨true, tRun, _, rfl, by decide +kernel⟩,
    ⟨true, (0x80000001 : Word), tRun, _, rfl, by decide +kernel⟩,
    ⟨true, tRun, _, rfl, by decide +kernel⟩,
    ⟨true, tRun, _, rfl, by decide +kernel⟩,
    ⟨true, 0x500000, tRun, _, rfl, by decide +kernel⟩,
    ⟨true, 0, tPage tRun, _, _, rfl, rfl, by decide +kernel⟩,
    ⟨true, 0x7FFFFC, tPage tRun, _, _, rfl, rfl, by decide +kernel⟩,
    ⟨15, { words := [], session := 0, sender := 0 }, [], modMang 15 (fun m => { m with held := [{ words := [], session := 0, sender := 0 }] }) tRun,
    by decide +kernel⟩,
    ⟨tRun, by decide +kernel⟩⟩

/-- States and operands that meet the hypotheses of Bridge, clause by clause. -/
theorem witness_bridge :
    (∃ (n : _) (k : _) (c : _) (s : State) (t : State) (far : _), t = txnState n (proxyAddr k c 0x40) s ∧ wordOk n (proxyAddr k c 0x40) s = true ∧
    (proxyOf t k c).st = .idle ∧ farCar t k = some far)
  ∧ (∃ (n : _) (k : _) (c : _) (s : State) (t : State), t = txnState n (proxyAddr k c 0x40) s ∧ wordOk n (proxyAddr k c 0x40) s = true ∧ (proxyOf t k
    c).st = .idle ∧ farCar t k = none)
  ∧ (∃ (n : _) (k : _) (c : _) (s : State) (t : State), t = txnState n (proxyAddr k c 0xC0) s ∧ provOf s (.proxyOut k c) = none ∧ wordOk n (proxyAddr k c
    0xC0) s = true)
  ∧ (∃ (k : _) (c : _) (s : State), (proxyOf s k c).st = .sent ∧ (proxyOf s k c).at_ + 2000000 ≤ s.clk.c)
  ∧ (∃ (m : RxMsg) (p : _) (s : State), firstMsg (isCtl 2) s = some m ∧ proxyWaiting s (be m.payload 2 2) = some p)
  ∧ (∃ (m : RxMsg) (p : _) (s : State), firstMsg (isCtl 3) s = some m ∧ proxyWaiting s (be m.payload 2 2) = some p)
  ∧ (∃ (m : RxMsg) (p : _) (s : State), firstMsg (isCtl 4) s = some m ∧ proxyWaiting s (be m.payload 2 2) = some p)
  ∧ (∃ (m : RxMsg) (s : State), firstMsg (isCtl 4) s = some m ∧ proxyWaiting s (be m.payload 2 2) = none ∧ be m.payload 4 2 ≠ s.host.session)
  ∧ (∃ (m : RxMsg) (h : HeldCommit) (s : State), firstMsg (isCtl 1) s = some m ∧ s.brg.held = [] ∧ h =
    { origin := m.hdr.adm, sys := m.hdr.src, reqId := be m.payload 2 2, at_ := trainTime s, session := be m.payload 4 2, priv := be m.payload 6 1, win := be m.payload 7 1, words := bytesWords (m.payload.drop 8) })
  ∧ (∃ (p : _) (badge : _) (h : HeldCommit) (s : State), privOfCode h.priv = some p ∧ carrierOfAdmit s h.origin = some badge ∧ (mangOf s h.win).inFull =
    true)
  ∧ (∃ (p : _) (badge : _) (h : HeldCommit) (s : State), privOfCode h.priv = some p ∧ carrierOfAdmit s h.origin = some badge ∧ (mangOf s h.win).inFull =
    false)
  ∧ (∃ (h : _) (s : State), s.brg.held = [h] ∧ h.at_ + pTransit s ≤ trainTime s)
  ∧ (∃ (k : _) (off : _) (cnt : _) (s : State) (t : _), t = openWords true (winAddr k off) cnt s ∧ wordOk true (winAddr k off) s = true ∧ off < 0x40 ∧ 0 <
    cnt ∧ cnt ≤ (0x40 - off) / 4 ∧ s.host.rdBuf = .idle)
  ∧ (∃ (k : _) (off : _) (cnt : _) (ws : _) (a : _) (s : State) (t : _), t = openWords true (winAddr k off) cnt s ∧ wordOk true (winAddr k off) s = true ∧
    off < 0x40 ∧ 0 < cnt ∧ cnt ≤ (0x40 - off) / 4 ∧ s.host.rdBuf = .data k off cnt ws a)
  ∧ (∃ (k : _) (off : _) (cnt : _) (s : State) (t : _), t = openWords true (winAddr k off) cnt s ∧ wordOk true (winAddr k off) s = true ∧ off < 0x40 ∧ 0 <
    cnt ∧ cnt ≤ (0x40 - off) / 4 ∧ s.host.rdBuf = .timedOut k off cnt)
  ∧ (∃ (m : RxMsg) (s : State), firstMsg (isCtl 5) s = some m ∧ inboundReads s < 16)
  ∧ (∃ (m : RxMsg) (k : _) (off : _) (n : _) (id : _) (a : _) (far : _) (s : State), firstMsg (isCtl 6) s = some m ∧ s.host.rdBuf = .waiting k off n id a
    far ∧ id = be m.payload 2 2)
  ∧ (∃ (m : RxMsg) (k : _) (off : _) (n : _) (id : _) (a : _) (far : _) (s : State), firstMsg (isCtl 7) s = some m ∧ s.host.rdBuf = .waiting k off n id a
    far ∧ id = be m.payload 2 2)
  ∧ (∃ (k : _) (off : _) (n : _) (id : _) (t : _) (far : _) (s : State), s.host.rdBuf = .waiting k off n id (some t) far ∧ t + 100000 + 2 * pTransit s ≤
    trainTime s)
  ∧ (∃ (k : _) (off : _) (n : _) (ws : _) (t : _) (s : State), s.host.rdBuf = .data k off n ws t ∧ t + 1000000 ≤ s.clk.c) :=
  ⟨⟨true, 1, 3, tTwo tRun, _, 1, rfl, by decide +kernel⟩,
    ⟨true, 63, 3, tRun, _, rfl, by decide +kernel⟩,
    ⟨true, 63, 3, tRun, _, rfl, by decide +kernel⟩,
    ⟨63, 3, tAt 2000000 (tFar tRun), by decide +kernel⟩,
    ⟨_, tProxy, tGot (tIn ftControl 1 [2]) (tFar tRun), some_of (by decide +kernel), by decide +kernel⟩,
    ⟨_, tProxy, tGot (tIn ftControl 1 [3]) (tFar tRun), some_of (by decide +kernel), by decide +kernel⟩,
    ⟨_, tProxy, tGot (tIn ftControl 1 [4]) (tFar tRun), some_of (by decide +kernel), by decide +kernel⟩,
    ⟨_, tGot (tIn ftControl 1 [4, 0, 0, 0, 0, 1]) tRun, some_of (by decide +kernel), by decide +kernel⟩,
    ⟨_, _, tGot (tIn ftControl 1 (1 :: List.replicate 11 0)) tRun, some_of (by decide +kernel), by decide +kernel, rfl⟩,
    ⟨.observe, State.reset.sys.badge, tHeld, modMang 15 (fun m => { m with inFull := true }) (tRole .member tRun), by decide +kernel⟩,
    ⟨.observe, State.reset.sys.badge, tHeld, tRole .member tRun, by decide +kernel⟩,
    ⟨tHeld, tAt 1000000 ((tNet .lead 0 0).onBrg fun b => { b with held := [tHeld] }), by decide +kernel⟩,
    ⟨63, 0x3C, 1, tRun, _, rfl, by decide +kernel⟩,
    ⟨63, 0x3C, 1, [0], 0, tBuf (.data 63 0x3C 1 [0] 0) tRun, _, rfl, by decide +kernel⟩,
    ⟨63, 0x3C, 1, tBuf (.timedOut 63 0x3C 1) tRun, _, rfl, by decide +kernel⟩,
    ⟨_, tGot (tIn ftControl 1 [5]) tRun, some_of (by decide +kernel), by decide +kernel⟩,
    ⟨_, 63, 0, 1, 0, none, 63, tGot (tIn ftControl 1 [6]) (tBuf (.waiting 63 0 1 0 none 63) tRun), some_of (by decide +kernel), by decide +kernel⟩,
    ⟨_, 63, 0, 1, 0, none, 63, tGot (tIn ftControl 1 [7]) (tBuf (.waiting 63 0 1 0 none 63) tRun), some_of (by decide +kernel), by decide +kernel⟩,
    ⟨63, 0, 1, 0, 0, 63, tAt 1000000 (tBuf (.waiting 63 0 1 0 (some 0) 63) (tNet .lead 0 0)), by decide +kernel⟩,
    ⟨63, 0, 1, [0], 0, tAt 1000000 (tBuf (.data 63 0 1 [0] 0) tRun), by decide +kernel⟩⟩

/-- States and operands that meet the hypotheses of Stream, clause by clause. -/
theorem witness_stream :
    (∃ (inw : Bool) (present : _) (s : State) (t : _), t = (if inw then s.onStrm fun t => { t with siClk := present } else s))
  ∧ (∃ (s : State), fwRuns s = false)
  ∧ (∃ (s : State), strmLive s = true ∧ s.strm.siClk = true ∧ s.strm.si = .down)
  ∧ (∃ (inw : Bool) (s : State), strmLive s = true ∧ (if inw then s.strm.si else s.strm.so) = .training)
  ∧ (∃ (inw : Bool) (s : State), strmLive s = true ∧ (if inw then s.strm.si else s.strm.so) ≠ .down)
  ∧ (∃ (s : State), strmLive s = true ∧ s.strm.si ≠ .down)
  ∧ (∃ (s : State), strmLive s = true ∧ (∀ t, s.strm.crdAt = some t → t + 128 ≤ 10 * s.clk.c))
  ∧ (∃ (t : _) (s : State), strmLive s = true ∧ s.strm.crdAt = some t ∧ 10 * s.clk.c < t + 128)
  ∧ (∃ (t : _) (s : State), s.strm.starved = some t ∧ strmLive s = true ∧ s.strm.credits = 0 ∧ t + bits s.strm.cfg 0 15 8 * 1000000 ≤ s.clk.c)
  ∧ (∃ (s : State), strmPending s = true ∧ s.strm.credits = 0 ∧ s.strm.starved = none ∧ bits s.strm.cfg 0 15 8 ≠ 0)
  ∧ (∃ (f : _) (s : State), strmLive s = true ∧ s.strm.so = .up ∧ s.strm.credits ≠ 0 ∧ s.strm.cur = none ∧ (sendOrder s).findSome? (frameOn s) = some f)
  ∧ (∃ (f : SFrame) (s : State), strmLive s = true ∧ s.strm.so = .up ∧ s.strm.credits ≠ 0 ∧ s.strm.cur = some f ∧ s.strm.curLeft ≠ 0)
  ∧ (∃ (f : SFrame) (s : State), s.strm.cur = some f ∧ s.strm.curLeft = 0 ∧ (f.ch = 60 ∨ f.ch = 61))
  ∧ (∃ (f : SFrame) (s : State), s.strm.cur = some f ∧ s.strm.curLeft = 0 ∧ f.ch = 48)
  ∧ (∃ (f : SFrame) (p : _), p = leBytes 4 (f.ch % 64 * 2 ^ 26 + strmType f.ch * 2 ^ 22 + f.payload.length % 32768) ++ leBytes 4 (f.seq % 65536 * 65536 +
    f.param % 65536) ++ padTo ((f.payload.length + 3) / 4 * 4) f.payload ∧ f.payload.length < 32768)
  ∧ (∃ (f : SFrame) (s : State), s.strm.cur = some f ∧ ¬(32 ≤ f.ch ∧ f.ch ≤ 47))
  ∧ (∃ (s : State), s.strm.cur = none)
  ∧ (∃ (f : SHdr) (p : List Byte) (s : State), strmLive s = true ∧ s.strm.si = .up ∧ strmEnabled s f.ch = true ∧ f.rsv = 0 ∧ f.len = p.length ∧ f.len ≤
    16384)
  ∧ (∃ (f : SHdr) (s : State), strmLive s = true ∧ s.strm.si = .up ∧ f.ch < 32)
  ∧ (∃ (s : State), s.strm.session ≠ 0 ∧ s.strm.si ≠ .up ∧ s.strm.siDownAt + 10000000000 ≤ s.clk.c)
  ∧ (∃ (via : Via) (s : State) (c : _) (t : State) (u : _), c = cmdOf 0x902 via s ∧ t = takenBy 0x902 via s ∧ u = (parcelRead 1 c t).2 ∧ cmdRuns 0x902 3
    .config via s = true ∧ wd c.words 2 = 16 ∧ parcelOk 1 c t = true ∧ (parcelRead 1 c t).1 = true ∧ strmCheck (bytesWords (parcelBytes 1 c t)) =
    none)
  ∧ (∃ (via : Via) (s : State) (c : _) (t : State), c = cmdOf 0x901 via s ∧ t = takenBy 0x901 via s ∧ cmdRuns 0x901 1 .observe via s = true) :=
  ⟨⟨true, true, tRun, _, rfl⟩,
    ⟨State.reset, by decide +kernel⟩,
    ⟨(tStrm tRun).onStrm fun t => { t with siClk := true, si := .down }, by decide +kernel⟩,
    ⟨true, (tStrm tRun).onStrm fun t => { t with si := .training }, by decide +kernel⟩,
    ⟨true, tStrm tRun, by decide +kernel⟩,
    ⟨tStrm tRun, by decide +kernel⟩,
    ⟨tStrm tRun, by decide +kernel, fun _ h => nomatch (show (none : Option Nat) = some _ from h)⟩,
    ⟨0, (tStrm tRun).onStrm fun t => { t with crdAt := some 0 }, by decide +kernel⟩,
    ⟨0, (tStrm tRun).onStrm fun t => { t with starved := some 0, credits := 0 }, by decide +kernel⟩,
    ⟨(tStrm tRun).onStrm fun t => { t with cfg := [0x80000100, 0xFFFFFFFF, 0xFFFFFFFF, 0], status := [tSFrame 63], credits := 0 }, by decide +kernel⟩,
    ⟨tSFrame 63, (tStrm tRun).onStrm fun t => { t with status := [tSFrame 63] }, by decide +kernel⟩,
    ⟨tSFrame 63, (tStrm tRun).onStrm fun t => { t with cur := some (tSFrame 63), curLeft := 1 }, by decide +kernel⟩,
    ⟨tSFrame 61, (tStrm tRun).onStrm fun t => { t with cur := some (tSFrame 61), curLeft := 0 }, by decide +kernel⟩,
    ⟨tSFrame 48, (tStrm tRun).onStrm fun t => { t with cur := some (tSFrame 48), curLeft := 0 }, by decide +kernel⟩,
    ⟨tSFrame 63, _, rfl, by decide +kernel⟩,
    ⟨tSFrame 63, tRun.onStrm fun t => { t with cur := some (tSFrame 63) }, by decide +kernel, (by decide)⟩,
    ⟨tRun, by decide +kernel⟩,
    ⟨{ ch := 63, type := 0, rsv := 0, seq := 0, len := 1, param := 0 }, [0], tStrm tRun, by decide +kernel⟩,
    ⟨{ ch := 31, type := 0, rsv := 0, seq := 0, len := 1, param := 0 }, tStrm tRun, by decide +kernel⟩,
    ⟨tAt 10000000000 (tRun.onStrm fun t => { t with session := 1 }), by decide +kernel⟩,
    ⟨.manger 0, tEnv 0x902 [tP, 16] tRun, _, _, _, rfl, rfl, rfl, by decide +kernel⟩,
    ⟨.manger 0, tAsk 0x901 [] tRun, _, _, rfl, rfl, by decide +kernel⟩⟩

/-- States and operands that meet the hypotheses of EventsAndScrub, clause by clause. -/
theorem witness_eventsAndScrub :
    (∃ (s : State), s.strm.evFrame ≠ [] ∧ s.strm.evFirst + 1000 ≤ s.clk.c)
  ∧ (∃ (m : RxMsg) (s : State), firstMsg (fun m => m.hdr.ftype == ftEvent) s = some m ∧ eventFrameOk m.payload = true)
  ∧ (∃ (m : RxMsg) (s : State), firstMsg (fun m => m.hdr.ftype == ftEvent) s = some m ∧ eventFrameOk m.payload = false)
  ∧ (∃ (e : _) (n : _) (r : _) (s : State), loftRuns s = true ∧ s.ev.collector = .event e n :: r)
  ∧ (∃ (src : _) (n : _) (r : _) (s : State), loftRuns s = true ∧ s.ev.collector = .lost src n :: r)
  ∧ (∃ (via : Via) (s : State) (c : _) (t : State) (y : _) (l : _) (u : _), c = cmdOf 0xA01 via s ∧ t = takenBy 0xA01 via s ∧ cmdRuns 0xA01 6 .observe via
    s = true ∧ parcelOk 4 c t = true ∧ readRecords (max (wd64 c.words 1) (retained t).1) (min (wd c.words 3) (wd c.words 5 / 32 + 1)) t = (y :: l, u)
    ∧ parcelOk 4 c u = true ∧ 0 < parcelFit 4 ((y :: l).map (·.2)) c)
  ∧ (∃ (via : Via) (s : State) (c : _), c = cmdOf 0xA02 via s ∧ cmdRuns 0xA02 3 .config via s = true ∧ wd c.words 1 ≤ 127 ∧ routeBad s.ev.dest (wd c.words
    2) = false)
  ∧ (∃ (cw : _) (r : _) (s : State), loftRuns s = true ∧ s.sys.braced = false ∧ s.loft.writeBack = cw :: r)
  ∧ (∃ (s : State), loftRuns s = true ∧ s.sys.braced = false ∧ s.loft.scrubPos + 1 < codewordCount)
  ∧ (∃ (s : State), loftRuns s = true ∧ s.sys.braced = false ∧ codewordCount ≤ s.loft.scrubPos + 1)
  ∧ (∃ (s : State), loftRuns s = true ∧ s.loft.overdue = false ∧ s.loft.scrubAt + s.loft.scrubH * 4500000000000 ≤ s.clk.c)
  ∧ (∃ (via : Via) (s : State) (c : _), c = cmdOf 0xB03 via s ∧ cmdRuns 0xB03 1 .observe via s = true) :=
  ⟨⟨tAt 1000 (tRun.onStrm fun t => { t with evFrame := [tEvt] }), by decide +kernel⟩,
    ⟨_, tGot (tIn ftEvent 1 ([1, 0, 0, 0] ++ List.replicate 24 0)) tRun, some_of (by decide +kernel), by decide +kernel⟩,
    ⟨_, tGot (tIn ftEvent 1 []) tRun, some_of (by decide +kernel), by decide +kernel⟩,
    ⟨tEvt, 1, [], tRun.onEv fun v => { v with collector := [.event tEvt 1] }, by decide +kernel⟩,
    ⟨0, 1, [], tRun.onEv fun v => { v with collector := [.lost 0 1] }, by decide +kernel⟩,
    ⟨.manger 0, tAsk 0xA01 [0, 0, 1, tP, 64] (tRun.onEv fun v => { v with recSeq := 1, recCount := 1 }), _, _, (0, List.replicate 32 0), [], takenBy 0xA01
    (.manger 0) (tAsk 0xA01 [0, 0, 1, tP, 64] (tRun.onEv fun v => { v with recSeq := 1, recCount := 1 })), rfl, rfl, by decide +kernel,
    by decide +kernel, rfl, by decide +kernel⟩,
    ⟨.manger 0, tEnv 0xA02 [127, 0] tRun, _, rfl, by decide +kernel⟩,
    ⟨5, [], tRun.onLoft fun l => { l with writeBack := [5] }, by decide +kernel⟩,
    ⟨tRun, by decide +kernel⟩,
    ⟨tRun.onLoft fun l => { l with scrubPos := 8388607 }, by decide +kernel⟩,
    ⟨tAt 4500000000000 (tRun.onLoft fun l => { l with scrubH := 1 }), by decide +kernel⟩,
    ⟨.manger 0, tAsk 0xB03 [] tRun, _, rfl, by decide +kernel⟩⟩

/-- States and operands that meet the hypotheses of ParcelsAndFlash, clause by clause. -/
theorem witness_parcelsAndFlash :
    (∃ (via : Via) (s : State) (c : _), c = cmdOf 0xB01 via s ∧ cmdRuns 0xB01 2 .operate via s = true ∧ wd c.words 1 ≠ 0 ∧ wd c.words 1 % 64 = 0 ∧ (∃ g ∈
    parcelGaps s, wd c.words 1 ≤ g.2))
  ∧ (∃ (via : Via) (s : State) (c : _) (t : State), c = cmdOf 0xB02 via s ∧ t = takenBy 0xB02 via s ∧ cmdRuns 0xB02 2 .operate via s = true ∧
    t.cmd.parcels.any (fun p => p.addr == wd c.words 1 && p.session == sessKey t c) = true)
  ∧ (∃ (via : Via) (s : State) (c : _) (t : State), c = cmdOf 0xB02 via s ∧ t = takenBy 0xB02 via s ∧ cmdRuns 0xB02 2 .operate via s = true ∧
    t.cmd.parcels.any (fun p => p.addr == wd c.words 1 && p.session == sessKey t c) = false)
  ∧ (∃ (via : Via) (s : State) (c : _) (t : State) (u : _) (p : _), c = cmdOf 0xB04 via s ∧ t = takenBy 0xB04 via s ∧ u = (parcelRead 2 c t).2 ∧ p =
    parcelBytes 2 c t ∧ cmdRuns 0xB04 4 .config via s = true ∧ wd c.words 1 ≤ 3 ∧ parcelOk 2 c t = true ∧ (parcelRead 2 c t).1 = true ∧ slotInUse u
    (wd c.words 1) = false ∧ (u.sys.dev ≠ .recovery ∨ wd c.words 1 < 2) ∧ slotRefusal u (wd c.words 1) p = none ∧ rsaWaiting false u < 16)
  ∧ (∃ (via : Via) (s : State) (c : _) (x : _), c = cmdOf 0xB05 via s ∧ x = slotOf s (wd c.words 1) ∧ cmdRuns 0xB05 2 .observe via s = true ∧ wd c.words 1
    ≤ 3)
  ∧ (∃ (o : _) (s : State), s.flash.op = some o ∧ o.started = true)
  ∧ (∃ (o : _) (s : State), s.flash.op = some o ∧ o.started = true ∧ o.retried = false)
  ∧ (∃ (o : _) (s : State), s.flash.op = some o ∧ o.started = true ∧ o.retried = true)
  ∧ (∃ (s : State), s.sys.dev = .stopped ∧ s.flash.reserve = false ∧ s.flash.op = none ∧ s.sys.braced = false)
  ∧ (∃ (via : Via) (s : State) (c : _), c = cmdOf 0xF01 via s ∧ cmdRuns 0xF01 1 .observe via s = true)
  ∧ (∃ (via : Via) (s : State) (c : _), c = cmdOf 0xF02 via s ∧ cmdRuns 0xF02 2 .service via s = true ∧ wd c.words 1 ≤ 3 ∧ s.sys.dev = .test ∧ natBit (wd
    c.words 1) 1 = true)
  ∧ (∃ (via : Via) (s : State) (c : _), c = cmdOf 0xF02 via s ∧ cmdRuns 0xF02 2 .service via s = true ∧ wd c.words 1 ≤ 3 ∧ s.sys.dev ≠ .test)
  ∧ (∃ (via : Via) (s : State) (c : _) (b : _), c = cmdOf 0xF03 via s ∧ b = natBit (wd c.words 1) 0 ∧ cmdRuns 0xF03 2 .service via s = true ∧ wd c.words 1
    ≤ 3 ∧ s.sys.dev = .test ∧ (endOf s b).st = .loopback ∧ natBit (wd c.words 1) 1 = true)
  ∧ (∃ (via : Via) (s : State) (c : _) (b : _), c = cmdOf 0xF03 via s ∧ b = natBit (wd c.words 1) 0 ∧ cmdRuns 0xF03 2 .service via s = true ∧ wd c.words 1
    ≤ 3 ∧ s.sys.dev = .test ∧ (endOf s b).st = .loopback ∧ natBit (wd c.words 1) 1 = false ∧ (endOf s b).prbs = true) :=
  ⟨⟨.manger 0, tAsk 0xB01 [64] tRun, _, rfl, by decide +kernel, by decide +kernel, (by decide +kernel), ⟨(tP, 25165824), by decide +kernel⟩⟩,
    ⟨.manger 0, tAsk 0xB02 [tP] (tRun.onCmd fun q => { q with parcels := [{ addr := tP, len := 64, session := 1 }] }), _, _, rfl, rfl, by decide +kernel⟩,
    ⟨.manger 0, tAsk 0xB02 [tP] tRun, _, _, rfl, rfl, by decide +kernel⟩,
    ⟨.manger 0, tEnv 0xB04 [1, tP, 416] (tPut (wordBytes tImage) tRun), _, _, _, _, rfl, rfl, rfl, rfl, by decide +kernel⟩,
    ⟨.manger 0, tAsk 0xB05 [3] tRun, _, _, rfl, rfl, by decide +kernel⟩,
    ⟨tFlash false, tRun.onFlash fun f => { f with op := some (tFlash false) }, by decide +kernel⟩,
    ⟨tFlash false, tRun.onFlash fun f => { f with op := some (tFlash false) }, by decide +kernel⟩,
    ⟨tFlash true, tRun.onFlash fun f => { f with op := some (tFlash true) }, by decide +kernel⟩,
    ⟨tStop.onFlash fun f => { f with reserve := false }, by decide +kernel⟩,
    ⟨.manger 0, tAsk 0xF01 [] tRun, _, rfl, by decide +kernel⟩,
    ⟨.manger 0, tAsk 0xF02 [3] tTest, _, rfl, by decide +kernel⟩,
    ⟨.manger 0, tAsk 0xF02 [3] tRun, _, rfl, by decide +kernel⟩,
    ⟨.manger 0, tAsk 0xF03 [3] (tEnd true (fun e => { e with st := .loopback }) tTest), _, _, rfl, rfl, by decide +kernel⟩,
    ⟨.manger 0, tAsk 0xF03 [1] (tEnd true (fun e => { e with st := .loopback, prbs := true }) tTest), _, _, rfl, rfl, by decide +kernel⟩⟩

/-- States and operands that meet the hypotheses of DeviceCommands, clause by clause. -/
theorem witness_deviceCommands :
    (∃ (via : Via) (s : State) (c : _) (t : State), c = cmdOf 0x001 via s ∧ t = takenBy 0x001 via s ∧ cmdRuns 0x001 1 .observe via s = true)
  ∧ (∃ (via : Via) (s : State) (c : _) (t : State), c = cmdOf 0x002 via s ∧ t = takenBy 0x002 via s ∧ cmdRuns 0x002 1 .observe via s = true)
  ∧ (∃ (m : _) (s : State) (c : _) (t : State) (n : _), c = cmdOf 0x003 (.manger m) s ∧ t = takenBy 0x003 (.manger m) s ∧ n = nextSession t ∧ cmdRuns
    0x003 2 .observe (.manger m) s = true ∧ c.via = .manger m ∧ m < 10 ∧ wd c.words 1 ≤ 9 ∧ t.host.session = 0)
  ∧ (∃ (m : _) (s : State) (c : _) (t : State) (n : _), c = cmdOf 0x003 (.manger m) s ∧ t = takenBy 0x003 (.manger m) s ∧ n = nextSession t ∧ cmdRuns
    0x003 2 .observe (.manger m) s = true ∧ c.via = .manger m ∧ 10 ≤ m ∧ m < 12 ∧ wd c.words 1 = 0 ∧ s.strm.session = 0)
  ∧ (∃ (m : _) (s : State) (c : _) (t : State), c = cmdOf 0x004 (.manger m) s ∧ t = takenBy 0x004 (.manger m) s ∧ cmdRuns 0x004 1 .observe (.manger m) s =
    true ∧ c.via = .manger m ∧ m < 10 ∧ c.session ≠ 0 ∧ t.host.session = c.session)
  ∧ (∃ (via : Via) (s : State) (c : _), c = cmdOf 0x007 via s ∧ cmdRuns 0x007 1 .operate via s = true ∧ startReady s = true ∧ markedWithoutMark s = false)
  ∧ (∃ (via : Via) (s : State) (c : _), c = cmdOf 0x007 via s ∧ cmdRuns 0x007 1 .operate via s = true ∧ markedWithoutMark s = true)
  ∧ (∃ (via : Via) (s : State) (c : _), c = cmdOf 0x007 via s ∧ cmdRuns 0x007 1 .operate via s = true ∧ markedWithoutMark s = false ∧ startReady s =
    false)
  ∧ (∃ (via : Via) (s : State) (c : _), c = cmdOf 0x00A via s ∧ cmdRuns 0x00A 1 .serviceTest via s = true ∧ s.sys.dev = .stopped)
  ∧ (∃ (via : Via) (s : State) (c : _), c = cmdOf 0x101 via s ∧ cmdRuns 0x101 1 .observe via s = true)
  ∧ (∃ (via : Via) (s : State) (c : _) (t : State) (l : _), c = cmdOf 0x102 via s ∧ t = takenBy 0x102 via s ∧ l = s.inaug.numbering.map numEntryBytes ∧
    cmdRuns 0x102 3 .observe via s = true ∧ parcelOk 1 c t = true ∧ (l = [] ∨ 0 < parcelFit 1 l c))
  ∧ (∃ (via : Via) (s : State) (c : _) (t : State) (l : _), c = cmdOf 0x103 via s ∧ t = takenBy 0x103 via s ∧ l = s.lane.src.map (fun e => (srcWords t
    e).flatMap (leBytes 4)) ∧ cmdRuns 0x103 3 .observe via s = true ∧ parcelOk 1 c t = true ∧ (l = [] ∨ 0 < parcelFit 1 l c))
  ∧ (∃ (via : Via) (s : State) (c : _), c = cmdOf 0x104 via s ∧ cmdRuns 0x104 1 .observe via s = true)
  ∧ (∃ (via : Via) (s : State) (c : _), c = cmdOf 0x105 via s ∧ cmdRuns 0x105 1 .operate via s = true ∧ s.sys.dev = .integrating ∧ s.inaug.role = .guest)
  ∧ (∃ (via : Via) (s : State) (c : _) (t : State) (l : _), c = cmdOf 0x301 via s ∧ t = takenBy 0x301 via s ∧ l = wordBytes s.plan.hdr ::
    s.plan.entries.map wordBytes ∧ cmdRuns 0x301 3 .observe via s = true ∧ planLoaded s = true ∧ parcelOk 1 c t = true ∧ 0 < parcelFit 1 l c)
  ∧ (∃ (via : Via) (s : State) (c : _) (t : State) (l : _), c = cmdOf 0x302 via s ∧ t = takenBy 0x302 via s ∧ l = s.plan.images.map (fun i => leBytes 4
    (i.entry * 65536 + b2n i.out * 32768) ++ leBytes 4 (imgAddr t i.entry i.out)) ∧ cmdRuns 0x302 3 .observe via s = true ∧ parcelOk 1 c t = true ∧ (l
    = [] ∨ 0 < parcelFit 1 l c))
  ∧ (∃ (via : Via) (s : State) (c : _), c = cmdOf 0x303 via s ∧ cmdRuns 0x303 4 .config via s = true ∧ wd c.words 1 ≤ 15 ∧ s.sys.dev = .stopped ∧
    planLoaded s = true ∧ markCheck s.plan.hdr ((c.words.drop 2).take 2) = none)
  ∧ (∃ (via : Via) (s : State) (c : _) (t : State) (u : _) (p : List Byte) (n : _) (bs : _), c = cmdOf 0x304 via s ∧ t = takenBy 0x304 via s ∧ u =
    (parcelRead 1 c t).2 ∧ p = parcelBytes 1 c t ∧ n = le p 0 4 ∧ bs = (bytesWords (p.drop 4)).take n ∧ cmdRuns 0x304 3 .config via s = true ∧
    parcelOk 1 c t = true ∧ (parcelRead 1 c t).1 = true ∧ n ≤ 1024 ∧ 4 + 4 * n ≤ p.length ∧ u.sys.dev = .stopped ∧ planLoaded u = true ∧ bindCheck
    u.plan.entries bs = none)
  ∧ (∃ (via : Via) (s : State) (c : _) (t : State) (l : _), c = cmdOf 0x305 via s ∧ t = takenBy 0x305 via s ∧ l = (List.range 16).map (fun m => wordBytes
    [(markRec t m).getD 0 0, (markRec t m).getD 1 0]) ++ s.plan.binds.map (fun w => wordBytes [w]) ∧ cmdRuns 0x305 3 .observe via s = true ∧ parcelOk
    1 c t = true ∧ 0 < parcelFit 1 l c)
  ∧ (∃ (via : Via) (s : State) (c : _) (t : State), c = cmdOf 0x00C via s ∧ t = takenBy 0x00C via s ∧ cmdRuns 0x00C 2 .config via s = true ∧ wd c.words 1
    ≤ 1 ∧ s.sys.dev = .stopped ∧ s.sys.katFail = false ∧ rsaWaiting false t < 16)
  ∧ (∃ (via : Via) (s : State) (c : _) (t : State), c = cmdOf 0x00C via s ∧ t = takenBy 0x00C via s ∧ cmdRuns 0x00C 2 .config via s = true ∧ wd c.words 1
    ≤ 1 ∧ s.sys.katFail = true)
  ∧ (∃ (via : Via) (ws : _) (s : State), takesMsgs s = true ∧ s.cmd.ready = none ∧ hasTurn s via = true ∧ waitingMsg s via = some ws ∧ knownCodes.contains
    (msgCode ws) = false) :=
  ⟨⟨.manger 0, tAsk 0x001 [] tRun, _, _, rfl, rfl, by decide +kernel⟩,
    ⟨.manger 0, tAsk 0x002 [] tRun, _, _, rfl, rfl, by decide +kernel⟩,
    ⟨9, tMsg 9 0 0x003 [9] tRun, _, _, _, rfl, rfl, rfl, by decide +kernel⟩,
    ⟨11, tMsg 11 0 0x003 [0] tRun, _, _, _, rfl, rfl, rfl, by decide +kernel⟩,
    ⟨0, tAsk 0x004 [] tRun, _, _, rfl, rfl, by decide +kernel⟩,
    ⟨.manger 0, tAsk 0x007 [] ((tPlan 5 0 tStop).onRcp fun r => { r with loaded := true }), _, rfl, by decide +kernel⟩,
    ⟨.manger 0, tAsk 0x007 [] (tCh 0x84000000 0 id tRun), _, rfl, by decide +kernel⟩,
    ⟨.manger 0, tAsk 0x007 [] tRun, _, rfl, by decide +kernel⟩,
    ⟨.manger 0, tAsk 0x00A [] tStop, _, rfl, by decide +kernel⟩,
    ⟨.manger 0, tAsk 0x101 [] tRun, _, rfl, by decide +kernel⟩,
    ⟨.manger 0, tAsk 0x102 [tP, 64] tRun, _, _, [], rfl, rfl, by decide +kernel⟩,
    ⟨.manger 0, tAsk 0x103 [tP, 64] tRun, _, _, [], rfl, rfl, by decide +kernel⟩,
    ⟨.manger 0, tAsk 0x104 [] tRun, _, rfl, by decide +kernel⟩,
    ⟨.manger 0, tAsk 0x105 [] (tRole .guest (tDev .integrating State.reset)), _, rfl, by decide +kernel⟩,
    ⟨.manger 0, tAsk 0x301 [tP, 64] (tPlan 2 0 tRun), _, _, wordBytes (tPlan 2 0 tRun).plan.hdr :: (tPlan 2 0 tRun).plan.entries.map wordBytes, rfl, rfl,
    by decide +kernel⟩,
    ⟨.manger 0, tAsk 0x302 [tP, 64] tRun, _, _, [], rfl, rfl, by decide +kernel⟩,
    ⟨.manger 0, tEnv 0x303 [15, 0, 0] (tPlan 2 0 tStop), _, rfl, by decide +kernel⟩,
    ⟨.manger 0, tEnv 0x304 [tP, 4] (tPlan 2 0 tStop), _, _, _, _, _, _, rfl, rfl, rfl, rfl, rfl, rfl, by decide +kernel⟩,
    ⟨.manger 0, tAsk 0x305 [tP, 64] tRun, _, _, List.replicate 16 (List.replicate 8 0), rfl, rfl, by decide +kernel⟩,
    ⟨.manger 0, tEnv 0x00C [1] tStop, _, _, rfl, rfl, by decide +kernel⟩,
    ⟨.manger 0, (tEnv 0x00C [1] tStop).onSys fun x => { x with katFail := true }, _, _, rfl, rfl, by decide +kernel⟩,
    ⟨.manger 0, _, tAsk 0xFFF [] tRun, by decide +kernel, by decide +kernel, (by decide +kernel), some_of (by decide +kernel), by decide +kernel⟩⟩

/-- States and operands that meet the hypotheses of StepTakesFront, clause by clause. -/
theorem witness_stepTakesFront :
    (∃ (c : _) (r : _) (s : State), s.pending = c :: r)
  ∧ (∃ (s : State) (s1 : State) (s2 : State), s.pending = [] ∧ s1 = (if laneCycle s.clk.c ≠ laneCycle (s.clk.c + 1) then flushEvents (flushTails s) else
    s) ∧ s2 = (if s.clk.c % 10 = 9 then enterLates s1 else s1))
  ∧ (∃ (s : State), s.sys.resetAt = none)
  ∧ (∃ (t : _) (s : State), s.sys.resetAt = some t ∧ s.clk.c < t + 1000000)
  ∧ (∃ (t : _) (s : State), s.sys.resetAt = some t ∧ t + 1000000 ≤ s.clk.c)
  ∧ (∃ (s : State), (∀ d ∈ s.loft.damage, d.2 = .one ∨ mib ≤ d.1))
  ∧ (∃ (s : State), s.lane.tailB = [])
  ∧ (∃ (s : State), (∀ y ∈ s.ports, y.late = none)) :=
  ⟨⟨.ownPresentRelease, [], { tRun with pending := [.ownPresentRelease] }, by decide +kernel⟩,
    ⟨tRun, _, _, by decide +kernel, rfl, rfl⟩,
    ⟨tRun, by decide +kernel⟩,
    ⟨0, tRun.onSys fun x => { x with resetAt := some 0 }, by decide +kernel⟩,
    ⟨0, tAt 1000000 (tRun.onSys fun x => { x with resetAt := some 0 }), by decide +kernel⟩,
    ⟨tRun, by decide +kernel⟩,
    ⟨tRun, by decide +kernel⟩,
    ⟨tRun, by decide +kernel⟩⟩


/-- States and operands that meet the hypotheses of HeaderRoundTrip, clause by clause. -/
theorem witness_headerRoundTrip :
    ∃ (h : Hdr), h.wf = true :=
  ⟨tHdr 1, by decide +kernel⟩

/-- States and operands that meet the hypotheses of HayloftFormKept, clause by clause. -/
theorem witness_hayloftFormKept :
    ∃ (s : State) (t : State), Machine.Inv s ∧ step s = .next t :=
  ⟨State.reset, _, show Memory.wf [] = true from rfl, rfl⟩

/-- States and operands that meet the hypotheses of HayloftWrite, clause by clause. -/
theorem witness_hayloftWrite :
    (∃ (a : Nat) (p : List Byte) (s : State) (b : Nat), 0 < regionSize s 3 ∧ (b < regionBase s 3 ∨ regionBase s 4 ≤ b) ∧ (b < a ∨ a + p.length ≤ b))
  ∧ (∃ (a : Nat) (p : List Byte) (s : State), Machine.Inv s ∧ 0 < regionSize s 3 ∧ (a + p.length ≤ regionBase s 3 ∨ regionBase s 4 ≤ a))
  ∧ (∃ (a : Nat) (p : List Byte) (s : State) (b : Nat), s.loft.damage = [] ∧ (b < a ∨ a + p.length ≤ b))
  ∧ (∃ (s : State), Machine.Inv s ∧ s.loft.damage = [])
  ∧ (∃ (s : State) (b : Nat), 0 < regionSize s 3 ∧ (b < regionBase s 3 ∨ regionBase s 4 ≤ b))
  ∧ (∃ (s : State), s.loft.damage = []) :=
  ⟨⟨tP, [1], tRun, regionBase tRun 4, by decide +kernel⟩,
    ⟨tP, [1], State.reset, show Memory.wf [] = true from rfl, by decide +kernel⟩,
    ⟨tP, [1], tRun, tP + 1, by decide +kernel⟩,
    ⟨State.reset, show Memory.wf [] = true from rfl, by decide +kernel⟩,
    ⟨tRun, regionBase tRun 4, by decide +kernel⟩,
    ⟨tRun, by decide +kernel⟩⟩

/-- States and operands that meet the hypotheses of CopiesOfAFrame, clause by clause. -/
theorem witness_copiesOfAFrame :
    (∃ (f : _) (o : _) (together : _) (s : State) (t : _) (endB : Bool) (x : _), commit f o together s = some t ∧ (endOf t endB).tx = some x ∧ (endOf s
    endB).tx ≠ some x)
  ∧ (∃ (f : _) (o : _) (together : _) (s : State) (t : _) (c : _), commit f o together s = some t ∧ c ∈ t.lane.copies ∧ c ∉ s.lane.copies)
  ∧ (∃ (f : _) (o : _) (together : _) (s : State) (t : _) (x : _) (y : _), commit f o together s = some t ∧ (endOf t false).tx = some x ∧ (endOf s
    false).tx ≠ some x ∧ (endOf t true).tx = some y ∧ (endOf s true).tx ≠ some y) :=
  ⟨⟨tFrame, tO, false, tOcc, _, false, _, some_of (by decide +kernel), some_of (by decide +kernel), by decide +kernel⟩,
    ⟨tFrame, tO, false, tOcc, _, ((commit tFrame tO false tOcc).elim [] fun x => x.lane.copies).headD ⟨true, tHdr 1, [], 0⟩, some_of (by decide +kernel),
    by decide +kernel⟩,
    ⟨tFrame, tO, true, tNet .member 3 0, _, _, _, some_of (by decide +kernel), some_of (by decide +kernel), by decide +kernel, some_of
    (by decide +kernel), by decide +kernel⟩⟩

/-- States and operands that meet the hypotheses of SegmentationStates, clause by clause. -/
theorem witness_segmentationStates :
    (∃ (via : Via) (s : State) (t : State), exec (.segmentSend via) s = .next t ∧ s.yard.seg = none ∧ t.yard.seg ≠ none)
  ∧ (∃ (via : Via) (s : State) (c : _) (t : State) (u : _) (p : List Byte) (n : _), c = cmdOf 0x807 via s ∧ t = takenBy 0x807 via s ∧ u = (parcelRead 2 c
    t).2 ∧ p = parcelBytes 2 c t ∧ cmdRuns 0x807 4 .operate via s = true ∧ s.sys.dev ≠ .startup ∧ s.sys.dev ≠ .test ∧ s.sys.dev ≠ .recovery ∧ wd
    c.words 1 % 65536 < 6 ∧ 256 ≤ wd c.words 1 / 65536 ∧ wd c.words 1 / 65536 ≤ 8952 ∧ parcelOk 2 c t = true ∧ (parcelRead 2 c t).1 = true ∧ segHdr p
    = some n ∧ p.length - (n - 8) ≤ 4194304) :=
  ⟨⟨.manger 0, tAsk 0x807 [0x1000005, tP, 44] (tPut ((tIp 30 17 0 [0, 0, 0, 0, 0, 10, 0, 0]).take 44) tTest), _, rfl, by decide +kernel⟩,
    ⟨.manger 0, tAsk 0x807 [0x1000005, tP, 44] (tPut ((tIp 30 17 0 [0, 0, 0, 0, 0, 10, 0, 0]).take 44) tRun), _, _, _, _, _, rfl, rfl, rfl, rfl,
    by decide +kernel, by decide +kernel, (by decide +kernel), by decide +kernel, by decide +kernel, (by decide +kernel), by decide +kernel,
    by decide +kernel, (by decide +kernel), some_of (by decide +kernel), by decide +kernel⟩⟩

/-- States and operands that meet the hypotheses of ReadsChangeNothing, clause by clause. -/
theorem witness_readsChangeNothing :
    ∃ (via : Via) (i : _), i ∈ [Instr.deviceId via, .deviceStatus via, .trainStatus via, .couplerStatus via, .timeRead via, .timeStatus via, .portStatus
    via, .yardStatus via, .streamStatus via, .hayloftStatus via, .slotInfo via, .diagRead via] :=
  ⟨.manger 0, .deviceId (.manger 0), by decide +kernel⟩

/-- States and operands that meet the hypotheses of ForwardMap, clause by clause. -/
theorem witness_forwardMap :
    (∃ (endB : Bool) (h : Hdr) (e : _) (s : State), (endOf s endB).st = .up ∧ (endOf s endB).rx = none ∧ forwards s = true ∧ h.adm ≠ 0 ∧ (endOf s
    (!endB)).st = .up ∧ ownKeyed s h = false ∧ h.hops < 64 ∧ h.len ≤ 1996 ∧ h.poison = false ∧ srcFind s false h.adm = some e ∧ keyValid s e.key =
    true)
  ∧ (∃ (endB : Bool) (h : Hdr) (e : _) (s : State) (t : State), exec (.frameHeader endB h) s = .next t ∧ srcFind s false h.adm = some e ∧ keyValid s e.key
    = true ∧ h.adm ≠ 0 ∧ ((endOf s (!endB)).st ≠ .up ∨ ownKeyed s h = true ∨ 64 ≤ h.hops ∨ 1996 < h.len ∨ h.poison = true))
  ∧ (∃ (endB : Bool) (body : List Byte) (tag : _) (fcs : _) (errBlock : Bool) (badBlock : _) (r : RxFrame) (s : State) (t : State), exec (.frameTail endB
    body tag fcs errBlock badBlock) s = .next t ∧ (endOf s endB).rx = some r ∧ (endB = true ∨ s.lane.tailB = []) ∧ (errBlock = true ∨ r.hdr.poison =
    true ∨ fcsPasses r.hdr body tag fcs = false ∨ (∃ k, tailKey s r.hdr = some k ∧ tag ≠ tagOf k r.hdr (body.take r.hdr.len)))) :=
  ⟨⟨true, tHdr 1, newEntry false 1 0 0, tKey (tUp (tRun.onLane fun l => { l with src := [newEntry false 1 0 0] })), by decide +kernel⟩,
    ⟨true, { tHdr 1 with hops := 64 }, newEntry false 1 0 0, tKey (tUp (tRun.onLane fun l => { l with src := [newEntry false 1 0 0] })), _, rfl,
    by decide +kernel⟩,
    ⟨true, [], 0, 0, true, true, tRx 1, tEnd true (fun e => { e with rx := some (tRx 1) }) tRun, _, rfl, rfl, Or.inl rfl, Or.inl rfl⟩⟩

/-- States and operands that meet the hypotheses of KeyUnknown, clause by clause. -/
theorem witness_keyUnknown :
    (∃ (endB : Bool) (body : List Byte) (r : RxFrame) (s : State), (endOf s endB).rx = some r ∧ r.hdr.poison = false ∧ tailKey s r.hdr = none ∧
    body.length = max r.hdr.len 12 ∧ (endB = true ∨ s.lane.tailB = []) ∧ (r.hdr.ftype ≠ ftReference ∨ s.sec.keys ≠ []))
  ∧ (∃ (endB : Bool) (body : List Byte) (tag : _) (badBlock : _) (r : RxFrame) (s : State) (t : State), (endOf s endB).rx = some r ∧ r.hdr.poison = false
    ∧ body.length = max r.hdr.len 12 ∧ (endB = true ∨ s.lane.tailB = []) ∧ (tailKey s r.hdr = none ∨ ∃ k, tailKey s r.hdr = some k ∧ tag = tagOf k
    r.hdr (body.take r.hdr.len)) ∧ exec (.frameTail endB body tag (fcsOf r.hdr body tag) false badBlock) s = .next t) :=
  ⟨⟨true, List.replicate 12 0, tRx 1, tEnd true (fun e => { e with rx := some (tRx 1) }) tRun, by decide +kernel, by decide +kernel, (by decide +kernel),
    by decide +kernel, Or.inl rfl, Or.inl (by decide +kernel)⟩,
    ⟨true, List.replicate 12 0, 0, true, tRx 1, tEnd true (fun e => { e with rx := some (tRx 1) }) tRun, _, by decide +kernel, by decide +kernel,
    (by decide +kernel), Or.inl rfl, Or.inl (by decide +kernel), rfl⟩⟩

end Sys2Proof.Tests
end

section
/-!
SUPPORT. Where segmentation offload is accepted (R29): what a command that is not serialised leaves alone when its body does not run, and
from it what a SEGMENT_SEND does outside STARTUP, TEST and RECOVERY.
-/

namespace Sys2Proof.Laws

open Sys2Proof Sys2Proof.Machine

/-! Commands and parcels that are refused. -/

@[simp] theorem quiet_privError (c : Ctx) (s : State) : quiet (privError c s) = quiet s := quiet_reply _ _ _ _ _
@[simp] theorem quiet_integrityError (c : Ctx) (n : Nat) (s : State) : quiet (integrityError c n s) = quiet s := quiet_reply _ _ _ _ _

/-- A command that fails the common checks of R386 gets a reply and does nothing else. -/
theorem quiet_checkCmd_of_not_passes {used : Nat} {need : Need} {body : Ctx → State → State} {c : Ctx} {s : State}
    (h : passes used need c s = false) : quiet (checkCmd used need body c s) = quiet s := by
  unfold checkCmd
  simp only
  split
  · exact quiet_stateError _ _
  split
  · exact quiet_badParam _ _ _ _
  split
  · exact quiet_badParam _ _ _ _
  split
  · exact quiet_stateError _ _
  split
  · exact quiet_privError _ _
  split
  · exact quiet_badParam _ _ _ _
  · next hrec htag hlen hsess hpriv hrest =>
    have hpasses : passes used need c s = true := by grind [passes]
    exact absurd h (by simp [hpasses])

/-- A command that is not serialised (R393) and whose body does not run changes nothing, or is taken and gets a reply. -/
theorem firmware_not_run {code used : Nat} {need : Need} {body : Ctx → State → State} {via : Via} {s : State}
    (hs : serialised need code = false) (h : cmdRuns code used need via s = false) :
    firmware code used need body via s = s ∨ quiet (firmware code used need body via s) = quiet (takenBy code via s) := by
  unfold firmware
  split
  · exact .inl rfl
  next htakes =>
  split
  · next c hr =>
    split
    · exact .inl rfl
    · next hheld =>
      have hp : passes used need c (takeReady s) = false := by
        grind [cmdRuns, cmdOf, takenBy]
      refine .inr ?_
      simp only [takenBy, hr]
      exact quiet_checkCmd_of_not_passes hp
  next hr =>
  split
  · exact .inl rfl
  next hturn =>
  split
  · exact .inl rfl
  next ws hw =>
  split
  · exact .inl rfl
  next hnext =>
  have hp : passes used need (ctxOf s via ws) (takeMsg via s) = false := by
    grind [cmdRuns, cmdOf, takenBy]
  refine .inr ?_
  simp only [takenBy, hr, hs, Bool.false_eq_true, if_false]
  exact quiet_checkCmd_of_not_passes hp

/-- A pair of words that names no usable parcel is refused with a reply (R389, R390). -/
theorem quiet_withParcel_of_not_ok {i : Nat} {f : Nat → Nat → State → State} {c : Ctx} {s : State} (h : parcelOk i c s = false) :
    quiet (withParcel i f c s) = quiet s := by
  unfold withParcel
  simp only
  split
  · exact quiet_badParam _ _ _ _
  split
  · exact quiet_privError _ _
  · simp_all [parcelOk]

/-- An input parcel is refused with a reply (R389, R390), or it is sound and read whole. -/
theorem readParcel_cases (i : Nat) (f : List Byte → State → State) (c : Ctx) (s : State) :
    quiet (readParcel i f c s) = quiet s
      ∨ (parcelOk i c s = true ∧ (parcelRead i c s).1 = true
        ∧ readParcel i f c s = f (parcelBytes i c s) (parcelRead i c s).2) := by
  cases hok : parcelOk i c s with
  | false => exact .inl (quiet_withParcel_of_not_ok hok)
  | true =>
    cases hr : (parcelRead i c s).1 with
    | true => exact .inr ⟨rfl, rfl, readParcel_ok hok hr⟩
    | false =>
      cases hc : c.copy with
      | some p => simp [parcelRead, hc] at hr
      | none =>
        simp only [parcelRead, hc] at hr
        simp [readParcel, withParcel_ok hok, hc, hr]

@[simp] theorem quiet_parcelRead (i : Nat) (c : Ctx) (s : State) : quiet (parcelRead i c s).2 = quiet s := by
  unfold parcelRead
  split
  · rfl
  · exact quiet_loftCheck _ _ _ _

/-! The segmented send in progress. -/

theorem seg_of_quiet {s t : State} (h : quiet t = quiet s) : t.yard.seg = s.yard.seg := by
  have e := congrArg (fun x : State => x.yard.seg) h
  exact e

@[simp] theorem takenBy_seg (code : Nat) (via : Via) (s : State) : (takenBy code via s).yard.seg = s.yard.seg := by
  unfold takenBy
  split
  · rfl
  · cases via <;> rfl

/-! SEGMENT_SEND outside STARTUP, TEST and RECOVERY (R29, R339). -/

/-- The device states in which segmentation offload is accepted. -/
def segAccepts (s : State) : Prop := s.sys.dev = .startup ∨ s.sys.dev = .test ∨ s.sys.dev = .recovery

/-- The same as the model's test. -/
theorem segAccepts_eq_false {s : State} (h : ¬ segAccepts s) :
    (s.sys.dev == .startup || s.sys.dev == .test || s.sys.dev == .recovery) = false := by
  simpa [segAccepts, and_assoc] using h

/-- Taking a message leaves the device state. -/
theorem not_segAccepts_takenBy {code : Nat} {via : Via} {s : State} (h : ¬ segAccepts s) : ¬ segAccepts (takenBy code via s) := by
  simpa [segAccepts] using h

/-- Outside RECOVERY the command needs OPERATE. -/
theorem exec_segmentSend {via : Via} {s : State} (hdev : ¬ segAccepts s) :
    exec (.segmentSend via) s = .next (firmware 0x807 4 .operate cmdSegmentSend via s) := by
  have hrec : (s.sys.dev == .recovery) = false := by simp_all [segAccepts]
  show execSegmentSend via s = _
  simp only [execSegmentSend, hrec, Bool.false_eq_true, if_false]

theorem cmdSegmentSend_stateError {c : Ctx} {s : State} {n : Nat} (hdev : ¬ segAccepts s) (hq : wd c.words 1 % 65536 < 6)
    (hlo : 256 ≤ wd c.words 1 / 65536) (hhi : wd c.words 1 / 65536 ≤ 8952) (hok : parcelOk 2 c s = true)
    (hr : (parcelRead 2 c s).1 = true) (hn : segHdr (parcelBytes 2 c s) = some n)
    (hlen : (parcelBytes 2 c s).length - (n - 8) ≤ 4194304) :
    cmdSegmentSend c s = stateError c (parcelRead 2 c s).2 := by
  have hword : (decide (wd c.words 1 % 65536 ≥ 6) || decide (wd c.words 1 / 65536 < 256) || decide (8952 < wd c.words 1 / 65536)) = false := by
    simp; omega
  simp only [cmdSegmentSend, hword, readParcel_ok hok hr, hn, Nat.not_lt.mpr hlen, segAccepts_eq_false hdev, Bool.false_eq_true, if_false,
    Bool.not_false, if_true]

theorem quiet_cmdSegmentSend {c : Ctx} {s : State} (hdev : ¬ segAccepts s) : quiet (cmdSegmentSend c s) = quiet s := by
  unfold cmdSegmentSend
  simp only [segAccepts_eq_false hdev]
  refine quiet_ite _ _ _ _ (quiet_badParam _ _ _ _) ?_
  obtain hq | ⟨-, -, hread⟩ := readParcel_cases 2 _ c s
  · exact hq
  rw [hread]
  split
  · simp
  · simp only [Bool.not_false, if_true]
    exact quiet_ite _ _ _ _ (by simp) (by simp)

/-- Outside the states of R29 a SEGMENT_SEND leaves the segmented send in progress as it is. -/
theorem segmentSend_keeps_seg {via : Via} {s t : State} (hdev : ¬ segAccepts s) (h : exec (.segmentSend via) s = .next t) :
    t.yard.seg = s.yard.seg := by
  rw [exec_segmentSend hdev] at h
  cases h
  cases hruns : cmdRuns 0x807 4 .operate via s with
  | true =>
    rw [firmware_runs hruns, seg_of_quiet (quiet_cmdSegmentSend (not_segAccepts_takenBy hdev)), takenBy_seg]
  | false =>
    obtain hsame | hquiet := firmware_not_run (body := cmdSegmentSend) (by rfl) hruns
    · rw [hsame]
    · rw [seg_of_quiet hquiet, takenBy_seg]

/-- Settles O50: outside the states of R29 a SEGMENT_SEND that runs is refused, and one that does not run starts nothing. -/
theorem segmentationStates : Obligations.SegmentationStates := by
  unfold Obligations.SegmentationStates
  constructor
  · intro via s t h hnone hsome
    by_contra hdev
    exact hsome ((segmentSend_keeps_seg hdev h).trans hnone)
  · rintro via s c t u p n rfl rfl rfl rfl hruns hstartup htest hrecovery hq hlo hhi hok hr hn hlen
    have hdev : ¬ segAccepts s := by simp [segAccepts, hstartup, htest, hrecovery]
    rw [exec_segmentSend hdev, firmware_runs hruns,
      cmdSegmentSend_stateError (not_segAccepts_takenBy hdev) hq hlo hhi hok hr hn hlen]

end Sys2Proof.Laws
end

section
/-!
SUPPORT. What leaves the coupler ends: the operations of delivery, of train time and of membership leave the ends and the committed copies
alone, one lemma per shared operation.
-/

namespace Sys2Proof.Laws

open Sys2Proof Sys2Proof.Machine

/-- Both coupler ends and the committed copies that wait at them: what the lane transmitter goes by. -/
def egress (s : State) : CplEnd × CplEnd × List TxCopy := (s.ends.a, s.ends.b, s.lane.copies)

theorem endOf_of_egress {s t : State} (h : egress t = egress s) (endB : Bool) : endOf t endB = endOf s endB := by
  simp only [egress, Prod.mk.injEq] at h
  obtain ⟨ha, hb, -⟩ := h
  simp only [endOf, ha, hb]

theorem copies_of_egress {s t : State} (h : egress t = egress s) : t.lane.copies = s.lane.copies := by
  simp only [egress, Prod.mk.injEq] at h
  exact h.2.2

theorem egress_of_parts {s t : State} (hends : t.ends = s.ends) (hcopies : t.lane.copies = s.lane.copies) : egress t = egress s := by
  simp only [egress, hends, hcopies]

theorem egress_of_quiet {s t : State} (h : quiet t = quiet s) : egress t = egress s := by
  have e := congrArg egress h
  exact e

/-! Updates of a part of the state, and how operations are put together. -/

@[simp] theorem egress_onSys (s : State) (f) : egress (s.onSys f) = egress s := egress_of_parts rfl rfl
@[simp] theorem egress_onInaug (s : State) (f) : egress (s.onInaug f) = egress s := egress_of_parts rfl rfl
@[simp] theorem egress_onLdr (s : State) (f) : egress (s.onLdr f) = egress s := egress_of_parts rfl rfl
@[simp] theorem egress_onClk (s : State) (f) : egress (s.onClk f) = egress s := egress_of_parts rfl rfl
@[simp] theorem egress_onRef (s : State) (f) : egress (s.onRef f) = egress s := egress_of_parts rfl rfl
@[simp] theorem egress_onTeth (s : State) (f) : egress (s.onTeth f) = egress s := egress_of_parts rfl rfl
@[simp] theorem egress_onPlan (s : State) (f) : egress (s.onPlan f) = egress s := egress_of_parts rfl rfl
@[simp] theorem egress_onFld (s : State) (f) : egress (s.onFld f) = egress s := egress_of_parts rfl rfl
@[simp] theorem egress_onSec (s : State) (f) : egress (s.onSec f) = egress s := egress_of_parts rfl rfl
@[simp] theorem egress_onHost (s : State) (f) : egress (s.onHost f) = egress s := egress_of_parts rfl rfl
@[simp] theorem egress_onBrg (s : State) (f) : egress (s.onBrg f) = egress s := egress_of_parts rfl rfl
@[simp] theorem egress_onFlash (s : State) (f) : egress (s.onFlash f) = egress s := egress_of_parts rfl rfl
@[simp] theorem egress_onCtr (s : State) (f) : egress (s.onCtr f) = egress s := egress_of_parts rfl rfl

@[simp] theorem egress_onLane {f : Lane → Lane} (h : ∀ l, (f l).copies = l.copies) (s : State) : egress (s.onLane f) = egress s :=
  egress_of_parts rfl (h s.lane)

@[simp] theorem egress_ite (c : Prop) [Decidable c] (s t : State) : egress (if c then s else t) = if c then egress s else egress t :=
  apply_ite egress c s t

@[simp] theorem egress_when (c : Bool) (f : State → State) (s : State) : egress (when' c f s) = if c then egress (f s) else egress s :=
  apply_ite egress (c = true) (f s) s

@[simp] theorem egress_each {α : Type} {l : List α} {f : α → State → State} (h : ∀ a s, egress (f a s) = egress s) (s : State) :
    egress (each l f s) = egress s := by
  unfold each
  induction l generalizing s with
  | nil => rfl
  | cons a r ih => simp only [List.foldl_cons, ih, h]

/-! Counters, events, notifications and replies. -/

@[simp] theorem egress_cntEnd (e : Bool) (i : Nat) (s : State) : egress (cntEnd e i s) = egress s := egress_of_parts rfl rfl
@[simp] theorem egress_cntInaug (i : Nat) (s : State) : egress (cntInaug i s) = egress s := egress_of_parts rfl rfl
@[simp] theorem egress_cntTime (i : Nat) (s : State) : egress (cntTime i s) = egress s := egress_of_parts rfl rfl
@[simp] theorem egress_cntStall (i : Nat) (s : State) : egress (cntStall i s) = egress s := egress_of_parts rfl rfl
@[simp] theorem egress_cntGrp (g i : Nat) (s : State) : egress (cntGrp g i s) = egress s := egress_of_parts rfl rfl
@[simp] theorem egress_cntSec (i : Nat) (s : State) : egress (cntSec i s) = egress s := egress_of_parts rfl rfl
@[simp] theorem egress_cntStrm (i : Nat) (s : State) : egress (cntStrm i s) = egress s := egress_of_parts rfl rfl
@[simp] theorem egress_noteStamp (s : State) : egress (noteStamp s) = egress s := egress_of_quiet (quiet_noteStamp s)
@[simp] theorem egress_clockMark (c : Nat) (s : State) : egress (clockMark c s) = egress s := egress_of_quiet (quiet_clockMark c s)
@[simp] theorem egress_raiseCode (a b c d : Nat) (s : State) : egress (raiseCode a b c d s) = egress s :=
  egress_of_quiet (quiet_raiseCode a b c d s)
@[simp] theorem egress_raise (a b : Nat) (s : State) : egress (raise a b s) = egress s := egress_of_quiet (quiet_raise a b s)
@[simp] theorem egress_raiseFirst (k a b : Nat) (s : State) : egress (raiseFirst k a b s) = egress s :=
  egress_of_quiet (quiet_raiseFirst k a b s)
@[simp] theorem egress_notifyState (d : Nat) (s : State) : egress (notifyState d s) = egress s := egress_of_quiet (quiet_notifyState d s)
@[simp] theorem egress_notifySession (n : Nat) (p : List (List Word)) (s : State) : egress (notifySession n p s) = egress s :=
  egress_of_quiet (quiet_notifySession n p s)
@[simp] theorem egress_ctlSend (d : Nat) (t : TxTag) (p : List Byte) (s : State) : egress (ctlSend d t p s) = egress s :=
  egress_of_quiet (quiet_ctlSend d t p s)
@[simp] theorem egress_strmPush (f : SFrame) (s : State) : egress (strmPush f s) = egress s := egress_of_quiet (quiet_strmPush f s)

/-! The field section's part in a transition of the device state. -/

@[simp] theorem egress_modGrp (g : Nat) (f : FGroup → FGroup) (s : State) : egress (modGrp g f s) = egress s := egress_of_parts rfl rfl
@[simp] theorem egress_fieldSettle (s : State) : egress (fieldSettle s) = egress s := egress_of_parts rfl rfl
@[simp] theorem egress_logImage (s : State) : egress (logImage s) = egress s := egress_of_parts rfl rfl

@[simp] theorem egress_ownEvent (g c : Nat) (s : State) : egress (ownEvent g c s) = egress s := by
  simp [ownEvent]

@[simp] theorem egress_ownNotify (o : Owner) (g w : Nat) (s : State) : egress (ownNotify o g w s) = egress s := by
  cases o <;> simp [ownNotify]

@[simp] theorem egress_endOwners (c w : Nat) (s : State) : egress (endOwners c w s) = egress s := by
  simp [endOwners, endOwner]

@[simp] theorem egress_fwTake (g : Nat) (s : State) : egress (fwTake g s) = egress s := by
  simp [fwTake]

/-! Device state, role and time state. -/

@[simp] theorem egress_setRole (r : Role) (k : Nat) (d : Bool) (s : State) : egress (setRole r k d s) = egress s := by
  simp [setRole]

@[simp] theorem egress_roleIn (d : Dev) (s : State) : egress (roleIn d s) = egress s := by
  cases d <;> simp [roleIn]

@[simp] theorem egress_setDev (d : Dev) (s : State) : egress (setDev d s) = egress s := by
  simp [setDev]

@[simp] theorem egress_enterRunning (s : State) : egress (enterRunning s) = egress s := by
  simp [enterRunning]

@[simp] theorem egress_setTState (t : TState) (s : State) : egress (setTState t s) = egress s := by
  simp [setTState, plantEnd]

@[simp] theorem egress_releaseTether (s : State) : egress (releaseTether s) = egress s := egress_of_parts rfl rfl
@[simp] theorem egress_setRate (r : Int) (s : State) : egress (setRate r s) = egress s := egress_of_parts rfl rfl

@[simp] theorem egress_setFit (a b : Nat) (s : State) : egress (setFit a b s) = egress s := by
  simp [setFit]

@[simp] theorem egress_setFitBit (i : Nat) (v : Bool) (s : State) : egress (setFitBit i v s) = egress s := by
  simp [setFitBit]

@[simp] theorem egress_routeCalc (s : State) : egress (routeCalc s) = egress s := by
  unfold routeCalc
  simp only
  split <;> simp

@[simp] theorem egress_driveRestart (s : State) : egress (driveRestart s) = egress s := by
  unfold driveRestart
  simp only [egress_ite]
  split
  · simp
  · split <;> simp

/-! Loss of membership (R520). -/

@[simp] theorem egress_enterFree (s : State) : egress (enterFree s) = egress s := by
  simp [enterFree]

@[simp] theorem egress_eraseKeys (s : State) : egress (eraseKeys s) = egress s := egress_of_parts rfl rfl

@[simp] theorem egress_loseMembership (s : State) : egress (loseMembership s) = egress s := by
  simp [loseMembership]

@[simp] theorem egress_loseAndSeek (s : State) : egress (loseAndSeek s) = egress s := by
  simp [loseAndSeek]

/-! The boundary of a basic cycle (R162). -/

@[simp] theorem egress_laneHealth (c : Nat) (y : Bool) (a n : Nat) (s : State) : egress (laneHealth c y a n s) = egress s := by
  simp [laneHealth]

@[simp] theorem egress_pairSettlement (s : State) : egress (pairSettlement s) = egress s := by
  unfold pairSettlement
  simp only [egress_ite]
  split
  · rfl
  · rw [egress_each (fun k t => by split <;> simp)]
    exact egress_onLane (fun _ => rfl) s

@[simp] theorem egress_tetherDuty (u : Bool) (s : State) : egress (tetherDuty u s) = egress s := by
  simp [tetherDuty, tetherFaultEnd]

@[simp] theorem egress_leaseDuty (s : State) : egress (leaseDuty s) = egress s := by
  unfold leaseDuty
  rw [egress_each (fun g t => by split <;> simp), egress_onFld]

@[simp] theorem egress_boundaryDuties (s : State) : egress (boundaryDuties s) = egress s := by
  simp [boundaryDuties, rateDuty, plantRate, delayDuty, shadowDuty, refDuty]

/-! A REFERENCE is used (R129 to R132). -/

@[simp] theorem egress_moveMarks (th : Int) (s : State) : egress (moveMarks th s) = egress s := egress_of_parts rfl rfl

@[simp] theorem egress_stepBy (th : Int) (s : State) : egress (stepBy th s) = egress s := by
  simp only [stepBy, egress_ite, egress_pairSettlement, egress_boundaryDuties, egress_onPlan, egress_clockMark, egress_raise, egress_onClk,
    egress_moveMarks, egress_cntTime, ite_self]

@[simp] theorem egress_servo (th : Int) (s : State) : egress (servo th s) = egress s := by
  simp [servo, slew]

@[simp] theorem egress_inEpoch {f : State → State} (h : ∀ s, egress (f s) = egress s) (e : Nat) (s : State) :
    egress (inEpoch e f s) = egress s := by
  simp [inEpoch, epochMark, h]

@[simp] theorem egress_refState (v : Bool) (th : Int) (s : State) : egress (refState v th s) = egress s := by
  unfold refState
  simp only
  split <;> simp

@[simp] theorem egress_driveExchange (h : Hdr) (p : List Byte) (tl : Int) (s : State) : egress (driveExchange h p tl s) = egress s := by
  unfold driveExchange
  simp only [egress_ite]
  split
  · rfl
  split
  · rfl
  split
  · rfl
  · simp

@[simp] theorem egress_refFollow (h : Hdr) (p : List Byte) (s : State) : egress (refFollow h p s) = egress s := by
  simp [refFollow, masterYield, newMaster]

@[simp] theorem egress_refUse (h : Hdr) (p : List Byte) (tl : Int) (v : Bool) (s : State) : egress (refUse h p tl v s) = egress s := by
  simp [refUse]

@[simp] theorem egress_refReceive (h : Hdr) (p : List Byte) (tl : Int) (v : Bool) (s : State) :
    egress (refReceive h p tl v s) = egress s := by
  simp [refReceive]

/-! Delivery (R54, R77, R101). -/

@[simp] theorem egress_shadowReceive (h : Hdr) (p : List Byte) (tl : Int) (s : State) : egress (shadowReceive h p tl s) = egress s := by
  simp [shadowReceive]

@[simp] theorem egress_delayStamp (h : Hdr) (p : List Byte) (tl : Int) (s : State) : egress (delayStamp h p tl s) = egress s := by
  simp [delayStamp]

@[simp] theorem egress_refReturn (h : Hdr) (p : List Byte) (tl : Int) (s : State) : egress (refReturn h p tl s) = egress s := by
  unfold refReturn
  simp only [egress_ite]
  split
  · rfl
  split <;> simp [selfCheckFail, selfCheckPass]

@[simp] theorem egress_cyclicIn (r : RxFrame) (p : List Byte) (s : State) : egress (cyclicIn r p s) = egress s := by
  unfold cyclicIn
  split
  · rfl
  simp only
  split <;> simp

@[simp] theorem egress_hostOut (h : Hdr) (p : List Byte) (s : State) : egress (hostOut h p s) = egress s := by
  simp [hostOut]

/-- ORIENT is no part of an end. -/
@[simp] theorem egress_learnOrient (endB : Bool) (h : Hdr) (s : State) : egress (learnOrient endB h s) = egress s := by
  unfold learnOrient
  split <;> rfl

@[simp] theorem egress_censusHeard (h : Hdr) (p : List Byte) (s : State) : egress (censusHeard h p s) = egress s := by
  simp [censusHeard]

@[simp] theorem egress_toQueue (endB : Bool) (r : RxFrame) (p : List Byte) (s : State) : egress (toQueue endB r p s) = egress s := by
  simp [toQueue, badControl]

@[simp] theorem egress_deliver (endB : Bool) (r : RxFrame) (p : List Byte) (s : State) : egress (deliver endB r p s) = egress s := by
  unfold deliver
  simp only
  split <;> simp

@[simp] theorem egress_oldEpoch (e : Nat) (s : State) : egress (oldEpoch e s) = egress s :=
  egress_of_quiet ((quiet_firstInCycle _ _ (quiet_raiseCode _ _ _ _) _).trans (quiet_cntInaug _ _))

@[simp] theorem egress_epochDeliver (endB : Bool) (r : RxFrame) (p : List Byte) (s : State) :
    egress (epochDeliver endB r p s) = egress s := by
  simp [epochDeliver]

@[simp] theorem egress_stallReject (v : Verdict) (h : Hdr) (s : State) : egress (stallReject v h s) = egress s := by
  cases v <;> simp [stallReject]

@[simp] theorem egress_deliveryCheck (endB : Bool) (r : RxFrame) (p : List Byte) (s : State) :
    egress (deliveryCheck endB r p s) = egress s := by
  unfold deliveryCheck
  simp only
  split <;> simp

@[simp] theorem egress_secondCopy (r : RxFrame) (p : List Byte) (s : State) : egress (secondCopy r p s) = egress s := by
  simp [secondCopy]

end Sys2Proof.Laws
end

section
/-!
SUPPORT. The tail of a frame (R61 to R66, R75, R76): what it does to the forwarded copy, and a frame of an unknown key (R64).
-/

namespace Sys2Proof.Laws

open Sys2Proof Sys2Proof.Machine

@[simp] theorem egress_modSrc (o : Bool) (id : Nat) (f : SrcEntry → SrcEntry) (s : State) : egress (modSrc o id f s) = egress s :=
  egress_of_parts rfl rfl

@[simp] theorem egress_acceptTail (endB : Bool) (r : RxFrame) (p : List Byte) (s : State) : egress (acceptTail endB r p s) = egress s := by
  unfold acceptTail
  split
  · rfl
  split
  · rfl
  simp only [egress_ite]
  split
  · simp
  · split <;> simp

@[simp] theorem egress_flushTails (s : State) : egress (flushTails s) = egress s := by
  simp [flushTails]

@[simp] theorem egress_tailOver (endB : Bool) (s : State) : egress (tailOver endB s) = egress s := by
  simp [tailOver]

@[simp] theorem egress_tailPassed (endB : Bool) (r : RxFrame) (p : List Byte) (s : State) : egress (tailPassed endB r p s) = egress s := by
  unfold tailPassed
  simp only
  split <;> simp

theorem fcsPasses_fcsOf {h : Hdr} {body : List Byte} {tag : BitVec 128} (hlen : body.length = max h.len 12) :
    fcsPasses h body tag (fcsOf h body tag) = true := by
  simp [fcsPasses, hlen]

/-- A frame that shows no failure at its tail: no error block and no poison, the FCS and the length are right, and the tag is one that this
car cannot check or that passes under the frame's key. Nothing marks its copy. -/
theorem egress_tailChecks_of_passes {endB badBlock : Bool} {body : List Byte} {tag : BitVec 128} {r : RxFrame} {s : State}
    (hpoison : r.hdr.poison = false) (hlen : body.length = max r.hdr.len 12)
    (htag : tailKey s r.hdr = none ∨ ∃ k, tailKey s r.hdr = some k ∧ tag = tagOf k r.hdr (body.take r.hdr.len)) :
    egress (tailChecks endB r body tag (fcsOf r.hdr body tag) false badBlock s) = egress s := by
  simp only [tailChecks, hpoison, fcsPasses_fcsOf hlen, Bool.or_self, Bool.not_true, Bool.false_eq_true, if_false]
  obtain hnone | ⟨k, hkey, rfl⟩ := htag
  · simp [hnone]
  · simp [hkey]

/-- The tail of a frame of an unknown key counts KEY_UNKNOWN and does nothing else, unless the frame is a REFERENCE at a car without keys. -/
theorem tailChecks_keyUnknown {endB : Bool} {body : List Byte} {tag : BitVec 128} {r : RxFrame} {s : State}
    (hpoison : r.hdr.poison = false) (hkey : tailKey s r.hdr = none) (hlen : body.length = max r.hdr.len 12)
    (href : r.hdr.ftype ≠ ftReference ∨ s.sec.keys ≠ []) :
    tailChecks endB r body tag (fcsOf r.hdr body tag) false false s = cntEnd endB 7 s := by
  have hcond : (r.hdr.ftype == ftReference && s.inaug.role == .guest && s.sys.dev == .integrating && s.sec.keys.isEmpty
      && !s.ref.usedNow && r.dec != .returned) = false := by
    obtain h | h := href <;> simp [h]
  simp only [tailChecks, hpoison, fcsPasses_fcsOf hlen, hkey, when', hcond, Bool.or_self, Bool.not_true, Bool.false_eq_true, if_false]

/-- The tail of an arriving frame: it leaves the end, its forwarded copy gets its bytes, and the checks follow. -/
theorem exec_frameTail {endB err bad : Bool} {body : List Byte} {tag : BitVec 128} {fcs : BitVec 32} {r : RxFrame} {s : State}
    (hrx : (endOf s endB).rx = some r) :
    exec (.frameTail endB body tag fcs err bad) s
      = .next (tailOver endB (tailChecks endB r body tag fcs err bad (tailTaken endB r body tag s))) := by
  show Host.Outcome.next (frameTail endB body tag fcs err bad s) = _
  simp only [frameTail, hrx, tailTaken, tailOver]

/-- With no copy of end B standing back, nothing follows a tail. -/
theorem tailOver_of_none_waiting {endB : Bool} {s : State} (h : endB = true ∨ s.lane.tailB = []) : tailOver endB s = s := by
  obtain rfl | hnil := h
  · rfl
  · have hlane : (s.onLane fun l => { l with tailB := [] }) = s := by
      rw [← hnil]
      rfl
    simp only [tailOver, flushTails, hnil, hlane, List.foldl_nil, each, ite_self]

/-! Taking a frame off its end changes nothing but the ends. -/

@[simp] theorem tailTaken_lane (endB : Bool) (r : RxFrame) (body : List Byte) (tag : BitVec 128) (s : State) :
    (tailTaken endB r body tag s).lane = s.lane := by
  unfold tailTaken modCopy
  split <;> rfl

@[simp] theorem tailTaken_ctr (endB : Bool) (r : RxFrame) (body : List Byte) (tag : BitVec 128) (s : State) :
    (tailTaken endB r body tag s).ctr = s.ctr := by
  unfold tailTaken modCopy
  split <;> rfl

@[simp] theorem endCtrs_tailTaken (endB : Bool) (r : RxFrame) (body : List Byte) (tag : BitVec 128) (s : State) :
    endCtrs (tailTaken endB r body tag s) endB = endCtrs s endB := by
  simp only [endCtrs, tailTaken_ctr]

@[simp] theorem tailTaken_sec (endB : Bool) (r : RxFrame) (body : List Byte) (tag : BitVec 128) (s : State) :
    (tailTaken endB r body tag s).sec = s.sec := by
  unfold tailTaken modCopy
  split <;> rfl

@[simp] theorem tailKey_tailTaken (endB : Bool) (r : RxFrame) (body : List Byte) (tag : BitVec 128) (s : State) (h : Hdr) :
    tailKey (tailTaken endB r body tag s) h = tailKey s h := by
  unfold tailTaken modCopy
  split <;> rfl

@[simp] theorem endCtrs_cntEnd (endB : Bool) (i : Nat) (s : State) : endCtrs (cntEnd endB i s) endB = bump i (endCtrs s endB) := by
  cases endB <;> rfl

/-! The forwarded copy. -/

theorem endOf_onEnd (e b : Bool) (f : CplEnd → CplEnd) (s : State) : endOf (onEnd e f s) b = if b = e then f (endOf s b) else endOf s b := by
  cases e <;> cases b <;> rfl

theorem copyOf_of_egress {s t : State} (h : egress t = egress s) (endB : Bool) (r : RxFrame) : copyOf t endB r = copyOf s endB r := by
  simp only [copyOf, endOf_of_egress h]

theorem getLast?_modify_last {α : Type} (f : α → α) (l : List α) : (l.modify (l.length - 1) f).getLast? = l.getLast?.map f := by
  simp [List.getLast?_eq_getElem?]

theorem isEmpty_modify {α : Type} (f : α → α) (l : List α) (i : Nat) : (l.modify i f).isEmpty = l.isEmpty := by
  rw [Bool.eq_iff_iff, List.isEmpty_iff, List.isEmpty_iff, List.modify_eq_nil_iff]

/-- What is done to the copy of a forwarded frame is done where it stands: at the back of the pass buffer, or on its way out. -/
theorem copyOf_modCopy {endB : Bool} {r : RxFrame} {f : WireFrame → WireFrame} {s : State} (h : r.dec = .forwarded) :
    copyOf (modCopy endB r f s) endB r = (copyOf s endB r).map f := by
  simp only [copyOf, modCopy, h, bne_self_eq_false, Bool.false_eq_true, if_false, endOf_onEnd, if_true]
  cases hbuf : r.inBuf && !(endOf s (!endB)).buf.isEmpty with
  | true => simp only [if_true, isEmpty_modify, hbuf, getLast?_modify_last]
  | false => simp only [Bool.false_eq_true, if_false, hbuf]

/-- The copy of a forwarded frame gets the bytes that arrived; that of any other is left alone. -/
theorem copyOf_tailTaken (endB : Bool) (r : RxFrame) (body : List Byte) (tag : BitVec 128) (s : State) :
    copyOf (tailTaken endB r body tag s) endB r
      = if r.dec = .forwarded then (copyOf s endB r).map fun w => { w with payload := body, prot := .carried tag } else copyOf s endB r := by
  have hother : ∀ t : State, copyOf (onEnd endB (fun e => { e with rx := none }) t) endB r = copyOf t endB r := by
    intro t
    simp [copyOf, endOf_onEnd]
  rw [tailTaken, hother]
  split
  · next h => exact copyOf_modCopy h
  · next h => simp [modCopy, h]

/-- Settles O15: KEY_UNKNOWN is counted and nothing else happens, and of a frame whose tail shows no failure no copy is marked. -/
theorem keyUnknown : Obligations.KeyUnknown := by
  unfold Obligations.KeyUnknown
  constructor
  · intro endB body tag r s hrx hpoison hkey hlen htails href
    have hstep : exec (.frameTail endB body tag (fcsOf r.hdr body tag) false false) s
        = .next (cntEnd endB 7 (tailTaken endB r body tag s)) := by
      rw [exec_frameTail hrx, tailChecks_keyUnknown hpoison (by simpa using hkey) hlen (by simpa using href),
        tailOver_of_none_waiting (by simpa [cntEnd] using htails)]
    refine ⟨_, hstep, ?_, ?_, ?_, fun hfwd => ?_⟩
    · simp [cntEnd]
    · simp [cntEnd]
    · rw [endCtrs_cntEnd, endCtrs_tailTaken]
    · rw [copyOf_of_egress (egress_cntEnd _ _ _), copyOf_tailTaken, if_pos hfwd]
  · intro endB body tag badBlock r s t hrx hpoison hlen _ htag hstep
    rw [exec_frameTail hrx] at hstep
    cases hstep
    have hegress : egress (tailOver endB (tailChecks endB r body tag (fcsOf r.hdr body tag) false badBlock (tailTaken endB r body tag s)))
        = egress (tailTaken endB r body tag s) := by
      rw [egress_tailOver, egress_tailChecks_of_passes hpoison hlen (by rwa [tailKey_tailTaken])]
    rw [copyOf_of_egress hegress, copyOf_tailTaken]
    split
    · rw [Option.map_map]; rfl
    · rfl

end Sys2Proof.Laws
end

section
/-!
SUPPORT. What a commitment starts and leaves waiting (R49, R172): copies of one header, in the direction of their ends.
-/

namespace Sys2Proof.Laws

open Sys2Proof Sys2Proof.Machine

@[simp] theorem egress_modMang (ch : Nat) (f : Manger → Manger) (s : State) : egress (modMang ch f s) = egress s := egress_of_parts rfl rfl

@[simp] theorem egress_afterLaunch (f : TxFrame) (s : State) : egress (afterLaunch f s) = egress s := by
  unfold afterLaunch
  split <;> simp

@[simp] theorem egress_seqUsed (isOpen : Bool) (s : State) : egress (seqUsed isOpen s) = egress s := by
  simp [seqUsed, journalEntry]

/-- A copy starts out of the end named, and the other end keeps the copy that it has. -/
theorem startCopy_tx (e b : Bool) (h : Hdr) (p : List Byte) (s : State) :
    (endOf (startCopy e h p s) b).tx
      = if b = e then some { hdr := h, payload := p, prot := .own (sealKey s h), bad := false, at_ := s.clk.c } else (endOf s b).tx := by
  cases e <;> cases b <;> rfl

/-- Of copies that start out of several ends, each end has the one with its header, or what it had. -/
theorem each_startCopy_tx (l : List Bool) (h : Bool → Hdr) (p : List Byte) (b : Bool) (s : State) :
    (endOf (each l (fun e => startCopy e (h e) p) s) b).tx = (endOf s b).tx
      ∨ ∃ w, (endOf (each l (fun e => startCopy e (h e) p) s) b).tx = some w ∧ w.hdr = h b ∧ w.payload = p := by
  induction l generalizing s with
  | nil => exact .inl rfl
  | cons e l ih =>
    obtain hkept | hstarted := ih (startCopy e (h e) p s)
    · rw [startCopy_tx] at hkept
      split at hkept
      · next hbe =>
        subst hbe
        exact .inr ⟨_, hkept, rfl, rfl⟩
      · exact .inl hkept
    · exact .inr hstarted

theorem each_startCopy_copies (l : List Bool) (h : Bool → Hdr) (p : List Byte) (s : State) :
    (each l (fun e => startCopy e (h e) p) s).lane.copies = s.lane.copies := by
  induction l generalizing s with
  | nil => rfl
  | cons e l ih => exact ih _

theorem endOf_onLane (f : Lane → Lane) (s : State) (b : Bool) : endOf (s.onLane f) b = endOf s b := rfl

/-- A copy that is missed is only counted. -/
theorem egress_each_missed (l : List Bool) (s : State) : egress (each l (fun _ => cntStall 2) s) = egress s := by
  simp

/-- The ends at which a frame of an occurrence leaves at once: UP, ready, and its class not blocked. -/
def launchEnds (f : TxFrame) (o : Occ) (s : State) : List Bool :=
  ([false, true].filter fun b => (endOf s b).st == .up).filter fun b => endReady s b && !blockedAt s o b f.prio

/-- The other ends at which its class is not blocked: a copy waits there. -/
def waitEnds (f : TxFrame) (o : Occ) (s : State) : List Bool :=
  ([false, true].filter fun b => (endOf s b).st == .up).filter fun b => !(launchEnds f o s).contains b && !blockedAt s o b f.prio

/-- The header of a committed frame's copy at an end. -/
def copyHdr (f : TxFrame) (o : Occ) (s : State) (endB : Bool) : Hdr := mkHdr s f o (seqOf s f.open_) (dirOfEnd s endB)

/-- What a commitment does to the ends and to the copies that wait. -/
theorem commit_some {f : TxFrame} {o : Occ} {together : Bool} {s t : State} (h : commit f o together s = some t) :
    (∀ b, endOf t b = endOf (each (launchEnds f o s) (fun e => startCopy e (copyHdr f o s e) f.payload) (noteStamp s)) b)
    ∧ t.lane.copies = s.lane.copies ++ (waitEnds f o s).map fun b =>
        { endB := b, hdr := copyHdr f o s b, payload := f.payload, occEnd := occEnd s o } := by
  unfold commit at h
  simp only at h
  split at h
  · cases h
  · cases h
    refine ⟨fun b => ?_, ?_⟩
    · rw [endOf_of_egress (egress_afterLaunch _ _), endOf_of_egress (egress_seqUsed _ _), endOf_onLane,
        endOf_of_egress (egress_each_missed _ _)]
      rfl
    · rw [copies_of_egress (egress_afterLaunch _ _), copies_of_egress (egress_seqUsed _ _), onLane_lane,
        copies_of_egress (egress_each_missed _ _), each_startCopy_copies, copies_of_egress (egress_noteStamp s)]
      rfl

/-- A copy that a commitment has started has the frame's header in the direction of its end. -/
theorem commit_tx {f : TxFrame} {o : Occ} {together endB : Bool} {s t : State} {x : WireFrame} (h : commit f o together s = some t)
    (hx : (endOf t endB).tx = some x) (hnew : (endOf s endB).tx ≠ some x) : x.hdr = copyHdr f o s endB ∧ x.payload = f.payload := by
  rw [(commit_some h).1] at hx
  obtain hkept | ⟨w, hw, hhdr, hpayload⟩ := each_startCopy_tx (launchEnds f o s) (copyHdr f o s) f.payload endB (noteStamp s)
  · rw [hkept, endOf_of_egress (egress_noteStamp s)] at hx
    exact absurd hx hnew
  · rw [hw] at hx
    cases hx
    exact ⟨hhdr, hpayload⟩

/-- So has a copy that it leaves waiting. -/
theorem commit_waiting {f : TxFrame} {o : Occ} {together : Bool} {s t : State} {c : TxCopy} (h : commit f o together s = some t)
    (hc : c ∈ t.lane.copies) (hnew : c ∉ s.lane.copies) : c.hdr = copyHdr f o s c.endB := by
  rw [(commit_some h).2, List.mem_append, List.mem_map] at hc
  obtain hold | ⟨b, -, rfl⟩ := hc
  · exact absurd hold hnew
  · rfl

/-- Settles O18: every copy has the header of `mkHdr`, in which the end decides DIR alone. -/
theorem copiesOfAFrame : Obligations.CopiesOfAFrame := by
  unfold Obligations.CopiesOfAFrame
  refine ⟨?_, ?_, ?_⟩
  · intro f o together s t endB x h hx hnew
    rw [(commit_tx h hx hnew).1]
    exact ⟨rfl, rfl, rfl, rfl, rfl, rfl⟩
  · intro f o together s t c h hc hnew
    rw [commit_waiting h hc hnew]
    exact ⟨rfl, rfl, rfl, rfl, rfl, rfl⟩
  · intro f o together s t x y h hx hxnew hy hynew
    obtain ⟨hxhdr, hxp⟩ := commit_tx h hx hxnew
    obtain ⟨hyhdr, hyp⟩ := commit_tx h hy hynew
    rw [hxhdr, hyhdr, hxp, hyp]
    exact ⟨rfl, rfl⟩

end Sys2Proof.Laws
end

section
/-!
SUPPORT. The source table of twin paths (R69, R70): what finds an entry, what changes one, and what leaves the table alone.
-/

namespace Sys2Proof.Laws

open Sys2Proof Sys2Proof.Machine

/-! The entries of the two directions. -/

theorem dirOf_setDir (e : SrcEntry) (y z : Bool) (m : DirMap) : dirOf (setDir e y m) z = if z = y then m else dirOf e z := by
  cases y <;> cases z <;> rfl

@[simp] theorem setDir_open (e : SrcEntry) (y : Bool) (m : DirMap) : (setDir e y m).open_ = e.open_ := by
  cases y <;> rfl

@[simp] theorem setDir_id (e : SrcEntry) (y : Bool) (m : DirMap) : (setDir e y m).id = e.id := by
  cases y <;> rfl

@[simp] theorem setDir_key (e : SrcEntry) (y : Bool) (m : DirMap) : (setDir e y m).key = e.key := by
  cases y <;> rfl

/-! A source's entry, where the table is changed. -/

theorem srcFind_of_src {s t : State} (h : t.lane.src = s.lane.src) (o : Bool) (id : Nat) : srcFind t o id = srcFind s o id := by
  simp only [srcFind, h]

/-- A source's entry is changed in its place. -/
theorem srcFind_modSrc {o : Bool} {id : Nat} {f : SrcEntry → SrcEntry} (hopen : ∀ e, (f e).open_ = e.open_) (hid : ∀ e, (f e).id = e.id)
    (s : State) : srcFind (modSrc o id f s) o id = (srcFind s o id).map f := by
  simp only [srcFind, modSrc, onLane_lane]
  induction s.lane.src with
  | nil => rfl
  | cons e l ih =>
    cases hit : e.open_ == o && e.id == id <;>
      simp only [List.map_cons, List.find?_cons, hit, hopen, hid, ih, Bool.false_eq_true, if_false, if_true, Option.map_some]

/-- A keyed source whose key epoch is valid keeps its entry (R70). -/
theorem srcFind_releaseEntries {o : Bool} {id : Nat} {e : SrcEntry} {s : State} (hfind : srcFind s o id = some e)
    (hkey : keyValid s e.key = true) : srcFind (releaseEntries s) o id = some e := by
  obtain ⟨hit, before, after, hsrc, hbefore⟩ := List.find?_eq_some_iff_append.mp hfind
  refine List.find?_eq_some_iff_append.mpr ⟨hit, before.filter fun x => x.open_ || keyValid s x.key,
    after.filter fun x => x.open_ || keyValid s x.key, ?_, fun x hx => hbefore x (List.mem_of_mem_filter hx)⟩
  simp [releaseEntries, hsrc, hkey]

theorem keyValid_of_sec {s t : State} (h : t.sec = s.sec) (k : Nat) : keyValid t k = keyValid s k := by
  simp only [keyValid, h]

/-! The forward map and TOP of a source that has an entry. -/

theorem fwdBits_of_srcFind {s : State} {adm : Nat} {e : SrcEntry} (h : srcFind s false adm = some e) (y : Bool) (q : Nat) :
    fwdBits s adm y q = (dirOf e y).fwd.contains q := by
  simp only [fwdBits, h]

theorem topsOf_of_srcFind {s : State} {adm : Nat} {e : SrcEntry} (h : srcFind s false adm = some e) :
    topsOf s adm = some ((dirOf e false).valid, (dirOf e false).top, (dirOf e true).valid, (dirOf e true).top) := by
  simp [topsOf, h, dirOf]

/-! The lane record under counters, events and changes of an end. -/

@[simp] theorem onEnd_lane (b : Bool) (f : CplEnd → CplEnd) (s : State) : (onEnd b f s).lane = s.lane := rfl
@[simp] theorem onEnd_sec (b : Bool) (f : CplEnd → CplEnd) (s : State) : (onEnd b f s).sec = s.sec := rfl
@[simp] theorem modRx_sec (b : Bool) (f : RxFrame → RxFrame) (s : State) : (modRx b f s).sec = s.sec := rfl
@[simp] theorem modSrc_sec (o : Bool) (id : Nat) (f : SrcEntry → SrcEntry) (s : State) : (modSrc o id f s).sec = s.sec := rfl
@[simp] theorem cntEnd_lane (b : Bool) (i : Nat) (s : State) : (cntEnd b i s).lane = s.lane := rfl
@[simp] theorem cntEnd_sec (b : Bool) (i : Nat) (s : State) : (cntEnd b i s).sec = s.sec := rfl

@[simp] theorem noteStamp_lane (s : State) : (noteStamp s).lane = s.lane := by
  unfold noteStamp
  split <;> rfl

@[simp] theorem noteStamp_ctr (s : State) : (noteStamp s).ctr = s.ctr := by
  unfold noteStamp
  split <;> rfl

@[simp] theorem raise_lane (src data : Nat) (s : State) : (raise src data s).lane = s.lane := by
  simp only [raise, raise2, raiseCode, raiseAt]
  split <;> simp

@[simp] theorem raiseFirst_lane (key src data : Nat) (s : State) : (raiseFirst key src data s).lane = s.lane := by
  simp only [raiseFirst, firstInCycle]
  split <;> simp

@[simp] theorem when_cntEnd_lane (c b : Bool) (i : Nat) (s : State) : (when' c (cntEnd b i) s).lane = s.lane := by
  unfold when'
  split <;> rfl

/-! The decision on an arriving copy, and the counters of its end. -/

theorem decOf_of_egress {s t : State} (h : egress t = egress s) (endB : Bool) : decOf t endB = decOf s endB := by
  simp only [decOf, endOf_of_egress h]

@[simp] theorem decOf_onEnd_other (endB : Bool) (f : CplEnd → CplEnd) (s : State) : decOf (onEnd (!endB) f s) endB = decOf s endB := by
  cases endB <;> rfl

theorem modRx_rx (endB : Bool) (f : RxFrame → RxFrame) (s : State) : (endOf (modRx endB f s) endB).rx = (endOf s endB).rx.map f := by
  simp only [modRx, endOf_onEnd, if_true]

theorem decOf_modRx {endB : Bool} {r : RxFrame} {s : State} (hrx : (endOf s endB).rx = some r) (f : RxFrame → RxFrame) :
    decOf (modRx endB f s) endB = some (f r).dec := by
  simp only [decOf, modRx_rx, hrx, Option.map_some]

@[simp] theorem endCtrs_cntEnd_other (endB : Bool) (i : Nat) (s : State) : endCtrs (cntEnd (!endB) i s) endB = endCtrs s endB := by
  cases endB <;> rfl

theorem endCtrs_of_ctr {s t : State} (h : t.ctr = s.ctr) (endB : Bool) : endCtrs t endB = endCtrs s endB := by
  simp only [endCtrs, h]

end Sys2Proof.Laws
end

section
/-!
SUPPORT. The forward map of R72: the row that a SEQ meets, what orders 1 to 6 of R58 do to a source that has an entry, and the tail check
that a copy does not pass.
-/

namespace Sys2Proof.Laws

open Sys2Proof Sys2Proof.Machine

/-! The rows of R72. -/

theorem fwdDecide_of_invalid {m : DirMap} {q : Nat} (h : m.valid = false) : fwdDecide m q = .mark := by
  simp [fwdDecide, h]

theorem fwdDecide_of_stale {m : DirMap} {q : Nat} (hv : m.valid = true) (h : q + 1024 ≤ m.top) : fwdDecide m q = .stale := by
  simp [fwdDecide, hv, h]

theorem fwdDecide_of_window {m : DirMap} {q : Nat} (hv : m.valid = true) (hlo : m.top < q + 1024) (hhi : q ≤ m.top + 1024) :
    fwdDecide m q = if m.fwd.contains q then .repeated else .mark := by
  simp only [fwdDecide, hv, Nat.not_le.mpr hlo, hhi, decide_false, decide_true, Bool.not_true, Bool.false_eq_true, if_false, if_true]

theorem fwdDecide_of_beyond {m : DirMap} {q : Nat} (hv : m.valid = true) (h : m.top + 1024 < q) : fwdDecide m q = .unmarked := by
  have hlo : ¬ q + 1024 ≤ m.top := by omega
  simp [fwdDecide, hv, hlo, h]

/-! A mark in the forward map. -/

theorem contains_insert (l : List Nat) (p q : Nat) : (if l.contains q then l else q :: l).contains p = (p == q || l.contains p) := by
  split
  · next h => by_cases hpq : p = q <;> simp_all
  · exact List.contains_cons

/-- The SEQ's own bit is set. -/
theorem fwdMark_contains_self (q : Nat) (m : DirMap) : (fwdMark q m).fwd.contains q = true := by
  simp only [fwdMark, contains_insert, beq_self_eq_true, Bool.true_or]

/-- With VALID set no other bit changes. -/
theorem fwdMark_contains_of_valid {m : DirMap} {p q : Nat} (hv : m.valid = true) (hpq : p ≠ q) :
    (fwdMark q m).fwd.contains p = m.fwd.contains p := by
  simp only [fwdMark, contains_insert, hv, if_true, beq_eq_false_iff_ne.mpr hpq, Bool.false_or]

/-- With VALID clear the map is anchored at the SEQ, and holds no bit outside its 2,048. -/
theorem fwdMark_contains_of_invalid {m : DirMap} {p q : Nat} (hv : m.valid = false) (hpq : p ≠ q) :
    (fwdMark q m).fwd.contains p = (m.fwd.contains p && decide (q < p + 1024) && decide (p ≤ q + 1024)) := by
  simp only [fwdMark, contains_insert, hv, beq_eq_false_iff_ne.mpr hpq, Bool.false_or, Bool.false_eq_true, if_false]
  rw [Bool.eq_iff_iff]
  simp [and_assoc]

/-! What each row of R72 does. -/

/-- The decision. -/
def rowDec : FwdMark → Decision
  | .stale => .repeated
  | .repeated => .repeated
  | .mark => .forwarded
  | .unmarked => .forwarded

/-- The counters of the arrival end. -/
def rowCount : FwdMark → List Nat → List Nat
  | .stale => bump 15
  | .repeated => bump 16
  | .mark => id
  | .unmarked => bump 17

/-- The source's entry. -/
def rowEntry (w : FwdMark) (y : Bool) (q : Nat) (e : SrcEntry) : SrcEntry :=
  match w with
  | .mark => setDir e y (fwdMark q (dirOf e y))
  | _ => e

theorem rowEntry_key (w : FwdMark) (y : Bool) (q : Nat) (e : SrcEntry) : (rowEntry w y q e).key = e.key := by
  cases w <;> simp [rowEntry]

/-- The other direction's entry stays. -/
theorem dirOf_rowEntry_other (w : FwdMark) {y z : Bool} (q : Nat) (e : SrcEntry) (h : z ≠ y) : dirOf (rowEntry w y q e) z = dirOf e z := by
  cases w <;> simp [rowEntry, dirOf_setDir, h]

/-- With VALID set, no row changes the bit of another SEQ. -/
theorem rowEntry_contains_of_valid (w : FwdMark) {y : Bool} {p q : Nat} {e : SrcEntry} (hv : (dirOf e y).valid = true) (hpq : p ≠ q) :
    (dirOf (rowEntry w y q e) y).fwd.contains p = (dirOf e y).fwd.contains p := by
  cases w
  case mark => rw [rowEntry, dirOf_setDir, if_pos rfl, fwdMark_contains_of_valid hv hpq]
  all_goals rfl

/-- The row that marks sets the SEQ's bit. -/
theorem rowEntry_mark_contains_self (y : Bool) (q : Nat) (e : SrcEntry) :
    (dirOf (rowEntry .mark y q e) y).fwd.contains q = true := by
  rw [rowEntry, dirOf_setDir, if_pos rfl, fwdMark_contains_self]

/-- With VALID clear, it drops the bits outside the 2,048 around the SEQ. -/
theorem rowEntry_mark_contains_of_invalid {y : Bool} {p q : Nat} {e : SrcEntry} (hv : (dirOf e y).valid = false) (hpq : p ≠ q) :
    (dirOf (rowEntry .mark y q e) y).fwd.contains p
      = ((dirOf e y).fwd.contains p && decide (q < p + 1024) && decide (p ≤ q + 1024)) := by
  rw [rowEntry, dirOf_setDir, if_pos rfl, fwdMark_contains_of_invalid hv hpq]

/-- No row moves VALID or TOP of a direction. -/
theorem dirOf_rowEntry_top (w : FwdMark) (y z : Bool) (q : Nat) (e : SrcEntry) :
    (dirOf (rowEntry w y q e) z).valid = (dirOf e z).valid ∧ (dirOf (rowEntry w y q e) z).top = (dirOf e z).top := by
  cases w
  case mark =>
    rw [rowEntry, dirOf_setDir]
    split
    · next h => exact ⟨h ▸ rfl, h ▸ rfl⟩
    · exact ⟨rfl, rfl⟩
  all_goals exact ⟨rfl, rfl⟩

/-- The time at which a source is seen is no part of its directions. -/
theorem dirOf_rowEntry_seen (w : FwdMark) (y z : Bool) (q c : Nat) (e : SrcEntry) :
    dirOf (rowEntry w y q { e with seen := c }) z = dirOf (rowEntry w y q e) z := by
  cases w
  case mark =>
    rw [rowEntry, rowEntry, dirOf_setDir, dirOf_setDir]
    rfl
  all_goals rfl

/-! Orders 6 and 7 of R58. -/

@[simp] theorem startForward_lane (endB : Bool) (s : State) : (startForward endB s).lane = s.lane := by
  unfold startForward
  split
  · rfl
  · simp only
    split <;> rfl

@[simp] theorem startForward_sec (endB : Bool) (s : State) : (startForward endB s).sec = s.sec := by
  unfold startForward
  split
  · rfl
  · simp only
    split <;> rfl

/-- A forwarded copy is decided so, and counts at the onward end alone. -/
theorem startForward_arrival {endB : Bool} {r : RxFrame} {s : State} (hrx : (endOf s endB).rx = some r) :
    decOf (startForward endB s) endB = some .forwarded ∧ endCtrs (startForward endB s) endB = endCtrs s endB := by
  have hdec : ∀ w i, decOf (cntEnd (!endB) i (modRx endB (fun x => { x with dec := .forwarded, inBuf := w }) (tookFree s))) endB
      = some .forwarded := by
    intro w i
    rw [decOf_of_egress (egress_cntEnd _ _ _)]
    exact decOf_modRx (s := tookFree s) hrx _
  simp only [startForward, hrx]
  split
  · rw [decOf_of_egress (egress_cntEnd _ _ _), decOf_onEnd_other, endCtrs_cntEnd_other]
    exact ⟨hdec _ _, endCtrs_cntEnd_other _ _ _⟩
  · rw [decOf_onEnd_other]
    exact ⟨hdec _ _, endCtrs_cntEnd_other _ _ _⟩

/-- Order 6 for a source with an entry: the row that the SEQ meets says what happens. -/
theorem forwardByMap_of_entry {endB o : Bool} {id : Nat} {r : RxFrame} {e : SrcEntry} {s : State} (hrx : (endOf s endB).rx = some r)
    (hfull : r.full = false) (hfind : srcFind s o id = some e) (w : FwdMark) (hw : fwdDecide (dirOf e r.hdr.dirY) r.hdr.seq = w) :
    decOf (forwardByMap endB o id s) endB = some (rowDec w)
      ∧ endCtrs (forwardByMap endB o id s) endB = rowCount w (endCtrs s endB)
      ∧ srcFind (forwardByMap endB o id s) o id = some (rowEntry w r.hdr.dirY r.hdr.seq e) := by
  simp only [forwardByMap, hrx, hfull, hfind, hw, Bool.false_eq_true, if_false]
  cases w
  case stale =>
    exact ⟨(decOf_of_egress (egress_cntEnd _ _ _) _).trans (decOf_modRx hrx _), endCtrs_cntEnd _ _ _, hfind⟩
  case repeated =>
    exact ⟨(decOf_of_egress (egress_cntEnd _ _ _) _).trans (decOf_modRx hrx _), endCtrs_cntEnd _ _ _, hfind⟩
  case mark =>
    simp only
    obtain ⟨hdec, hctr⟩ := startForward_arrival (endB := endB)
      (s := modSrc o id (fun x => setDir x r.hdr.dirY (fwdMark r.hdr.seq (dirOf x r.hdr.dirY))) s) hrx
    refine ⟨hdec, hctr, ?_⟩
    rw [srcFind_of_src (congrArg Lane.src (startForward_lane _ _)), srcFind_modSrc (by simp) (by simp), hfind]
    rfl
  case unmarked =>
    simp only
    obtain ⟨hdec, hctr⟩ := startForward_arrival (endB := endB) (s := cntEnd endB 17 s)
      ((congrArg CplEnd.rx (endOf_of_egress (egress_cntEnd _ _ _) _)).trans hrx)
    refine ⟨hdec, hctr.trans (endCtrs_cntEnd _ _ _), ?_⟩
    rw [srcFind_of_src (congrArg Lane.src (startForward_lane _ _))]
    exact hfind

@[simp] theorem forwardByMap_sec (endB o : Bool) (id : Nat) (s : State) : (forwardByMap endB o id s).sec = s.sec := by
  unfold forwardByMap
  split
  · rfl
  split
  · simp
  split
  · simp
  · simp only
    split <;> simp

/-! The orders before. -/

/-- The entry of a source that is seen again. -/
theorem srcFind_seenAgain (o : Bool) (id : Nat) (s : State) :
    srcFind (seenAgain o id s) o id = (srcFind s o id).map fun e => { e with seen := s.clk.c } :=
  srcFind_modSrc (by simp) (by simp) s

@[simp] theorem seenAgain_sec (o : Bool) (id : Nat) (s : State) : (seenAgain o id s).sec = s.sec := rfl

/-- A source that has an entry needs no new one (R70). -/
theorem entryFor_of_entry {endB o : Bool} {id : Nat} {r : RxFrame} {e : SrcEntry} {s : State} (hrx : (endOf s endB).rx = some r)
    (hfind : srcFind s o id = some e) : entryFor endB o id s = seenAgain o id s := by
  simp only [entryFor, hrx, hfind, seenAgain]

/-- The copy stops under one of orders 1 to 5 of R58. -/
def stopsEarly (endB own : Bool) (h : Hdr) (s : State) : Prop :=
  (endOf s (!endB)).st ≠ .up ∨ own = true ∨ 64 ≤ h.hops ∨ 1996 < h.len ∨ h.poison = true

/-- A copy that stops so is seen, and does nothing else to its source's entry (R70, R72). -/
theorem decideFrame_stops {endB o own : Bool} {id : Nat} {r : RxFrame} {e : SrcEntry} {s : State} (hrx : (endOf s endB).rx = some r)
    (hfind : srcFind s o id = some e) (hstop : stopsEarly endB own r.hdr s) :
    (decideFrame endB o own id s).lane = (seenAgain o id s).lane ∧ (decideFrame endB o own id s).sec = s.sec := by
  have hent : ∀ i d, entryFor endB o id (cntEnd endB i (modRx endB (fun x => { x with dec := d }) s))
      = seenAgain o id (cntEnd endB i (modRx endB (fun x => { x with dec := d }) s)) := by
    intro i d
    refine entryFor_of_entry (r := { r with dec := d }) ?_ (by exact hfind)
    rw [endOf_of_egress (egress_cntEnd _ _ _), modRx_rx, hrx, Option.map_some]
  simp only [decideFrame, hrx, hent]
  split
  · exact ⟨rfl, rfl⟩
  split
  · exact ⟨rfl, rfl⟩
  split
  · exact ⟨rfl, rfl⟩
  split
  · exact ⟨rfl, rfl⟩
  split
  · exact ⟨rfl, rfl⟩
  · simp_all [stopsEarly]

/-- A copy that no order before stops is decided by the map. -/
theorem decideFrame_reaches {endB o own : Bool} {id : Nat} {r : RxFrame} {e : SrcEntry} {s : State} (hrx : (endOf s endB).rx = some r)
    (hfind : srcFind s o id = some e) (hgo : ¬ stopsEarly endB own r.hdr s) :
    decideFrame endB o own id s = forwardByMap endB o id (seenAgain o id s) := by
  simp only [stopsEarly, not_or, not_not, Bool.not_eq_true] at hgo
  obtain ⟨hup, hown, hhops, hlen, hpoison⟩ := hgo
  simp [decideFrame, hrx, hup, hown, hhops, hlen, hpoison, entryFor_of_entry hrx hfind]

theorem decideOrdered_stops {endB o own : Bool} {id : Nat} {r : RxFrame} {e : SrcEntry} {s : State} (hrx : (endOf s endB).rx = some r)
    (hfind : srcFind s o id = some e) (hstop : stopsEarly endB own r.hdr s) :
    (decideOrdered endB o own id s).lane = (seenAgain o id s).lane ∧ (decideOrdered endB o own id s).sec = s.sec := by
  unfold decideOrdered
  split
  · next hdown => exact decideFrame_stops hrx hfind (.inl (by simpa using hdown))
  · exact decideFrame_stops hrx hfind hstop

theorem decideOrdered_reaches {endB o own : Bool} {id : Nat} {r : RxFrame} {e : SrcEntry} {s : State} (hrx : (endOf s endB).rx = some r)
    (hfind : srcFind s o id = some e) (hgo : ¬ stopsEarly endB own r.hdr s) :
    decideOrdered endB o own id s = forwardByMap endB o id (seenAgain o id s) := by
  have hup : (endOf s (!endB)).st = .up := by
    by_contra hdown
    exact hgo (.inl hdown)
  simp only [decideOrdered, hup, bne_self_eq_false, Bool.false_eq_true, if_false]
  exact decideFrame_reaches hrx hfind hgo

/-! The header (R58). -/

/-- A frame whose header has just arrived. -/
def arriving (h : Hdr) (s : State) : RxFrame :=
  { hdr := h, badge := none, rxAt := s.clk.c, tl := timeFx s, stamp := stampNow s, dec := .pending, full := false, inBuf := false }

/-- The state with that frame at its end, its stamp taken. -/
def headerHeld (endB : Bool) (h : Hdr) (s : State) : State := noteStamp (onEnd endB (fun x => { x with rx := some (arriving h s) }) s)

theorem headerHeld_rx (endB : Bool) (h : Hdr) (s : State) : (endOf (headerHeld endB h s) endB).rx = some (arriving h s) := by
  rw [headerHeld, endOf_of_egress (egress_noteStamp _), endOf_onEnd, if_pos rfl]

theorem endOf_headerHeld_other (endB : Bool) (h : Hdr) (s : State) : endOf (headerHeld endB h s) (!endB) = endOf s (!endB) := by
  rw [headerHeld, endOf_of_egress (egress_noteStamp _), endOf_onEnd, if_neg (by simp)]

@[simp] theorem headerHeld_lane (endB : Bool) (h : Hdr) (s : State) : (headerHeld endB h s).lane = s.lane := by
  simp [headerHeld]

@[simp] theorem headerHeld_sec (endB : Bool) (h : Hdr) (s : State) : (headerHeld endB h s).sec = s.sec := by
  rw [headerHeld, sec_of_quiet (quiet_noteStamp _), onEnd_sec]

theorem endCtrs_headerHeld (endB : Bool) (h : Hdr) (s : State) : endCtrs (headerHeld endB h s) endB = endCtrs s endB :=
  endCtrs_of_ctr (by simp [headerHeld, onEnd]) endB

theorem srcFind_headerHeld (endB : Bool) (h : Hdr) (s : State) (o : Bool) (id : Nat) :
    srcFind (headerHeld endB h s) o id = srcFind s o id :=
  srcFind_of_src (by simp) o id

/-- The onward end and the header decide whether a copy stops early; taking the frame in changes neither. -/
theorem stopsEarly_headerHeld (endB own : Bool) (h : Hdr) (s : State) :
    stopsEarly endB own h (headerHeld endB h s) ↔ stopsEarly endB own h s := by
  simp only [stopsEarly, endOf_headerHeld_other]

/-- A keyed header on an end that takes frames is decided at once, and entries without a valid key go. -/
theorem frameHeader_keyed {endB : Bool} {h : Hdr} {s : State} (hup : (endOf s endB).st = .up) (hrx : (endOf s endB).rx = none)
    (hfwd : forwards s = true) (hadm : h.adm ≠ 0) :
    frameHeader endB h s = releaseEntries (decideOrdered endB false (ownKeyed s h) h.adm (headerHeld endB h s)) := by
  simp [frameHeader, hup, hrx, hfwd, hadm, headerHeld, arriving]

/-- An end that takes no frame leaves a header alone. -/
theorem frameHeader_not_taken {endB : Bool} {h : Hdr} {s : State}
    (hno : ¬ ((endOf s endB).st = .up ∧ (endOf s endB).rx = none ∧ forwards s = true)) : frameHeader endB h s = s := by
  unfold frameHeader
  simp only
  split
  · rfl
  · simp_all

/-- A header that reaches order 6: the row that its SEQ meets decides, counts, and sets the source's forward map; no TOP moves. -/
theorem frameHeader_reaches {endB : Bool} {h : Hdr} {e : SrcEntry} {s : State} (hup : (endOf s endB).st = .up)
    (hrx : (endOf s endB).rx = none) (hfwd : forwards s = true) (hadm : h.adm ≠ 0) (hgo : ¬ stopsEarly endB (ownKeyed s h) h s)
    (hfind : srcFind s false h.adm = some e) (hkey : keyValid s e.key = true) (w : FwdMark) (hw : fwdDecide (dirOf e h.dirY) h.seq = w) :
    decOf (frameHeader endB h s) endB = some (rowDec w)
      ∧ endCtrs (frameHeader endB h s) endB = rowCount w (endCtrs s endB)
      ∧ (∀ y q, fwdBits (frameHeader endB h s) h.adm y q = (dirOf (rowEntry w h.dirY h.seq e) y).fwd.contains q)
      ∧ topsOf (frameHeader endB h s) h.adm = topsOf s h.adm := by
  have hheld := (srcFind_headerHeld endB h s false h.adm).trans hfind
  have hseen := (srcFind_seenAgain false h.adm (headerHeld endB h s)).trans (congrArg _ hheld)
  obtain ⟨hdec, hctr, hrow⟩ := forwardByMap_of_entry (s := seenAgain false h.adm (headerHeld endB h s)) (headerHeld_rx endB h s) rfl
    hseen w hw
  rw [frameHeader_keyed hup hrx hfwd hadm,
    decideOrdered_reaches (headerHeld_rx endB h s) hheld (mt (stopsEarly_headerHeld endB _ h s).mp hgo)]
  have hvalid : keyValid (forwardByMap endB false h.adm (seenAgain false h.adm (headerHeld endB h s))) e.key = true :=
    (keyValid_of_sec (by simp) _).trans hkey
  have hkept := srcFind_releaseEntries hrow (by rwa [rowEntry_key])
  refine ⟨hdec, hctr.trans (congrArg _ (endCtrs_headerHeld endB h s)), fun y q => ?_, ?_⟩
  · rw [fwdBits_of_srcFind hkept]
    exact congrArg (·.fwd.contains q) (dirOf_rowEntry_seen w _ y _ _ e)
  · simp only [topsOf_of_srcFind hkept, topsOf_of_srcFind hfind, dirOf_rowEntry_top]
    rfl

/-- A header that stops before order 6 leaves the entry of its source as it was, but for the time at which it was seen. -/
theorem frameHeader_stops {endB : Bool} {h : Hdr} {e : SrcEntry} {s : State} (hadm : h.adm ≠ 0) (hstop : stopsEarly endB (ownKeyed s h) h s)
    (hfind : srcFind s false h.adm = some e) (hkey : keyValid s e.key = true) :
    ∃ c, srcFind (frameHeader endB h s) false h.adm = some { e with seen := c } := by
  by_cases htaken : (endOf s endB).st = .up ∧ (endOf s endB).rx = none ∧ forwards s = true
  · obtain ⟨hup, hrx, hfwd⟩ := htaken
    have hheld := (srcFind_headerHeld endB h s false h.adm).trans hfind
    obtain ⟨hlane, hsec⟩ := decideOrdered_stops (headerHeld_rx endB h s) hheld
      ((stopsEarly_headerHeld endB (ownKeyed s h) h s).mpr hstop)
    refine ⟨(headerHeld endB h s).clk.c, ?_⟩
    rw [frameHeader_keyed hup hrx hfwd hadm]
    refine srcFind_releaseEntries ?_ ((keyValid_of_sec (hsec.trans (headerHeld_sec _ _ _)) _).trans hkey)
    rw [srcFind_of_src (congrArg Lane.src hlane), srcFind_seenAgain, hheld, Option.map_some]
  · rw [frameHeader_not_taken htaken]
    exact ⟨e.seen, hfind⟩

/-! A tail that does not pass (R61). -/

@[simp] theorem tailFail_lane (endB : Bool) (code : Nat) (s : State) : (tailFail endB code s).lane = s.lane := raiseFirst_lane _ _ _ _

@[simp] theorem poisonCopy_lane (endB : Bool) (r : RxFrame) (count : Bool) (s : State) : (poisonCopy endB r count s).lane = s.lane := by
  simp only [poisonCopy, modCopy]
  split
  · rfl
  · rw [when_cntEnd_lane]
    split <;> rfl

/-- The copy fails its tail check: an error block or poison, the FCS or the length, or the tag under the frame's key. -/
def tailFails (r : RxFrame) (body : List Byte) (tag : BitVec 128) (fcs : BitVec 32) (errBlock : Bool) (s : State) : Prop :=
  errBlock = true ∨ r.hdr.poison = true ∨ fcsPasses r.hdr body tag fcs = false
    ∨ ∃ k, tailKey s r.hdr = some k ∧ tag ≠ tagOf k r.hdr (body.take r.hdr.len)

/-- Then nothing of the lane record changes: no entry, and no copy that stands back. -/
theorem tailChecks_lane_of_fails {endB errBlock badBlock : Bool} {body : List Byte} {tag : BitVec 128} {fcs : BitVec 32} {r : RxFrame}
    {s : State} (h : tailFails r body tag fcs errBlock s) : (tailChecks endB r body tag fcs errBlock badBlock s).lane = s.lane := by
  unfold tailChecks
  simp only
  split
  · split <;> simp
  next hclean =>
  split
  · simp
  next hfcs =>
  obtain ⟨k, hkey, htag⟩ : ∃ k, tailKey s r.hdr = some k ∧ tag ≠ tagOf k r.hdr (body.take r.hdr.len) := by
    simp_all [tailFails]
  simp only [hkey, beq_eq_false_iff_ne.mpr htag, Bool.false_eq_true, if_false]
  split <;> simp

/-- A copy that does not pass changes no entry of the source table. -/
theorem frameTail_src_of_fails {endB errBlock badBlock : Bool} {body : List Byte} {tag : BitVec 128} {fcs : BitVec 32} {r : RxFrame}
    {s t : State} (hstep : exec (.frameTail endB body tag fcs errBlock badBlock) s = .next t) (hrx : (endOf s endB).rx = some r)
    (htails : endB = true ∨ s.lane.tailB = []) (hfails : tailFails r body tag fcs errBlock s) : t.lane.src = s.lane.src := by
  have hlane : (tailChecks endB r body tag fcs errBlock badBlock (tailTaken endB r body tag s)).lane = s.lane := by
    rw [tailChecks_lane_of_fails (by simpa [tailFails] using hfails), tailTaken_lane]
  rw [exec_frameTail hrx, tailOver_of_none_waiting (by rwa [hlane])] at hstep
  cases hstep
  rw [hlane]

/-- Settles O12: one row of R72 for each range of SEQ, no mark under orders 1 to 5, and no entry changed by a tail that fails. -/
theorem forwardMap : Obligations.ForwardMap := by
  unfold Obligations.ForwardMap
  refine ⟨?_, ?_, ?_⟩
  · intro endB h e s hup hrx hfwd hadm honward hown hhops hlen hpoison hfind hkey
    have hgo : ¬ stopsEarly endB (ownKeyed s h) h s := by
      simp [stopsEarly, honward, hown, hhops, hlen, hpoison]
    have hrow := frameHeader_reaches hup hrx hfwd hadm hgo hfind hkey
    have hbits := fwdBits_of_srcFind hfind
    refine ⟨frameHeader endB h s, rfl, ?_, ?_, ?_, ?_, ?_, ?_, ?_, ?_, ?_⟩
    · intro hv
      obtain ⟨hdec, hctr, hmap, -⟩ := hrow .mark (fwdDecide_of_invalid hv)
      exact ⟨hdec, (hmap _ _).trans (rowEntry_mark_contains_self _ _ _), hctr⟩
    · intro hv hstale
      obtain ⟨hdec, hctr, -, -⟩ := hrow .stale (fwdDecide_of_stale hv hstale)
      exact ⟨hdec, hctr⟩
    · intro hv hlo hhi hset
      rw [hbits] at hset
      obtain ⟨hdec, hctr, -, -⟩ := hrow .repeated (by rw [fwdDecide_of_window hv hlo hhi, if_pos hset])
      exact ⟨hdec, hctr⟩
    · intro hv hlo hhi hclear
      rw [hbits] at hclear
      obtain ⟨hdec, hctr, hmap, -⟩ := hrow .mark (by rw [fwdDecide_of_window hv hlo hhi, hclear, if_neg Bool.false_ne_true])
      exact ⟨hdec, (hmap _ _).trans (rowEntry_mark_contains_self _ _ _), hctr⟩
    · intro hv hbeyond
      obtain ⟨hdec, hctr, hmap, -⟩ := hrow .unmarked (fwdDecide_of_beyond hv hbeyond)
      exact ⟨hdec, (hmap _ _).trans (hbits _ _).symm, hctr⟩
    · intro y q hy
      obtain ⟨-, -, hmap, -⟩ := hrow _ rfl
      rw [hmap, dirOf_rowEntry_other _ _ _ hy, hbits]
    · intro hv q hq
      obtain ⟨-, -, hmap, -⟩ := hrow _ rfl
      rw [hmap, rowEntry_contains_of_valid _ hv hq, hbits]
    · intro hv q hq
      obtain ⟨-, -, hmap, -⟩ := hrow .mark (fwdDecide_of_invalid hv)
      rw [hmap, rowEntry_mark_contains_of_invalid hv hq, hbits]
    · obtain ⟨-, -, -, htops⟩ := hrow _ rfl
      exact htops
  · intro endB h e s t hstep hfind hkey hadm hstop
    obtain ⟨c, hkept⟩ := frameHeader_stops hadm hstop hfind hkey
    cases hstep
    exact ⟨fun y q => (fwdBits_of_srcFind hkept y q).trans (fwdBits_of_srcFind hfind y q).symm,
      (topsOf_of_srcFind hkept).trans (topsOf_of_srcFind hfind).symm⟩
  · intro endB body tag fcs errBlock badBlock r s t hstep hrx htails hfails
    exact frameTail_src_of_fails hstep hrx htails hfails

end Sys2Proof.Laws
end

section
/-!
SUPPORT. The train frame header and its 32 bytes (R48): big-endian fields at their offsets, and the bit fields packed into them.
-/

namespace Sys2Proof.Laws

open Sys2Proof Sys2Proof.Machine

/-! Big-endian fields. -/

@[simp] theorem beBytes_length (n v : Nat) : (beBytes n v).length = n := by
  induction n generalizing v with
  | zero => rfl
  | succ n ih => simp [beBytes, ih]

@[simp] theorem byteOf_toNat (v : Nat) : (byteOf v).toNat = v % 256 := BitVec.toNat_ofNat v 8

theorem byteOf_eq_beBytes (v : Nat) : [byteOf v] = beBytes 1 v := by simp [beBytes]

/-- Reading the bytes of a number behind an accumulated value appends its low digits. -/
theorem foldl_beBytes (n v acc : Nat) :
    (beBytes n v).foldl (fun a b => 256 * a + b.toNat) acc = acc * 256 ^ n + v % 256 ^ n := by
  induction n generalizing v acc with
  | zero => simp [beBytes, Nat.mod_one]
  | succ n ih =>
    have hdigit : v % 256 ^ (n + 1) = v % 256 ^ n + 256 ^ n * (v / 256 ^ n % 256) := Nat.mod_pow_succ
    rw [beBytes, List.foldl_cons, ih, hdigit, byteOf_toNat, pow_succ]
    ring

/-- A field at the front reads as the number written there, in its width. -/
theorem be_front (n v : Nat) (p : List Byte) : be (beBytes n v ++ p) 0 n = v % 256 ^ n := by
  have htake : (beBytes n v ++ p).take n = beBytes n v := List.take_left' (beBytes_length n v)
  rw [be, List.drop_zero, htake, foldl_beBytes, Nat.zero_mul, Nat.zero_add]

/-- A field behind another is read past it. -/
theorem be_behind {m off : Nat} (n v : Nat) (p : List Byte) (h : m ≤ off) : be (beBytes m v ++ p) off n = be p (off - m) n := by
  simp [be, List.drop_append, List.drop_of_length_le, h]

/-! Bit fields of a number. -/

theorem b2n_lt_two (b : Bool) : b2n b < 2 := by cases b <;> decide

theorem natBit_eq_iff (n i : Nat) (b : Bool) : natBit n i = b ↔ n / 2 ^ i % 2 = b2n b := by
  cases b <;> simp [natBit, b2n]

/-- A signed number in range is read back from its two's complement. -/
theorem sx_tc_48 {i : Int} (hlo : -(2 ^ 47) ≤ i) (hhi : i < 2 ^ 47) : sx 48 (tc 48 i) = i := by
  have htc : (tc 48 i : Int) = i % 2 ^ 48 := by unfold tc; omega
  simp only [sx, natBit, beq_iff_eq]
  split <;> omega

/-! The header. -/

/-- The header's bytes as one row of big-endian fields. -/
theorem encodeHdr_fields (h : Hdr) : encodeHdr h
    = beBytes 1 h.ftype ++ (beBytes 1 (h.prio * 32 + b2n h.grp * 16 + b2n h.all * 8 + b2n h.conf * 4 + h.rsv1)
      ++ (beBytes 2 (h.inaug * 16 + h.key) ++ (beBytes 2 (h.rsv4 * 16384 + h.src) ++ (beBytes 2 (h.rsv6 * 16384 + h.dst)
      ++ (beBytes 6 h.seq ++ (beBytes 1 h.stall ++ (beBytes 1 h.cycle ++ (beBytes 2 h.len ++ (beBytes 2 h.adm ++ (beBytes 4 h.rsv20
      ++ (beBytes 1 (b2n h.dirY * 128 + h.hops) ++ (beBytes 1 (b2n h.poison * 128 + b2n h.held * 64 + h.rsvM)
      ++ (beBytes 6 (tc 48 h.corr) ++ []))))))))))))) := by
  simp [encodeHdr, ← byteOf_eq_beBytes]

theorem encodeHdr_length (h : Hdr) : (encodeHdr h).length = 32 := by
  simp [encodeHdr_fields]

theorem decodeHdr_encodeHdr {h : Hdr} (hwf : h.wf = true) : decodeHdr (encodeHdr h) = h := by
  simp only [Hdr.wf, Bool.and_eq_true, decide_eq_true_eq] at hwf
  have hgrp := b2n_lt_two h.grp
  have hall := b2n_lt_two h.all
  have hconf := b2n_lt_two h.conf
  have hdir := b2n_lt_two h.dirY
  have hpoison := b2n_lt_two h.poison
  have hheld := b2n_lt_two h.held
  have hcorr : tc 48 h.corr < 256 ^ 6 := by unfold tc; omega
  have hsigned : sx 48 (tc 48 h.corr) = h.corr := sx_tc_48 (by omega) (by omega)
  rw [encodeHdr_fields]
  simp only [decodeHdr, be_front, be_behind, Nat.reduceLeDiff, Nat.reduceSub, Nat.mod_eq_of_lt hcorr, hsigned]
  cases h
  simp only at *
  simp only [Hdr.mk.injEq, natBit_eq_iff, natBits, and_true]
  refine ⟨?_, ?_, ?_, ?_, ?_, ?_, ?_, ?_, ?_, ?_, ?_, ?_, ?_, ?_, ?_, ?_, ?_, ?_, ?_, ?_, ?_, ?_, ?_⟩ <;> omega

/-- Settles O10, field by field. -/
theorem headerRoundTrip : Obligations.HeaderRoundTrip := by
  unfold Obligations.HeaderRoundTrip
  exact fun h hwf => ⟨decodeHdr_encodeHdr hwf, encodeHdr_length h⟩

end Sys2Proof.Laws
end

section
/-!
SUPPORT. The canonical form of the hayloft (R463) through the operations that the meanings share: what writes no byte of it has it exactly when the state before has
it (`form_iff_…`), and what writes some keeps it (`form_…`).
-/

namespace Sys2Proof.Laws

open Sys2Proof Sys2Proof.Machine

/-! Updates of a part of the state, and how operations are put together. -/

@[simp] theorem form_iff_onSys (s : State) (f) : Machine.Inv (s.onSys f) ↔ Machine.Inv s := Iff.rfl
@[simp] theorem form_iff_onEnds (s : State) (f) : Machine.Inv (s.onEnds f) ↔ Machine.Inv s := Iff.rfl
@[simp] theorem form_iff_onLane (s : State) (f) : Machine.Inv (s.onLane f) ↔ Machine.Inv s := Iff.rfl
@[simp] theorem form_iff_onInaug (s : State) (f) : Machine.Inv (s.onInaug f) ↔ Machine.Inv s := Iff.rfl
@[simp] theorem form_iff_onLdr (s : State) (f) : Machine.Inv (s.onLdr f) ↔ Machine.Inv s := Iff.rfl
@[simp] theorem form_iff_onClk (s : State) (f) : Machine.Inv (s.onClk f) ↔ Machine.Inv s := Iff.rfl
@[simp] theorem form_iff_onRef (s : State) (f) : Machine.Inv (s.onRef f) ↔ Machine.Inv s := Iff.rfl
@[simp] theorem form_iff_onTeth (s : State) (f) : Machine.Inv (s.onTeth f) ↔ Machine.Inv s := Iff.rfl
@[simp] theorem form_iff_onPlan (s : State) (f) : Machine.Inv (s.onPlan f) ↔ Machine.Inv s := Iff.rfl
@[simp] theorem form_iff_onSent (s : State) (f) : Machine.Inv (s.onSent f) ↔ Machine.Inv s := Iff.rfl
@[simp] theorem form_iff_onFld (s : State) (f) : Machine.Inv (s.onFld f) ↔ Machine.Inv s := Iff.rfl
@[simp] theorem form_iff_onSec (s : State) (f) : Machine.Inv (s.onSec f) ↔ Machine.Inv s := Iff.rfl
@[simp] theorem form_iff_onYard (s : State) (f) : Machine.Inv (s.onYard f) ↔ Machine.Inv s := Iff.rfl
@[simp] theorem form_iff_onHost (s : State) (f) : Machine.Inv (s.onHost f) ↔ Machine.Inv s := Iff.rfl
@[simp] theorem form_iff_onStrm (s : State) (f) : Machine.Inv (s.onStrm f) ↔ Machine.Inv s := Iff.rfl
@[simp] theorem form_iff_onBrg (s : State) (f) : Machine.Inv (s.onBrg f) ↔ Machine.Inv s := Iff.rfl
@[simp] theorem form_iff_onEv (s : State) (f) : Machine.Inv (s.onEv f) ↔ Machine.Inv s := Iff.rfl
@[simp] theorem form_iff_onFlash (s : State) (f) : Machine.Inv (s.onFlash f) ↔ Machine.Inv s := Iff.rfl
@[simp] theorem form_iff_onCmd (s : State) (f) : Machine.Inv (s.onCmd f) ↔ Machine.Inv s := Iff.rfl
@[simp] theorem form_iff_onSnap (s : State) (f) : Machine.Inv (s.onSnap f) ↔ Machine.Inv s := Iff.rfl
@[simp] theorem form_iff_onRcp (s : State) (f) : Machine.Inv (s.onRcp f) ↔ Machine.Inv s := Iff.rfl
@[simp] theorem form_iff_onCtr (s : State) (f) : Machine.Inv (s.onCtr f) ↔ Machine.Inv s := Iff.rfl
@[simp] theorem form_iff_onPorts (s : State) (f) : Machine.Inv (s.onPorts f) ↔ Machine.Inv s := Iff.rfl
@[simp] theorem form_iff_onLoft {f : LoftSt → LoftSt} (h : ∀ l, (f l).mem = l.mem) (s : State) : Machine.Inv (s.onLoft f) ↔ Machine.Inv s := by
  simp [Machine.Inv, h]

@[simp] theorem form_iff_ite (c : Prop) [Decidable c] (a b : State) :
    Machine.Inv (if c then a else b) ↔ if c then Machine.Inv a else Machine.Inv b := by
  split <;> rfl

@[simp] theorem form_iff_when (c : Bool) (f : State → State) (s : State) :
    Machine.Inv (when' c f s) ↔ if c then Machine.Inv (f s) else Machine.Inv s := form_iff_ite _ _ _

@[simp] theorem form_iff_each {α : Type} {l : List α} {f : α → State → State} (h : ∀ a s, Machine.Inv (f a s) ↔ Machine.Inv s) (s : State) :
    Machine.Inv (each l f s) ↔ Machine.Inv s := by
  unfold each
  induction l generalizing s with
  | nil => rfl
  | cons a r ih => rw [List.foldl_cons, ih, h]

/-! Shared operations. -/

@[simp] theorem form_iff_cntEnd (endB : Bool) (i : Nat) (s : State) : Machine.Inv (cntEnd endB i s) ↔ Machine.Inv s := Iff.rfl
@[simp] theorem form_iff_cntInaug (i : Nat) (s : State) : Machine.Inv (cntInaug i s) ↔ Machine.Inv s := Iff.rfl
@[simp] theorem form_iff_cntTime (i : Nat) (s : State) : Machine.Inv (cntTime i s) ↔ Machine.Inv s := Iff.rfl
@[simp] theorem form_iff_cntStall (i : Nat) (s : State) : Machine.Inv (cntStall i s) ↔ Machine.Inv s := Iff.rfl
@[simp] theorem form_iff_cntTalk (slot i : Nat) (s : State) : Machine.Inv (cntTalk slot i s) ↔ Machine.Inv s := Iff.rfl
@[simp] theorem form_iff_cntRule (r i : Nat) (s : State) : Machine.Inv (cntRule r i s) ↔ Machine.Inv s := Iff.rfl
@[simp] theorem form_iff_cntSent (i n : Nat) (s : State) : Machine.Inv (cntSent i n s) ↔ Machine.Inv s := Iff.rfl
@[simp] theorem form_iff_cntLstn (slot i : Nat) (s : State) : Machine.Inv (cntLstn slot i s) ↔ Machine.Inv s := Iff.rfl
@[simp] theorem form_iff_cntSerial (p i : Nat) (s : State) : Machine.Inv (cntSerial p i s) ↔ Machine.Inv s := Iff.rfl
@[simp] theorem form_iff_cntChan (ch i : Nat) (s : State) : Machine.Inv (cntChan ch i s) ↔ Machine.Inv s := Iff.rfl
@[simp] theorem form_iff_cntGrp (g i : Nat) (s : State) : Machine.Inv (cntGrp g i s) ↔ Machine.Inv s := Iff.rfl
@[simp] theorem form_iff_cntFmod (i : Nat) (s : State) : Machine.Inv (cntFmod i s) ↔ Machine.Inv s := Iff.rfl
@[simp] theorem form_iff_cntSec (i : Nat) (s : State) : Machine.Inv (cntSec i s) ↔ Machine.Inv s := Iff.rfl
@[simp] theorem form_iff_cntYardBy (i n : Nat) (s : State) : Machine.Inv (cntYardBy i n s) ↔ Machine.Inv s := Iff.rfl
@[simp] theorem form_iff_cntYard (i : Nat) (s : State) : Machine.Inv (cntYard i s) ↔ Machine.Inv s := Iff.rfl
@[simp] theorem form_iff_cntHost (i : Nat) (s : State) : Machine.Inv (cntHost i s) ↔ Machine.Inv s := Iff.rfl
@[simp] theorem form_iff_cntCmd (i : Nat) (s : State) : Machine.Inv (cntCmd i s) ↔ Machine.Inv s := Iff.rfl
@[simp] theorem form_iff_cntStrmBy (i n : Nat) (s : State) : Machine.Inv (cntStrmBy i n s) ↔ Machine.Inv s := Iff.rfl
@[simp] theorem form_iff_cntStrm (i : Nat) (s : State) : Machine.Inv (cntStrm i s) ↔ Machine.Inv s := Iff.rfl
@[simp] theorem form_iff_cntEvBy (i n : Nat) (s : State) : Machine.Inv (cntEvBy i n s) ↔ Machine.Inv s := Iff.rfl
@[simp] theorem form_iff_cntEv (i : Nat) (s : State) : Machine.Inv (cntEv i s) ↔ Machine.Inv s := Iff.rfl
@[simp] theorem form_iff_cntLoft (i : Nat) (s : State) : Machine.Inv (cntLoft i s) ↔ Machine.Inv s := Iff.rfl
@[simp] theorem form_iff_tookFree (s : State) : Machine.Inv (tookFree s) ↔ Machine.Inv s := Iff.rfl
@[simp] theorem form_iff_noteStamp (s : State) : Machine.Inv (noteStamp s) ↔ Machine.Inv s := by simp [noteStamp]
@[simp] theorem form_iff_strmWait (s : State) : Machine.Inv (strmWait s) ↔ Machine.Inv s := by simp [strmWait]
@[simp] theorem form_iff_strmQueue (f : SFrame) (s : State) : Machine.Inv (strmQueue f s).1 ↔ Machine.Inv s := by unfold strmQueue; split <;> simp
@[simp] theorem form_iff_sentenceIn (x : Sentence) (s : State) : Machine.Inv (sentenceIn x s) ↔ Machine.Inv s := by simp [sentenceIn]

@[simp] theorem form_iff_offerTalker (src code : Nat) (st : Stamp) (slot : Nat) (s : State) :
    Machine.Inv (offerTalker src code st slot s) ↔ Machine.Inv s := by
  unfold offerTalker
  dsimp only
  (repeat' split) <;> simp

@[simp] theorem form_iff_ringHost (n : Nat) (s : State) : Machine.Inv (ringHost n s) ↔ Machine.Inv s := Iff.rfl
@[simp] theorem form_iff_evFrameClose (s : State) : Machine.Inv (evFrameClose s).1 ↔ Machine.Inv s := by unfold evFrameClose; split <;> simp
@[simp] theorem form_iff_evToStream (e : Event) (eseq : Nat) (s : State) : Machine.Inv (evToStream e eseq s) ↔ Machine.Inv s := Iff.rfl

@[simp] theorem form_iff_evToTrain (code : Nat) (e : Event) (eseq : Nat) (s : State) : Machine.Inv (evToTrain code e eseq s) ↔ Machine.Inv s := by
  simp [evToTrain]

@[simp] theorem form_iff_raiseAt (st : Stamp) (src code data data2 : Nat) (s : State) :
    Machine.Inv (raiseAt st src code data data2 s) ↔ Machine.Inv s := by
  unfold raiseAt
  split <;> simp

@[simp] theorem form_iff_raiseCode (src code data data2 : Nat) (s : State) : Machine.Inv (raiseCode src code data data2 s) ↔ Machine.Inv s := by
  simp [raiseCode]

@[simp] theorem form_iff_raise2 (src data data2 : Nat) (s : State) : Machine.Inv (raise2 src data data2 s) ↔ Machine.Inv s := by simp [raise2]
@[simp] theorem form_iff_raise (src data : Nat) (s : State) : Machine.Inv (raise src data s) ↔ Machine.Inv s := by simp [raise]

@[simp] theorem form_iff_firstInCycle (k : Nat) {f : State → State} (h : ∀ s, Machine.Inv (f s) ↔ Machine.Inv s) (s : State) :
    Machine.Inv (firstInCycle k f s) ↔ Machine.Inv s := by
  simp [firstInCycle, h]

@[simp] theorem form_iff_raiseFirst (key src data : Nat) (s : State) : Machine.Inv (raiseFirst key src data s) ↔ Machine.Inv s := by simp [raiseFirst]
@[simp] theorem form_iff_strmPush (f : SFrame) (s : State) : Machine.Inv (strmPush f s) ↔ Machine.Inv s := by simp [strmPush]
@[simp] theorem form_iff_strmCloseEvents (s : State) : Machine.Inv (strmCloseEvents s) ↔ Machine.Inv s := by simp [strmCloseEvents]

@[simp] theorem form_iff_strmStatus (ch seq status detail : Nat) (s : State) : Machine.Inv (strmStatus ch seq status detail s) ↔ Machine.Inv s := by
  simp [strmStatus]

@[simp] theorem form_iff_noteCorrected (cw : Nat) (s : State) : Machine.Inv (noteCorrected cw s) ↔ Machine.Inv s := by simp [noteCorrected]

@[simp] theorem form_iff_noteUncorrectable (cw who : Nat) (s : State) : Machine.Inv (noteUncorrectable cw who s) ↔ Machine.Inv s := by
  simp [noteUncorrectable]

@[simp] theorem form_iff_loftCheck (a n who : Nat) (s : State) : Machine.Inv (loftCheck a n who s).2 ↔ Machine.Inv s := by
  have keep : ∀ (l : List Nat) (x : Bool × State), Machine.Inv (l.foldl (fun x cw =>
      match (x.2.loft.damage.find? fun d => d.1 == cw) with
      | none => x
      | some (_, .one) =>
        (x.1, noteCorrected cw (x.2.onLoft fun l => { l with writeBack := if l.writeBack.contains cw then l.writeBack else l.writeBack ++ [cw] }))
      | some (_, .two) => (false, noteUncorrectable cw who x.2)
      | some (_, .poisoned) => (false, noteUncorrectable cw (who + 512) x.2)) x).2 ↔ Machine.Inv x.2 := by
    intro l
    induction l with
    | nil => exact fun x => Iff.rfl
    | cons c r ih => intro x; rw [List.foldl_cons, ih]; split <;> simp
  exact keep (codewords a n) (true, s)

@[simp] theorem form_iff_journalEntry (s : State) : Machine.Inv (journalEntry s) ↔ Machine.Inv s := Iff.rfl

/-! Messages. -/

@[simp] theorem form_iff_modMang (ch : Nat) (f : Manger → Manger) (s : State) : Machine.Inv (modMang ch f s) ↔ Machine.Inv s := Iff.rfl
@[simp] theorem form_iff_trainSend (f : TxFrame) (s : State) : Machine.Inv (trainSend f s) ↔ Machine.Inv s := Iff.rfl
@[simp] theorem form_iff_tookReq (s : State) : Machine.Inv (tookReq s) ↔ Machine.Inv s := Iff.rfl

@[simp] theorem form_iff_ctlSend (dst : Nat) (tag : TxTag) (payload : List Byte) (s : State) :
    Machine.Inv (ctlSend dst tag payload s) ↔ Machine.Inv s := by
  simp [ctlSend]

@[simp] theorem form_iff_ctlSendIn (epoch dst : Nat) (payload : List Byte) (s : State) :
    Machine.Inv (ctlSendIn epoch dst payload s) ↔ Machine.Inv s := by
  simp [ctlSendIn]

@[simp] theorem form_iff_ctlSendAll (payload : List Byte) (s : State) : Machine.Inv (ctlSendAll payload s) ↔ Machine.Inv s := Iff.rfl
@[simp] theorem form_iff_remoteServed (ch : Nat) (s : State) : Machine.Inv (remoteServed ch s) ↔ Machine.Inv s := Iff.rfl

@[simp] theorem form_iff_replyRemote (ch : Nat) (words : List Word) (s : State) : Machine.Inv (replyRemote ch words s) ↔ Machine.Inv s := by
  unfold replyRemote
  (repeat' split) <;> simp

@[simp] theorem form_iff_commitOut (ch : Nat) (words : List Word) (session : Nat) (s : State) :
    Machine.Inv (commitOut ch words session s) ↔ Machine.Inv s := by
  simp [commitOut]

@[simp] theorem form_iff_outPut (ch : Nat) (words : List Word) (session : Nat) (s : State) :
    Machine.Inv (outPut ch words session s) ↔ Machine.Inv s := by
  simp [outPut]

@[simp] theorem form_iff_yardSend (y : YSess) (mseq : Nat) (words : List Word) (s : State) : Machine.Inv (yardSend y mseq words s) ↔ Machine.Inv s :=
  Iff.rfl

@[simp] theorem form_iff_notifyCh (ch session : Nat) (parts : List (List Word)) (s : State) :
    Machine.Inv (notifyCh ch session parts s) ↔ Machine.Inv s := by
  simp [notifyCh]

@[simp] theorem form_iff_notifyAll (parts : List (List Word)) (s : State) : Machine.Inv (notifyAll parts s) ↔ Machine.Inv s := by simp [notifyAll]

@[simp] theorem form_iff_notifySession (session : Nat) (parts : List (List Word)) (s : State) :
    Machine.Inv (notifySession session parts s) ↔ Machine.Inv s := by
  unfold notifySession
  (repeat' split) <;> simp

@[simp] theorem form_iff_notifyVia (via : Via) (session : Nat) (parts : List (List Word)) (s : State) :
    Machine.Inv (notifyVia via session parts s) ↔ Machine.Inv s := by
  unfold notifyVia
  split <;> simp

@[simp] theorem form_iff_notifyState (old : Nat) (s : State) : Machine.Inv (notifyState old s) ↔ Machine.Inv s := by simp [notifyState]
@[simp] theorem form_iff_noteTaken (ch : Nat) (ws : List Word) (s : State) : Machine.Inv (noteTaken ch ws s) ↔ Machine.Inv s := Iff.rfl
@[simp] theorem form_iff_takeMsg (via : Via) (s : State) : Machine.Inv (takeMsg via s) ↔ Machine.Inv s := by unfold takeMsg; split <;> simp

@[simp] theorem form_iff_orderFlush (ch n : Nat) (s : State) : Machine.Inv (orderFlush ch n s) ↔ Machine.Inv s := by
  induction n generalizing s with
  | zero => rfl
  | succ n ih => unfold orderFlush; split <;> simp [ih]

@[simp] theorem form_iff_outReply (ch : Nat) (c : Ctx) (ws : List Word) (s : State) : Machine.Inv (outReply ch c ws s) ↔ Machine.Inv s := by
  simp [outReply]

@[simp] theorem form_iff_reply (c : Ctx) (status detail : Nat) (results : List Nat) (s : State) :
    Machine.Inv (reply c status detail results s) ↔ Machine.Inv s := by
  unfold reply
  dsimp only
  (repeat' split) <;> simp

@[simp] theorem form_iff_replyOk (c : Ctx) (results : List Nat) (s : State) : Machine.Inv (replyOk c results s) ↔ Machine.Inv s := by simp [replyOk]

@[simp] theorem form_iff_badParam (c : Ctx) (word entry : Nat) (s : State) : Machine.Inv (badParam c word entry s) ↔ Machine.Inv s := by
  simp [badParam]

@[simp] theorem form_iff_stateError (c : Ctx) (s : State) : Machine.Inv (stateError c s) ↔ Machine.Inv s := by simp [stateError]
@[simp] theorem form_iff_privError (c : Ctx) (s : State) : Machine.Inv (privError c s) ↔ Machine.Inv s := by simp [privError]
@[simp] theorem form_iff_noSpace (c : Ctx) (n : Nat) (s : State) : Machine.Inv (noSpace c n s) ↔ Machine.Inv s := by simp [noSpace]
@[simp] theorem form_iff_notFound (c : Ctx) (s : State) : Machine.Inv (notFound c s) ↔ Machine.Inv s := by simp [notFound]
@[simp] theorem form_iff_staleGen (c : Ctx) (g : Nat) (s : State) : Machine.Inv (staleGen c g s) ↔ Machine.Inv s := by simp [staleGen]
@[simp] theorem form_iff_sigError (c : Ctx) (s : State) : Machine.Inv (sigError c s) ↔ Machine.Inv s := by simp [sigError]
@[simp] theorem form_iff_timeoutError (c : Ctx) (s : State) : Machine.Inv (timeoutError c s) ↔ Machine.Inv s := by simp [timeoutError]

@[simp] theorem form_iff_integrityError (c : Ctx) (n : Nat) (s : State) : Machine.Inv (integrityError c n s) ↔ Machine.Inv s := by
  simp [integrityError]

@[simp] theorem form_iff_busyError (c : Ctx) (n : Nat) (s : State) : Machine.Inv (busyError c n s) ↔ Machine.Inv s := by simp [busyError]

theorem form_checkCmd {used : Nat} {need : Need} {body : Ctx → State → State} {c : Ctx} {s : State}
    (hbody : ∀ c s, Machine.Inv s → Machine.Inv (body c s)) (h : Machine.Inv s) : Machine.Inv (checkCmd used need body c s) := by
  simp [checkCmd, h, hbody]

theorem form_startSerial {code : Nat} {run : Ctx → State → State} {c : Ctx} {s : State}
    (hrun : ∀ c s, Machine.Inv s → Machine.Inv (run c s)) (h : Machine.Inv s) : Machine.Inv (startSerial code run c s) := by
  simp [startSerial, h, hrun]

theorem form_beginSerial {code : Nat} {run : Ctx → State → State} {c : Ctx} {s : State}
    (hrun : ∀ c s, Machine.Inv s → Machine.Inv (run c s)) (h : Machine.Inv s) : Machine.Inv (beginSerial code run c s) := by
  simp [beginSerial, h, hrun, form_startSerial hrun h]

@[simp] theorem form_iff_takeReady (s : State) : Machine.Inv (takeReady s) ↔ Machine.Inv s := Iff.rfl

theorem form_firmware {code used : Nat} {need : Need} {body : Ctx → State → State} {via : Via} {s : State}
    (hbody : ∀ c s, Machine.Inv s → Machine.Inv (body c s)) (h : Machine.Inv s) : Machine.Inv (firmware code used need body via s) := by
  have hcheck : ∀ c s, Machine.Inv s → Machine.Inv (checkCmd used need body c s) := fun c s => form_checkCmd hbody
  unfold firmware
  split
  · exact h
  split
  · split
    · exact h
    · exact hcheck _ _ (by simpa using h)
  split
  · exact h
  split
  · exact h
  split
  · exact h
  dsimp only
  split
  · exact form_checkCmd (fun c s => form_beginSerial hcheck) (by simpa using h)
  · exact hcheck _ _ (by simpa using h)

theorem form_withParcel {i : Nat} {f : Nat → Nat → State → State} {c : Ctx} {s : State}
    (hf : ∀ a n s, Machine.Inv s → Machine.Inv (f a n s)) (h : Machine.Inv s) : Machine.Inv (withParcel i f c s) := by
  simp [withParcel, h, hf]

theorem form_readParcel {i : Nat} {f : List Byte → State → State} {c : Ctx} {s : State}
    (hf : ∀ p s, Machine.Inv s → Machine.Inv (f p s)) (h : Machine.Inv s) : Machine.Inv (readParcel i f c s) := by
  refine form_withParcel (fun a n t ht => ?_) h
  split
  · exact hf _ _ ht
  · simp [ht, hf]

theorem form_writeItems {i : Nat} {items : List (List Byte)} {done : Nat → State → State} {c : Ctx} {s : State}
    (hdone : ∀ k s, Machine.Inv s → Machine.Inv (done k s)) (h : Machine.Inv s) : Machine.Inv (writeItems i items done c s) := by
  refine form_withParcel (fun a n t ht => ?_) h
  simp [ht, hdone, form_loftWrite]

/-! Field groups. -/

@[simp] theorem form_iff_modChan (n : Nat) (f : Chan → Chan) (s : State) : Machine.Inv (modChan n f s) ↔ Machine.Inv s := Iff.rfl
@[simp] theorem form_iff_modGrp (g : Nat) (f : FGroup → FGroup) (s : State) : Machine.Inv (modGrp g f s) ↔ Machine.Inv s := Iff.rfl
@[simp] theorem form_iff_fieldSettle (s : State) : Machine.Inv (fieldSettle s) ↔ Machine.Inv s := Iff.rfl
@[simp] theorem form_iff_ownEvent (g code : Nat) (s : State) : Machine.Inv (ownEvent g code s) ↔ Machine.Inv s := by simp [ownEvent]

@[simp] theorem form_iff_ownNotify (o : Owner) (g why : Nat) (s : State) : Machine.Inv (ownNotify o g why s) ↔ Machine.Inv s := by
  unfold ownNotify
  split <;> simp

@[simp] theorem form_iff_endOwner (g code why : Nat) (s : State) : Machine.Inv (endOwner g code why s) ↔ Machine.Inv s := by simp [endOwner]
@[simp] theorem form_iff_endOwners (code why : Nat) (s : State) : Machine.Inv (endOwners code why s) ↔ Machine.Inv s := by simp [endOwners]
@[simp] theorem form_iff_logImage (s : State) : Machine.Inv (logImage s) ↔ Machine.Inv s := Iff.rfl

@[simp] theorem form_iff_fieldRequest (g mask vals : Nat) (all : Bool) (s : State) : Machine.Inv (fieldRequest g mask vals all s) ↔ Machine.Inv s :=
  Iff.rfl

/-! The car as part of a train. -/

@[simp] theorem form_iff_setRole (r : Role) (rank : Nat) (drive : Bool) (s : State) : Machine.Inv (setRole r rank drive s) ↔ Machine.Inv s := by
  simp [setRole]

@[simp] theorem form_iff_roleIn (d : Dev) (s : State) : Machine.Inv (roleIn d s) ↔ Machine.Inv s := by unfold roleIn; split <;> simp
@[simp] theorem form_iff_setDev (d : Dev) (s : State) : Machine.Inv (setDev d s) ↔ Machine.Inv s := by simp [setDev]
@[simp] theorem form_iff_plantEnd (s : State) : Machine.Inv (plantEnd s) ↔ Machine.Inv s := by simp [plantEnd]

@[simp] theorem form_setTState (t : TState) {s : State} (hinv : Machine.Inv s) : Machine.Inv (setTState t s) := by
  simp [setTState, hinv, form_clockMark]

@[simp] theorem form_iff_setRate (r : Int) (s : State) : Machine.Inv (setRate r s) ↔ Machine.Inv s := Iff.rfl
@[simp] theorem form_iff_releaseTether (s : State) : Machine.Inv (releaseTether s) ↔ Machine.Inv s := Iff.rfl
@[simp] theorem form_enterFree {s : State} (hinv : Machine.Inv s) : Machine.Inv (enterFree s) := by simp [enterFree, hinv]
@[simp] theorem form_iff_commitReply (s : State) : Machine.Inv (commitReply s) ↔ Machine.Inv s := by unfold commitReply; split <;> simp
@[simp] theorem form_iff_stateCommitted (s : State) : Machine.Inv (stateCommitted s) ↔ Machine.Inv s := by simp [stateCommitted]
@[simp] theorem form_iff_stateCopy (s : State) : Machine.Inv (stateCopy s) ↔ Machine.Inv s := by simp [stateCopy]
@[simp] theorem form_iff_releaseEntries (s : State) : Machine.Inv (releaseEntries s) ↔ Machine.Inv s := Iff.rfl
@[simp] theorem form_iff_eraseKeys (s : State) : Machine.Inv (eraseKeys s) ↔ Machine.Inv s := Iff.rfl
@[simp] theorem form_iff_wrapNext (s : State) : Machine.Inv (wrapNext s) ↔ Machine.Inv s := Iff.rfl
@[simp] theorem form_iff_rsaBegin (s : State) : Machine.Inv (rsaBegin s) ↔ Machine.Inv s := Iff.rfl
@[simp] theorem form_iff_rsaEnd (priv : Bool) (s : State) : Machine.Inv (rsaEnd priv s) ↔ Machine.Inv s := Iff.rfl
@[simp] theorem form_iff_startBeacon (s : State) : Machine.Inv (startBeacon s) ↔ Machine.Inv s := Iff.rfl
@[simp] theorem form_iff_startRotation (s : State) : Machine.Inv (startRotation s) ↔ Machine.Inv s := by simp [startRotation]
@[simp] theorem form_iff_setFit (fit loc : Nat) (s : State) : Machine.Inv (setFit fit loc s) ↔ Machine.Inv s := by simp [setFit]
@[simp] theorem form_iff_setFitBit (i : Nat) (v : Bool) (s : State) : Machine.Inv (setFitBit i v s) ↔ Machine.Inv s := by simp [setFitBit]

@[simp] theorem form_iff_routeCalc (s0 : State) : Machine.Inv (routeCalc s0) ↔ Machine.Inv s0 := by
  unfold routeCalc
  dsimp only
  (repeat' split) <;> simp

@[simp] theorem form_iff_driveRestart (s : State) : Machine.Inv (driveRestart s) ↔ Machine.Inv s := by unfold driveRestart; (repeat' split) <;> simp
@[simp] theorem form_iff_oldEpoch (epoch : Nat) (s : State) : Machine.Inv (oldEpoch epoch s) ↔ Machine.Inv s := by simp [oldEpoch]
@[simp] theorem form_iff_unfitNew (old new : List NumEntry) (s : State) : Machine.Inv (unfitNew old new s) ↔ Machine.Inv s := by simp [unfitNew]

@[simp] theorem form_iff_adopt (epoch train cause grace : Nat) (n : Option Nat) (entries : List NumEntry) (s : State) :
    Machine.Inv (adopt epoch train cause grace n entries s) ↔ Machine.Inv s := by
  simp [adopt]

@[simp] theorem form_loseMembership {s : State} (hinv : Machine.Inv s) : Machine.Inv (loseMembership s) := by simp [loseMembership, hinv]
@[simp] theorem form_loseAndSeek {s : State} (hinv : Machine.Inv s) : Machine.Inv (loseAndSeek s) := by simp [loseAndSeek, hinv]
@[simp] theorem form_iff_orientLead (s : State) : Machine.Inv (orientLead s) ↔ Machine.Inv s := Iff.rfl
@[simp] theorem form_iff_newCensus (cause : Nat) (s0 : State) : Machine.Inv (newCensus cause s0) ↔ Machine.Inv s0 := by simp [newCensus]

@[simp] theorem form_iff_openCensus (cause : Nat) (adm : Option Nat) (s : State) : Machine.Inv (openCensus cause adm s) ↔ Machine.Inv s := by
  unfold openCensus
  (repeat' split) <;> simp

@[simp] theorem form_iff_trigger (endB : Bool) (cause : Nat) (s : State) : Machine.Inv (trigger endB cause s) ↔ Machine.Inv s := by simp [trigger]
@[simp] theorem form_iff_fwTake (g : Nat) (s : State) : Machine.Inv (fwTake g s) ↔ Machine.Inv s := by simp [fwTake]
@[simp] theorem form_iff_enterRunning (s : State) : Machine.Inv (enterRunning s) ↔ Machine.Inv s := by simp [enterRunning]

end Sys2Proof.Laws
end

section
/-!
SUPPORT. The canonical form of the hayloft (R463) through the lanes, train time, frames and the stall engine: what writes no byte of it has it exactly when the state before has
it (`form_iff_…`), and what writes some keeps it (`form_…`).
-/

namespace Sys2Proof.Laws

open Sys2Proof Sys2Proof.Machine

/-! Coupler ends. -/

@[simp] theorem form_iff_onEnd (endB : Bool) (f : CplEnd → CplEnd) (s : State) : Machine.Inv (onEnd endB f s) ↔ Machine.Inv s := Iff.rfl

@[simp] theorem form_iff_cutArriving (endB : Bool) (s : State) : Machine.Inv (cutArriving endB s) ↔ Machine.Inv s := by
  unfold cutArriving
  split <;> simp

@[simp] theorem form_iff_setEnd (endB : Bool) (st : EndState) (s : State) : Machine.Inv (setEnd endB st s) ↔ Machine.Inv s := by simp [setEnd]
@[simp] theorem form_iff_endUpdate (endB : Bool) (s : State) : Machine.Inv (endUpdate endB s) ↔ Machine.Inv s := by unfold endUpdate; split <;> simp

@[simp] theorem form_iff_presenceChange (endB level : Bool) (s : State) : Machine.Inv (presenceChange endB level s) ↔ Machine.Inv s := by
  unfold presenceChange
  split <;> simp

@[simp] theorem form_iff_laneStatusChange (endB signal lock hiBer : Bool) (s : State) :
    Machine.Inv (laneStatusChange endB signal lock hiBer s) ↔ Machine.Inv s := by
  simp [laneStatusChange]

@[simp] theorem form_iff_helloChunkSend (endB : Bool) (s : State) : Machine.Inv (helloChunkSend endB s) ↔ Machine.Inv s := by simp [helloChunkSend]

@[simp] theorem form_iff_acceptNeighbour (endB : Bool) (badge : Nat) (s : State) : Machine.Inv (acceptNeighbour endB badge s) ↔ Machine.Inv s := by
  unfold acceptNeighbour
  dsimp only
  (repeat' split) <;> simp

@[simp] theorem form_iff_helloComplete (endB : Bool) (h : List (Nat × Nat)) (s : State) : Machine.Inv (helloComplete endB h s) ↔ Machine.Inv s := by
  simp [helloComplete]

@[simp] theorem form_iff_helloChunkReceive (endB : Bool) (idx val : Nat) (s : State) :
    Machine.Inv (helloChunkReceive endB idx val s) ↔ Machine.Inv s := by
  simp [helloChunkReceive]

@[simp] theorem form_iff_lineLinkTimeout (endB : Bool) (s : State) : Machine.Inv (lineLinkTimeout endB s) ↔ Machine.Inv s := by
  unfold lineLinkTimeout
  dsimp only
  (repeat' split) <;> simp

/-! Twin paths. -/

@[simp] theorem form_iff_modSrc (isOpen : Bool) (id : Nat) (f : SrcEntry → SrcEntry) (s : State) : Machine.Inv (modSrc isOpen id f s) ↔ Machine.Inv s :=
  Iff.rfl

@[simp] theorem form_iff_laneHealth (code : Nat) (dirY : Bool) (adm n : Nat) (s : State) :
    Machine.Inv (laneHealth code dirY adm n s) ↔ Machine.Inv s := by
  simp [laneHealth]

@[simp] theorem form_iff_openEntryRelease (badge : Nat) (s : State) : Machine.Inv (openEntryRelease badge s) ↔ Machine.Inv s := by
  unfold openEntryRelease
  split <;> simp

@[simp] theorem form_iff_pairSettlement (s : State) : Machine.Inv (pairSettlement s) ↔ Machine.Inv s := by
  unfold pairSettlement
  split
  · rfl
  · dsimp only
    rw [form_iff_each, form_iff_onLane]
    intro k t
    split <;> simp

/-! Train time. -/

@[simp] theorem form_iff_refDuty (s : State) : Machine.Inv (refDuty s) ↔ Machine.Inv s := by simp [refDuty]
@[simp] theorem form_iff_tetherFaultEnd (s : State) : Machine.Inv (tetherFaultEnd s) ↔ Machine.Inv s := by simp [tetherFaultEnd]
@[simp] theorem form_iff_tetherDuty (used : Bool) (s : State) : Machine.Inv (tetherDuty used s) ↔ Machine.Inv s := by simp [tetherDuty]
@[simp] theorem form_iff_shadowDuty (s : State) : Machine.Inv (shadowDuty s) ↔ Machine.Inv s := by simp [shadowDuty]

@[simp] theorem form_iff_leaseDuty (s : State) : Machine.Inv (leaseDuty s) ↔ Machine.Inv s := by
  unfold leaseDuty
  rw [form_iff_each (fun g t => by split <;> simp), form_iff_onFld]

@[simp] theorem form_iff_delayDuty (cycle : Nat) (s : State) : Machine.Inv (delayDuty cycle s) ↔ Machine.Inv s := by simp [delayDuty]
@[simp] theorem form_iff_plantRate (r : Int) (s : State) : Machine.Inv (plantRate r s) ↔ Machine.Inv s := Iff.rfl
@[simp] theorem form_iff_rateDuty (s : State) : Machine.Inv (rateDuty s) ↔ Machine.Inv s := by simp [rateDuty]
@[simp] theorem form_iff_boundaryDuties (s : State) : Machine.Inv (boundaryDuties s) ↔ Machine.Inv s := by simp [boundaryDuties]
@[simp] theorem form_iff_moveMarks (th : Int) (s : State) : Machine.Inv (moveMarks th s) ↔ Machine.Inv s := Iff.rfl

@[simp] theorem form_stepBy (th : Int) {s : State} (hinv : Machine.Inv s) : Machine.Inv (stepBy th s) := by
  unfold stepBy
  dsimp only
  (repeat' split) <;> simp [hinv, form_clockMark]

@[simp] theorem form_iff_slew (th : Int) (s : State) : Machine.Inv (slew th s) ↔ Machine.Inv s := Iff.rfl
@[simp] theorem form_servo (th : Int) {s : State} (hinv : Machine.Inv s) : Machine.Inv (servo th s) := by simp [servo, hinv]

@[simp] theorem form_refState (verified : Bool) (th : Int) {s : State} (hinv : Machine.Inv s) : Machine.Inv (refState verified th s) := by
  unfold refState
  (repeat' split) <;> simp [hinv]

@[simp] theorem form_iff_driveExchange (h : Hdr) (p : List Byte) (tl : Int) (s : State) : Machine.Inv (driveExchange h p tl s) ↔ Machine.Inv s := by
  unfold driveExchange
  dsimp only
  (repeat' split) <;> simp

@[simp] theorem form_iff_newMaster (badge role adm : Nat) (s : State) : Machine.Inv (newMaster badge role adm s) ↔ Machine.Inv s := by
  simp [newMaster]

@[simp] theorem form_masterYield {s : State} (hinv : Machine.Inv s) : Machine.Inv (masterYield s) := by simp [masterYield, hinv]
@[simp] theorem form_epochMark (e : Nat) {s : State} (hinv : Machine.Inv s) : Machine.Inv (epochMark e s) := by simp [epochMark, hinv, form_clockMark]
@[simp] theorem form_adoptEpoch (e : Nat) {s : State} (hinv : Machine.Inv s) : Machine.Inv (adoptEpoch e s) := by simp [adoptEpoch, hinv]

theorem form_inEpoch {e : Nat} {f : State → State} {s : State} (hf : ∀ s, Machine.Inv s → Machine.Inv (f s)) (h : Machine.Inv s) :
    Machine.Inv (inEpoch e f s) := by
  simp [inEpoch, h, hf]

@[simp] theorem form_refFollow (h : Hdr) (p : List Byte) {s : State} (hinv : Machine.Inv s) : Machine.Inv (refFollow h p s) := by
  simp [refFollow, hinv]

@[simp] theorem form_refUse (h : Hdr) (p : List Byte) (tl : Int) (verified : Bool) {s : State} (hinv : Machine.Inv s) :
    Machine.Inv (refUse h p tl verified s) := by
  have hfollow : Machine.Inv (if verified then refFollow h p s else s.onRef fun r => { r with uBadge := refBadge p, uRole := refRole p, closed := false }) := by
    simp [hinv]
  unfold refUse
  dsimp only
  refine form_refState _ _ ?_
  simp only [form_iff_when, form_iff_setFit, form_iff_onClk, ite_self]
  refine form_inEpoch (fun s => form_servo _) ?_
  simpa using hfollow

@[simp] theorem form_refReceive (h : Hdr) (p : List Byte) (tl : Int) (verified : Bool) {s : State} (hinv :
    Machine.Inv s) : Machine.Inv (refReceive h p tl verified s) := by
  simp [refReceive, hinv]

@[simp] theorem form_iff_shadowReceive (h : Hdr) (p : List Byte) (tl : Int) (s : State) : Machine.Inv (shadowReceive h p tl s) ↔ Machine.Inv s := by
  simp [shadowReceive]

@[simp] theorem form_iff_selfCheckFail (code bar : Nat) (s : State) : Machine.Inv (selfCheckFail code bar s) ↔ Machine.Inv s := by
  simp [selfCheckFail]

@[simp] theorem form_iff_selfCheckPass (code : Nat) (s : State) : Machine.Inv (selfCheckPass code s) ↔ Machine.Inv s := Iff.rfl

@[simp] theorem form_iff_refReturn (h : Hdr) (p : List Byte) (tl : Int) (s : State) : Machine.Inv (refReturn h p tl s) ↔ Machine.Inv s := by
  unfold refReturn
  dsimp only
  (repeat' split) <;> simp

@[simp] theorem form_iff_delayStamp (h : Hdr) (p : List Byte) (tl : Int) (s : State) : Machine.Inv (delayStamp h p tl s) ↔ Machine.Inv s := by
  simp [delayStamp]

/-! Frames. -/

@[simp] theorem form_iff_modRx (endB : Bool) (f : RxFrame → RxFrame) (s : State) : Machine.Inv (modRx endB f s) ↔ Machine.Inv s := Iff.rfl

@[simp] theorem form_iff_startForward (endB : Bool) (s : State) : Machine.Inv (startForward endB s) ↔ Machine.Inv s := by
  unfold startForward
  split <;> simp

@[simp] theorem form_iff_forwardByMap (endB isOpen : Bool) (id : Nat) (s : State) : Machine.Inv (forwardByMap endB isOpen id s) ↔ Machine.Inv s := by
  unfold forwardByMap
  (repeat' split) <;> simp

@[simp] theorem form_iff_entryFor (endB isOpen : Bool) (id : Nat) (s : State) : Machine.Inv (entryFor endB isOpen id s) ↔ Machine.Inv s := by
  unfold entryFor
  (repeat' split) <;> simp

@[simp] theorem form_iff_seenAgain (isOpen : Bool) (id : Nat) (s : State) : Machine.Inv (seenAgain isOpen id s) ↔ Machine.Inv s := Iff.rfl

@[simp] theorem form_iff_decideFrame (endB isOpen own : Bool) (id : Nat) (s : State) :
    Machine.Inv (decideFrame endB isOpen own id s) ↔ Machine.Inv s := by
  unfold decideFrame
  split <;> simp

@[simp] theorem form_iff_decideOrdered (endB isOpen own : Bool) (id : Nat) (s : State) :
    Machine.Inv (decideOrdered endB isOpen own id s) ↔ Machine.Inv s := by
  simp [decideOrdered]

@[simp] theorem form_iff_frameHeader (endB : Bool) (h : Hdr) (s : State) : Machine.Inv (frameHeader endB h s) ↔ Machine.Inv s := by simp [frameHeader]

@[simp] theorem form_iff_openFrameBadge (endB : Bool) (badge : Nat) (s : State) : Machine.Inv (openFrameBadge endB badge s) ↔ Machine.Inv s := by
  unfold openFrameBadge
  split <;> simp

@[simp] theorem form_iff_modCopy (endB : Bool) (r : RxFrame) (f : WireFrame → WireFrame) (s : State) :
    Machine.Inv (modCopy endB r f s) ↔ Machine.Inv s := by
  simp [modCopy]

@[simp] theorem form_iff_poisonCopy (endB : Bool) (r : RxFrame) (count : Bool) (s : State) :
    Machine.Inv (poisonCopy endB r count s) ↔ Machine.Inv s := by
  simp [poisonCopy]

@[simp] theorem form_iff_tailFail (endB : Bool) (code : Nat) (s : State) : Machine.Inv (tailFail endB code s) ↔ Machine.Inv s := by simp [tailFail]

@[simp] theorem form_iff_stallReject (v : Verdict) (h : Hdr) (s : State) : Machine.Inv (stallReject v h s) ↔ Machine.Inv s := by
  unfold stallReject
  split <;> simp

@[simp] theorem form_iff_badControl (h : Hdr) (p : List Byte) (s : State) : Machine.Inv (badControl h p s) ↔ Machine.Inv s := by simp [badControl]
@[simp] theorem form_iff_censusHeard (h : Hdr) (p : List Byte) (s : State) : Machine.Inv (censusHeard h p s) ↔ Machine.Inv s := by simp [censusHeard]
@[simp] theorem form_iff_learnOrient (endB : Bool) (h : Hdr) (s : State) : Machine.Inv (learnOrient endB h s) ↔ Machine.Inv s := by simp [learnOrient]

@[simp] theorem form_iff_toQueue (endB : Bool) (r : RxFrame) (p : List Byte) (s : State) : Machine.Inv (toQueue endB r p s) ↔ Machine.Inv s := by
  simp [toQueue]

@[simp] theorem form_iff_hostOut (h : Hdr) (p : List Byte) (s : State) : Machine.Inv (hostOut h p s) ↔ Machine.Inv s := by simp [hostOut]

@[simp] theorem form_iff_cyclicIn (r : RxFrame) (p : List Byte) (s : State) : Machine.Inv (cyclicIn r p s) ↔ Machine.Inv s := by
  unfold cyclicIn
  (repeat' split) <;> simp

@[simp] theorem form_deliver (endB : Bool) (r : RxFrame) (p : List Byte) {s : State} (hinv : Machine.Inv s) : Machine.Inv (deliver endB r p s) := by
  unfold deliver
  dsimp only
  (repeat' split) <;> simp [hinv]

@[simp] theorem form_earlyRelease (m : Bool × RxFrame × List Byte) {s : State} (hinv : Machine.Inv s) : Machine.Inv (earlyRelease m s) := by
  simp [earlyRelease, hinv]

theorem form_earlyFlush {s : State} (h : Machine.Inv s) : Machine.Inv (earlyFlush s) :=
  form_each _ _ (fun _ _ => form_earlyRelease _) (by simpa using h)

@[simp] theorem form_epochDeliver (endB : Bool) (r : RxFrame) (p : List Byte) {s : State} (hinv :
    Machine.Inv s) : Machine.Inv (epochDeliver endB r p s) := by
  simp [epochDeliver, hinv]

@[simp] theorem form_deliveryCheck (endB : Bool) (r : RxFrame) (p : List Byte) {s : State} (hinv :
    Machine.Inv s) : Machine.Inv (deliveryCheck endB r p s) := by
  unfold deliveryCheck
  dsimp only
  (repeat' split) <;> simp [hinv]

@[simp] theorem form_iff_secondCopy (r : RxFrame) (p : List Byte) (s : State) : Machine.Inv (secondCopy r p s) ↔ Machine.Inv s := by simp [secondCopy]

@[simp] theorem form_acceptTail (endB : Bool) (r : RxFrame) (p : List Byte) {s : State} (hinv :
    Machine.Inv s) : Machine.Inv (acceptTail endB r p s) := by
  unfold acceptTail
  (repeat' split) <;> simp [hinv]

theorem form_flushTails {s : State} (h : Machine.Inv s) : Machine.Inv (flushTails s) :=
  form_each _ _ (fun _ _ => form_acceptTail _ _ _) (by simpa using h)

@[simp] theorem form_tailPassed (endB : Bool) (r : RxFrame) (p : List Byte) {s : State} (hinv :
    Machine.Inv s) : Machine.Inv (tailPassed endB r p s) := by
  unfold tailPassed
  split <;> simp [hinv]

@[simp] theorem form_tailChecks (endB : Bool) (r : RxFrame) (body : List Byte) (tag : BitVec 128) (fcs : BitVec 32) (errBlock badBlock : Bool) {s : State} (hinv :
    Machine.Inv s) : Machine.Inv (tailChecks endB r body tag fcs errBlock badBlock s) := by
  unfold tailChecks
  dsimp only
  (repeat' split) <;> simp [hinv]

theorem form_frameTail (endB : Bool) (body : List Byte) (tag : BitVec 128) (fcs : BitVec 32) (errBlock badBlock : Bool) {s : State}
    (hinv : Machine.Inv s) : Machine.Inv (frameTail endB body tag fcs errBlock badBlock s) := by
  unfold frameTail
  split
  · exact hinv
  · dsimp only
    split <;> simp [hinv, form_flushTails]

@[simp] theorem form_iff_passBufferRelease (endB : Bool) (s : State) : Machine.Inv (passBufferRelease endB s) ↔ Machine.Inv s := by
  unfold passBufferRelease
  dsimp only
  (repeat' split) <;> simp

@[simp] theorem form_iff_earlyFrameHoldExpiry (s : State) : Machine.Inv (earlyFrameHoldExpiry s) ↔ Machine.Inv s := by simp [earlyFrameHoldExpiry]

/-! Launches. -/

@[simp] theorem form_iff_seqUsed (isOpen : Bool) (s : State) : Machine.Inv (seqUsed isOpen s) ↔ Machine.Inv s := by simp [seqUsed]
@[simp] theorem form_iff_startCopy (endB : Bool) (h : Hdr) (p : List Byte) (s : State) : Machine.Inv (startCopy endB h p s) ↔ Machine.Inv s := Iff.rfl

@[simp] theorem form_afterLaunch (f : TxFrame) {s : State} (hinv : Machine.Inv s) : Machine.Inv (afterLaunch f s) := by
  unfold afterLaunch
  split <;> simp [hinv]

@[simp] theorem form_iff_enterOcc (o : Occ) (s : State) : Machine.Inv (enterOcc o s) ↔ Machine.Inv s := by simp [enterOcc]

theorem form_commit {f : TxFrame} {o : Occ} {b : Bool} {s t : State} (ht : commit f o b s = some t) (h : Machine.Inv s) : Machine.Inv t := by
  unfold commit at ht
  dsimp only at ht
  split at ht
  · cases ht
  · cases ht
    exact form_afterLaunch _ (by simp [h])

@[simp] theorem form_iff_copyMissed (c : TxCopy) (s : State) : Machine.Inv (copyMissed c s) ↔ Machine.Inv s := by unfold copyMissed; split <;> simp

@[simp] theorem form_iff_frameCopyLaunch (endB : Bool) (s : State) : Machine.Inv (frameCopyLaunch endB s) ↔ Machine.Inv s := by
  unfold frameCopyLaunch
  split <;> simp

@[simp] theorem form_iff_sentenceSent (stream n : Nat) (s : State) : Machine.Inv (sentenceSent stream n s) ↔ Machine.Inv s := Iff.rfl

@[simp] theorem form_iff_eventPrune (n : Nat) (s : State) : Machine.Inv (eventPrune n s) ↔ Machine.Inv s := by
  induction n generalizing s with
  | zero => rfl
  | succ n ih =>
    unfold eventPrune
    split
    · rfl
    · simp [ih]

@[simp] theorem form_iff_takeCand (c : Cand) (s : State) : Machine.Inv (takeCand c s) ↔ Machine.Inv s := by unfold takeCand; split <;> simp
@[simp] theorem form_iff_deferTurn (cls : Nat) (s : State) : Machine.Inv (deferTurn cls s) ↔ Machine.Inv s := by simp [deferTurn]

theorem form_launchTurns (o : Occ) (n : Nat) {s : State} (h : Machine.Inv s) : Machine.Inv (launchTurns o n s) := by
  induction n generalizing s with
  | zero => exact h
  | succ n ih =>
    unfold launchTurns
    split
    · exact h
    split
    · exact h
    split
    · exact ih (by simpa using h)
    split
    · next t ht => simpa using form_commit ht h
    · exact h

@[simp] theorem form_iff_silencedOnce (o : Occ) (s : State) : Machine.Inv (silencedOnce o s) ↔ Machine.Inv s := by simp [silencedOnce]

@[simp] theorem form_iff_silencedTurns (o : Occ) (ts : List Turn) (s : State) : Machine.Inv (silencedTurns o ts s) ↔ Machine.Inv s := by
  simp [silencedTurns]

@[simp] theorem form_iff_packEvents (o : Occ) (s : State) : Machine.Inv (packEvents o s) ↔ Machine.Inv s := by simp [packEvents]

theorem form_frameLaunch {s : State} (hinv : Machine.Inv s) : Machine.Inv (frameLaunch s) := by
  unfold frameLaunch
  split
  · exact hinv
  · dsimp only
    split
    · simp [hinv]
    · split
      · simp [hinv]
      · exact form_launchTurns _ _ (by simp [hinv])

@[simp] theorem form_iff_modImg (entry : Nat) (out : Bool) (f : Image → Image) (s : State) : Machine.Inv (modImg entry out f s) ↔ Machine.Inv s :=
  Iff.rfl

theorem form_cyclicLaunch (entry : Nat) {s : State} (hinv : Machine.Inv s) : Machine.Inv (cyclicLaunch entry s) := by
  unfold cyclicLaunch
  split
  · exact hinv
  split
  · exact hinv
  split
  · simp [hinv]
  split
  · simp [hinv]
  split
  · exact hinv
  next i0 hi0 =>
  generalize (if (imgBind s entry).1 then i0 else takePublish i0) = i
  dsimp only
  split
  · simp [hinv]
  split
  · exact hinv
  · next t ht =>
    have hsent := form_commit ht (by simp [hinv])
    simpa using hsent

theorem form_sendExpressFrom {at_ since : Nat} {f : TxFrame} {s t : State} (ht : sendExpressFrom at_ since f s = some t)
    (hinv : Machine.Inv s) : Machine.Inv t := by
  unfold sendExpressFrom at ht
  split at ht
  · cases ht
  split at ht
  · exact form_commit ht hinv
  · cases ht

@[simp] theorem form_iff_expressHeld (t since : Nat) (f : TxFrame) (s : State) : Machine.Inv (expressHeld t since f s) ↔ Machine.Inv s := by
  unfold expressHeld
  split <;> simp

theorem form_sendGuest {since : Nat} {f : TxFrame} {s t : State} (ht : sendGuest since f s = some t) (hinv : Machine.Inv s) :
    Machine.Inv t := by
  unfold sendGuest at ht
  split at ht
  · cases ht
  split at ht
  · exact form_commit ht hinv
  · cases ht

@[simp] theorem form_iff_guestHeld (since : Nat) (f : TxFrame) (s : State) : Machine.Inv (guestHeld since f s) ↔ Machine.Inv s := by
  unfold guestHeld
  split <;> simp

/-! The stall engine. -/

@[simp] theorem form_iff_ebLimitCrossing (s : State) : Machine.Inv (ebLimitCrossing s) ↔ Machine.Inv s := by simp [ebLimitCrossing]

@[simp] theorem form_iff_imageFlags (entry : Nat) (stale absent : Bool) (s : State) :
    Machine.Inv (imageFlags entry stale absent s) ↔ Machine.Inv s := by
  unfold imageFlags
  split <;> simp

@[simp] theorem form_iff_cyclicOccurrenceCheck (entry : Nat) (s : State) : Machine.Inv (cyclicOccurrenceCheck entry s) ↔ Machine.Inv s := by
  unfold cyclicOccurrenceCheck
  (repeat' split) <;> simp

@[simp] theorem form_iff_noteMark (a : Nat × Bool × Bool) (s : State) : Machine.Inv (noteMark a s) ↔ Machine.Inv s := Iff.rfl

@[simp] theorem form_imageCopyComplete (entry : Nat) {s : State} (hinv : Machine.Inv s) : Machine.Inv (imageCopyComplete entry s) := by
  unfold imageCopyComplete
  (repeat' split) <;> simp [hinv, form_loftWrite]

@[simp] theorem form_iff_applyStrobe (x : Strobe) (s : State) : Machine.Inv (applyStrobe x s) ↔ Machine.Inv s := Iff.rfl

@[simp] theorem form_iff_markApplyAct (m at_ : Nat) (s : State) : Machine.Inv (markApplyAct m at_ s) ↔ Machine.Inv s := by
  unfold markApplyAct
  (repeat' split) <;> simp

@[simp] theorem form_iff_markActions (m at_ : Nat) (r : List Word) (s : State) : Machine.Inv (markActions m at_ r s) ↔ Machine.Inv s := by
  simp [markActions]

@[simp] theorem form_iff_fireMark (m : Nat) (s : State) : Machine.Inv (fireMark m s) ↔ Machine.Inv s := by simp [fireMark]
@[simp] theorem form_iff_cycleMarkFire (m : Nat) (s : State) : Machine.Inv (cycleMarkFire m s) ↔ Machine.Inv s := by simp [cycleMarkFire]
@[simp] theorem form_iff_outputApplyStrobe (s : State) : Machine.Inv (outputApplyStrobe s) ↔ Machine.Inv s := Iff.rfl

/-! Masters. -/

@[simp] theorem form_becomeMaster (keep : Bool) {s : State} (hinv : Machine.Inv s) : Machine.Inv (becomeMaster keep s) := by simp [becomeMaster, hinv]
@[simp] theorem form_abdicateNow {s : State} (hinv : Machine.Inv s) : Machine.Inv (abdicateNow s) := by simp [abdicateNow, hinv]

@[simp] theorem form_referenceSend {s : State} (hinv : Machine.Inv s) : Machine.Inv (referenceSend s) := by
  unfold referenceSend
  dsimp only
  split
  · exact hinv
  split
  · exact hinv
  split
  · simp [hinv]
  split
  · exact hinv
  · next t ht =>
    have hsent := form_commit ht hinv
    split <;> simp [hsent]

@[simp] theorem form_iff_ownHeld (o : Occ) (f : TxFrame) (s : State) : Machine.Inv (ownHeld o f s) ↔ Machine.Inv s := by simp [ownHeld]

theorem form_shadowSend {s : State} (hinv : Machine.Inv s) : Machine.Inv (shadowSend s) := by
  unfold shadowSend
  split
  · exact hinv
  split
  · exact hinv
  split
  · simp [hinv]
  dsimp only
  split
  · simp [hinv]
  · next t ht => simpa using form_commit ht hinv

@[simp] theorem form_holdoverEntry {s : State} (hinv : Machine.Inv s) : Machine.Inv (holdoverEntry s) := by simp [holdoverEntry, hinv]

@[simp] theorem form_wholeSecondMark {s : State} (hinv : Machine.Inv s) : Machine.Inv (wholeSecondMark s) := by
  simp [wholeSecondMark, hinv, form_clockMark]

@[simp] theorem form_iff_refclkFault (s : State) : Machine.Inv (refclkFault s) ↔ Machine.Inv s := by simp [refclkFault]

@[simp] theorem form_iff_checkBarred (code : Nat) (ok : Bool) (s : State) : Machine.Inv (checkBarred code ok s) ↔ Machine.Inv s := by
  simp [checkBarred]

@[simp] theorem form_iff_stampSelfCheck (diff : Int) (s : State) : Machine.Inv (stampSelfCheck diff s) ↔ Machine.Inv s := by simp [stampSelfCheck]
@[simp] theorem form_iff_listenFrom (s : State) : Machine.Inv (listenFrom s) ↔ Machine.Inv s := by unfold listenFrom; split <;> simp
@[simp] theorem form_iff_tetherChange (level : Bool) (s : State) : Machine.Inv (tetherChange level s) ↔ Machine.Inv s := by simp [tetherChange]

@[simp] theorem form_claimNow (keep : Bool) {s : State} (hinv : Machine.Inv s) : Machine.Inv (claimNow keep s) :=
  form_referenceSend (form_onRef _ (form_becomeMaster keep hinv))

@[simp] theorem form_masterClaim {s : State} (hinv : Machine.Inv s) : Machine.Inv (masterClaim s) := by
  unfold masterClaim
  (repeat' split) <;> simp [hinv]

@[simp] theorem form_iff_tetherFaultBegin (s : State) : Machine.Inv (tetherFaultBegin s) ↔ Machine.Inv s := by simp [tetherFaultBegin]

theorem form_delaySend {s : State} (hinv : Machine.Inv s) : Machine.Inv (delaySend s) := by
  unfold delaySend
  split
  · extract_lets active id
    split
    · exact hinv
    split
    · simp [hinv]
    split
    · simp [hinv]
    · next t ht => simpa using form_commit ht hinv
  · exact hinv

end Sys2Proof.Laws
end

section
/-!
SUPPORT. The canonical form of the hayloft (R463) through inauguration, admission and numberings: what writes no byte of it has it exactly when the state before has
it (`form_iff_…`), and what writes some keeps it (`form_…`).
-/

namespace Sys2Proof.Laws

open Sys2Proof Sys2Proof.Machine

/-! Cold start and BEACONs. -/

@[simp] theorem form_iff_withMsg {p : RxMsg → Bool} {f : RxMsg → State → State} (hf : ∀ m s, Machine.Inv (f m s) ↔ Machine.Inv s) (s : State) :
    Machine.Inv (withMsg p f s) ↔ Machine.Inv s := by
  unfold withMsg
  split
  · rfl
  · simp [hf]

theorem form_withMsg {p : RxMsg → Bool} {f : RxMsg → State → State} {s : State} (hf : ∀ m s, Machine.Inv s → Machine.Inv (f m s))
    (h : Machine.Inv s) : Machine.Inv (withMsg p f s) := by
  unfold withMsg
  split
  · exact h
  · exact hf _ _ h

@[simp] theorem form_iff_verifyOnce (content : List Byte) (verdict : Bool) (s : State) :
    Machine.Inv (verifyOnce content verdict s).2 ↔ Machine.Inv s := by
  unfold verifyOnce
  dsimp only
  (repeat' split) <;> simp

@[simp] theorem form_iff_drawNl (s : State) : Machine.Inv (drawNl s) ↔ Machine.Inv s := by simp [drawNl]
@[simp] theorem form_iff_copyFailed (s : State) : Machine.Inv (copyFailed s) ↔ Machine.Inv s := by simp [copyFailed]
@[simp] theorem form_iff_reserveAdmits (s : State) : Machine.Inv (reserveAdmits s) ↔ Machine.Inv s := by simp [reserveAdmits]

@[simp] theorem form_iff_takeAdmit (badge : Nat) (s : State) : Machine.Inv (takeAdmit badge s) ↔ Machine.Inv s := by
  unfold takeAdmit
  (repeat' split) <;> simp

@[simp] theorem form_iff_takeAdmitsUpTo (n : Nat) (s : State) : Machine.Inv (takeAdmitsUpTo n s) ↔ Machine.Inv s := by
  induction n generalizing s with
  | zero => rfl
  | succ n ih => simp [takeAdmitsUpTo, ih]

@[simp] theorem form_iff_takeAdmits (s : State) : Machine.Inv (takeAdmits s) ↔ Machine.Inv s := by simp [takeAdmits]

@[simp] theorem form_iff_sendMap (badge : Nat) (gs : List Nat) (s : State) : Machine.Inv (sendMap badge gs s) ↔ Machine.Inv s := by
  unfold sendMap
  split <;> simp

@[simp] theorem form_iff_sendMaps (badge : Nat) (s : State) : Machine.Inv (sendMaps badge s) ↔ Machine.Inv s := by simp [sendMaps]
@[simp] theorem form_coldWin {s : State} (hinv : Machine.Inv s) : Machine.Inv (coldWin s) := by simp [coldWin, hinv]
@[simp] theorem form_iff_moveUp (s : State) : Machine.Inv (moveUp s) ↔ Machine.Inv s := by simp [moveUp]

@[simp] theorem form_iff_takeOver (cause : Nat) (img : List Byte) (s : State) : Machine.Inv (takeOver cause img s) ↔ Machine.Inv s := by
  simp [takeOver]

/-! Admission. -/

@[simp] theorem form_iff_coldStartListenEnd (s : State) : Machine.Inv (coldStartListenEnd s) ↔ Machine.Inv s := by
  unfold coldStartListenEnd
  split <;> simp

theorem form_claimSend {s : State} (hinv : Machine.Inv s) : Machine.Inv (claimSend s) := by
  unfold claimSend
  split
  · extract_lets due
    split
    · exact hinv
    split
    · simp [hinv]
    · next t ht => simpa using form_sendGuest ht hinv
  · exact hinv

@[simp] theorem form_claimWin {s : State} (hinv : Machine.Inv s) : Machine.Inv (claimWin s) := by unfold claimWin; split <;> simp [hinv]
@[simp] theorem form_iff_claimWaitTimeout (s : State) : Machine.Inv (claimWaitTimeout s) ↔ Machine.Inv s := by unfold claimWaitTimeout; split <;> simp

theorem form_beaconSend {s : State} (hinv : Machine.Inv s) : Machine.Inv (beaconSend s) := by
  unfold beaconSend
  extract_lets due
  split
  · exact hinv
  split
  · simp [hinv]
  · next t ht => simpa using form_sendGuest ht hinv

@[simp] theorem form_iff_nlRedraw (s : State) : Machine.Inv (nlRedraw s) ↔ Machine.Inv s := by simp [nlRedraw]
@[simp] theorem form_iff_beaconSigned (s : State) : Machine.Inv (beaconSigned s) ↔ Machine.Inv s := by simp [beaconSigned]
@[simp] theorem form_iff_seek (b : Beacon) (s : State) : Machine.Inv (seek b s) ↔ Machine.Inv s := by simp [seek]
@[simp] theorem form_iff_answerPresent (b : Beacon) (s : State) : Machine.Inv (answerPresent b s) ↔ Machine.Inv s := by simp [answerPresent]
@[simp] theorem form_iff_foreignBeacon (b : Beacon) (s : State) : Machine.Inv (foreignBeacon b s) ↔ Machine.Inv s := by simp [foreignBeacon]

@[simp] theorem form_iff_guestBeacon (b : Beacon) (s : State) : Machine.Inv (guestBeacon b s) ↔ Machine.Inv s := by
  unfold guestBeacon
  (repeat' split) <;> simp

@[simp] theorem form_iff_beaconAct (b : Beacon) (s : State) : Machine.Inv (beaconAct b s) ↔ Machine.Inv s := by simp [beaconAct]
@[simp] theorem form_iff_beaconReceive (sigOk : Bool) (s : State) : Machine.Inv (beaconReceive sigOk s) ↔ Machine.Inv s := by simp [beaconReceive]
@[simp] theorem form_iff_admFail (code : Nat) (s : State) : Machine.Inv (admFail code s) ↔ Machine.Inv s := by simp [admFail]

@[simp] theorem form_iff_leadCertReceive (s : State) : Machine.Inv (leadCertReceive s) ↔ Machine.Inv s :=
  form_iff_withMsg (fun m t => by
    split
    · split <;> simp
    · rfl) s

@[simp] theorem form_iff_leadVerified (chainOk sigOk : Bool) (s : State) : Machine.Inv (leadVerified chainOk sigOk s) ↔ Machine.Inv s := by
  unfold leadVerified
  split <;> simp

@[simp] theorem form_iff_quoteSignedStep (s : State) : Machine.Inv (quoteSignedStep s) ↔ Machine.Inv s := by
  unfold quoteSignedStep
  (repeat' split) <;> simp

@[simp] theorem form_iff_admGrantReceive (sigOk : Bool) (s : State) : Machine.Inv (admGrantReceive sigOk s) ↔ Machine.Inv s :=
  form_iff_withMsg (fun m t => by
    split
    · rfl
    split
    · split
      · rfl
      · split <;> simp
    · rfl) s

@[simp] theorem form_iff_grantUnwrapped (ok : Bool) (s0 : State) : Machine.Inv (grantUnwrapped ok s0) ↔ Machine.Inv s0 := by
  unfold grantUnwrapped
  (repeat' split) <;> simp

@[simp] theorem form_iff_grantTimeout (s : State) : Machine.Inv (grantTimeout s) ↔ Machine.Inv s := by unfold grantTimeout; split <;> simp
@[simp] theorem form_iff_admCertReceive (s : State) : Machine.Inv (admCertReceive s) ↔ Machine.Inv s := by simp [admCertReceive]
@[simp] theorem form_iff_admRefuse (badge code : Nat) (s : State) : Machine.Inv (admRefuse badge code s) ↔ Machine.Inv s := by simp [admRefuse]

@[simp] theorem form_iff_admQuoteReceive (chainOk sigOk : Bool) (s : State) : Machine.Inv (admQuoteReceive chainOk sigOk s) ↔ Machine.Inv s := by
  simp [admQuoteReceive]

@[simp] theorem form_iff_grantBuilt (badge : Nat) (s : State) : Machine.Inv (grantBuilt badge s) ↔ Machine.Inv s := by
  unfold grantBuilt
  split <;> simp

@[simp] theorem form_iff_admDoneReceive (s : State) : Machine.Inv (admDoneReceive s) ↔ Machine.Inv s :=
  form_iff_withMsg (fun m t => by
    split
    · rfl
    · split
      · rfl
      · simp) s

@[simp] theorem form_iff_presentReceive (sigOk : Bool) (s : State) : Machine.Inv (presentReceive sigOk s) ↔ Machine.Inv s := by simp [presentReceive]

/-! Numberings and lead changes. -/

theorem form_leadStatusSend {s : State} (hinv : Machine.Inv s) : Machine.Inv (leadStatusSend s) := by
  unfold leadStatusSend
  split
  · exact hinv
  dsimp only
  split
  · simp [hinv]
  · next t ht => simpa using form_sendExpressFrom ht hinv

@[simp] theorem form_iff_leadStatusReceive (s : State) : Machine.Inv (leadStatusReceive s) ↔ Machine.Inv s := by simp [leadStatusReceive]

@[simp] theorem form_iff_censusReply (cid adm px py ends : Nat) (s : State) : Machine.Inv (censusReply cid adm px py ends s) ↔ Machine.Inv s := by
  unfold censusReply
  split <;> simp

@[simp] theorem form_iff_notePosition (adm : Nat) (p : List Byte) (s : State) : Machine.Inv (notePosition adm p s) ↔ Machine.Inv s := by
  simp [notePosition]

@[simp] theorem form_iff_positionReceive (s : State) : Machine.Inv (positionReceive s) ↔ Machine.Inv s := by simp [positionReceive]

theorem form_censusSend {s : State} (hinv : Machine.Inv s) : Machine.Inv (censusSend s) := by
  unfold censusSend
  split
  · dsimp only
    split
    · exact hinv
    split
    · simp [hinv]
    · next t ht => simpa using form_sendExpressFrom ht hinv
  · exact hinv

@[simp] theorem form_iff_censusReceive (s : State) : Machine.Inv (censusReceive s) ↔ Machine.Inv s := by simp [censusReceive]

theorem form_positionReplySend {s : State} (hinv : Machine.Inv s) : Machine.Inv (positionReplySend s) := by
  unfold positionReplySend
  split
  · dsimp only
    split
    · exact hinv
    split
    · simp [hinv]
    · next t ht => simpa using form_sendExpressFrom ht hinv
  · exact hinv

@[simp] theorem form_iff_closeNow (c : Census) (s : State) : Machine.Inv (closeNow c s) ↔ Machine.Inv s := Iff.rfl
@[simp] theorem form_iff_censusClose (s : State) : Machine.Inv (censusClose s) ↔ Machine.Inv s := by unfold censusClose; (repeat' split) <;> simp

@[simp] theorem form_numberingLeft (es : List NumEntry) (cause epoch : Nat) {s : State} (hinv : Machine.Inv s) :
    Machine.Inv (numberingLeft es cause epoch s) := by
  have hflush := form_earlyFlush ((form_iff_adopt epoch (pTrain s) cause (pGrace s) (some 0) es s).2 hinv)
  unfold numberingLeft
  dsimp only
  split <;> simp [hflush]

theorem form_numberingSend {s : State} (hinv : Machine.Inv s) : Machine.Inv (numberingSend s) := by
  unfold numberingSend
  split
  · exact hinv
  split
  · exact hinv
  dsimp only
  split
  · simp [hinv]
  · next t ht => exact form_numberingLeft _ _ _ (form_sendExpressFrom ht hinv)

@[simp] theorem form_iff_adoptFrom (m : RxMsg) (n : Option Nat) (s : State) : Machine.Inv (adoptFrom m n s) ↔ Machine.Inv s := by simp [adoptFrom]

theorem form_numberingReceive {s : State} (hinv : Machine.Inv s) : Machine.Inv (numberingReceive s) := by
  refine form_withMsg (fun m t ht => ?_) hinv
  split
  · exact ht
  split
  · exact form_earlyFlush (by split <;> simp [ht])
  · split
    · exact ht
    split
    · exact form_loseAndSeek ht
    · exact form_earlyFlush (by simp [ht])

@[simp] theorem form_iff_gracePeriodEnd (s : State) : Machine.Inv (gracePeriodEnd s) ↔ Machine.Inv s := by unfold gracePeriodEnd; split <;> simp

@[simp] theorem form_becomeLead (cause : Nat) {s : State} (hinv : Machine.Inv s) : Machine.Inv (becomeLead cause s) := by
  unfold becomeLead
  split
  · simp [hinv]
  dsimp only
  split
  · simp [hinv]
  split
  · simp [hinv]
  · next t ht =>
    have hsent := form_sendExpressFrom ht (by simp [hinv])
    simp [hsent]

theorem form_backupTakeover {s : State} (hinv : Machine.Inv s) : Machine.Inv (backupTakeover s) :=
  form_ite _ (form_becomeLead _ hinv) hinv

@[simp] theorem form_leadLossTimeout {s : State} (hinv : Machine.Inv s) : Machine.Inv (leadLossTimeout s) := by simp [leadLossTimeout, hinv]

theorem form_dissolveReceive {s : State} (hinv : Machine.Inv s) : Machine.Inv (dissolveReceive s) := by
  refine form_withMsg (fun m t ht => ?_) hinv
  split <;> simp [ht]

theorem form_handoverSend {s : State} (hinv : Machine.Inv s) : Machine.Inv (handoverSend s) := by
  unfold handoverSend
  split
  · split
    · simp [hinv]
    split
    · simp [hinv]
    · next t ht => simp [form_sendExpressFrom ht hinv]
  · exact hinv

theorem form_handoverReceive {s : State} (hinv : Machine.Inv s) : Machine.Inv (handoverReceive s) := by
  refine form_withMsg (fun m t ht => ?_) hinv
  split
  · exact form_becomeLead _ ht
  · exact ht

@[simp] theorem form_iff_stateChunkReceive (s : State) : Machine.Inv (stateChunkReceive s) ↔ Machine.Inv s := by simp [stateChunkReceive]
@[simp] theorem form_iff_stateCommitReceive (s : State) : Machine.Inv (stateCommitReceive s) ↔ Machine.Inv s := by simp [stateCommitReceive]
@[simp] theorem form_iff_stateAckReceive (s : State) : Machine.Inv (stateAckReceive s) ↔ Machine.Inv s := by simp [stateAckReceive]
@[simp] theorem form_iff_stateCopyTimeout (s : State) : Machine.Inv (stateCopyTimeout s) ↔ Machine.Inv s := by unfold stateCopyTimeout; split <;> simp
@[simp] theorem form_iff_stateCopyRetry (s : State) : Machine.Inv (stateCopyRetry s) ↔ Machine.Inv s := by simp [stateCopyRetry]

end Sys2Proof.Laws
end

section
/-!
SUPPORT. The canonical form of the hayloft (R463) through serial ports, sentences and bulk transfers: what writes no byte of it has it exactly when the state before has
it (`form_iff_…`), and what writes some keeps it (`form_…`).
-/

namespace Sys2Proof.Laws

open Sys2Proof Sys2Proof.Machine

/-! Serial ports. -/

@[simp] theorem form_iff_modPort (p : Nat) (f : PortSt → PortSt) (s : State) : Machine.Inv (modPort p f s) ↔ Machine.Inv s := Iff.rfl
@[simp] theorem form_iff_portFirst (p code data : Nat) (s : State) : Machine.Inv (portFirst p code data s) ↔ Machine.Inv s := by simp [portFirst]
@[simp] theorem form_iff_framerReset (slot : Nat) (s : State) : Machine.Inv (framerReset slot s) ↔ Machine.Inv s := Iff.rfl
@[simp] theorem form_iff_rateApplied (p dir : Nat) (s : State) : Machine.Inv (rateApplied p dir s) ↔ Machine.Inv s := by simp [rateApplied]
@[simp] theorem form_iff_rxAdopt (p : Nat) (s : State) : Machine.Inv (rxAdopt p s) ↔ Machine.Inv s := by simp [rxAdopt]
@[simp] theorem form_iff_txAdopt (p : Nat) (s : State) : Machine.Inv (txAdopt p s) ↔ Machine.Inv s := by simp [txAdopt]

@[simp] theorem form_iff_startEdge (p : Nat) (samples : List Bool) (s : State) : Machine.Inv (startEdge p samples s) ↔ Machine.Inv s := by
  simp [startEdge]

@[simp] theorem form_iff_levelCheck (p : Nat) (s : State) : Machine.Inv (levelCheck p s) ↔ Machine.Inv s := by simp [levelCheck]
@[simp] theorem form_iff_enterSlot (p : Nat) (c : RxChar) (s : State) : Machine.Inv (enterSlot p c s) ↔ Machine.Inv s := by simp [enterSlot]
@[simp] theorem form_iff_storeChar (p : Nat) (c : RxChar) (s : State) : Machine.Inv (storeChar p c s) ↔ Machine.Inv s := by simp [storeChar]
@[simp] theorem form_iff_enterLate (p : Nat) (s : State) : Machine.Inv (enterLate p s) ↔ Machine.Inv s := by unfold enterLate; split <;> simp
@[simp] theorem form_iff_enterLates (s : State) : Machine.Inv (enterLates s) ↔ Machine.Inv s := by simp [enterLates]
@[simp] theorem form_iff_portClose (p : Nat) (s : State) : Machine.Inv (portClose p s) ↔ Machine.Inv s := by simp [portClose]

@[simp] theorem form_iff_characterComplete (p : Nat) (body : List (List Bool)) (stop : List Bool) (s : State) :
    Machine.Inv (characterComplete p body stop s) ↔ Machine.Inv s := by
  simp [characterComplete]

@[simp] theorem form_iff_lineStuckTimeout (p : Nat) (s : State) : Machine.Inv (lineStuckTimeout p s) ↔ Machine.Inv s := by simp [lineStuckTimeout]

@[simp] theorem form_iff_lineResumed (l : LineObs) (s : State) : Machine.Inv (lineResumed l s) ↔ Machine.Inv s := by
  unfold lineResumed
  dsimp only
  (repeat' split) <;> simp

@[simp] theorem form_closeBlock (p : Nat) (tmo : Bool) {s : State} (hinv : Machine.Inv s) : Machine.Inv (closeBlock p tmo s) := by
  unfold closeBlock
  split <;> simp [hinv, form_loftWrite]

@[simp] theorem form_writeItem (p place k : Nat) (i : List RxChar) {s : State} (hinv : Machine.Inv s) : Machine.Inv (writeItem p place k i s) := by
  simp [writeItem, hinv, form_loftWrite]

@[simp] theorem form_putItem (p n : Nat) {s : State} (hinv : Machine.Inv s) : Machine.Inv (putItem p n s) := by
  unfold putItem
  dsimp only
  (repeat' split) <;> simp [hinv]

@[simp] theorem form_fifoItemTransfer (p : Nat) {s : State} (hinv : Machine.Inv s) : Machine.Inv (fifoItemTransfer p s) := by
  simp [fifoItemTransfer, hinv]

theorem form_putAll (p n : Nat) {s : State} (h : Machine.Inv s) : Machine.Inv (putAll p n s) := by
  induction n generalizing s with
  | zero => exact h
  | succ n ih =>
    unfold putAll
    dsimp only
    split
    · exact h
    · exact ih (form_putItem _ _ h)

theorem form_rxTimeoutFlush (p : Nat) {s : State} (hinv : Machine.Inv s) : Machine.Inv (rxTimeoutFlush p s) := by
  unfold rxTimeoutFlush
  dsimp only
  split
  · have hput := form_putAll p 17 hinv
    split <;> simp [hput]
  · exact hinv

@[simp] theorem form_iff_dropBad (p : Nat) (s : State) : Machine.Inv (dropBad p s) ↔ Machine.Inv s := by simp [dropBad]
@[simp] theorem form_iff_txFill (p : Nat) (s : State) : Machine.Inv (txFill p s) ↔ Machine.Inv s := by unfold txFill; split <;> simp

@[simp] theorem form_iff_txNext (p from_ : Nat) (lead : Bool) (s : State) : Machine.Inv (txNext p from_ lead s) ↔ Machine.Inv s := by
  unfold txNext
  dsimp only
  (repeat' split) <;> simp

@[simp] theorem form_iff_txStart (p : Nat) (s : State) : Machine.Inv (txStart p s) ↔ Machine.Inv s := by
  unfold txStart
  dsimp only
  (repeat' split) <;> simp

@[simp] theorem form_iff_serialSent (p : Nat) (s : State) : Machine.Inv (serialSent p s) ↔ Machine.Inv s := by simp [serialSent]
@[simp] theorem form_iff_txCharacterEnd (p : Nat) (s : State) : Machine.Inv (txCharacterEnd p s) ↔ Machine.Inv s := by simp [txCharacterEnd]
@[simp] theorem form_iff_deTailEnd (p : Nat) (s : State) : Machine.Inv (deTailEnd p s) ↔ Machine.Inv s := by simp [deTailEnd]
@[simp] theorem form_iff_echoMuteEnd (p : Nat) (s : State) : Machine.Inv (echoMuteEnd p s) ↔ Machine.Inv s := by simp [echoMuteEnd]
@[simp] theorem form_iff_portApply (p : Nat) (r : List Word) (s : State) : Machine.Inv (portApply p r s) ↔ Machine.Inv s := by simp [portApply]

@[simp] theorem form_cmdPortSet (c : Ctx) {s : State} (hinv : Machine.Inv s) : Machine.Inv (cmdPortSet c s) := by
  unfold cmdPortSet
  dsimp only
  (repeat' split) <;> simp [hinv]

@[simp] theorem form_cmdPortStatus (c : Ctx) {s0 : State} (hinv : Machine.Inv s0) : Machine.Inv (cmdPortStatus c s0) := by simp [cmdPortStatus, hinv]

theorem form_cmdRawRead (c : Ctx) {s : State} (hinv : Machine.Inv s) : Machine.Inv (cmdRawRead c s) := by
  unfold cmdRawRead
  dsimp only
  split
  · simp [hinv]
  refine form_withParcel (fun a n t ht => ?_) hinv
  split
  · simp [ht]
  · exact form_writeItems (fun k u hu => by simp [hu]) (by simp [ht])

/-! Sentences. -/

@[simp] theorem form_iff_putRule (idx : Nat) (r : List Word) (s : State) : Machine.Inv (putRule idx r s) ↔ Machine.Inv s := Iff.rfl

@[simp] theorem form_iff_slotFirst (slot code data : Nat) (s : State) : Machine.Inv (slotFirst slot code data s) ↔ Machine.Inv s := by
  simp [slotFirst]

@[simp] theorem form_iff_discard (slot code : Nat) (s : State) : Machine.Inv (Machine.discard slot code s) ↔ Machine.Inv s := by
  simp [Machine.discard]

@[simp] theorem form_iff_frameIn (x : Sentence) (s : State) : Machine.Inv (frameIn x s) ↔ Machine.Inv s := by simp [frameIn]

@[simp] theorem form_iff_talkerApply (slot : Nat) (r : List Word) (s : State) : Machine.Inv (talkerApply slot r s) ↔ Machine.Inv s := by
  simp [talkerApply]

@[simp] theorem form_iff_talkerTurn (slot : Nat) (s : State) : Machine.Inv (talkerTurn slot s) ↔ Machine.Inv s := by unfold talkerTurn; split <;> simp
@[simp] theorem form_iff_setFramer (slot : Nat) (f : Framer) (s : State) : Machine.Inv (setFramer slot f s) ↔ Machine.Inv s := Iff.rfl

@[simp] theorem form_iff_frameResult (slot : Nat) (f : Framer) (o : FrameOut) (s : State) : Machine.Inv (frameResult slot f o s) ↔ Machine.Inv s := by
  unfold frameResult
  split <;> simp

@[simp] theorem form_iff_frameStep (slot : Nat) (c : RxChar) (s : State) : Machine.Inv (frameStep slot c s).1 ↔ Machine.Inv s := by
  unfold frameStep
  dsimp only
  (repeat' split) <;> simp

@[simp] theorem form_iff_gapStep (slot : Nat) (s : State) : Machine.Inv (gapStep slot s).1 ↔ Machine.Inv s := by simp [gapStep]

@[simp] theorem form_iff_frameChars (slot : Nat) (l : List RxChar) (s : State) : Machine.Inv (frameChars slot l s) ↔ Machine.Inv s := by
  induction l generalizing s with
  | nil => rfl
  | cons c r ih => unfold frameChars; dsimp only; repeat' split <;> simp [*]

@[simp] theorem form_iff_sentenceFramed (slot : Nat) (s : State) : Machine.Inv (sentenceFramed slot s) ↔ Machine.Inv s := by simp [sentenceFramed]

@[simp] theorem form_iff_idleGapSentenceEnd (slot : Nat) (s : State) : Machine.Inv (idleGapSentenceEnd slot s) ↔ Machine.Inv s := by
  unfold idleGapSentenceEnd
  dsimp only
  (repeat' split) <;> simp

@[simp] theorem form_iff_submitItem (slot : Nat) (w0 w1 : Nat) (body : List Byte) (s : State) :
    Machine.Inv (submitItem slot w0 w1 body s) ↔ Machine.Inv s := by
  unfold submitItem
  dsimp only
  (repeat' split) <;> simp

@[simp] theorem form_iff_submitAll (slot : Nat) (items : List (Nat × Nat × List Byte)) (s : State) :
    Machine.Inv (submitAll slot items s) ↔ Machine.Inv s := by
  simp [submitAll]

@[simp] theorem form_iff_modLq (n : Nat) (f : LQueue → LQueue) (s : State) : Machine.Inv (modLq n f s) ↔ Machine.Inv s := Iff.rfl
@[simp] theorem form_iff_enqueue (n : Nat) (x : Sentence) (s : State) : Machine.Inv (enqueue n x s) ↔ Machine.Inv s := by simp [enqueue]

@[simp] theorem form_iff_mergeIn (n : Nat) (x : Sentence) (s : State) : Machine.Inv (mergeIn n x s) ↔ Machine.Inv s := by
  unfold mergeIn
  dsimp only
  (repeat' split) <;> simp

@[simp] theorem form_iff_mergeLoop (n k : Nat) (s : State) : Machine.Inv (mergeLoop n k s) ↔ Machine.Inv s := by
  induction k generalizing s with
  | zero => rfl
  | succ k ih => unfold mergeLoop; split <;> simp [ih]

@[simp] theorem form_iff_mergeRelease (n : Nat) (s : State) : Machine.Inv (mergeRelease n s) ↔ Machine.Inv s := by simp [mergeRelease]

@[simp] theorem form_iff_offerListener (n : Nat) (x : Sentence) (s : State) : Machine.Inv (offerListener n x s) ↔ Machine.Inv s := by
  simp [offerListener]

@[simp] theorem form_iff_sendSentence (stream : Nat) (x : Sentence) (s : State) : Machine.Inv (sendSentence stream x s) ↔ Machine.Inv s := Iff.rfl
@[simp] theorem form_iff_offerMask (mask : Nat) (x : Sentence) (s : State) : Machine.Inv (offerMask mask x s) ↔ Machine.Inv s := by simp [offerMask]
@[simp] theorem form_iff_routeGroup (g : Nat) (x : Sentence) (s : State) : Machine.Inv (routeGroup g x s) ↔ Machine.Inv s := by simp [routeGroup]

@[simp] theorem form_iff_historyPut (x : Sentence) (s : State) : Machine.Inv (historyPut x s) ↔ Machine.Inv s := by
  unfold historyPut
  (repeat' split) <;> simp

@[simp] theorem form_iff_modRule (i : Nat) (f : RuleSt → RuleSt) (s : State) : Machine.Inv (modRule i f s) ↔ Machine.Inv s := Iff.rfl

@[simp] theorem form_iff_ruleRate (i : Nat) (r : RuleSt) (x : Sentence) (s : State) : Machine.Inv (ruleRate i r x s) ↔ Machine.Inv s := by
  simp [ruleRate]

@[simp] theorem form_iff_classify (x0 : Sentence) (s : State) : Machine.Inv (classify x0 s) ↔ Machine.Inv s := by simp [classify]
@[simp] theorem form_iff_sentenceClassify (s : State) : Machine.Inv (sentenceClassify s) ↔ Machine.Inv s := by unfold sentenceClassify; split <;> simp
@[simp] theorem form_iff_unpack (stream : Nat) (xs : List Sentence) (s : State) : Machine.Inv (unpack stream xs s) ↔ Machine.Inv s := by simp [unpack]

@[simp] theorem form_iff_reseqRun (stream n : Nat) (p : ReseqPair) (s : State) : Machine.Inv (reseqRun stream n p s).2 ↔ Machine.Inv s := by
  induction n generalizing p s with
  | zero => rfl
  | succ n ih => unfold reseqRun; split <;> simp [ih]

@[simp] theorem form_iff_putPair (p : ReseqPair) (s : State) : Machine.Inv (putPair p s) ↔ Machine.Inv s := Iff.rfl
@[simp] theorem form_iff_skipGap (p : ReseqPair) (s : State) : Machine.Inv (skipGap p s) ↔ Machine.Inv s := by unfold skipGap; split <;> simp

@[simp] theorem form_iff_reseqFrame (adm stream q : Nat) (xs : List Sentence) (s : State) :
    Machine.Inv (reseqFrame adm stream q xs s) ↔ Machine.Inv s := by
  unfold reseqFrame
  dsimp only
  (repeat' split) <;> simp

@[simp] theorem form_iff_sentenceFrameIn (m : RxMsg) (s : State) : Machine.Inv (sentenceFrameIn m s) ↔ Machine.Inv s := by
  unfold sentenceFrameIn
  split <;> simp

@[simp] theorem form_iff_sentenceFrameUnpack (s : State) : Machine.Inv (sentenceFrameUnpack s) ↔ Machine.Inv s := by simp [sentenceFrameUnpack]

@[simp] theorem form_iff_reseqHoldExpiry (adm stream : Nat) (s : State) : Machine.Inv (reseqHoldExpiry adm stream s) ↔ Machine.Inv s := by
  unfold reseqHoldExpiry
  split <;> simp

/-! Sentence commands. -/

@[simp] theorem form_iff_replayDone (r : Replay) (aborted : Bool) (s : State) : Machine.Inv (replayDone r aborted s) ↔ Machine.Inv s := by
  simp [replayDone]

@[simp] theorem form_iff_replayTake (n : Nat) (x : Sentence) (s : State) : Machine.Inv (replayTake n x s) ↔ Machine.Inv s := by simp [replayTake]

theorem form_iff_replayNext {n : Nat} {s t : State} (ht : replayNext n s = some t) : Machine.Inv t ↔ Machine.Inv s := by
  unfold replayNext at ht
  split at ht
  · split at ht
    · cases ht
    · cases ht; split <;> simp
  · split at ht
    · cases ht; simp
    · cases ht

@[simp] theorem form_iff_replayFill (n k : Nat) (s : State) : Machine.Inv (replayFill n k s) ↔ Machine.Inv s := by
  induction k generalizing s with
  | zero => rfl
  | succ k ih =>
    unfold replayFill
    split
    · split
      · next t ht => rw [ih, form_iff_replayNext ht]
      · rfl
    · rfl

@[simp] theorem form_iff_replayAbort (n : Nat) (s : State) : Machine.Inv (replayAbort n s) ↔ Machine.Inv s := by simp [replayAbort]
@[simp] theorem form_iff_replayLeave (s : State) : Machine.Inv (replayLeave s) ↔ Machine.Inv s := by simp [replayLeave]

theorem form_iff_beginEmit {n : Nat} {s : State} {x : Sentence × State} (hx : beginEmit n s = some x) : Machine.Inv x.2 ↔ Machine.Inv s := by
  unfold beginEmit at hx
  split at hx
  · cases hx
  · cases hx; simp

@[simp] theorem form_iff_listenerEmit (n : Nat) (s : State) : Machine.Inv (listenerEmit n s) ↔ Machine.Inv s := by
  unfold listenerEmit
  rw [← form_iff_replayFill n 129 s]
  generalize replayFill n 129 s = u
  dsimp only
  split
  · split
    · split
      · rfl
      · next x t hx => simpa using form_iff_beginEmit hx
    · rfl
  split
  · split
    · rfl
    · split
      · rfl
      · next x hx => simpa using form_iff_beginEmit hx
  · split
    · rfl
    · split
      · rfl
      · split <;> simp

@[simp] theorem form_cmdTalkerSet (c : Ctx) {s : State} (hinv : Machine.Inv s) : Machine.Inv (cmdTalkerSet c s) := by
  unfold cmdTalkerSet
  dsimp only
  (repeat' split) <;> simp [hinv]

@[simp] theorem form_iff_listenerApply (n : Nat) (r : List Word) (s : State) : Machine.Inv (listenerApply n r s) ↔ Machine.Inv s := by
  simp [listenerApply]

@[simp] theorem form_cmdListenerSet (c : Ctx) {s : State} (hinv : Machine.Inv s) : Machine.Inv (cmdListenerSet c s) := by
  unfold cmdListenerSet
  dsimp only
  (repeat' split) <;> simp [hinv]

theorem form_cmdRuleReplace (c : Ctx) {s : State} (hinv : Machine.Inv s) : Machine.Inv (cmdRuleReplace c s) := by
  unfold cmdRuleReplace
  split
  · simp [hinv]
  split
  · simp [hinv]
  refine form_readParcel (fun p t ht => ?_) hinv
  split <;> simp [ht]

theorem form_cmdSubmit (c : Ctx) {s : State} (hinv : Machine.Inv s) : Machine.Inv (cmdSubmit c s) := by
  unfold cmdSubmit
  dsimp only
  split
  · simp [hinv]
  · exact form_readParcel (fun p t ht => by simp [ht]) hinv

theorem form_cmdFetch (c : Ctx) {s : State} (hinv : Machine.Inv s) : Machine.Inv (cmdFetch c s) := by
  unfold cmdFetch
  dsimp only
  split
  · simp [hinv]
  · exact form_writeItems (fun k t ht => by simp [ht]) (by simp [hinv])

@[simp] theorem form_iff_unreachable (c : Ctx) (sys : Nat) (s : State) : Machine.Inv (unreachable c sys s) ↔ Machine.Inv s := by simp [unreachable]

theorem form_cmdDirectSend (c : Ctx) {s : State} (hinv : Machine.Inv s) : Machine.Inv (cmdDirectSend c s) := by
  unfold cmdDirectSend
  dsimp only
  split
  · simp [hinv]
  refine form_readParcel (fun p t ht => ?_) hinv
  split <;> simp [ht]

theorem form_cmdSentenceCounters (c : Ctx) {s : State} (hinv : Machine.Inv s) : Machine.Inv (cmdSentenceCounters c s) :=
  form_writeItems (fun _ _ ht => by simp [ht]) hinv

@[simp] theorem form_iff_withCtl {op : Nat} {f : RxMsg → State → State} (hf : ∀ m s, Machine.Inv (f m s) ↔ Machine.Inv s) (s : State) :
    Machine.Inv (withCtl op f s) ↔ Machine.Inv s := form_iff_withMsg hf s

@[simp] theorem form_iff_mapSet (e : List Byte) (s : State) : Machine.Inv (mapSet e s) ↔ Machine.Inv s := Iff.rfl
@[simp] theorem form_iff_groupMap (s : State) : Machine.Inv (groupMap s) ↔ Machine.Inv s := by simp [groupMap]
@[simp] theorem form_iff_setMembers (g : Nat) (ms : List (Nat × Nat)) (s : State) : Machine.Inv (setMembers g ms s) ↔ Machine.Inv s := Iff.rfl
@[simp] theorem form_iff_sendChanged (old : State) (g : Nat) (s : State) : Machine.Inv (sendChanged old g s) ↔ Machine.Inv s := by simp [sendChanged]
@[simp] theorem form_cmdGroupChange (c : Ctx) {s : State} (hinv : Machine.Inv s) : Machine.Inv (cmdGroupChange c s) := by simp [cmdGroupChange, hinv]

theorem form_cmdGroupRead (c : Ctx) {s : State} (hinv : Machine.Inv s) : Machine.Inv (cmdGroupRead c s) := by
  unfold cmdGroupRead
  split
  · exact form_writeItems (fun _ _ ht => by simp [ht]) hinv
  · exact form_writeItems (fun _ _ ht => by simp [ht]) hinv

/-! Bulk transfers and snapshots. -/

@[simp] theorem form_iff_bulkStart (badge dst : Nat) (kind : XferKind) (c : Ctx) (recs : Nat) (p : List Byte) (s : State) :
    Machine.Inv (bulkStart badge dst kind c recs p s) ↔ Machine.Inv s := by
  simp [bulkStart]

@[simp] theorem form_iff_transferDone (c : Ctx) (xid status detail : Nat) (s : State) :
    Machine.Inv (transferDone c xid status detail s) ↔ Machine.Inv s := by
  simp [transferDone]

@[simp] theorem form_iff_replayAdvance (r : Replay) (c : Ctx) (s : State) : Machine.Inv (replayAdvance r c s) ↔ Machine.Inv s := by
  unfold replayAdvance
  split <;> simp

@[simp] theorem form_iff_bulkEnd (b : BulkOut) (status detail : Nat) (s : State) : Machine.Inv (bulkEnd b status detail s) ↔ Machine.Inv s := by
  unfold bulkEnd
  dsimp only
  (repeat' split) <;> simp

@[simp] theorem form_iff_bulkStatus (s : State) : Machine.Inv (bulkStatus s) ↔ Machine.Inv s :=
  form_iff_withCtl (fun m t => by dsimp only; split <;> simp) s

@[simp] theorem form_iff_parcelTransferTimeout (xid : Nat) (s : State) : Machine.Inv (parcelTransferTimeout xid s) ↔ Machine.Inv s := by
  unfold parcelTransferTimeout
  (repeat' split) <;> simp

@[simp] theorem form_iff_sendBulkStatus (dst xid status detail : Nat) (s : State) :
    Machine.Inv (sendBulkStatus dst xid status detail s) ↔ Machine.Inv s := by
  simp [sendBulkStatus]

@[simp] theorem form_iff_putBulk (b : BulkIn) (s : State) : Machine.Inv (putBulk b s) ↔ Machine.Inv s := Iff.rfl

@[simp] theorem form_iff_bulkComplete (b : BulkIn) (sys slot : Nat) (isReplay : Bool) (s : State) :
    Machine.Inv (bulkComplete b sys slot isReplay s) ↔ Machine.Inv s := by
  simp [bulkComplete]

@[simp] theorem form_iff_noteCuts (a n : Nat) (s : State) : Machine.Inv (noteCuts a n s) ↔ Machine.Inv s := Iff.rfl

@[simp] theorem form_bulkPlace (a : Nat) (p : List Byte) {s : State} (hinv : Machine.Inv s) : Machine.Inv (bulkPlace a p s) :=
  form_each _ _ (fun _ _ => form_loftWrite _ _ _) (by simp [hinv])

@[simp] theorem form_bulkFrameIn (m : RxMsg) {s : State} (hinv : Machine.Inv s) : Machine.Inv (bulkFrameIn m s) := by simp [bulkFrameIn, hinv]

theorem form_bulkReceive {s : State} (hinv : Machine.Inv s) : Machine.Inv (bulkReceive s) :=
  form_withMsg (fun m _ => form_bulkFrameIn m) hinv

theorem form_cmdParcelPush (c : Ctx) {s : State} (hinv : Machine.Inv s) : Machine.Inv (cmdParcelPush c s) := by
  unfold cmdParcelPush
  dsimp only
  split
  · simp [hinv]
  split
  · simp [hinv]
  refine form_readParcel (fun p t ht => ?_) hinv
  split
  · simp [ht, form_loftWrite]
  split
  · simp [ht]
  split
  · simp [ht]
  split
  · split <;> simp [ht]
  · simp [ht]

@[simp] theorem form_cmdReplay (c : Ctx) {s : State} (hinv : Machine.Inv s) : Machine.Inv (cmdReplay c s) := by simp [cmdReplay, hinv]
@[simp] theorem form_iff_clearCounters (s : State) : Machine.Inv (clearCounters s) ↔ Machine.Inv s := Iff.rfl

@[simp] theorem form_iff_freeze (sid : Nat) (clear wide : Bool) (s : State) : Machine.Inv (freeze sid clear wide s) ↔ Machine.Inv s := by
  simp [freeze]

@[simp] theorem form_cmdSnapshot (c : Ctx) {s : State} (hinv : Machine.Inv s) : Machine.Inv (cmdSnapshot c s) := by simp [cmdSnapshot, hinv]

@[simp] theorem form_iff_snapDone (c : Option Ctx) (code : Nat) (s : State) : Machine.Inv (snapDone c code s) ↔ Machine.Inv s := by
  unfold snapDone
  split <;> simp

@[simp] theorem form_iff_snapRequest (r : SnapReq) (s : State) : Machine.Inv (snapRequest r s) ↔ Machine.Inv s := by simp [snapRequest]

@[simp] theorem form_cmdTrainSnapshot (c : Ctx) {s : State} (hinv : Machine.Inv s) : Machine.Inv (cmdTrainSnapshot c s) := by
  simp [cmdTrainSnapshot, hinv]

@[simp] theorem form_iff_snapshotReq (s : State) : Machine.Inv (snapshotReq s) ↔ Machine.Inv s := by simp [snapshotReq]
@[simp] theorem form_iff_snapshotFreeze (s : State) : Machine.Inv (snapshotFreeze s) ↔ Machine.Inv s := by unfold snapshotFreeze; split <;> simp

@[simp] theorem form_cmdCounterClear (c : Ctx) {s : State} (hinv : Machine.Inv s) : Machine.Inv (cmdCounterClear c s) := by
  simp [cmdCounterClear, hinv]

@[simp] theorem form_cmdSnapshotSend (c : Ctx) {s : State} (hinv : Machine.Inv s) : Machine.Inv (cmdSnapshotSend c s) := by
  simp [cmdSnapshotSend, hinv, form_loftWrite]

end Sys2Proof.Laws
end

section
/-!
SUPPORT. The canonical form of the hayloft (R463) through the field section and security: what writes no byte of it has it exactly when the state before has
it (`form_iff_…`), and what writes some keeps it (`form_…`).
-/

namespace Sys2Proof.Laws

open Sys2Proof Sys2Proof.Machine

/-! The field section. -/

@[simp] theorem form_iff_takeDecide (c : Ctx) (g exp : Nat) (force : Bool) (s : State) :
    Machine.Inv (takeDecide c g exp force s) ↔ Machine.Inv s := by
  simp [takeDecide]

@[simp] theorem form_iff_staleCmd (c : Ctx) (g : Nat) (s : State) : Machine.Inv (staleCmd c g s) ↔ Machine.Inv s := by simp [staleCmd]
@[simp] theorem form_iff_renew (g : Nat) (s : State) : Machine.Inv (renew g s) ↔ Machine.Inv s := by simp [renew]

@[simp] theorem form_iff_outputDecide (c : Ctx) (g gen mask vals : Nat) (s : State) :
    Machine.Inv (outputDecide c g gen mask vals s) ↔ Machine.Inv s := by
  simp [outputDecide]

@[simp] theorem form_iff_releaseDecide (c : Ctx) (g gen : Nat) (s : State) : Machine.Inv (releaseDecide c g gen s) ↔ Machine.Inv s := by
  simp [releaseDecide]

@[simp] theorem form_iff_chEvent (n code data : Nat) (s : State) : Machine.Inv (chEvent n code data s) ↔ Machine.Inv s := by simp [chEvent]
@[simp] theorem form_iff_clearChan (n : Nat) (s : State) : Machine.Inv (clearChan n s) ↔ Machine.Inv s := by simp [clearChan]

@[simp] theorem form_iff_clearDecide (c : Ctx) (g gen mask : Nat) (s : State) : Machine.Inv (clearDecide c g gen mask s) ↔ Machine.Inv s := by
  simp [clearDecide]

@[simp] theorem form_iff_supplyEvent (g code : Nat) (s : State) : Machine.Inv (supplyEvent g code s) ↔ Machine.Inv s := by simp [supplyEvent]
@[simp] theorem form_iff_restoreGroup (g : Nat) (s : State) : Machine.Inv (restoreGroup g s) ↔ Machine.Inv s := by simp [restoreGroup]

@[simp] theorem form_iff_rearmDecide (c : Ctx) (g gen : Nat) (s : State) : Machine.Inv (rearmDecide c g gen s) ↔ Machine.Inv s := by
  simp [rearmDecide]

@[simp] theorem form_iff_crossBarrier (b : BarrierCmd) (s : State) : Machine.Inv (crossBarrier b s) ↔ Machine.Inv s := by
  unfold crossBarrier
  split <;> simp

@[simp] theorem form_iff_barrierEvent (code : Nat) (s : State) : Machine.Inv (barrierEvent code s) ↔ Machine.Inv s := by simp [barrierEvent]
@[simp] theorem form_iff_barrierFrameSend (s : State) : Machine.Inv (barrierFrameSend s) ↔ Machine.Inv s := by simp [barrierFrameSend]
@[simp] theorem form_iff_stateFrame (s : State) : Machine.Inv (stateFrame s) ↔ Machine.Inv s := by simp [stateFrame]
@[simp] theorem form_iff_statusFrame (s : State) : Machine.Inv (statusFrame s) ↔ Machine.Inv s := by simp [statusFrame]
@[simp] theorem form_iff_fieldReceives (ok : Bool) (s : State) : Machine.Inv (fieldReceives ok s) ↔ Machine.Inv s := by simp [fieldReceives]
@[simp] theorem form_iff_logicReceives (ok : Bool) (s : State) : Machine.Inv (logicReceives ok s) ↔ Machine.Inv s := by simp [logicReceives]

@[simp] theorem form_iff_barrierFrameReceive (crc : LinkCrc) (s : State) : Machine.Inv (barrierFrameReceive crc s) ↔ Machine.Inv s := by
  simp [barrierFrameReceive]

@[simp] theorem form_iff_barrierLinkTimeout (s : State) : Machine.Inv (barrierLinkTimeout s) ↔ Machine.Inv s := by simp [barrierLinkTimeout]
@[simp] theorem form_iff_heartbeatConfirm (s : State) : Machine.Inv (heartbeatConfirm s) ↔ Machine.Inv s := by simp [heartbeatConfirm]
@[simp] theorem form_iff_heartbeatMissing (s : State) : Machine.Inv (heartbeatMissing s) ↔ Machine.Inv s := by simp [heartbeatMissing]
@[simp] theorem form_iff_hbTimeoutAct (s : State) : Machine.Inv (hbTimeoutAct s) ↔ Machine.Inv s := by simp [hbTimeoutAct]

@[simp] theorem form_iff_inputLevelChange (n : Nat) (level : Bool) (s : State) : Machine.Inv (inputLevelChange n level s) ↔ Machine.Inv s := by
  simp [inputLevelChange]

@[simp] theorem form_iff_queueEdge (e : EdgeRep) (s : State) : Machine.Inv (queueEdge e s) ↔ Machine.Inv s := by simp [queueEdge]

@[simp] theorem form_iff_inputTransitionAccept (n : Nat) (s : State) : Machine.Inv (inputTransitionAccept n s) ↔ Machine.Inv s := by
  simp [inputTransitionAccept]

@[simp] theorem form_iff_ruleOutput (n : Nat) (level : Bool) (w : Word) (s : State) : Machine.Inv (ruleOutput n level w s) ↔ Machine.Inv s := by
  simp [ruleOutput]

@[simp] theorem form_iff_edgeReportReceive (s : State) : Machine.Inv (edgeReportReceive s) ↔ Machine.Inv s := by
  unfold edgeReportReceive
  split <;> simp

@[simp] theorem form_iff_currentLimitTimeout (n : Nat) (since : Option Nat) (s : State) :
    Machine.Inv (currentLimitTimeout n since s) ↔ Machine.Inv s := by
  simp [currentLimitTimeout]

@[simp] theorem form_iff_shortRetry (n : Nat) (s : State) : Machine.Inv (shortRetry n s) ↔ Machine.Inv s := by simp [shortRetry]
@[simp] theorem form_iff_retryCountReset (o : SwitchObs) (s : State) : Machine.Inv (retryCountReset o s) ↔ Machine.Inv s := by simp [retryCountReset]

@[simp] theorem form_iff_overloadShed (g : Nat) (mod : Bool) (s : State) : Machine.Inv (overloadShed g mod s) ↔ Machine.Inv s := by
  unfold overloadShed
  (repeat' split) <;> simp

@[simp] theorem form_iff_readbackFault (o : SwitchObs) (s : State) : Machine.Inv (readbackFault o s) ↔ Machine.Inv s := by simp [readbackFault]
@[simp] theorem form_iff_readbackFaultEnd (n : Nat) (s : State) : Machine.Inv (readbackFaultEnd n s) ↔ Machine.Inv s := by simp [readbackFaultEnd]
@[simp] theorem form_iff_openLoadTestStart (n : Nat) (s : State) : Machine.Inv (openLoadTestStart n s) ↔ Machine.Inv s := by simp [openLoadTestStart]

@[simp] theorem form_iff_openLoadTestEnd (n : Nat) (high : Bool) (s : State) : Machine.Inv (openLoadTestEnd n high s) ↔ Machine.Inv s := by
  simp [openLoadTestEnd]

@[simp] theorem form_iff_groupInvalid (g : Nat) (s : State) : Machine.Inv (groupInvalid g s) ↔ Machine.Inv s := Iff.rfl
@[simp] theorem form_iff_runsRestart (g : Nat) (s : State) : Machine.Inv (runsRestart g s) ↔ Machine.Inv s := Iff.rfl
@[simp] theorem form_iff_timersReset (g : Nat) (s : State) : Machine.Inv (timersReset g s) ↔ Machine.Inv s := Iff.rfl

@[simp] theorem form_iff_voltLatch (g code : Nat) (f : FGroup → FGroup) (s : State) : Machine.Inv (voltLatch g code f s) ↔ Machine.Inv s := by
  simp [voltLatch]

@[simp] theorem form_iff_groupSupplyCrossing (g : Nat) (v : SupplyObs) (s : State) : Machine.Inv (groupSupplyCrossing g v s) ↔ Machine.Inv s := by
  simp [groupSupplyCrossing]

@[simp] theorem form_iff_groupAutoRestore (g : Nat) (s : State) : Machine.Inv (groupAutoRestore g s) ↔ Machine.Inv s := by simp [groupAutoRestore]
@[simp] theorem form_iff_fieldDieTemp (t : Int) (s : State) : Machine.Inv (fieldDieTemp t s) ↔ Machine.Inv s := by simp [fieldDieTemp]
@[simp] theorem form_iff_leaseExpiry (g : Nat) (s : State) : Machine.Inv (leaseExpiry g s) ↔ Machine.Inv s := by simp [leaseExpiry]
@[simp] theorem form_iff_timedAct (x : Timed) (s : State) : Machine.Inv (timedAct x s) ↔ Machine.Inv s := by simp [timedAct]
@[simp] theorem form_iff_timedApplyDue (s : State) : Machine.Inv (timedApplyDue s) ↔ Machine.Inv s := by unfold timedApplyDue; split <;> simp
@[simp] theorem form_cmdTake (c : Ctx) {s : State} (hinv : Machine.Inv s) : Machine.Inv (cmdTake c s) := by simp [cmdTake, hinv]
@[simp] theorem form_cmdRelease (c : Ctx) {s : State} (hinv : Machine.Inv s) : Machine.Inv (cmdRelease c s) := by simp [cmdRelease, hinv]
@[simp] theorem form_cmdFieldOutput (c : Ctx) {s : State} (hinv : Machine.Inv s) : Machine.Inv (cmdFieldOutput c s) := by simp [cmdFieldOutput, hinv]

@[simp] theorem form_cmdTimedApply (c : Ctx) {s : State} (hinv : Machine.Inv s) : Machine.Inv (cmdTimedApply c s) := by
  unfold cmdTimedApply
  split <;> simp [hinv]

@[simp] theorem form_cmdFaultClear (c : Ctx) {s : State} (hinv : Machine.Inv s) : Machine.Inv (cmdFaultClear c s) := by simp [cmdFaultClear, hinv]
@[simp] theorem form_cmdRearm (c : Ctx) {s : State} (hinv : Machine.Inv s) : Machine.Inv (cmdRearm c s) := by simp [cmdRearm, hinv]

theorem form_cmdFieldStatus (c : Ctx) {s : State} (hinv : Machine.Inv s) : Machine.Inv (cmdFieldStatus c s) :=
  form_writeItems (fun _ _ ht => by simp [ht]) hinv

@[simp] theorem form_cmdFieldModuleSet (c : Ctx) {s : State} (hinv : Machine.Inv s) : Machine.Inv (cmdFieldModuleSet c s) := by
  unfold cmdFieldModuleSet
  dsimp only
  (repeat' split) <;> simp [hinv]

@[simp] theorem form_cmdFieldGroupSet (c : Ctx) {s : State} (hinv : Machine.Inv s) : Machine.Inv (cmdFieldGroupSet c s) := by
  unfold cmdFieldGroupSet
  dsimp only
  (repeat' split) <;> simp [hinv]

@[simp] theorem form_iff_chanApply (n : Nat) (r : List Word) (s : State) : Machine.Inv (chanApply n r s) ↔ Machine.Inv s := by simp [chanApply]

@[simp] theorem form_cmdFieldChannelSet (c : Ctx) {s : State} (hinv : Machine.Inv s) : Machine.Inv (cmdFieldChannelSet c s) := by
  unfold cmdFieldChannelSet
  dsimp only
  (repeat' split) <;> simp [hinv]

@[simp] theorem form_cmdFieldRuleSet (c : Ctx) {s : State} (hinv : Machine.Inv s) : Machine.Inv (cmdFieldRuleSet c s) := by
  unfold cmdFieldRuleSet
  dsimp only
  (repeat' split) <;> simp [hinv]

/-! Security. -/

@[simp] theorem form_iff_entropyHealthChange (ok : Bool) (s : State) : Machine.Inv (entropyHealthChange ok s) ↔ Machine.Inv s := by
  simp [entropyHealthChange]

@[simp] theorem form_iff_keyLifeExpiry (s : State) : Machine.Inv (keyLifeExpiry s) ↔ Machine.Inv s := by simp [keyLifeExpiry]

@[simp] theorem form_iff_rekeySend (r : Rotation) (b : RekeyBlk) (s : State) : Machine.Inv (rekeySend r b s) ↔ Machine.Inv s := by
  unfold rekeySend
  split <;> simp

@[simp] theorem form_iff_modBlock (adm : Nat) (f : RekeyBlk → RekeyBlk) (s : State) : Machine.Inv (modBlock adm f s) ↔ Machine.Inv s := Iff.rfl

@[simp] theorem form_iff_rekeyBlockWrapped (s : State) : Machine.Inv (rekeyBlockWrapped s) ↔ Machine.Inv s := by
  unfold rekeyBlockWrapped
  (repeat' split) <;> simp

@[simp] theorem form_iff_rekeyResendTimeout (adm : Nat) (s : State) : Machine.Inv (rekeyResendTimeout adm s) ↔ Machine.Inv s := by
  unfold rekeyResendTimeout
  (repeat' split) <;> simp

@[simp] theorem form_iff_rekeyAck (s : State) : Machine.Inv (rekeyAck s) ↔ Machine.Inv s :=
  form_iff_withCtl (fun m t => by split <;> simp) s

@[simp] theorem form_iff_sendAck (i : Installed) (s : State) : Machine.Inv (sendAck i s) ↔ Machine.Inv s := Iff.rfl
@[simp] theorem form_iff_rekeyAccept (u : Installed) (s : State) : Machine.Inv (rekeyAccept u s) ↔ Machine.Inv s := by simp [rekeyAccept]

@[simp] theorem form_iff_rekey (s : State) : Machine.Inv (rekey s) ↔ Machine.Inv s :=
  form_iff_withCtl (fun m t => by
    dsimp only
    split
    · rfl
    · split <;> simp) s

@[simp] theorem form_iff_rekeyUnwrapped (s : State) : Machine.Inv (rekeyUnwrapped s) ↔ Machine.Inv s := by unfold rekeyUnwrapped; split <;> simp
@[simp] theorem form_iff_carryIssued (epoch : Nat) (s : State) : Machine.Inv (carryIssued epoch s) ↔ Machine.Inv s := Iff.rfl
@[simp] theorem form_iff_drawAndCopy (s : State) : Machine.Inv (drawAndCopy s) ↔ Machine.Inv s := by simp [drawAndCopy]
@[simp] theorem form_iff_keySwitch (s : State) : Machine.Inv (keySwitch s) ↔ Machine.Inv s := by unfold keySwitch; (repeat' split) <;> simp
@[simp] theorem form_oldKeyErase {s : State} (hinv : Machine.Inv s) : Machine.Inv (oldKeyErase s) := by unfold oldKeyErase; split <;> simp [hinv]

@[simp] theorem form_iff_setPriv (c : Ctx) (p : Priv) (scope key : Nat) (s : State) : Machine.Inv (setPriv c p scope key s) ↔ Machine.Inv s := by
  unfold setPriv
  (repeat' split) <;> simp

@[simp] theorem form_iff_operEnd (was : Bool) (s : State) : Machine.Inv (operEnd was s) ↔ Machine.Inv s := by simp [operEnd]

@[simp] theorem form_iff_demote (cond : Priv → Nat → Bool) (all : Bool) (s : State) : Machine.Inv (demote cond all s) ↔ Machine.Inv s := by
  simp [demote]

@[simp] theorem form_iff_rsaPut (priv : Bool) (job : RsaJob) (data : List Byte) (c : Ctx) (s : State) :
    Machine.Inv (rsaPut priv job data c s) ↔ Machine.Inv s := by
  simp [rsaPut]

@[simp] theorem form_iff_holdSerial (c : Ctx) (s : State) : Machine.Inv (holdSerial c s) ↔ Machine.Inv s := Iff.rfl
@[simp] theorem form_iff_serialDone (s : State) : Machine.Inv (serialDone s) ↔ Machine.Inv s := Iff.rfl
@[simp] theorem form_iff_challengeFail (s : State) : Machine.Inv (challengeFail s) ↔ Machine.Inv s := by simp [challengeFail]

@[simp] theorem form_iff_challengeLockoutEnd (s : State) : Machine.Inv (challengeLockoutEnd s) ↔ Machine.Inv s := by
  unfold challengeLockoutEnd
  split <;> simp

@[simp] theorem form_iff_lockedOut (c : Ctx) (s : State) : Machine.Inv (lockedOut c s) ↔ Machine.Inv s := by simp [lockedOut]

theorem form_cmdOperatorChallenge (c : Ctx) {s : State} (hinv : Machine.Inv s) : Machine.Inv (cmdOperatorChallenge c s) := by
  have hissue : Machine.Inv (cmdOperatorChallenge.issue c s) := by simp [cmdOperatorChallenge.issue, hinv]
  unfold cmdOperatorChallenge
  split <;> simp [hinv, hissue]

@[simp] theorem form_iff_operRefuse (unlisted : Bool) (c : Ctx) (s : State) : Machine.Inv (operRefuse unlisted c s) ↔ Machine.Inv s := by
  simp [operRefuse]

theorem form_cmdOperatorResponse (c : Ctx) {s : State} (hinv : Machine.Inv s) : Machine.Inv (cmdOperatorResponse c s) := by
  unfold cmdOperatorResponse
  dsimp only
  split
  · simp [hinv]
  · exact form_readParcel (fun p t ht => by simp [ht]) hinv

@[simp] theorem form_iff_operDone (c : Ctx) (key : List Byte) (ok : Bool) (s : State) : Machine.Inv (operDone c key ok s) ↔ Machine.Inv s := by
  simp [operDone]

theorem form_cmdQuote (c : Ctx) {s : State} (hinv : Machine.Inv s) : Machine.Inv (cmdQuote c s) :=
  form_withParcel (fun _ _ t ht => by simp [ht]) hinv

@[simp] theorem form_quoteDone (c : Ctx) (body : List Byte) {s : State} (hinv : Machine.Inv s) : Machine.Inv (quoteDone c body s) := by
  simp [quoteDone, hinv, form_loftWrite]

theorem form_cmdCertRead (c : Ctx) {s : State} (hinv : Machine.Inv s) : Machine.Inv (cmdCertRead c s) := by
  unfold cmdCertRead
  extract_lets i cert
  split
  · simp [hinv]
  split
  · exact form_withParcel (fun _ _ t ht => by simp [ht]) hinv
  · exact form_writeItems (fun _ _ ht => by simp [ht]) hinv

@[simp] theorem form_cmdOwnChallenge (c : Ctx) {s : State} (hinv : Machine.Inv s) : Machine.Inv (cmdOwnChallenge c s) := by
  simp [cmdOwnChallenge, hinv]

@[simp] theorem form_iff_enrolSet (cert : List Byte) (cosign : Bool) (s : State) : Machine.Inv (enrolSet cert cosign s) ↔ Machine.Inv s := Iff.rfl

theorem form_cmdTakeOwnership (c : Ctx) {s : State} (hinv : Machine.Inv s) : Machine.Inv (cmdTakeOwnership c s) := by
  unfold cmdTakeOwnership
  split
  · simp [hinv]
  refine form_readParcel (fun p t ht => ?_) hinv
  split
  · simp [ht]
  split
  · simp [ht]
  split <;> simp [ht]

@[simp] theorem form_iff_takeOwnershipDone (c : Ctx) (p : List Byte) (ok : Bool) (s0 : State) :
    Machine.Inv (takeOwnershipDone c p ok s0) ↔ Machine.Inv s0 := by
  unfold takeOwnershipDone
  split <;> simp

@[simp] theorem form_iff_ownPresentRelease (s : State) : Machine.Inv (ownPresentRelease s) ↔ Machine.Inv s := Iff.rfl

theorem form_cmdOwnerTransfer (c : Ctx) {s : State} (hinv : Machine.Inv s) : Machine.Inv (cmdOwnerTransfer c s) :=
  form_readParcel (fun p t ht => by split <;> simp [ht]) hinv

@[simp] theorem form_iff_transferDone_prime (c : Ctx) (p : List Byte) (ok : Bool) (s0 : State) :
    Machine.Inv (transferDone' c p ok s0) ↔ Machine.Inv s0 := by
  unfold transferDone'
  split <;> simp

@[simp] theorem form_cmdRotate (c : Ctx) {s : State} (hinv : Machine.Inv s) : Machine.Inv (cmdRotate c s) := by simp [cmdRotate, hinv]

@[simp] theorem form_cmdRollbackCommit (c : Ctx) {s : State} (hinv : Machine.Inv s) : Machine.Inv (cmdRollbackCommit c s) := by
  simp [cmdRollbackCommit, hinv]

@[simp] theorem form_iff_segLeave (s : State) : Machine.Inv (segLeave s) ↔ Machine.Inv s := by unfold segLeave; split <;> simp
@[simp] theorem form_stopNow {s : State} (hinv : Machine.Inv s) : Machine.Inv (stopNow s) := by simp [stopNow, hinv]
@[simp] theorem form_zeroKeys {s : State} (hinv : Machine.Inv s) : Machine.Inv (zeroKeys s) := by simp [zeroKeys, hinv]
@[simp] theorem form_cmdZeroise (c : Ctx) {s : State} (hinv : Machine.Inv s) : Machine.Inv (cmdZeroise c s) := by simp [cmdZeroise, hinv]

@[simp] theorem form_cmdServiceChallenge (c : Ctx) {s : State} (hinv : Machine.Inv s) : Machine.Inv (cmdServiceChallenge c s) := by
  simp [cmdServiceChallenge, hinv]

theorem form_cmdServiceToken (c : Ctx) {s : State} (hinv : Machine.Inv s) : Machine.Inv (cmdServiceToken c s) :=
  form_readParcel (fun p t ht => by simp [ht]) hinv

@[simp] theorem form_debugOpen {s : State} (hinv : Machine.Inv s) : Machine.Inv (debugOpen s) := by simp [debugOpen, hinv]

@[simp] theorem form_tokenDone (c : Ctx) (p : List Byte) (ok : Bool) {s0 : State} (hinv : Machine.Inv s0) : Machine.Inv (tokenDone c p ok s0) := by
  simp [tokenDone, hinv]

@[simp] theorem form_iff_envRefuse (status detail : Nat) (c : Ctx) (s : State) : Machine.Inv (envRefuse status detail c s) ↔ Machine.Inv s := by
  simp [envRefuse]

theorem form_cmdEnvelope (c : Ctx) {s : State} (hinv : Machine.Inv s) : Machine.Inv (cmdEnvelope c s) :=
  form_readParcel (fun p t ht => by simp [ht]) hinv

@[simp] theorem form_iff_envAccept (p : List Byte) (s : State) : Machine.Inv (envAccept p s) ↔ Machine.Inv s := by simp [envAccept]

end Sys2Proof.Laws
end

section
/-!
SUPPORT. The canonical form of the hayloft (R463) through the yard port, the host port, the bridge and the stream port: what writes no byte of it has it exactly when the state before has
it (`form_iff_…`), and what writes some keeps it (`form_…`).
-/

namespace Sys2Proof.Laws

open Sys2Proof Sys2Proof.Machine

/-! The yard port. -/

@[simp] theorem form_iff_macClose (s : State) : Machine.Inv (macClose s) ↔ Machine.Inv s := by simp [macClose]
@[simp] theorem form_iff_linkDown (s : State) : Machine.Inv (linkDown s) ↔ Machine.Inv s := by simp [linkDown]
@[simp] theorem form_iff_txPin (s : State) : Machine.Inv (txPin s) ↔ Machine.Inv s := Iff.rfl
@[simp] theorem form_iff_yardLinkChange (up : Bool) (s : State) : Machine.Inv (yardLinkChange up s) ↔ Machine.Inv s := by simp [yardLinkChange]

@[simp] theorem form_iff_yardModulePinChange (modAbs los : Bool) (s : State) : Machine.Inv (yardModulePinChange modAbs los s) ↔ Machine.Inv s := by
  simp [yardModulePinChange]

@[simp] theorem form_iff_macsecSakInstall (s : State) : Machine.Inv (macsecSakInstall s) ↔ Machine.Inv s := by simp [macsecSakInstall]
@[simp] theorem form_iff_mkaPeerLost (s : State) : Machine.Inv (mkaPeerLost s) ↔ Machine.Inv s := by simp [mkaPeerLost]

@[simp] theorem form_rxInit {s : State} (hinv : Machine.Inv s) : Machine.Inv (rxInit s) :=
  form_each _ _ (fun _ _ => form_each _ _ fun _ _ => form_loftWrite _ _ _) hinv

@[simp] theorem form_rxBytes (f : YFrame) {s : State} (hinv : Machine.Inv s) : Machine.Inv (rxBytes f s) :=
  form_each _ _ (fun _ _ => form_loftWrite _ _ _) hinv

@[simp] theorem form_rxHand (f : YFrame) {s : State} (hinv : Machine.Inv s) : Machine.Inv (rxHand f s) :=
  form_onYard _ (form_each _ _ (fun _ _ => form_loftWrite _ _ _) hinv)

@[simp] theorem form_ringBack (f : YFrame) {s : State} (hinv : Machine.Inv s) : Machine.Inv (ringBack f s) :=
  form_each _ _ (fun _ _ => form_loftWrite _ _ _) hinv

@[simp] theorem form_iff_yardFrameStart (hdr : List Byte) (len : Nat) (s0 : State) : Machine.Inv (yardFrameStart hdr len s0) ↔ Machine.Inv s0 := by
  unfold yardFrameStart
  dsimp only
  (repeat' split) <;> simp

@[simp] theorem form_iff_macTook (etype : Nat) (m : MacTag) (s : State) : Machine.Inv (macTook etype m s) ↔ Machine.Inv s := by simp [macTook]
@[simp] theorem form_iff_relayOut (f : YFrame) (s : State) : Machine.Inv (relayOut f s) ↔ Machine.Inv s := by unfold relayOut; split <;> simp
@[simp] theorem form_yardHand (f : YFrame) {s : State} (hinv : Machine.Inv s) : Machine.Inv (yardHand f s) := by simp [yardHand, hinv]

theorem form_yardFrameTail (rest : List Byte) (fcsOk : Bool) (m : MacTag) {s : State} (hinv : Machine.Inv s) :
    Machine.Inv (yardFrameTail rest fcsOk m s) := by
  unfold yardFrameTail
  split
  · exact hinv
  dsimp only
  split
  · simp [hinv]
  split
  · simp [hinv]
  · exact form_yardHand _ (form_rxHand _ (form_rxBytes _ (by simp [hinv])))

@[simp] theorem form_takenYard (f : YFrame) {s : State} (hinv : Machine.Inv s) : Machine.Inv (takenYard f s) := by simp [takenYard, hinv]

theorem form_yardTake {p : YFrame → Bool} {f : YFrame → State → State} {s : State} (hf : ∀ x s, Machine.Inv s → Machine.Inv (f x s))
    (h : Machine.Inv s) : Machine.Inv (yardTake p f s) := by
  unfold yardTake
  split
  · exact h
  · exact hf _ _ (form_takenYard _ h)

@[simp] theorem form_iff_rawSend (q : Nat) (b : List Byte) (s : State) : Machine.Inv (rawSend q b s) ↔ Machine.Inv s := Iff.rfl

@[simp] theorem form_iff_udpSend (q dst sport dport hop : Nat) (p : List Byte) (s : State) : Machine.Inv (udpSend q dst sport dport hop p s) ↔ Machine.Inv s :=
  Iff.rfl

@[simp] theorem form_iff_macSend (q : Nat) (b : List Byte) (oneStep : Bool) (corr : Int) (s : State) : Machine.Inv (macSend q b oneStep corr s) ↔ Machine.Inv s :=
  Iff.rfl

@[simp] theorem form_iff_tsqOverflow (s : State) : Machine.Inv (tsqOverflow s) ↔ Machine.Inv s := by simp [tsqOverflow]

@[simp] theorem form_iff_timedMsg (x : YTx) (m : List Byte) (s : State) : Machine.Inv (timedMsg x m s).2.2.2 ↔ Machine.Inv s := by
  unfold timedMsg
  dsimp only
  split
  · simp
  split
  · rfl
  · split <;> simp

@[simp] theorem form_iff_pdelayFollow (x : YTx) (s : State) : Machine.Inv (pdelayFollow x s) ↔ Machine.Inv s := by
  unfold pdelayFollow
  (repeat' split) <;> simp

@[simp] theorem form_iff_sendOne (x : YTx) (s : State) : Machine.Inv (sendOne x s) ↔ Machine.Inv s := by unfold sendOne; (repeat' split) <;> simp
@[simp] theorem form_iff_segSend (g : SegSend) (s : State) : Machine.Inv (segSend g s) ↔ Machine.Inv s := by simp [segSend]
@[simp] theorem form_iff_segStart (g : SegSend) (s : State) : Machine.Inv (segStart g s) ↔ Machine.Inv s := Iff.rfl

theorem form_cmdSegmentSend (c : Ctx) {s : State} (hinv : Machine.Inv s) : Machine.Inv (cmdSegmentSend c s) := by
  unfold cmdSegmentSend
  dsimp only
  split
  · simp [hinv]
  · exact form_readParcel (fun p t ht => by split <;> simp [ht]) hinv

@[simp] theorem form_iff_macSent (s : State) : Machine.Inv (macSent s) ↔ Machine.Inv s := by simp [macSent]

@[simp] theorem form_iff_yardFrameTransmit (s : State) : Machine.Inv (yardFrameTransmit s) ↔ Machine.Inv s := by
  unfold yardFrameTransmit
  (repeat' split) <;> simp

@[simp] theorem form_iff_arpLearn (a mac : Nat) (s : State) : Machine.Inv (arpLearn a mac s) ↔ Machine.Inv s := Iff.rfl
@[simp] theorem form_iff_arpService (b : List Byte) (s : State) : Machine.Inv (arpService b s) ↔ Machine.Inv s := by simp [arpService]

@[simp] theorem form_iff_ipBack (b : List Byte) (i : Ip) (proto hop : Nat) (p : List Byte) (s : State) : Machine.Inv (ipBack b i proto hop p s) ↔ Machine.Inv s :=
  Iff.rfl

@[simp] theorem form_iff_echoReply (b : List Byte) (i : Ip) (s : State) : Machine.Inv (echoReply b i s) ↔ Machine.Inv s := by simp [echoReply]
@[simp] theorem form_iff_portClosed (b : List Byte) (i : Ip) (s : State) : Machine.Inv (portClosed b i s) ↔ Machine.Inv s := by simp [portClosed]
@[simp] theorem form_iff_memberReport (v6 : Bool) (s : State) : Machine.Inv (memberReport v6 s) ↔ Machine.Inv s := by simp [memberReport]

@[simp] theorem form_iff_icmpService (b : List Byte) (i : Ip) (s : State) : Machine.Inv (icmpService b i s) ↔ Machine.Inv s := by
  unfold icmpService
  dsimp only
  (repeat' split) <;> simp

@[simp] theorem form_takenSub (k : Nat) (f : YFrame) {s : State} (hinv : Machine.Inv s) : Machine.Inv (takenSub k f s) := by simp [takenSub, hinv]

theorem form_yardIpService {s : State} (hinv : Machine.Inv s) : Machine.Inv (yardIpService s) := by
  unfold yardIpService
  split
  · exact hinv
  refine form_yardTake (fun f t ht => ?_) hinv
  split
  · simp [ht]
  split
  · exact ht
  · simp [ht]

@[simp] theorem form_iff_datagramSend (e : Nat) (s : State) : Machine.Inv (datagramSend e s) ↔ Machine.Inv s := by simp [datagramSend]
@[simp] theorem form_iff_yardTalk (k : Nat) (x : Sentence) (s : State) : Machine.Inv (yardTalk k x s) ↔ Machine.Inv s := by simp [yardTalk]

@[simp] theorem form_iff_dgramAccept (k : Nat) (gap : Bool) (xs : List Sentence) (s : State) :
    Machine.Inv (dgramAccept k gap xs s) ↔ Machine.Inv s := by
  simp [dgramAccept]

@[simp] theorem form_iff_modPairs (k : Nat) (f : List DPair → List DPair) (s : State) : Machine.Inv (modPairs k f s) ↔ Machine.Inv s := Iff.rfl

@[simp] theorem form_iff_dgramTrack (k src e run dseq : Nat) (xs : List Sentence) (s : State) :
    Machine.Inv (dgramTrack k src e run dseq xs s) ↔ Machine.Inv s := by
  unfold dgramTrack
  dsimp only
  (repeat' split) <;> simp

@[simp] theorem form_datagramReceive (k : Nat) {s : State} (hinv : Machine.Inv s) : Machine.Inv (datagramReceive k s) := by
  unfold datagramReceive
  dsimp only
  (repeat' split) <;> simp [hinv]

@[simp] theorem form_iff_datagramPairForget (k src e : Nat) (s : State) : Machine.Inv (datagramPairForget k src e s) ↔ Machine.Inv s := Iff.rfl
@[simp] theorem form_iff_putSess (k : Nat) (y : YSess) (s : State) : Machine.Inv (putSess k y s) ↔ Machine.Inv s := Iff.rfl
@[simp] theorem form_iff_resend (y : YSess) (s : State) : Machine.Inv (resend y s) ↔ Machine.Inv s := by simp [resend]

@[simp] theorem form_iff_sessOpenReq (u : Udp) (mseq : Nat) (ws : List Word) (s : State) : Machine.Inv (sessOpenReq u mseq ws s) ↔ Machine.Inv s := by
  unfold sessOpenReq
  (repeat' split) <;> simp

theorem form_yardSessionDatagram {s : State} (hinv : Machine.Inv s) : Machine.Inv (yardSessionDatagram s) := by
  unfold yardSessionDatagram
  split
  · exact hinv
  refine form_yardTake (fun f t ht => ?_) hinv
  split
  · exact ht
  dsimp only
  split
  · simp [ht]
  split
  · simp [ht]
  split
  · exact ht
  split
  · exact ht
  · simp [ht]

@[simp] theorem form_iff_sessClose (k : Nat) (s : State) : Machine.Inv (sessClose k s) ↔ Machine.Inv s := by unfold sessClose; split <;> simp

@[simp] theorem form_iff_yardSessionTimeout (k : Nat) (s : State) : Machine.Inv (yardSessionTimeout k s) ↔ Machine.Inv s := by
  unfold yardSessionTimeout
  split <;> simp

@[simp] theorem form_yardApply (r hash : List Word) {s : State} (hinv : Machine.Inv s) : Machine.Inv (yardApply r hash s) := by simp [yardApply, hinv]

theorem form_cmdYardSet (c : Ctx) {s : State} (hinv : Machine.Inv s) : Machine.Inv (cmdYardSet c s) := by
  unfold cmdYardSet
  split
  · simp [hinv]
  refine form_readParcel (fun p t ht => ?_) hinv
  dsimp only
  split <;> simp [ht]

@[simp] theorem form_cmdSteerSet (c : Ctx) {s : State} (hinv : Machine.Inv s) : Machine.Inv (cmdSteerSet c s) := by
  unfold cmdSteerSet
  dsimp only
  (repeat' split) <;> simp [hinv]

@[simp] theorem form_iff_endpointApply (e : Nat) (r : List Word) (s : State) : Machine.Inv (endpointApply e r s) ↔ Machine.Inv s := Iff.rfl
@[simp] theorem form_iff_subApply (k : Nat) (r : List Word) (s : State) : Machine.Inv (subApply k r s) ↔ Machine.Inv s := by simp [subApply]

@[simp] theorem form_cmdEndpointSet (c : Ctx) {s : State} (hinv : Machine.Inv s) : Machine.Inv (cmdEndpointSet c s) := by
  unfold cmdEndpointSet
  dsimp only
  (repeat' split) <;> simp [hinv]

@[simp] theorem form_cmdYardStatus (c : Ctx) {s : State} (hinv : Machine.Inv s) : Machine.Inv (cmdYardStatus c s) := by simp [cmdYardStatus, hinv]

/-! PTP. -/

@[simp] theorem form_iff_plantSlew (th : Int) (s : State) : Machine.Inv (plantSlew th s) ↔ Machine.Inv s := Iff.rfl

@[simp] theorem form_plantServo (th : Int) {s : State} (hinv : Machine.Inv s) : Machine.Inv (plantServo th s) := by
  have hstep : Machine.Inv (inEpoch ((s.clk.tepoch + 1) % 256) (stepBy th) s) := form_inEpoch (fun t => form_stepBy th) hinv
  simp [plantServo, hinv, hstep]

@[simp] theorem form_iff_rateHistory (s : State) : Machine.Inv (rateHistory s) ↔ Machine.Inv s := by simp [rateHistory]

@[simp] theorem form_plantMeasure (off : Int) (locked : Bool) {s : State} (hinv : Machine.Inv s) : Machine.Inv (plantMeasure off locked s) := by
  simp [plantMeasure, hinv]

@[simp] theorem form_iff_ptpServoLockLoss (s : State) : Machine.Inv (ptpServoLockLoss s) ↔ Machine.Inv s := by simp [ptpServoLockLoss]
@[simp] theorem form_iff_ptpAnnounce (m : List Byte) (s : State) : Machine.Inv (ptpAnnounce m s) ↔ Machine.Inv s := by simp [ptpAnnounce]

@[simp] theorem form_iff_ptpSend (m : List Byte) (timed : Option Nat) (tsub : Nat) (relayed : Option Nat) (s : State) : Machine.Inv (ptpSend m timed tsub relayed s) ↔ Machine.Inv s :=
  Iff.rfl

@[simp] theorem form_iff_delayReq (s0 : State) : Machine.Inv (delayReq s0) ↔ Machine.Inv s0 := Iff.rfl
@[simp] theorem form_iff_pdelayResp (f : YFrame) (m : List Byte) (s : State) : Machine.Inv (pdelayResp f m s) ↔ Machine.Inv s := Iff.rfl
@[simp] theorem form_iff_delayResp (m : List Byte) (s : State) : Machine.Inv (delayResp m s) ↔ Machine.Inv s := by simp [delayResp]

@[simp] theorem form_ptpSyncIn (m : List Byte) (off : Int) (locked : Bool) {s : State} (hinv :
    Machine.Inv s) : Machine.Inv (ptpSyncIn m off locked s) := by
  simp [ptpSyncIn, hinv]

@[simp] theorem form_ptpFollowIn (m : List Byte) (off : Int) (locked : Bool) {s : State} (hinv :
    Machine.Inv s) : Machine.Inv (ptpFollowIn m off locked s) := by
  simp [ptpFollowIn, hinv]

theorem form_ptpMessageReceive (off : Int) (locked : Bool) {s : State} (hinv : Machine.Inv s) :
    Machine.Inv (ptpMessageReceive off locked s) := by
  unfold ptpMessageReceive
  split
  · exact hinv
  refine form_yardTake (fun f t ht => ?_) hinv
  split
  · exact ht
  split
  · exact ht
  split <;> simp [ht]

@[simp] theorem form_iff_ptpRelay (s : State) : Machine.Inv (ptpRelay s) ↔ Machine.Inv s := by simp [ptpRelay]
@[simp] theorem form_cmdTimeRead (c : Ctx) {s : State} (hinv : Machine.Inv s) : Machine.Inv (cmdTimeRead c s) := by simp [cmdTimeRead, hinv]
@[simp] theorem form_cmdTimeStatus (c : Ctx) {s : State} (hinv : Machine.Inv s) : Machine.Inv (cmdTimeStatus c s) := by simp [cmdTimeStatus, hinv]

/-! The host port. -/

@[simp] theorem form_iff_portsWake (s : State) : Machine.Inv (portsWake s) ↔ Machine.Inv s := Iff.rfl
@[simp] theorem form_iff_wakeLatch (src idx : Nat) (s : State) : Machine.Inv (wakeLatch src idx s) ↔ Machine.Inv s := by simp [wakeLatch]
@[simp] theorem form_iff_selectFalls (s : State) : Machine.Inv (selectFalls s) ↔ Machine.Inv s := by simp [selectFalls]
@[simp] theorem form_iff_beginTxn (s : State) : Machine.Inv (beginTxn s) ↔ Machine.Inv s := by simp [beginTxn]

@[simp] theorem form_iff_openWords (newTxn : Bool) (a n : Nat) (s : State) : Machine.Inv (openWords newTxn a n s) ↔ Machine.Inv s := by
  simp [openWords]

@[simp] theorem form_iff_driveOut (w : Nat) (s : State) : Machine.Inv (driveOut w s) ↔ Machine.Inv s := Iff.rfl
@[simp] theorem form_iff_rejectWord (kind addr : Nat) (s : State) : Machine.Inv (rejectWord kind addr s) ↔ Machine.Inv s := by simp [rejectWord]
@[simp] theorem form_iff_rejectWords (kind a n : Nat) (s : State) : Machine.Inv (rejectWords kind a n s) ↔ Machine.Inv s := by simp [rejectWords]

theorem form_hostWords {newTxn : Bool} {a n : Nat} {f : State → State} {s : State} (hf : ∀ s, Machine.Inv s → Machine.Inv (f s))
    (h : Machine.Inv s) : Machine.Inv (hostWords newTxn a n f s) := by
  unfold hostWords
  split
  · exact h
  · dsimp only
    split <;> simp [h, hf]

theorem form_hostWord {newTxn : Bool} {a : Nat} {f : State → State} {s : State} (hf : ∀ s, Machine.Inv s → Machine.Inv (f s))
    (h : Machine.Inv s) : Machine.Inv (hostWord newTxn a f s) := by
  unfold hostWord
  split
  · exact h
  · dsimp only
    split
    · simp [h]
    · split <;> simp [h, hf]

@[simp] theorem form_iff_holdRead (r : RcWord) (v : Nat) (s : State) : Machine.Inv (holdRead r v s) ↔ Machine.Inv s := by
  unfold holdRead
  split <;> simp

@[simp] theorem form_iff_proxyIdle (k c : Nat) (s : State) : Machine.Inv (proxyIdle k c s) ↔ Machine.Inv s := Iff.rfl

@[simp] theorem form_iff_commitRead (r : RcWord) (v : Nat) (s : State) : Machine.Inv (commitRead r v s) ↔ Machine.Inv s := by
  unfold commitRead
  split <;> simp

@[simp] theorem form_iff_releaseRead (p : Prov) (s : State) : Machine.Inv (releaseRead p s) ↔ Machine.Inv s := by unfold releaseRead; split <;> simp
@[simp] theorem form_iff_releaseReads (s : State) : Machine.Inv (releaseReads s) ↔ Machine.Inv s := by simp [releaseReads]

theorem form_rcRead {newTxn : Bool} {a : Nat} {r : RcWord} {value : State → Nat} {last : Bool} {s : State} (h : Machine.Inv s) :
    Machine.Inv (rcRead newTxn a r value last s) := by
  unfold rcRead
  split
  · simp [h]
  · exact form_hostWord (fun t ht => by simp [ht]) h

@[simp] theorem form_iff_hostTransactionAbort (s : State) : Machine.Inv (hostTransactionAbort s) ↔ Machine.Inv s := by simp [hostTransactionAbort]

@[simp] theorem form_iff_commitIn (ch sender session : Nat) (p : Priv) (s : State) : Machine.Inv (commitIn ch sender session p s) ↔ Machine.Inv s :=
  Iff.rfl

@[simp] theorem form_iff_inWrite {ch a : Nat} {f : State → State} (hf : ∀ s, Machine.Inv (f s) ↔ Machine.Inv s) (s : State) :
    Machine.Inv (inWrite ch a f s) ↔ Machine.Inv s := by
  simp [inWrite, hf]

@[simp] theorem form_iff_inMsgWord (ch off : Nat) (w : Word) (s : State) : Machine.Inv (inMsgWord ch off w s) ↔ Machine.Inv s := by simp [inMsgWord]
@[simp] theorem form_iff_inCommitWord (ch : Nat) (s : State) : Machine.Inv (inCommitWord ch s) ↔ Machine.Inv s := by simp [inCommitWord]

@[simp] theorem form_iff_outboundHeldDeliver (ch : Nat) (s : State) : Machine.Inv (outboundHeldDeliver ch s) ↔ Machine.Inv s := by
  unfold outboundHeldDeliver
  (repeat' split) <;> simp

@[simp] theorem form_iff_hostBellClear (w : Nat) (s : State) : Machine.Inv (hostBellClear w s) ↔ Machine.Inv s := Iff.rfl
@[simp] theorem form_iff_fwBellSet (w : Nat) (s : State) : Machine.Inv (fwBellSet w s) ↔ Machine.Inv s := Iff.rfl
@[simp] theorem form_iff_eventPendClear (k w : Nat) (s : State) : Machine.Inv (eventPendClear k w s) ↔ Machine.Inv s := Iff.rfl
@[simp] theorem form_iff_busErrClr (w : Nat) (s : State) : Machine.Inv (busErrClr w s) ↔ Machine.Inv s := by simp [busErrClr]
@[simp] theorem form_iff_berrClear (w : Nat) (s : State) : Machine.Inv (berrClear w s) ↔ Machine.Inv s := Iff.rfl
@[simp] theorem form_iff_fwBellTake (n : Nat) (s : State) : Machine.Inv (fwBellTake n s) ↔ Machine.Inv s := by simp [fwBellTake]

@[simp] theorem form_iff_lockTake (n : Nat) (ids : List Nat) (s : State) : Machine.Inv (lockTake n ids s) ↔ Machine.Inv s := by
  unfold lockTake
  dsimp only
  (repeat' split) <;> simp

theorem form_lockRead (newTxn : Bool) (n : Nat) (readers : LockReaders) (last : Bool) {s : State} (hinv : Machine.Inv s) :
    Machine.Inv (lockRead newTxn n readers last s) := by
  unfold lockRead
  split
  · simp [hinv]
  · exact form_rcRead (by simp [hinv])

@[simp] theorem form_iff_lockWrite (id n w : Nat) (s : State) : Machine.Inv (lockWrite id n w s) ↔ Machine.Inv s := by simp [lockWrite]

@[simp] theorem form_windowWrite (who b w : Nat) {s : State} (hinv : Machine.Inv s) : Machine.Inv (windowWrite who b w s) := by
  unfold windowWrite
  split <;> simp [hinv, form_loftWrite]

@[simp] theorem form_iff_prefetch (b who : Nat) (s : State) : Machine.Inv (prefetch b who s) ↔ Machine.Inv s := by simp [prefetch]

@[simp] theorem form_windowAccess (off : Nat) (wr : Option Word) {s : State} (hinv : Machine.Inv s) : Machine.Inv (windowAccess off wr s) := by
  unfold windowAccess
  split <;> simp [hinv]

@[simp] theorem form_iff_resetOut (ch : Nat) (s : State) : Machine.Inv (resetOut ch s) ↔ Machine.Inv s := Iff.rfl
@[simp] theorem form_iff_fenceIn (ch : Nat) (s : State) : Machine.Inv (fenceIn ch s) ↔ Machine.Inv s := by simp [fenceIn]
@[simp] theorem form_iff_dropEvent (n cause : Nat) (s : State) : Machine.Inv (dropEvent n cause s) ↔ Machine.Inv s := by simp [dropEvent]
@[simp] theorem form_iff_hostReset (s : State) : Machine.Inv (hostReset s) ↔ Machine.Inv s := by simp [hostReset]
@[simp] theorem form_iff_hostResetPin (s : State) : Machine.Inv (hostResetPin s) ↔ Machine.Inv s := by simp [hostResetPin]
@[simp] theorem form_iff_softRst (w : Nat) (s : State) : Machine.Inv (softRst w s) ↔ Machine.Inv s := by simp [softRst]

@[simp] theorem form_plainRead (addr : Nat) {s : State} (hinv : Machine.Inv s) : Machine.Inv (plainRead addr s) := by
  unfold plainRead
  split
  · exact hinv
  · exact form_hostWord (fun t ht => by simp [ht]) hinv

@[simp] theorem form_unknownOpcode (op addr : Nat) {s : State} (hinv : Machine.Inv s) : Machine.Inv (unknownOpcode op addr s) := by
  simp [unknownOpcode, hinv]

/-! The bridge. -/

@[simp] theorem form_iff_logError (addr master status far : Nat) (s : State) : Machine.Inv (logError addr master status far s) ↔ Machine.Inv s := by
  unfold logError
  split <;> simp

@[simp] theorem form_iff_putProxy (p : Proxy) (s : State) : Machine.Inv (putProxy p s) ↔ Machine.Inv s := Iff.rfl
@[simp] theorem form_iff_proxyWord (k c off : Nat) (w : Word) (s : State) : Machine.Inv (proxyWord k c off w s) ↔ Machine.Inv s := by simp [proxyWord]

@[simp] theorem form_iff_proxyCommit (k c : Nat) (s : State) : Machine.Inv (proxyCommit k c s) ↔ Machine.Inv s := by
  unfold proxyCommit
  split <;> simp

@[simp] theorem form_iff_proxyNoAnswer (k c : Nat) (s : State) : Machine.Inv (proxyNoAnswer k c s) ↔ Machine.Inv s := by simp [proxyNoAnswer]

@[simp] theorem form_iff_msgAccept (s : State) : Machine.Inv (msgAccept s) ↔ Machine.Inv s :=
  form_iff_withCtl (fun m t => by split <;> simp) s

@[simp] theorem form_iff_msgStatus (s : State) : Machine.Inv (msgStatus s) ↔ Machine.Inv s :=
  form_iff_withCtl (fun m t => by split <;> simp) s

@[simp] theorem form_iff_msgReply (s : State) : Machine.Inv (msgReply s) ↔ Machine.Inv s :=
  form_iff_withCtl (fun m t => by split <;> simp) s

@[simp] theorem form_iff_msgAnswer (h : HeldCommit) (status : Nat) (s : State) : Machine.Inv (msgAnswer h status s) ↔ Machine.Inv s := by
  simp [msgAnswer]

@[simp] theorem form_iff_commitFar (h : HeldCommit) (s : State) : Machine.Inv (commitFar h s) ↔ Machine.Inv s := by unfold commitFar; split <;> simp
@[simp] theorem form_iff_actCommit (h : HeldCommit) (s : State) : Machine.Inv (actCommit h s) ↔ Machine.Inv s := by simp [actCommit]

@[simp] theorem form_iff_drainCommits (o n : Nat) (s : State) : Machine.Inv (drainCommits o n s) ↔ Machine.Inv s := by
  induction n generalizing s with
  | zero => rfl
  | succ n ih => unfold drainCommits; split <;> simp [ih]

@[simp] theorem form_iff_msgCommit (s : State) : Machine.Inv (msgCommit s) ↔ Machine.Inv s :=
  form_iff_withCtl (fun m t => by dsimp only; split <;> simp) s

@[simp] theorem form_iff_msgCommitReorderExpiry (s : State) : Machine.Inv (msgCommitReorderExpiry s) ↔ Machine.Inv s := by
  unfold msgCommitReorderExpiry
  split <;> simp

@[simp] theorem form_iff_setRdBuf (r : RdBuf) (s : State) : Machine.Inv (setRdBuf r s) ↔ Machine.Inv s := Iff.rfl
@[simp] theorem form_iff_remoteRetry (n : Nat) (s : State) : Machine.Inv (remoteRetry n s) ↔ Machine.Inv s := Iff.rfl

@[simp] theorem form_iff_remoteStart (k off n : Nat) (s : State) : Machine.Inv (remoteStart k off n s) ↔ Machine.Inv s := by
  unfold remoteStart
  split <;> simp

@[simp] theorem form_iff_remoteRead (k off n : Nat) (s : State) : Machine.Inv (remoteRead k off n s) ↔ Machine.Inv s := by
  unfold remoteRead
  split <;> simp

@[simp] theorem form_iff_proxyReadWord (k off : Nat) (s : State) : Machine.Inv (proxyReadWord k off s) ↔ Machine.Inv s := by simp [proxyReadWord]

theorem form_remoteRegisterRead (newTxn : Bool) (k off cnt : Nat) {s : State} (hinv : Machine.Inv s) :
    Machine.Inv (remoteRegisterRead newTxn k off cnt s) := by
  refine form_hostWords (fun t ht => ?_) hinv
  split <;> simp [ht]

@[simp] theorem form_iff_readReq (s : State) : Machine.Inv (readReq s) ↔ Machine.Inv s := by simp [readReq]

@[simp] theorem form_iff_readData (s : State) : Machine.Inv (readData s) ↔ Machine.Inv s :=
  form_iff_withCtl (fun m t => by split <;> simp) s

@[simp] theorem form_iff_readStatus (s : State) : Machine.Inv (readStatus s) ↔ Machine.Inv s :=
  form_iff_withCtl (fun m t => by split <;> simp) s

@[simp] theorem form_iff_remoteReadTimeout (s : State) : Machine.Inv (remoteReadTimeout s) ↔ Machine.Inv s := by
  unfold remoteReadTimeout
  split <;> simp

@[simp] theorem form_iff_remoteReadDataDiscard (s : State) : Machine.Inv (remoteReadDataDiscard s) ↔ Machine.Inv s := by
  unfold remoteReadDataDiscard
  split <;> simp

@[simp] theorem form_iff_writeId (a w : Nat) (s : State) : Machine.Inv (writeId a w s) ↔ Machine.Inv s := by simp [writeId]
@[simp] theorem form_iff_writeMang (ch off : Nat) (w : Word) (s : State) : Machine.Inv (writeMang ch off w s) ↔ Machine.Inv s := by simp [writeMang]
@[simp] theorem form_iff_writeBell (a w : Nat) (s : State) : Machine.Inv (writeBell a w s) ↔ Machine.Inv s := by simp [writeBell]
@[simp] theorem form_iff_writeWindow (a : Nat) (w : Word) (s : State) : Machine.Inv (writeWindow a w s) ↔ Machine.Inv s := by simp [writeWindow]

@[simp] theorem form_hostWrite (a : Nat) (w : Word) {s : State} (hinv : Machine.Inv s) : Machine.Inv (hostWrite a w s) := by
  unfold hostWrite
  split <;> simp [hinv]

/-! The stream port. -/

@[simp] theorem form_iff_startFrame (f : SFrame) (s : State) : Machine.Inv (startFrame f s) ↔ Machine.Inv s := Iff.rfl
@[simp] theorem form_iff_noteStarve (s : State) : Machine.Inv (noteStarve s) ↔ Machine.Inv s := by simp [noteStarve]
@[simp] theorem form_iff_setLink (inward : Bool) (l : LinkSt) (s : State) : Machine.Inv (setLink inward l s) ↔ Machine.Inv s := by simp [setLink]
@[simp] theorem form_iff_dropCurrent (s : State) : Machine.Inv (dropCurrent s) ↔ Machine.Inv s := by unfold dropCurrent; split <;> simp
@[simp] theorem form_iff_strmRestart (inward : Bool) (s : State) : Machine.Inv (strmRestart inward s) ↔ Machine.Inv s := by simp [strmRestart]
@[simp] theorem form_iff_strmDir (inward : Bool) (s : State) : Machine.Inv (strmDir inward s) ↔ Machine.Inv s := by simp [strmDir]
@[simp] theorem form_iff_strmSettle (s : State) : Machine.Inv (strmSettle s) ↔ Machine.Inv s := by simp [strmSettle]

@[simp] theorem form_iff_streamClockChange (inward present : Bool) (s : State) :
    Machine.Inv (streamClockChange inward present s) ↔ Machine.Inv s := by
  simp [streamClockChange]

@[simp] theorem form_iff_streamAligned (inward : Bool) (s : State) : Machine.Inv (streamAligned inward s) ↔ Machine.Inv s := by simp [streamAligned]
@[simp] theorem form_iff_streamRestart (inward : Bool) (s : State) : Machine.Inv (streamRestart inward s) ↔ Machine.Inv s := by simp [streamRestart]
@[simp] theorem form_iff_streamFramingError (s : State) : Machine.Inv (streamFramingError s) ↔ Machine.Inv s := by simp [streamFramingError]
@[simp] theorem form_iff_creditTransition (s : State) : Machine.Inv (creditTransition s) ↔ Machine.Inv s := by simp [creditTransition]
@[simp] theorem form_iff_creditTimeout (s : State) : Machine.Inv (creditTimeout s) ↔ Machine.Inv s := by unfold creditTimeout; split <;> simp

@[simp] theorem form_iff_streamFrameSend (s : State) : Machine.Inv (streamFrameSend s) ↔ Machine.Inv s := by
  unfold streamFrameSend
  (repeat' split) <;> simp

@[simp] theorem form_iff_streamFrameEnd (s : State) : Machine.Inv (streamFrameEnd s) ↔ Machine.Inv s := by unfold streamFrameEnd; split <;> simp
@[simp] theorem form_iff_giveCredits (f : SHdr) (s : State) : Machine.Inv (giveCredits f s) ↔ Machine.Inv s := Iff.rfl
@[simp] theorem form_iff_noteSeq (f : SHdr) (s0 : State) : Machine.Inv (noteSeq f s0) ↔ Machine.Inv s0 := by simp [noteSeq]

@[simp] theorem form_iff_strmRefuse (f : SHdr) (status detail : Nat) (s : State) : Machine.Inv (strmRefuse f status detail s) ↔ Machine.Inv s := by
  simp [strmRefuse]

@[simp] theorem form_iff_strmAccept (s : State) : Machine.Inv (strmAccept s) ↔ Machine.Inv s := Iff.rfl

theorem form_strmIn {own : Nat → Bool} {type minLen : Nat} {param0 : Bool} {body : SHdr → List Byte → State → State} {f : SHdr}
    {p : List Byte} {crcOk : Bool} {s : State} (hbody : ∀ f p s, Machine.Inv s → Machine.Inv (body f p s)) (h : Machine.Inv s) :
    Machine.Inv (strmIn own type minLen param0 body f p crcOk s) := by
  simp [strmIn, h, hbody]

theorem form_streamSubmit (f : SHdr) (p : List Byte) (crcOk : Bool) {s : State} (hinv : Machine.Inv s) :
    Machine.Inv (streamSubmit f p crcOk s) := form_strmIn (fun _ _ t ht => by simp [ht]) hinv

theorem form_streamHostIn (f : SHdr) (p : List Byte) (crcOk : Bool) {s : State} (hinv : Machine.Inv s) :
    Machine.Inv (streamHostIn f p crcOk s) := form_strmIn (fun _ _ t ht => by simp [ht]) hinv

theorem form_streamYardIn (f : SHdr) (p : List Byte) (crcOk : Bool) {s : State} (hinv : Machine.Inv s) :
    Machine.Inv (streamYardIn f p crcOk s) := form_strmIn (fun _ _ t ht => by simp [ht]) hinv

theorem form_dmaPut (a : Nat) (p : List Byte) {s : State} (hinv : Machine.Inv s) : Machine.Inv (dmaPut a p s) := by
  induction a, p, s using dmaPut.induct with
  | case1 a b0 b1 b2 b3 r s ih => exact ih (form_windowWrite _ _ _ hinv)
  | case2 a s => exact hinv
  | case3 a p s hfour hnil => rw [dmaPut.eq_3 _ _ _ hfour hnil]; exact form_loftWrite _ _ _ hinv

theorem form_dmaWriteAll (f : SHdr) (p : List Byte) (base : Nat) (l : List (Nat × Nat)) {s : State} (h : Machine.Inv s) :
    Machine.Inv (dmaWriteAll f p base l s) := by
  induction l generalizing s with
  | nil => simpa [dmaWriteAll] using h
  | cons x r ih =>
    unfold dmaWriteAll
    split
    · simpa using h
    · exact ih (form_dmaPut _ _ h)

theorem form_dmaWrite (f : SHdr) (p : List Byte) (crcOk : Bool) {s : State} (hinv : Machine.Inv s) :
    Machine.Inv (dmaWrite f p crcOk s) := by
  refine form_strmIn (fun f p t ht => ?_) hinv
  dsimp only
  split
  · simp [ht]
  · exact form_dmaWriteAll _ _ _ _ (by simp [ht])

@[simp] theorem form_iff_dmaReadAll (l : List (Nat × Nat)) (acc : List Byte) (s : State) : Machine.Inv (dmaReadAll l acc s).2 ↔ Machine.Inv s := by
  induction l generalizing acc s with
  | nil => rfl
  | cons x r ih =>
    unfold dmaReadAll
    split
    · rfl
    · dsimp only
      split
      · simp
      · rw [ih]; simp

theorem form_dmaRead (f : SHdr) (p : List Byte) (crcOk : Bool) {s : State} (hinv : Machine.Inv s) :
    Machine.Inv (dmaRead f p crcOk s) := by
  refine form_strmIn (fun f p t ht => ?_) hinv
  dsimp only
  split
  · simp [ht]
  split
  · simp [ht]
  split <;> simp [ht]

theorem form_streamMessageIn (f : SHdr) (p : List Byte) (crcOk : Bool) {s : State} (hinv : Machine.Inv s) :
    Machine.Inv (streamMessageIn f p crcOk s) := form_strmIn (fun _ _ t ht => by simp [ht]) hinv

@[simp] theorem form_iff_streamSessionTimeout (s : State) : Machine.Inv (streamSessionTimeout s) ↔ Machine.Inv s := by simp [streamSessionTimeout]
@[simp] theorem form_iff_strmApply (r : List Word) (s : State) : Machine.Inv (strmApply r s) ↔ Machine.Inv s := by simp [strmApply]

theorem form_cmdStreamSet (c : Ctx) {s : State} (hinv : Machine.Inv s) : Machine.Inv (cmdStreamSet c s) := by
  unfold cmdStreamSet
  split
  · simp [hinv]
  · exact form_readParcel (fun p t ht => by split <;> simp [ht]) hinv

@[simp] theorem form_cmdStreamStatus (c : Ctx) {s : State} (hinv : Machine.Inv s) : Machine.Inv (cmdStreamStatus c s) := by
  simp [cmdStreamStatus, hinv]

end Sys2Proof.Laws
end

section
/-!
SUPPORT. The canonical form of the hayloft (R463) through events, the hayloft, recipes, power and the order of commands: what writes no byte of it has it exactly when the state before has
it (`form_iff_…`), and what writes some keeps it (`form_…`).
-/

namespace Sys2Proof.Laws

open Sys2Proof Sys2Proof.Machine

/-! Events of other cars and the recorder. -/

@[simp] theorem form_iff_eventStreamFrameClose (s : State) : Machine.Inv (eventStreamFrameClose s) ↔ Machine.Inv s := by simp [eventStreamFrameClose]

@[simp] theorem form_remoteEvent (x : Event × Nat) {s : State} (hinv : Machine.Inv s) : Machine.Inv (remoteEvent x s) := by
  simp [remoteEvent, hinv, form_recordEvent]

theorem form_eventFrameReceive {s : State} (hinv : Machine.Inv s) : Machine.Inv (eventFrameReceive s) := by
  refine form_withMsg (fun m t ht => ?_) hinv
  split
  · simp [ht]
  · exact form_each _ _ (fun e _ => form_remoteEvent e) ht

@[simp] theorem form_iff_placeLost (s : State) : Machine.Inv (placeLost s) ↔ Machine.Inv s := by simp [placeLost]

@[simp] theorem form_recorderTake {s : State} (hinv : Machine.Inv s) : Machine.Inv (recorderTake s) := by
  unfold recorderTake
  (repeat' split) <;> simp [hinv, form_takeEntry]

theorem readRecords_succ (seq n : Nat) (s : State) : readRecords seq (n + 1) s =
    if s.ev.recSeq ≤ seq then ([], s)
    else if (loftCheck (recAddr s seq) 32 coreId s).1 then
      ((seq, loftBytes (recAddr s seq) 32 s) :: (readRecords (seq + 1) n (loftCheck (recAddr s seq) 32 coreId s).2).1,
        (readRecords (seq + 1) n (loftCheck (recAddr s seq) 32 coreId s).2).2)
    else readRecords (seq + 1) n (loftCheck (recAddr s seq) 32 coreId s).2 := by
  rw [readRecords]

@[simp] theorem form_iff_readRecords (seq n : Nat) (s : State) : Machine.Inv (readRecords seq n s).2 ↔ Machine.Inv s := by
  induction n generalizing seq s with
  | zero => rfl
  | succ n ih =>
    rw [readRecords_succ, apply_ite Prod.snd, apply_ite Prod.snd]
    simp only [form_iff_ite, ih, form_iff_loftCheck, ite_self]

theorem form_cmdRecorderRead (c : Ctx) {s : State} (hinv : Machine.Inv s) : Machine.Inv (cmdRecorderRead c s) := by
  refine form_withParcel (fun a n t ht => ?_) hinv
  dsimp only
  refine form_writeItems (fun k u hu => ?_) ((form_iff_readRecords _ _ _).2 ht)
  simp [hu]

@[simp] theorem form_cmdRouteSet (c : Ctx) {s : State} (hinv : Machine.Inv s) : Machine.Inv (cmdRouteSet c s) := by
  simp [cmdRouteSet, hinv, form_flushEvents]

/-! The hayloft. -/

@[simp] theorem form_iff_hayloftWriteBack (s : State) : Machine.Inv (hayloftWriteBack s) ↔ Machine.Inv s := by
  unfold hayloftWriteBack
  (repeat' split) <;> simp

@[simp] theorem form_iff_scrubWord (cw : Nat) (s : State) : Machine.Inv (scrubWord cw s) ↔ Machine.Inv s := by simp [scrubWord]

@[simp] theorem form_iff_scrubRead (found : Nat) (s : State) : Machine.Inv (scrubRead found s) ↔ Machine.Inv s := by
  have hsuffer : ∀ cw l, (suffer cw found l).mem = l.mem := fun cw l => by unfold suffer; split <;> rfl
  simp [scrubRead, hsuffer]

@[simp] theorem form_iff_scrubOverdue (s : State) : Machine.Inv (scrubOverdue s) ↔ Machine.Inv s := by simp [scrubOverdue]

@[simp] theorem form_cmdHayloftStatus (c : Ctx) {s : State} (hinv : Machine.Inv s) : Machine.Inv (cmdHayloftStatus c s) := by
  simp [cmdHayloftStatus, hinv]

@[simp] theorem form_cmdParcelAlloc (c : Ctx) {s : State} (hinv : Machine.Inv s) : Machine.Inv (cmdParcelAlloc c s) := by
  unfold cmdParcelAlloc
  dsimp only
  (repeat' split) <;> simp [hinv]

@[simp] theorem form_cmdParcelFree (c : Ctx) {s : State} (hinv : Machine.Inv s) : Machine.Inv (cmdParcelFree c s) := by simp [cmdParcelFree, hinv]
@[simp] theorem form_cmdDiagRead (c : Ctx) {s : State} (hinv : Machine.Inv s) : Machine.Inv (cmdDiagRead c s) := by simp [cmdDiagRead, hinv]
@[simp] theorem form_iff_setBypass (endB : Bool) (l : PinLevel) (s : State) : Machine.Inv (setBypass endB l s) ↔ Machine.Inv s := Iff.rfl
@[simp] theorem form_cmdLoopback (c : Ctx) {s : State} (hinv : Machine.Inv s) : Machine.Inv (cmdLoopback c s) := by simp [cmdLoopback, hinv]
@[simp] theorem form_cmdLanePrbs (c : Ctx) {s : State} (hinv : Machine.Inv s) : Machine.Inv (cmdLanePrbs c s) := by simp [cmdLanePrbs, hinv]

theorem form_cmdSlotWrite (c : Ctx) {s : State} (hinv : Machine.Inv s) : Machine.Inv (cmdSlotWrite c s) := by
  unfold cmdSlotWrite
  dsimp only
  split
  · simp [hinv]
  refine form_readParcel (fun p t ht => ?_) hinv
  split
  · simp [ht]
  · split <;> simp [ht]

@[simp] theorem form_iff_flashStart (o : FlashOp) (s : State) : Machine.Inv (flashStart o s) ↔ Machine.Inv s := Iff.rfl

@[simp] theorem form_iff_slotWriteDone (c : Ctx) (p : List Byte) (ok : Bool) (s0 : State) :
    Machine.Inv (slotWriteDone c p ok s0) ↔ Machine.Inv s0 := by
  simp [slotWriteDone]

@[simp] theorem form_cmdSlotInfo (c : Ctx) {s : State} (hinv : Machine.Inv s) : Machine.Inv (cmdSlotInfo c s) := by simp [cmdSlotInfo, hinv]
@[simp] theorem form_iff_reserveSectorErase (s : State) : Machine.Inv (reserveSectorErase s) ↔ Machine.Inv s := by simp [reserveSectorErase]
@[simp] theorem form_iff_flashOk (o : FlashOp) (s : State) : Machine.Inv (flashOk o s) ↔ Machine.Inv s := by unfold flashOk; (repeat' split) <;> simp

@[simp] theorem form_iff_flashFailed (o : FlashOp) (s : State) : Machine.Inv (flashFailed o s) ↔ Machine.Inv s := by
  unfold flashFailed
  (repeat' split) <;> simp

/-! Device commands. -/

@[simp] theorem form_cmdTrainStatus (c : Ctx) {s : State} (hinv : Machine.Inv s) : Machine.Inv (cmdTrainStatus c s) := by simp [cmdTrainStatus, hinv]

theorem form_cmdRosterRead (c : Ctx) {s : State} (hinv : Machine.Inv s) : Machine.Inv (cmdRosterRead c s) :=
  form_writeItems (fun _ _ ht => by simp [ht]) hinv

theorem form_cmdSourceRead (c : Ctx) {s : State} (hinv : Machine.Inv s) : Machine.Inv (cmdSourceRead c s) :=
  form_writeItems (fun _ _ ht => by simp [ht]) hinv

@[simp] theorem form_cmdCouplerStatus (c : Ctx) {s : State} (hinv : Machine.Inv s) : Machine.Inv (cmdCouplerStatus c s) := by
  simp [cmdCouplerStatus, hinv]

@[simp] theorem form_cmdAdmissionRetry (c : Ctx) {s : State} (hinv : Machine.Inv s) : Machine.Inv (cmdAdmissionRetry c s) := by
  simp [cmdAdmissionRetry, hinv]

theorem form_cmdPlanRead (c : Ctx) {s : State} (hinv : Machine.Inv s) : Machine.Inv (cmdPlanRead c s) := by
  unfold cmdPlanRead
  split
  · exact form_withParcel (fun _ _ t ht => by simp [ht]) hinv
  · exact form_writeItems (fun _ _ ht => by simp [ht]) hinv

theorem form_cmdImageDirectory (c : Ctx) {s : State} (hinv : Machine.Inv s) : Machine.Inv (cmdImageDirectory c s) :=
  form_writeItems (fun _ _ ht => by simp [ht]) hinv

@[simp] theorem form_cmdMarkSet (c : Ctx) {s : State} (hinv : Machine.Inv s) : Machine.Inv (cmdMarkSet c s) := by
  unfold cmdMarkSet
  dsimp only
  (repeat' split) <;> simp [hinv]

@[simp] theorem form_iff_setBinds (bs : List Word) (s : State) : Machine.Inv (setBinds bs s) ↔ Machine.Inv s := Iff.rfl

theorem form_cmdBindingSet (c : Ctx) {s : State} (hinv : Machine.Inv s) : Machine.Inv (cmdBindingSet c s) := by
  refine form_readParcel (fun p t ht => ?_) hinv
  dsimp only
  split
  · simp [ht]
  · split <;> simp [ht]

theorem form_cmdCouplingRead (c : Ctx) {s : State} (hinv : Machine.Inv s) : Machine.Inv (cmdCouplingRead c s) :=
  form_writeItems (fun _ _ ht => by simp [ht]) hinv

@[simp] theorem form_cmdDeviceId (c : Ctx) {s : State} (hinv : Machine.Inv s) : Machine.Inv (cmdDeviceId c s) := by simp [cmdDeviceId, hinv]

@[simp] theorem form_cmdDeviceStatus (c : Ctx) {s : State} (hinv : Machine.Inv s) : Machine.Inv (cmdDeviceStatus c s) := by
  simp [cmdDeviceStatus, hinv]

@[simp] theorem form_iff_giveSession (s : State) : Machine.Inv (giveSession s) ↔ Machine.Inv s := Iff.rfl

@[simp] theorem form_cmdSessionOpen (c : Ctx) {s : State} (hinv : Machine.Inv s) : Machine.Inv (cmdSessionOpen c s) := by
  unfold cmdSessionOpen
  (repeat' split) <;> simp [hinv]

@[simp] theorem form_iff_openCleanup (via : Via) (s : State) : Machine.Inv (openCleanup via s) ↔ Machine.Inv s := by
  unfold openCleanup
  (repeat' split) <;> simp

@[simp] theorem form_iff_freeParcels (session : Nat) (s : State) : Machine.Inv (freeParcels session s) ↔ Machine.Inv s := Iff.rfl

@[simp] theorem form_cmdSessionClose (c : Ctx) {s : State} (hinv : Machine.Inv s) : Machine.Inv (cmdSessionClose c s) := by
  unfold cmdSessionClose
  (repeat' split) <;> simp [hinv]

@[simp] theorem form_iff_startNow (s : State) : Machine.Inv (startNow s) ↔ Machine.Inv s := by simp [startNow]
@[simp] theorem form_cmdStart (c : Ctx) {s : State} (hinv : Machine.Inv s) : Machine.Inv (cmdStart c s) := by simp [cmdStart, hinv]
@[simp] theorem form_cmdStop (c : Ctx) {s : State} (hinv : Machine.Inv s) : Machine.Inv (cmdStop c s) := by simp [cmdStop, hinv]
@[simp] theorem form_finishStop {s : State} (hinv : Machine.Inv s) : Machine.Inv (finishStop s) := by unfold finishStop; split <;> simp [hinv]
@[simp] theorem form_cmdBarn (c : Ctx) {s : State} (hinv : Machine.Inv s) : Machine.Inv (cmdBarn c s) := by simp [cmdBarn, hinv]
@[simp] theorem form_cmdTest (c : Ctx) {s : State} (hinv : Machine.Inv s) : Machine.Inv (cmdTest c s) := by simp [cmdTest, hinv]

/-! Recipes. -/

@[simp] theorem form_iff_refusalEvents (p : List Byte) (r : Nat × Nat × List Nat) (s : State) :
    Machine.Inv (refusalEvents p r s) ↔ Machine.Inv s := by
  simp [refusalEvents]

@[simp] theorem form_zeroRange (a n : Nat) {s : State} (hinv : Machine.Inv s) : Machine.Inv (zeroRange a n s) := memZero_wf a n hinv

@[simp] theorem form_regionAnew (old : State) (r : Nat) {s : State} (hinv : Machine.Inv s) : Machine.Inv (regionAnew old r s) := by
  unfold regionAnew
  (repeat' split) <;> simp [hinv, form_resumeRecord]

@[simp] theorem form_applyLoft (p : List Byte) {s : State} (hinv : Machine.Inv s) : Machine.Inv (applyLoft p s) := by
  refine form_each _ _ (fun r _ => form_regionAnew s r) ?_
  rw [form_iff_onCmd, form_iff_onLoft]
  · exact hinv
  · intro l; split <;> rfl

@[simp] theorem form_iff_applyTrain (p : List Byte) (s : State) : Machine.Inv (applyTrain p s) ↔ Machine.Inv s := by simp [applyTrain]
@[simp] theorem form_applyPlan (p : List Byte) {s : State} (hinv : Machine.Inv s) : Machine.Inv (applyPlan p s) := by simp [applyPlan, hinv]
@[simp] theorem form_iff_applyCoupling (p : List Byte) (s : State) : Machine.Inv (applyCoupling p s) ↔ Machine.Inv s := Iff.rfl

@[simp] theorem form_iff_eachRec {f : Nat → List Word → State → State} (hf : ∀ i r s, Machine.Inv (f i r s) ↔ Machine.Inv s)
    (rs : List (List Word)) (s : State) : Machine.Inv (eachRec f rs s) ↔ Machine.Inv s := by
  unfold eachRec
  rw [form_iff_each]
  exact fun x t => hf x.2 x.1 t

@[simp] theorem form_iff_applySentences (p : List Byte) (s : State) : Machine.Inv (applySentences p s) ↔ Machine.Inv s := by simp [applySentences]
@[simp] theorem form_iff_applyField (p : List Byte) (s : State) : Machine.Inv (applyField p s) ↔ Machine.Inv s := by simp [applyField]
@[simp] theorem form_applyYard (p : List Byte) {s : State} (hinv : Machine.Inv s) : Machine.Inv (applyYard p s) := by simp [applyYard, hinv]

@[simp] theorem form_applyStream (p : List Byte) {s : State} (hinv : Machine.Inv s) : Machine.Inv (applyStream p s) := by
  simp [applyStream, hinv, form_flushEvents]

@[simp] theorem form_iff_applySecurity (p : List Byte) (s : State) : Machine.Inv (applySecurity p s) ↔ Machine.Inv s := by simp [applySecurity]

@[simp] theorem form_recipeApply (slotB : Bool) (p : List Byte) {s : State} (hinv : Machine.Inv s) : Machine.Inv (recipeApply slotB p s) := by
  have hloft := form_applyLoft p hinv
  have hplan : Machine.Inv (applyPlan p (applyTrain p (applyLoft p s))) := form_applyPlan _ (by simpa using hloft)
  have hyard : Machine.Inv (applyYard p (applyField p (applySentences p (applyCoupling p (applyPlan p (applyTrain p (applyLoft p s))))))) :=
    form_applyYard _ (by simpa using hplan)
  have hstrm := form_applyStream p hyard
  simp [recipeApply, hstrm]

@[simp] theorem form_cmdRecipeActivate (c : Ctx) {s : State} (hinv : Machine.Inv s) : Machine.Inv (cmdRecipeActivate c s) := by
  simp [cmdRecipeActivate, hinv]

@[simp] theorem form_recipeActivateDone (c : Ctx) (sig : Bool) {s0 : State} (hinv : Machine.Inv s0) : Machine.Inv (recipeActivateDone c sig s0) := by
  unfold recipeActivateDone
  dsimp only
  (repeat' split) <;> simp [hinv]

@[simp] theorem form_recipeAtStart (slotB sig : Bool) {s : State} (hinv : Machine.Inv s) : Machine.Inv (recipeAtStart slotB sig s).2 := by
  unfold recipeAtStart
  dsimp only
  (repeat' split) <;> simp [hinv]

/-! Power and reset. -/

@[simp] theorem form_iff_supplyThreshold (mv : Nat) (s : State) : Machine.Inv (supplyThreshold mv s) ↔ Machine.Inv s := by simp [supplyThreshold]
@[simp] theorem form_iff_supplyReturned (mv : Nat) (s : State) : Machine.Inv (supplyReturned mv s) ↔ Machine.Inv s := by simp [supplyReturned]

theorem loftKeep_wf (c : Cause) {l : LoftSt} (h : Memory.wf l.mem = true) : Memory.wf (loftKeep c l).mem = true := by
  unfold loftKeep
  split
  · rfl
  · exact h

@[simp] theorem form_enterReset (c : Cause) (torn : Bool) {s : State} (hinv : Machine.Inv s) : Machine.Inv (enterReset c torn s) :=
  loftKeep_wf c (form_ite (c == .supply) hinv (form_writeOut hinv))

@[simp] theorem form_iff_vinLogicRise (mv : Nat) (s : State) : Machine.Inv (vinLogicRise mv s) ↔ Machine.Inv s := by simp [vinLogicRise]

@[simp] theorem form_supplyReset (mv : Nat) (torn : Bool) {s : State} (hinv : Machine.Inv s) : Machine.Inv (supplyReset mv torn s) := by
  simp [supplyReset, hinv]

@[simp] theorem form_pinReset (torn : Bool) {s : State} (hinv : Machine.Inv s) : Machine.Inv (pinReset torn s) := by simp [pinReset, hinv]
@[simp] theorem form_watchdogExpiry {s : State} (hinv : Machine.Inv s) : Machine.Inv (watchdogExpiry s) := by simp [watchdogExpiry, hinv]
@[simp] theorem form_fwFetch {s : State} (hinv : Machine.Inv s) : Machine.Inv (fwFetch s) := by unfold fwFetch; split <;> simp [hinv]
@[simp] theorem form_cmdReset (c : Ctx) {s : State} (hinv : Machine.Inv s) : Machine.Inv (cmdReset c s) := by simp [cmdReset, hinv]
@[simp] theorem form_commandReset {s : State} (hinv : Machine.Inv s) : Machine.Inv (commandReset s) := by unfold commandReset; split <;> simp [hinv]

@[simp] theorem form_dieTemperatureSample (t : Int) {s0 : State} (hinv : Machine.Inv s0) : Machine.Inv (dieTemperatureSample t s0) := by
  simp [dieTemperatureSample, hinv]

@[simp] theorem form_bracedEntry (mv : Nat) {s : State} (hinv : Machine.Inv s) : Machine.Inv (bracedEntry mv s) := by
  simp [bracedEntry, hinv, form_writeOut]

@[simp] theorem form_iff_fieldOn (s : State) : Machine.Inv (fieldOn s) ↔ Machine.Inv s := Iff.rfl
@[simp] theorem form_recoveryYard (sig : Bool) {s : State} (hinv : Machine.Inv s) : Machine.Inv (recoveryYard sig s) := by simp [recoveryYard, hinv]
@[simp] theorem form_iff_flushSlots (s : State) : Machine.Inv (flushSlots s) ↔ Machine.Inv s := by simp [flushSlots]

@[simp] theorem form_enterRecovery (code : Nat) (sig : Bool) {s : State} (hinv : Machine.Inv s) : Machine.Inv (enterRecovery code sig s) := by
  simp [enterRecovery, hinv]

@[simp] theorem form_iff_securityStart (s : State) : Machine.Inv (securityStart s) ↔ Machine.Inv s := by simp [securityStart]

@[simp] theorem form_resetRelease (mv : Nat) (recov own pinA pinB sig : Bool) {s : State} (hinv :
    Machine.Inv s) : Machine.Inv (resetRelease mv recov own pinA pinB sig s) := by
  simp [resetRelease, hinv]

@[simp] theorem form_startImage (slotB : Bool) (p : List Byte) {s : State} (hinv : Machine.Inv s) : Machine.Inv (startImage slotB p s) := by
  simp [startImage, hinv, loftPoke_wf]

@[simp] theorem form_bootImageVerified (ok sig : Bool) {s0 : State} (hinv : Machine.Inv s0) : Machine.Inv (bootImageVerified ok sig s0) := by
  simp [bootImageVerified, hinv]

@[simp] theorem form_resumeStart {s : State} (hinv : Machine.Inv s) : Machine.Inv (resumeStart s) := by simp [resumeStart, hinv, form_resumeRecord]
@[simp] theorem form_iff_raisePending (s : State) : Machine.Inv (raisePending s) ↔ Machine.Inv s := by simp [raisePending]
@[simp] theorem form_iff_raiseShutdown (s : State) : Machine.Inv (raiseShutdown s) ↔ Machine.Inv s := by unfold raiseShutdown; split <;> simp
@[simp] theorem form_iff_raiseTorn (s : State) : Machine.Inv (raiseTorn s) ↔ Machine.Inv s := by simp [raiseTorn]

@[simp] theorem form_startupBegin (katOk : Bool) {s : State} (hinv : Machine.Inv s) : Machine.Inv (startupBegin katOk s) := by
  simp [startupBegin, hinv]

@[simp] theorem form_iff_bypassRelease (pcsOk : Bool) (s : State) : Machine.Inv (bypassRelease pcsOk s) ↔ Machine.Inv s := by simp [bypassRelease]
@[simp] theorem form_iff_autoStart (s : State) : Machine.Inv (autoStart s) ↔ Machine.Inv s := by simp [autoStart]

@[simp] theorem form_loadAtStart (sigActive sigOther : Bool) {s : State} (hinv : Machine.Inv s) : Machine.Inv (loadAtStart sigActive sigOther s) := by
  simp [loadAtStart, hinv]

@[simp] theorem form_startupDone (sigActive sigOther : Bool) {s : State} (hinv : Machine.Inv s) : Machine.Inv (startupDone sigActive sigOther s) := by
  simp [startupDone, hinv]

@[simp] theorem form_iff_fieldOff (s : State) : Machine.Inv (fieldOff s) ↔ Machine.Inv s := Iff.rfl
@[simp] theorem form_barnEntryDone {s : State} (hinv : Machine.Inv s) : Machine.Inv (barnEntryDone s) := by simp [barnEntryDone, hinv, form_writeOut]
@[simp] theorem form_iff_barnWake (src idx : Nat) (s : State) : Machine.Inv (barnWake src idx s) ↔ Machine.Inv s := by simp [barnWake]
@[simp] theorem form_wakeDone (hashOk : Bool) {s : State} (hinv : Machine.Inv s) : Machine.Inv (wakeDone hashOk s) := by simp [wakeDone, hinv]

/-! Commands in order. -/

@[simp] theorem form_iff_badCode (c : Ctx) (s : State) : Machine.Inv (badCode c s) ↔ Machine.Inv s := by simp [badCode]

@[simp] theorem form_runDevice (k : Nat) (c : Ctx) {s : State} (hinv : Machine.Inv s) : Machine.Inv (runDevice k c s) := by
  unfold runDevice
  refine form_ite _ (form_checkCmd form_cmdDeviceId hinv) ?_
  refine form_ite _ (form_checkCmd form_cmdDeviceStatus hinv) ?_
  refine form_ite _ (form_checkCmd form_cmdSessionOpen hinv) ?_
  refine form_ite _ (form_checkCmd form_cmdSessionClose hinv) ?_
  refine form_ite _ (form_checkCmd form_cmdOperatorChallenge hinv) ?_
  refine form_ite _ (form_checkCmd form_cmdOperatorResponse hinv) ?_
  refine form_ite _ (form_checkCmd form_cmdStart hinv) ?_
  refine form_ite _ (form_checkCmd form_cmdStop hinv) ?_
  refine form_ite _ (form_checkCmd form_cmdBarn hinv) ?_
  refine form_ite _ (form_checkCmd form_cmdTest hinv) ?_
  refine form_ite _ (form_checkCmd form_cmdReset hinv) ?_
  refine form_ite _ (form_checkCmd form_cmdRecipeActivate hinv) ?_
  simp [hinv]

@[simp] theorem form_runTrain (k : Nat) (c : Ctx) {s : State} (hinv : Machine.Inv s) : Machine.Inv (runTrain k c s) := by
  unfold runTrain
  refine form_ite _ (form_checkCmd form_cmdTrainStatus hinv) ?_
  refine form_ite _ (form_checkCmd form_cmdRosterRead hinv) ?_
  refine form_ite _ (form_checkCmd form_cmdSourceRead hinv) ?_
  refine form_ite _ (form_checkCmd form_cmdCouplerStatus hinv) ?_
  refine form_ite _ (form_checkCmd form_cmdAdmissionRetry hinv) ?_
  refine form_ite _ (form_checkCmd form_cmdGroupChange hinv) ?_
  refine form_ite _ (form_checkCmd form_cmdGroupRead hinv) ?_
  simp [hinv]

@[simp] theorem form_runTime (k : Nat) (c : Ctx) {s : State} (hinv : Machine.Inv s) : Machine.Inv (runTime k c s) := by
  unfold runTime
  refine form_ite _ (form_checkCmd form_cmdTimeRead hinv) ?_
  refine form_ite _ (form_checkCmd form_cmdTimeStatus hinv) ?_
  simp [hinv]

@[simp] theorem form_runPlan (k : Nat) (c : Ctx) {s : State} (hinv : Machine.Inv s) : Machine.Inv (runPlan k c s) := by
  unfold runPlan
  refine form_ite _ (form_checkCmd form_cmdPlanRead hinv) ?_
  refine form_ite _ (form_checkCmd form_cmdImageDirectory hinv) ?_
  refine form_ite _ (form_checkCmd form_cmdMarkSet hinv) ?_
  refine form_ite _ (form_checkCmd form_cmdBindingSet hinv) ?_
  refine form_ite _ (form_checkCmd form_cmdCouplingRead hinv) ?_
  simp [hinv]

@[simp] theorem form_runSentence (k : Nat) (c : Ctx) {s : State} (hinv : Machine.Inv s) : Machine.Inv (runSentence k c s) := by
  unfold runSentence
  refine form_ite _ (form_checkCmd form_cmdTalkerSet hinv) ?_
  refine form_ite _ (form_checkCmd form_cmdListenerSet hinv) ?_
  refine form_ite _ (form_checkCmd form_cmdRuleReplace hinv) ?_
  refine form_ite _ (form_checkCmd form_cmdSubmit hinv) ?_
  refine form_ite _ (form_checkCmd form_cmdFetch hinv) ?_
  refine form_ite _ (form_checkCmd form_cmdDirectSend hinv) ?_
  refine form_ite _ (form_checkCmd form_cmdReplay hinv) ?_
  refine form_ite _ (form_checkCmd form_cmdSentenceCounters hinv) ?_
  simp [hinv]

@[simp] theorem form_runSerial (k : Nat) (c : Ctx) {s : State} (hinv : Machine.Inv s) : Machine.Inv (runSerial k c s) := by
  unfold runSerial
  refine form_ite _ (form_checkCmd form_cmdPortSet hinv) ?_
  refine form_ite _ (form_checkCmd form_cmdPortStatus hinv) ?_
  refine form_ite _ (form_checkCmd form_cmdRawRead hinv) ?_
  simp [hinv]

@[simp] theorem form_runField (k : Nat) (c : Ctx) {s : State} (hinv : Machine.Inv s) : Machine.Inv (runField k c s) := by
  unfold runField
  refine form_ite _ (form_checkCmd form_cmdFieldModuleSet hinv) ?_
  refine form_ite _ (form_checkCmd form_cmdFieldGroupSet hinv) ?_
  refine form_ite _ (form_checkCmd form_cmdFieldChannelSet hinv) ?_
  refine form_ite _ (form_checkCmd form_cmdFieldRuleSet hinv) ?_
  refine form_ite _ (form_checkCmd form_cmdFieldStatus hinv) ?_
  refine form_ite _ (form_checkCmd form_cmdTake hinv) ?_
  refine form_ite _ (form_checkCmd form_cmdRelease hinv) ?_
  refine form_ite _ (form_checkCmd form_cmdFieldOutput hinv) ?_
  refine form_ite _ (form_checkCmd form_cmdTimedApply hinv) ?_
  refine form_ite _ (form_checkCmd form_cmdFaultClear hinv) ?_
  refine form_ite _ (form_checkCmd form_cmdRearm hinv) ?_
  simp [hinv]

@[simp] theorem form_runSecurity (k : Nat) (c : Ctx) {s : State} (hinv : Machine.Inv s) : Machine.Inv (runSecurity k c s) := by
  unfold runSecurity
  refine form_ite _ (form_checkCmd form_cmdQuote hinv) ?_
  refine form_ite _ (form_checkCmd form_cmdCertRead hinv) ?_
  refine form_ite _ (form_checkCmd form_cmdOwnChallenge hinv) ?_
  refine form_ite _ (form_checkCmd form_cmdTakeOwnership hinv) ?_
  refine form_ite _ (form_checkCmd form_cmdEnvelope hinv) ?_
  refine form_ite _ (form_checkCmd form_cmdRotate hinv) ?_
  refine form_ite _ (form_checkCmd form_cmdRollbackCommit hinv) ?_
  refine form_ite _ (form_checkCmd form_cmdOwnerTransfer hinv) ?_
  refine form_ite _ (form_checkCmd form_cmdZeroise hinv) ?_
  refine form_ite _ (form_checkCmd form_cmdServiceChallenge hinv) ?_
  refine form_ite _ (form_checkCmd form_cmdServiceToken hinv) ?_
  simp [hinv]

@[simp] theorem form_runYard (k : Nat) (c : Ctx) {s : State} (hinv : Machine.Inv s) : Machine.Inv (runYard k c s) := by
  unfold runYard
  refine form_ite _ (form_checkCmd form_cmdYardSet hinv) ?_
  refine form_ite _ (form_checkCmd form_cmdSteerSet hinv) ?_
  refine form_ite _ (form_checkCmd form_cmdEndpointSet hinv) ?_
  refine form_ite _ (form_checkCmd form_cmdYardStatus hinv) ?_
  refine form_ite _ (form_checkCmd form_cmdSnapshot hinv) ?_
  refine form_ite _ (form_checkCmd form_cmdTrainSnapshot hinv) ?_
  refine form_ite _ (form_checkCmd form_cmdSegmentSend hinv) ?_
  refine form_ite _ (form_checkCmd form_cmdSnapshotSend hinv) ?_
  simp [hinv]

@[simp] theorem form_runStream (k : Nat) (c : Ctx) {s : State} (hinv : Machine.Inv s) : Machine.Inv (runStream k c s) := by
  unfold runStream
  refine form_ite _ (form_checkCmd form_cmdStreamStatus hinv) ?_
  refine form_ite _ (form_checkCmd form_cmdStreamSet hinv) ?_
  simp [hinv]

@[simp] theorem form_runEvents (k : Nat) (c : Ctx) {s : State} (hinv : Machine.Inv s) : Machine.Inv (runEvents k c s) := by
  unfold runEvents
  refine form_ite _ (form_checkCmd form_cmdRecorderRead hinv) ?_
  refine form_ite _ (form_checkCmd form_cmdRouteSet hinv) ?_
  refine form_ite _ (form_checkCmd form_cmdCounterClear hinv) ?_
  simp [hinv]

@[simp] theorem form_runLoft (k : Nat) (c : Ctx) {s : State} (hinv : Machine.Inv s) : Machine.Inv (runLoft k c s) := by
  unfold runLoft
  refine form_ite _ (form_checkCmd form_cmdParcelAlloc hinv) ?_
  refine form_ite _ (form_checkCmd form_cmdParcelFree hinv) ?_
  refine form_ite _ (form_checkCmd form_cmdHayloftStatus hinv) ?_
  refine form_ite _ (form_checkCmd form_cmdSlotWrite hinv) ?_
  refine form_ite _ (form_checkCmd form_cmdSlotInfo hinv) ?_
  refine form_ite _ (form_checkCmd form_cmdParcelPush hinv) ?_
  simp [hinv]

@[simp] theorem form_runTest (k : Nat) (c : Ctx) {s : State} (hinv : Machine.Inv s) : Machine.Inv (runTest k c s) := by
  unfold runTest
  refine form_ite _ (form_checkCmd form_cmdDiagRead hinv) ?_
  refine form_ite _ (form_checkCmd form_cmdLoopback hinv) ?_
  refine form_ite _ (form_checkCmd form_cmdLanePrbs hinv) ?_
  simp [hinv]

@[simp] theorem form_runCmd (c : Ctx) {s : State} (hinv : Machine.Inv s) : Machine.Inv (runCmd c s) := by
  unfold runCmd
  dsimp only
  (repeat' split) <;> simp [hinv]

@[simp] theorem form_iff_unknownCommandCode (via : Via) (s : State) : Machine.Inv (unknownCommandCode via s) ↔ Machine.Inv s := by
  unfold unknownCommandCode
  (repeat' split) <;> simp

theorem form_drain (n : Nat) {s : State} (h : Machine.Inv s) : Machine.Inv (drain n s) := by
  induction n generalizing s with
  | zero => exact h
  | succ n ih =>
    unfold drain
    split
    · exact ih (form_startSerial (fun c s => form_runCmd c) (by simpa using h))
    · exact h

@[simp] theorem form_envelopeDone (c : Ctx) (p : List Byte) (ok : Bool) {s0 : State} (hinv :
    Machine.Inv s0) : Machine.Inv (envelopeDone c p ok s0) := by
  unfold envelopeDone
  (repeat' split) <;> simp [hinv]

@[simp] theorem form_jobDone (j : Job) (ok : Bool) {s : State} (hinv : Machine.Inv s) : Machine.Inv (jobDone j ok s) := by
  unfold jobDone
  split <;> simp [hinv]

theorem form_hostRsaOperationDone (priv ok : Bool) {s : State} (hinv : Machine.Inv s) : Machine.Inv (hostRsaOperationDone priv ok s) := by
  unfold hostRsaOperationDone
  refine form_ite _ hinv ?_
  generalize (if priv then (rsaBegin s).sec.rsaPriv else s.sec.rsaPub) = jobs
  cases jobs with
  | nil => exact hinv
  | cons j r => exact form_ite _ hinv (form_drain _ (by simp [hinv]))

theorem form_flashOperationDone (ok : Bool) {s : State} (hinv : Machine.Inv s) : Machine.Inv (flashOperationDone ok s) := by
  unfold flashOperationDone
  split
  · exact hinv
  split
  · exact hinv
  split
  · exact form_drain _ (by simp [hinv])
  split
  · simp [hinv]
  · exact form_drain _ (by simp [hinv])

@[simp] theorem form_runHeld {s : State} (hinv : Machine.Inv s) : Machine.Inv (runHeld s) := form_drain _ hinv
@[simp] theorem form_iff_autoHeldStart (s : State) : Machine.Inv (autoHeldStart s) ↔ Machine.Inv s := by simp [autoHeldStart]

theorem form_bracedExit (mv low : Nat) {s : State} (hinv : Machine.Inv s) : Machine.Inv (bracedExit mv low s) := by
  unfold bracedExit
  split
  · exact hinv
  · exact form_drain _ (by simp [hinv])

@[simp] theorem form_iff_commitLost (s : State) : Machine.Inv (commitLost s) ↔ Machine.Inv s := by unfold commitLost; split <;> simp

theorem form_basicCycleBoundary {s : State} (hinv : Machine.Inv s) : Machine.Inv (basicCycleBoundary s) := by
  unfold basicCycleBoundary
  split
  · exact hinv
  · exact form_drain _ (by simp [hinv])

/-! Time. -/

theorem form_tick {s : State} (hinv : Machine.Inv s) : Machine.Inv (tick s) := by
  have hcycle : Machine.Inv (when' (laneCycle s.clk.c != laneCycle (s.clk.c + 1)) (fun s => flushEvents (flushTails s)) s) :=
    form_when _ _ (fun _ ht => form_flushEvents (form_flushTails ht)) hinv
  unfold tick
  dsimp only
  split <;> simp [hcycle]

end Sys2Proof.Laws
end

section
/-!
SUPPORT. Every step keeps the canonical form of the hayloft (R463): one case for each row of the table.
-/

namespace Sys2Proof.Laws

open Sys2Proof Sys2Proof.Machine

/-- What an outcome leaves of the hayloft's form: a next state has it. -/
def OutForm (o : Out) : Prop := ∀ t, o = .next t → Machine.Inv t

theorem outForm_next {s : State} (h : Machine.Inv s) : OutForm (.next s) := by
  rintro t ⟨⟩
  exact h

theorem outForm_withVin {mv : Nat} {f : State → State} {s : State} (h : Machine.Inv (f s)) : OutForm (withVin mv f s) := by
  unfold withVin
  split
  · rintro t ⟨⟩
  · exact outForm_next h

/-- No command breaks the form: each row's meaning has its lemma above. -/
theorem outForm_exec (i : Instr) {s : State} (h : Machine.Inv s) : OutForm (exec i s) := by
  cases i with
  | vinLogicRise => exact outForm_withVin ((form_iff_vinLogicRise _ _).2 h)
  | supplyReset => exact outForm_withVin (form_supplyReset _ _ h)
  | pinReset => exact outForm_next (form_pinReset _ h)
  | resetRelease => exact outForm_withVin (form_resetRelease _ _ _ _ _ _ h)
  | watchdogExpiry => exact outForm_next (form_watchdogExpiry h)
  | dieTemperatureSample => exact outForm_next (form_dieTemperatureSample _ h)
  | hostReset => exact outForm_next ((form_iff_hostResetPin _).2 h)
  | bracedEntry => exact outForm_withVin (form_bracedEntry _ h)
  | bracedExit => exact outForm_withVin (form_bracedExit _ _ h)
  | supplyThreshold => exact outForm_withVin ((form_iff_supplyThreshold _ _).2 h)
  | supplyReturned => exact outForm_withVin ((form_iff_supplyReturned _ _).2 h)
  | bootImageVerified => exact outForm_next (form_bootImageVerified _ _ h)
  | startupBegin => exact outForm_next (form_startupBegin _ h)
  | bypassRelease => exact outForm_next ((form_iff_bypassRelease _ _).2 h)
  | startupDone => exact outForm_next (form_startupDone _ _ h)
  | barnWake => exact outForm_next ((form_iff_barnWake _ _ _).2 h)
  | wakeDone => exact outForm_next (form_wakeDone _ h)
  | presenceChange => exact outForm_next ((form_iff_presenceChange _ _ _).2 h)
  | laneStatusChange => exact outForm_next ((form_iff_laneStatusChange _ _ _ _ _).2 h)
  | helloChunkSend => exact outForm_next ((form_iff_helloChunkSend _ _).2 h)
  | helloChunkReceive => exact outForm_next ((form_iff_helloChunkReceive _ _ _ _).2 h)
  | lineLinkTimeout => exact outForm_next ((form_iff_lineLinkTimeout _ _).2 h)
  | frameHeader => exact outForm_next ((form_iff_frameHeader _ _ _).2 h)
  | openFrameBadge => exact outForm_next ((form_iff_openFrameBadge _ _ _).2 h)
  | frameTail => exact outForm_next (form_frameTail _ _ _ _ _ _ h)
  | passBufferRelease => exact outForm_next ((form_iff_passBufferRelease _ _).2 h)
  | frameLaunch => exact outForm_next (form_frameLaunch h)
  | frameCopyLaunch => exact outForm_next ((form_iff_frameCopyLaunch _ _).2 h)
  | cyclicLaunch => exact outForm_next (form_cyclicLaunch _ h)
  | earlyFrameHoldExpiry => exact outForm_next ((form_iff_earlyFrameHoldExpiry _).2 h)
  | openEntryRelease => exact outForm_next ((form_iff_openEntryRelease _ _).2 h)
  | pairSettlement => exact outForm_next ((form_iff_pairSettlement _).2 h)
  | basicCycleBoundary => exact outForm_next (form_basicCycleBoundary h)
  | coldStartListenEnd => exact outForm_next ((form_iff_coldStartListenEnd _).2 h)
  | claimSend => exact outForm_next (form_claimSend h)
  | claimWin => exact outForm_next (form_claimWin h)
  | claimWaitTimeout => exact outForm_next ((form_iff_claimWaitTimeout _).2 h)
  | beaconSend => exact outForm_next (form_beaconSend h)
  | nlRedraw => exact outForm_next ((form_iff_nlRedraw _).2 h)
  | beaconSigned => exact outForm_next ((form_iff_beaconSigned _).2 h)
  | beaconReceive => exact outForm_next ((form_iff_beaconReceive _ _).2 h)
  | leadCertReceive => exact outForm_next ((form_iff_leadCertReceive _).2 h)
  | leadVerified => exact outForm_next ((form_iff_leadVerified _ _ _).2 h)
  | quoteSigned => exact outForm_next ((form_iff_quoteSignedStep _).2 h)
  | admCertReceive => exact outForm_next ((form_iff_admCertReceive _).2 h)
  | admQuoteReceive => exact outForm_next ((form_iff_admQuoteReceive _ _ _).2 h)
  | grantBuilt => exact outForm_next ((form_iff_grantBuilt _ _).2 h)
  | admGrantReceive => exact outForm_next ((form_iff_admGrantReceive _ _).2 h)
  | grantUnwrapped => exact outForm_next ((form_iff_grantUnwrapped _ _).2 h)
  | grantTimeout => exact outForm_next ((form_iff_grantTimeout _).2 h)
  | admDoneReceive => exact outForm_next ((form_iff_admDoneReceive _).2 h)
  | presentReceive => exact outForm_next ((form_iff_presentReceive _ _).2 h)
  | leadStatusSend => exact outForm_next (form_leadStatusSend h)
  | leadStatusReceive => exact outForm_next ((form_iff_leadStatusReceive _).2 h)
  | positionReceive => exact outForm_next ((form_iff_positionReceive _).2 h)
  | censusSend => exact outForm_next (form_censusSend h)
  | censusReceive => exact outForm_next ((form_iff_censusReceive _).2 h)
  | positionReplySend => exact outForm_next (form_positionReplySend h)
  | censusClose => exact outForm_next ((form_iff_censusClose _).2 h)
  | numberingSend => exact outForm_next (form_numberingSend h)
  | numberingReceive => exact outForm_next (form_numberingReceive h)
  | gracePeriodEnd => exact outForm_next ((form_iff_gracePeriodEnd _).2 h)
  | backupTakeover => exact outForm_next (form_backupTakeover h)
  | leadLossTimeout => exact outForm_next (form_leadLossTimeout h)
  | dissolveReceive => exact outForm_next (form_dissolveReceive h)
  | handoverSend => exact outForm_next (form_handoverSend h)
  | handoverReceive => exact outForm_next (form_handoverReceive h)
  | stateChunkReceive => exact outForm_next ((form_iff_stateChunkReceive _).2 h)
  | stateCommitReceive => exact outForm_next ((form_iff_stateCommitReceive _).2 h)
  | stateAckReceive => exact outForm_next ((form_iff_stateAckReceive _).2 h)
  | stateCopyTimeout => exact outForm_next ((form_iff_stateCopyTimeout _).2 h)
  | stateCopyRetry => exact outForm_next ((form_iff_stateCopyRetry _).2 h)
  | referenceSend => exact outForm_next (form_referenceSend h)
  | shadowSend => exact outForm_next (form_shadowSend h)
  | holdoverEntry => exact outForm_next (form_holdoverEntry h)
  | wholeSecondMark => exact outForm_next (form_wholeSecondMark h)
  | refclkFault => exact outForm_next ((form_iff_refclkFault _).2 h)
  | stampSelfCheck => exact outForm_next ((form_iff_stampSelfCheck _ _).2 h)
  | tetherChange => exact outForm_next ((form_iff_tetherChange _ _).2 h)
  | masterClaim => exact outForm_next (form_masterClaim h)
  | tetherFaultBegin => exact outForm_next ((form_iff_tetherFaultBegin _).2 h)
  | delaySend => exact outForm_next (form_delaySend h)
  | ptpMessageReceive => exact outForm_next (form_ptpMessageReceive _ _ h)
  | ptpRelay => exact outForm_next ((form_iff_ptpRelay _).2 h)
  | ebLimitCrossing => exact outForm_next ((form_iff_ebLimitCrossing _).2 h)
  | cyclicOccurrenceCheck => exact outForm_next ((form_iff_cyclicOccurrenceCheck _ _).2 h)
  | imageCopyComplete => exact outForm_next (form_imageCopyComplete _ h)
  | cycleMarkFire => exact outForm_next ((form_iff_cycleMarkFire _ _).2 h)
  | outputApplyStrobe => exact outForm_next ((form_iff_outputApplyStrobe _).2 h)
  | sentenceFramed => exact outForm_next ((form_iff_sentenceFramed _ _).2 h)
  | sentenceClassify => exact outForm_next ((form_iff_sentenceClassify _).2 h)
  | sentenceFrameUnpack => exact outForm_next ((form_iff_sentenceFrameUnpack _).2 h)
  | reseqHoldExpiry => exact outForm_next ((form_iff_reseqHoldExpiry _ _ _).2 h)
  | mergeRelease => exact outForm_next ((form_iff_mergeRelease _ _).2 h)
  | listenerEmit => exact outForm_next ((form_iff_listenerEmit _ _).2 h)
  | bulkReceive => exact outForm_next (form_bulkReceive h)
  | groupMap => exact outForm_next ((form_iff_groupMap _).2 h)
  | startEdge => exact outForm_next ((form_iff_startEdge _ _ _).2 h)
  | characterComplete => exact outForm_next ((form_iff_characterComplete _ _ _ _).2 h)
  | lineStuckTimeout => exact outForm_next ((form_iff_lineStuckTimeout _ _).2 h)
  | lineResumed => exact outForm_next ((form_iff_lineResumed _ _).2 h)
  | fifoItemTransfer => exact outForm_next (form_fifoItemTransfer _ h)
  | rxTimeoutFlush => exact outForm_next (form_rxTimeoutFlush _ h)
  | txCharacterEnd => exact outForm_next ((form_iff_txCharacterEnd _ _).2 h)
  | deTailEnd => exact outForm_next ((form_iff_deTailEnd _ _).2 h)
  | echoMuteEnd => exact outForm_next ((form_iff_echoMuteEnd _ _).2 h)
  | barrierFrameSend => exact outForm_next ((form_iff_barrierFrameSend _).2 h)
  | barrierFrameReceive => exact outForm_next ((form_iff_barrierFrameReceive _ _).2 h)
  | barrierLinkTimeout => exact outForm_next ((form_iff_barrierLinkTimeout _).2 h)
  | heartbeatConfirm => exact outForm_next ((form_iff_heartbeatConfirm _).2 h)
  | heartbeatMissing => exact outForm_next ((form_iff_heartbeatMissing _).2 h)
  | hbTimeout => exact outForm_next ((form_iff_hbTimeoutAct _).2 h)
  | inputTransitionAccept => exact outForm_next ((form_iff_inputTransitionAccept _ _).2 h)
  | edgeReportReceive => exact outForm_next ((form_iff_edgeReportReceive _).2 h)
  | currentLimitTimeout => exact outForm_next ((form_iff_currentLimitTimeout _ _ _).2 h)
  | shortRetry => exact outForm_next ((form_iff_shortRetry _ _).2 h)
  | retryCountReset => exact outForm_next ((form_iff_retryCountReset _ _).2 h)
  | overloadShed => exact outForm_next ((form_iff_overloadShed _ _ _).2 h)
  | readbackFault => exact outForm_next ((form_iff_readbackFault _ _).2 h)
  | readbackFaultEnd => exact outForm_next ((form_iff_readbackFaultEnd _ _).2 h)
  | openLoadTestStart => exact outForm_next ((form_iff_openLoadTestStart _ _).2 h)
  | openLoadTestEnd => exact outForm_next ((form_iff_openLoadTestEnd _ _ _).2 h)
  | groupSupplyCrossing => exact outForm_next ((form_iff_groupSupplyCrossing _ _ _).2 h)
  | groupAutoRestore => exact outForm_next ((form_iff_groupAutoRestore _ _).2 h)
  | fieldDieTemp => exact outForm_next ((form_iff_fieldDieTemp _ _).2 h)
  | leaseExpiry => exact outForm_next ((form_iff_leaseExpiry _ _).2 h)
  | timedApplyDue => exact outForm_next ((form_iff_timedApplyDue _).2 h)
  | entropyHealthChange => exact outForm_next ((form_iff_entropyHealthChange _ _).2 h)
  | keyLifeExpiry => exact outForm_next ((form_iff_keyLifeExpiry _).2 h)
  | rekeyBlockWrapped => exact outForm_next ((form_iff_rekeyBlockWrapped _).2 h)
  | rekey => exact outForm_next ((form_iff_rekey _).2 h)
  | rekeyUnwrapped => exact outForm_next ((form_iff_rekeyUnwrapped _).2 h)
  | rekeyAck => exact outForm_next ((form_iff_rekeyAck _).2 h)
  | rekeyResendTimeout => exact outForm_next ((form_iff_rekeyResendTimeout _ _).2 h)
  | keySwitch => exact outForm_next ((form_iff_keySwitch _).2 h)
  | oldKeyErase => exact outForm_next (form_oldKeyErase h)
  | challengeLockoutEnd => exact outForm_next ((form_iff_challengeLockoutEnd _).2 h)
  | macsecSakInstall => exact outForm_next ((form_iff_macsecSakInstall _).2 h)
  | yardLinkChange => exact outForm_next ((form_iff_yardLinkChange _ _).2 h)
  | yardModulePinChange => exact outForm_next ((form_iff_yardModulePinChange _ _ _).2 h)
  | yardFrameStart => exact outForm_next ((form_iff_yardFrameStart _ _ _).2 h)
  | yardFrameTail => exact outForm_next (form_yardFrameTail _ _ _ h)
  | yardFrameTransmit => exact outForm_next ((form_iff_yardFrameTransmit _).2 h)
  | yardIpService => exact outForm_next (form_yardIpService h)
  | datagramSend => exact outForm_next ((form_iff_datagramSend _ _).2 h)
  | datagramReceive => exact outForm_next (form_datagramReceive _ h)
  | datagramPairForget => exact outForm_next ((form_iff_datagramPairForget _ _ _ _).2 h)
  | yardSessionDatagram => exact outForm_next (form_yardSessionDatagram h)
  | yardSessionTimeout => exact outForm_next ((form_iff_yardSessionTimeout _ _).2 h)
  | snapshotReq => exact outForm_next ((form_iff_snapshotReq _).2 h)
  | snapshotFreeze => exact outForm_next ((form_iff_snapshotFreeze _).2 h)
  | status => exact outForm_next (by simp [h])
  | unknownOpcode => exact outForm_next (form_unknownOpcode _ _ h)
  | hostTransactionAbort => exact outForm_next ((form_iff_hostTransactionAbort _).2 h)
  | registerWrite => exact outForm_next (form_hostWord (fun _ => form_hostWrite _ _) h)
  | inMsgWrite => exact outForm_next (form_hostWord (fun _ => (form_iff_inMsgWord _ _ _ _).2) h)
  | inCommit => exact outForm_next (form_hostWord (fun _ => (form_iff_inCommitWord _ _).2) h)
  | outCommitRead => exact outForm_next (form_rcRead h)
  | outboundHeldDeliver => exact outForm_next ((form_iff_outboundHeldDeliver _ _).2 h)
  | dropCountRead => exact outForm_next (form_rcRead h)
  | lockRead => exact outForm_next (form_lockRead _ _ _ _ h)
  | lockWrite => exact outForm_next (form_ite _ (form_hostWord (fun _ => (form_iff_lockWrite _ _ _ _).2) h) (form_ite _ ((form_iff_lockWrite _ _ _ _).2 h) h))
  | hostBellClear => exact outForm_next (form_hostWord (fun _ => (form_iff_hostBellClear _ _).2) h)
  | fwBellSet => exact outForm_next (form_hostWord (fun _ => (form_iff_fwBellSet _ _).2) h)
  | fwBellTake => exact outForm_next ((form_iff_fwBellTake _ _).2 h)
  | eventPendClear => exact outForm_next (form_hostWord (fun _ => (form_iff_eventPendClear _ _ _).2) h)
  | busErrClr => exact outForm_next (form_hostWord (fun _ => (form_iff_busErrClr _ _).2) h)
  | berrClear => exact outForm_next (form_hostWord (fun _ => (form_iff_berrClear _ _).2) h)
  | overflowRead => exact outForm_next (form_rcRead h)
  | softRst => exact outForm_next (form_hostWord (fun _ => (form_iff_softRst _ _).2) h)
  | hayloftWindowAccess => exact outForm_next (form_hostWord (fun _ => form_windowAccess _ _) h)
  | remoteRegisterRead => exact outForm_next (form_remoteRegisterRead _ _ _ _ h)
  | proxyInCommit => exact outForm_next (form_hostWord (fun _ => (form_iff_proxyCommit _ _ _).2) h)
  | proxyOutCommitRead => exact outForm_next (form_rcRead h)
  | msgCommit => exact outForm_next ((form_iff_msgCommit _).2 h)
  | msgCommitReorderExpiry => exact outForm_next ((form_iff_msgCommitReorderExpiry _).2 h)
  | msgAccept => exact outForm_next ((form_iff_msgAccept _).2 h)
  | msgStatus => exact outForm_next ((form_iff_msgStatus _).2 h)
  | msgReply => exact outForm_next ((form_iff_msgReply _).2 h)
  | proxyNoAnswer => exact outForm_next ((form_iff_proxyNoAnswer _ _ _).2 h)
  | readReq => exact outForm_next ((form_iff_readReq _).2 h)
  | readData => exact outForm_next ((form_iff_readData _).2 h)
  | readStatus => exact outForm_next ((form_iff_readStatus _).2 h)
  | remoteReadTimeout => exact outForm_next ((form_iff_remoteReadTimeout _).2 h)
  | remoteReadDataDiscard => exact outForm_next ((form_iff_remoteReadDataDiscard _).2 h)
  | bulkStatus => exact outForm_next ((form_iff_bulkStatus _).2 h)
  | parcelTransferTimeout => exact outForm_next ((form_iff_parcelTransferTimeout _ _).2 h)
  | streamClockChange => exact outForm_next ((form_iff_streamClockChange _ _ _).2 h)
  | streamAligned => exact outForm_next ((form_iff_streamAligned _ _).2 h)
  | streamRestart => exact outForm_next ((form_iff_streamRestart _ _).2 h)
  | streamFramingError => exact outForm_next ((form_iff_streamFramingError _).2 h)
  | creditTransition => exact outForm_next ((form_iff_creditTransition _).2 h)
  | creditTimeout => exact outForm_next ((form_iff_creditTimeout _).2 h)
  | streamFrameSend => exact outForm_next ((form_iff_streamFrameSend _).2 h)
  | streamSubmit => exact outForm_next (form_streamSubmit _ _ _ h)
  | streamHostIn => exact outForm_next (form_streamHostIn _ _ _ h)
  | streamYardIn => exact outForm_next (form_streamYardIn _ _ _ h)
  | dmaWrite => exact outForm_next (form_dmaWrite _ _ _ h)
  | dmaRead => exact outForm_next (form_dmaRead _ _ _ h)
  | streamMessageIn => exact outForm_next (form_streamMessageIn _ _ _ h)
  | streamSessionTimeout => exact outForm_next ((form_iff_streamSessionTimeout _).2 h)
  | eventStreamFrameClose => exact outForm_next ((form_iff_eventStreamFrameClose _).2 h)
  | eventFrameReceive => exact outForm_next (form_eventFrameReceive h)
  | recorderTake => exact outForm_next (form_recorderTake h)
  | hayloftWriteBack => exact outForm_next ((form_iff_hayloftWriteBack _).2 h)
  | scrubRead => exact outForm_next ((form_iff_scrubRead _ _).2 h)
  | scrubOverdue => exact outForm_next ((form_iff_scrubOverdue _).2 h)
  | flashOperationDone => exact outForm_next (form_flashOperationDone _ h)
  | reserveSectorErase => exact outForm_next ((form_iff_reserveSectorErase _).2 h)
  | unknownCommandCode => exact outForm_next ((form_iff_unknownCommandCode _ _).2 h)
  | deviceId => exact outForm_next (form_firmware form_cmdDeviceId h)
  | deviceStatus => exact outForm_next (form_firmware form_cmdDeviceStatus h)
  | sessionOpen => exact outForm_next ((form_iff_openCleanup _ _).2 (form_firmware form_cmdSessionOpen h))
  | sessionClose => exact outForm_next (form_firmware form_cmdSessionClose h)
  | operatorChallenge => exact outForm_next (form_ite _ (form_firmware form_cmdOperatorChallenge h) h)
  | operatorResponse => exact outForm_next (form_firmware form_cmdOperatorResponse h)
  | start => exact outForm_next (form_firmware form_cmdStart h)
  | stop => exact outForm_next (form_firmware form_cmdStop h)
  | barn => exact outForm_next (form_firmware form_cmdBarn h)
  | test => exact outForm_next (form_firmware form_cmdTest h)
  | reset => exact outForm_next (form_firmware form_cmdReset h)
  | recipeActivate => exact outForm_next (form_firmware form_cmdRecipeActivate h)
  | trainStatus => exact outForm_next (form_firmware form_cmdTrainStatus h)
  | rosterRead => exact outForm_next (form_firmware form_cmdRosterRead h)
  | sourceRead => exact outForm_next (form_firmware form_cmdSourceRead h)
  | couplerStatus => exact outForm_next (form_firmware form_cmdCouplerStatus h)
  | admissionRetry => exact outForm_next (form_firmware form_cmdAdmissionRetry h)
  | groupChange => exact outForm_next (form_firmware form_cmdGroupChange h)
  | groupRead => exact outForm_next (form_firmware form_cmdGroupRead h)
  | timeRead => exact outForm_next (form_firmware form_cmdTimeRead h)
  | timeStatus => exact outForm_next (form_firmware form_cmdTimeStatus h)
  | planRead => exact outForm_next (form_firmware form_cmdPlanRead h)
  | imageDirectory => exact outForm_next (form_firmware form_cmdImageDirectory h)
  | markSet => exact outForm_next (form_firmware form_cmdMarkSet h)
  | bindingSet => exact outForm_next (form_firmware form_cmdBindingSet h)
  | couplingRead => exact outForm_next (form_firmware form_cmdCouplingRead h)
  | talkerSet => exact outForm_next (form_firmware form_cmdTalkerSet h)
  | listenerSet => exact outForm_next (form_firmware form_cmdListenerSet h)
  | ruleReplace => exact outForm_next (form_firmware form_cmdRuleReplace h)
  | submit => exact outForm_next (form_firmware form_cmdSubmit h)
  | fetch => exact outForm_next (form_firmware form_cmdFetch h)
  | directSend => exact outForm_next (form_firmware form_cmdDirectSend h)
  | replay => exact outForm_next (form_firmware form_cmdReplay h)
  | sentenceCounters => exact outForm_next (form_firmware form_cmdSentenceCounters h)
  | portSet => exact outForm_next (form_firmware form_cmdPortSet h)
  | portStatus => exact outForm_next (form_firmware form_cmdPortStatus h)
  | rawRead => exact outForm_next (form_firmware form_cmdRawRead h)
  | fieldModuleSet => exact outForm_next (form_firmware form_cmdFieldModuleSet h)
  | fieldGroupSet => exact outForm_next (form_firmware form_cmdFieldGroupSet h)
  | fieldChannelSet => exact outForm_next (form_firmware form_cmdFieldChannelSet h)
  | fieldRuleSet => exact outForm_next (form_firmware form_cmdFieldRuleSet h)
  | fieldStatus => exact outForm_next (form_firmware form_cmdFieldStatus h)
  | take => exact outForm_next (form_firmware form_cmdTake h)
  | release => exact outForm_next (form_firmware form_cmdRelease h)
  | fieldOutput => exact outForm_next (form_firmware form_cmdFieldOutput h)
  | timedApply => exact outForm_next (form_firmware form_cmdTimedApply h)
  | faultClear => exact outForm_next (form_firmware form_cmdFaultClear h)
  | rearm => exact outForm_next (form_firmware form_cmdRearm h)
  | quote => exact outForm_next (form_firmware form_cmdQuote h)
  | certRead => exact outForm_next (form_firmware form_cmdCertRead h)
  | ownChallenge => exact outForm_next (form_ite _ (form_firmware form_cmdOwnChallenge h) h)
  | takeOwnership => exact outForm_next (form_firmware form_cmdTakeOwnership h)
  | envelope => exact outForm_next (form_firmware form_cmdEnvelope h)
  | rotate => exact outForm_next (form_firmware form_cmdRotate h)
  | rollbackCommit => exact outForm_next (form_firmware form_cmdRollbackCommit h)
  | ownerTransfer => exact outForm_next (form_firmware form_cmdOwnerTransfer h)
  | zeroise => exact outForm_next (form_firmware form_cmdZeroise h)
  | serviceChallenge => exact outForm_next (form_ite _ (form_firmware form_cmdServiceChallenge h) h)
  | serviceToken => exact outForm_next (form_firmware form_cmdServiceToken h)
  | yardSet => exact outForm_next (form_firmware form_cmdYardSet h)
  | steerSet => exact outForm_next (form_firmware form_cmdSteerSet h)
  | endpointSet => exact outForm_next (form_firmware form_cmdEndpointSet h)
  | yardStatus => exact outForm_next (form_firmware form_cmdYardStatus h)
  | snapshot => exact outForm_next (form_firmware form_cmdSnapshot h)
  | trainSnapshot => exact outForm_next (form_firmware form_cmdTrainSnapshot h)
  | segmentSend => exact outForm_next (form_firmware form_cmdSegmentSend h)
  | snapshotSend => exact outForm_next (form_firmware form_cmdSnapshotSend h)
  | streamStatus => exact outForm_next (form_firmware form_cmdStreamStatus h)
  | streamSet => exact outForm_next (form_firmware form_cmdStreamSet h)
  | recorderRead => exact outForm_next (form_firmware form_cmdRecorderRead h)
  | routeSet => exact outForm_next (form_firmware form_cmdRouteSet h)
  | counterClear => exact outForm_next (form_firmware form_cmdCounterClear h)
  | parcelAlloc => exact outForm_next (form_firmware form_cmdParcelAlloc h)
  | parcelFree => exact outForm_next (form_firmware form_cmdParcelFree h)
  | hayloftStatus => exact outForm_next (form_firmware form_cmdHayloftStatus h)
  | slotWrite => exact outForm_next (form_firmware form_cmdSlotWrite h)
  | slotInfo => exact outForm_next (form_firmware form_cmdSlotInfo h)
  | parcelPush => exact outForm_next (form_firmware form_cmdParcelPush h)
  | diagRead => exact outForm_next (form_firmware form_cmdDiagRead h)
  | loopback => exact outForm_next (form_firmware form_cmdLoopback h)
  | lanePrbs => exact outForm_next (form_firmware form_cmdLanePrbs h)
  | hostResetRelease => exact outForm_next (form_onSys _ h)
  | ownPresentRelease => exact outForm_next ((form_iff_ownPresentRelease _).2 h)
  | inputLevelChange => exact outForm_next ((form_iff_inputLevelChange _ _ _).2 h)
  | idleGapSentenceEnd => exact outForm_next ((form_iff_idleGapSentenceEnd _ _).2 h)
  | mkaPeerLost => exact outForm_next ((form_iff_mkaPeerLost _).2 h)
  | ptpServoLockLoss => exact outForm_next ((form_iff_ptpServoLockLoss _).2 h)
  | streamFrameEnd => exact outForm_next ((form_iff_streamFrameEnd _).2 h)
  | hostRsaOperationDone => exact outForm_next (form_hostRsaOperationDone _ _ h)
  | barnEntryDone => exact outForm_next (form_barnEntryDone h)

/-- Settles O58: the command at the front keeps the form by its row's lemma, and the nanosecond of an empty queue by that of the tick. -/
theorem hayloftFormKept : Obligations.HayloftFormKept := by
  unfold Obligations.HayloftFormKept
  intro s t h hstep
  unfold step at hstep
  split at hstep
  · cases hstep
    exact form_tick h
  · next c r hpending => exact outForm_exec c (s := { s with pending := r }) h t hstep

end Sys2Proof.Laws
end

section
/-!
Which rows end in a fault: those that bring VIN_LOGIC above its rating, and no other (R493, R494).
-/

namespace Sys2Proof.Laws

open Sys2Proof Sys2Proof.Machine

theorem withVin_next {mv : Nat} (h : mv ≤ 3800) (f : State → State) (s : State) : withVin mv f s = .next (f s) := if_neg (Nat.not_lt.2 h)

theorem withVin_fault {mv : Nat} (h : 3800 < mv) (f : State → State) (s : State) : withVin mv f s = .fault .outsideRatings := if_pos h

/-- The rows that bring a level of VIN_LOGIC, which is `mv`. -/
def BringsVin (i : Instr) (mv : Nat) : Prop :=
  i = .supplyThreshold mv ∨ i = .supplyReturned mv ∨ i = .vinLogicRise mv ∨ i = .bracedEntry mv ∨ (∃ low, i = .bracedExit mv low)
    ∨ (∃ torn, i = .supplyReset mv torn) ∨ (∃ r o a b g, i = .resetRelease mv r o a b g)

/-- An outcome of a row: a next state, or the fault of a level above the rating. -/
def OutRated (i : Instr) (o : Out) : Prop :=
  (∃ t, o = .next t) ∨ (o = .fault .outsideRatings ∧ ∃ mv, 3800 < mv ∧ BringsVin i mv)

theorem outRated_next (i : Instr) (t : State) : OutRated i (.next t) := .inl ⟨t, rfl⟩

theorem outRated_withVin {i : Instr} {mv : Nat} (f : State → State) (s : State) (h : BringsVin i mv) : OutRated i (withVin mv f s) := by
  rcases Nat.lt_or_ge 3800 mv with hover | hrated
  · exact .inr ⟨withVin_fault hover f s, mv, hover, h⟩
  · exact .inl ⟨f s, withVin_next hrated f s⟩

/-- The rows without a level of VIN_LOGIC go to a next state by their meaning; the seven with one depend on the level. -/
theorem outRated_exec (i : Instr) (s : State) : OutRated i (exec i s) := by
  cases i with
  | supplyThreshold mv => exact outRated_withVin _ s (.inl rfl)
  | supplyReturned mv => exact outRated_withVin _ s (.inr (.inl rfl))
  | vinLogicRise mv => exact outRated_withVin _ s (.inr (.inr (.inl rfl)))
  | bracedEntry mv => exact outRated_withVin _ s (.inr (.inr (.inr (.inl rfl))))
  | bracedExit mv low => exact outRated_withVin _ s (.inr (.inr (.inr (.inr (.inl ⟨low, rfl⟩)))))
  | supplyReset mv torn => exact outRated_withVin _ s (.inr (.inr (.inr (.inr (.inr (.inl ⟨torn, rfl⟩))))))
  | resetRelease mv r o a b g => exact outRated_withVin _ s (.inr (.inr (.inr (.inr (.inr (.inr ⟨r, o, a, b, g, rfl⟩))))))
  | _ => exact outRated_next _ _

/-- Settles O3: the seven rows that bring a level fault above the rating, and every row's meaning is a next state otherwise. -/
theorem onlyRatingsStop : Obligations.OnlyRatingsStop := by
  unfold Obligations.OnlyRatingsStop
  refine ⟨fun mv s h => ?_, outRated_exec⟩
  exact ⟨withVin_fault h _ s, withVin_fault h _ s, withVin_fault h _ s, fun _ => withVin_fault h _ s, fun _ _ _ _ _ => withVin_fault h _ s,
    withVin_fault h _ s, fun _ => withVin_fault h _ s⟩

end Sys2Proof.Laws
end

section
/-!
SUPPORT. Two updates of one part of the state are one.
-/

namespace Sys2Proof.Laws

open Sys2Proof Sys2Proof.Machine

theorem onBrg_onBrg (s : State) (f g : BridgeSt → BridgeSt) : (s.onBrg f).onBrg g = s.onBrg fun x => g (f x) := rfl
theorem onClk_onClk (s : State) (f g : Clock → Clock) : (s.onClk f).onClk g = s.onClk fun x => g (f x) := rfl
theorem onCmd_onCmd (s : State) (f g : CmdSt → CmdSt) : (s.onCmd f).onCmd g = s.onCmd fun x => g (f x) := rfl
theorem onCtr_onCtr (s : State) (f g : Ctrs → Ctrs) : (s.onCtr f).onCtr g = s.onCtr fun x => g (f x) := rfl
theorem onEnds_onEnds (s : State) (f g : Ends → Ends) : (s.onEnds f).onEnds g = s.onEnds fun x => g (f x) := rfl
theorem onEv_onEv (s : State) (f g : EvSt → EvSt) : (s.onEv f).onEv g = s.onEv fun x => g (f x) := rfl
theorem onFlash_onFlash (s : State) (f g : FlashSt → FlashSt) : (s.onFlash f).onFlash g = s.onFlash fun x => g (f x) := rfl
theorem onFld_onFld (s : State) (f g : FieldSt → FieldSt) : (s.onFld f).onFld g = s.onFld fun x => g (f x) := rfl
theorem onHost_onHost (s : State) (f g : HostSt → HostSt) : (s.onHost f).onHost g = s.onHost fun x => g (f x) := rfl
theorem onInaug_onInaug (s : State) (f g : Inaug → Inaug) : (s.onInaug f).onInaug g = s.onInaug fun x => g (f x) := rfl
theorem onLane_onLane (s : State) (f g : Lane → Lane) : (s.onLane f).onLane g = s.onLane fun x => g (f x) := rfl
theorem onLdr_onLdr (s : State) (f g : LeadSt → LeadSt) : (s.onLdr f).onLdr g = s.onLdr fun x => g (f x) := rfl
theorem onLoft_onLoft (s : State) (f g : LoftSt → LoftSt) : (s.onLoft f).onLoft g = s.onLoft fun x => g (f x) := rfl
theorem onPlan_onPlan (s : State) (f g : PlanSt → PlanSt) : (s.onPlan f).onPlan g = s.onPlan fun x => g (f x) := rfl
theorem onPorts_onPorts (s : State) (f g : List PortSt → List PortSt) : (s.onPorts f).onPorts g = s.onPorts fun x => g (f x) := rfl
theorem onRcp_onRcp (s : State) (f g : Recipe → Recipe) : (s.onRcp f).onRcp g = s.onRcp fun x => g (f x) := rfl
theorem onRef_onRef (s : State) (f g : RefSt → RefSt) : (s.onRef f).onRef g = s.onRef fun x => g (f x) := rfl
theorem onSec_onSec (s : State) (f g : Sec → Sec) : (s.onSec f).onSec g = s.onSec fun x => g (f x) := rfl
theorem onSent_onSent (s : State) (f g : Sent → Sent) : (s.onSent f).onSent g = s.onSent fun x => g (f x) := rfl
theorem onSnap_onSnap (s : State) (f g : SnapSt → SnapSt) : (s.onSnap f).onSnap g = s.onSnap fun x => g (f x) := rfl
theorem onStrm_onStrm (s : State) (f g : StreamSt → StreamSt) : (s.onStrm f).onStrm g = s.onStrm fun x => g (f x) := rfl
theorem onSys_onSys (s : State) (f g : Sys → Sys) : (s.onSys f).onSys g = s.onSys fun x => g (f x) := rfl
theorem onTeth_onTeth (s : State) (f g : TethSt → TethSt) : (s.onTeth f).onTeth g = s.onTeth fun x => g (f x) := rfl
theorem onYard_onYard (s : State) (f g : YardSt → YardSt) : (s.onYard f).onYard g = s.onYard fun x => g (f x) := rfl

end Sys2Proof.Laws
end

section
/-!
The bytes of the hayloft that a write and a read change: a report of a damaged codeword waits as an event and touches none of them.
-/

namespace Sys2Proof.Laws

open Sys2Proof Sys2Proof.Machine

@[simp] theorem noteStamp_loft (s : State) : (noteStamp s).loft = s.loft := by
  unfold noteStamp
  split <;> rfl

@[simp] theorem raise2_loft (src data data2 : Nat) (s : State) : (raise2 src data data2 s).loft = s.loft := by
  unfold raise2 raiseCode raiseAt
  split
  · rfl
  · rfl
  · rfl
  · rfl
  · exact noteStamp_loft s

@[simp] theorem noteCorrected_loft (cw : Nat) (s : State) : (noteCorrected cw s).loft = s.loft := by
  simp only [noteCorrected, apply_ite State.loft, raise2_loft]
  exact ite_id _ 

@[simp] theorem noteUncorrectable_mem (cw who : Nat) (s : State) : (noteUncorrectable cw who s).loft.mem = s.loft.mem := by
  unfold noteUncorrectable
  dsimp only
  rw [raise2_loft]
  rfl

theorem each_mem {α : Type} (l : List α) (f : α → State → State) (h : ∀ a s, (f a s).loft.mem = s.loft.mem) (s : State) :
    (each l f s).loft.mem = s.loft.mem := by
  unfold each
  induction l generalizing s with
  | nil => rfl
  | cons a l ih => rw [List.foldl_cons, ih, h]

/-- The bytes written are all that changes: the reports beside them only queue events. -/
@[simp] theorem loftWrite_mem (a : Nat) (p : List Byte) (who : Nat) (s : State) :
    (loftWrite a p who s).loft.mem = memWrite s.loft.mem a p := by
  unfold loftWrite
  rw [each_mem _ _ (fun cw t => noteUncorrectable_mem cw (who + 512) (cntLoft 12 t)),
    each_mem _ _ (fun cw t => congrArg LoftSt.mem (noteCorrected_loft cw t))]
  rfl

@[simp] theorem loftCheck_mem (a n who : Nat) (s : State) : (loftCheck a n who s).2.loft.mem = s.loft.mem := by
  unfold loftCheck
  suffices keep : ∀ (l : List Nat) (x : Bool × State), (l.foldl (fun x cw =>
      match (x.2.loft.damage.find? fun d => d.1 == cw) with
      | none => x
      | some (_, .one) =>
        (x.1, noteCorrected cw (x.2.onLoft fun l => { l with writeBack := if l.writeBack.contains cw then l.writeBack else l.writeBack ++ [cw] }))
      | some (_, .two) => (false, noteUncorrectable cw who x.2)
      | some (_, .poisoned) => (false, noteUncorrectable cw (who + 512) x.2)) x).2.loft.mem = x.2.loft.mem from keep _ (true, s)
  intro l
  induction l with
  | nil => exact fun _ => rfl
  | cons cw l ih =>
    intro x
    rw [List.foldl_cons, ih]
    split <;> simp

/-- With no damaged codeword every codeword read is sound. -/
theorem loftCheck_undamaged (a n who : Nat) {s : State} (h : s.loft.damage = []) : loftCheck a n who s = (true, s) := by
  unfold loftCheck
  generalize codewords a n = cws
  induction cws with
  | nil => rfl
  | cons cw l ih =>
    rw [List.foldl_cons]
    simpa [h] using ih

theorem memGet_loftWrite_other {a b : Nat} {p : List Byte} (who : Nat) (s : State) (h : b < a ∨ a + p.length ≤ b) :
    memGet (loftWrite a p who s).loft.mem b = memGet s.loft.mem b := by
  rw [loftWrite_mem, memGet_write_other _ _ h]

theorem loftBytes_loftWrite (a : Nat) (p : List Byte) (who : Nat) {s : State} (h : Machine.Inv s) :
    loftBytes a p.length (loftWrite a p who s) = p := by
  unfold loftBytes
  rw [loftWrite_mem, memRead_write p a h]

/-- Settles O59: a write changes the bytes it names and a read none, whatever damage they report. -/
theorem hayloftWrite : Obligations.HayloftWrite := by
  unfold Obligations.HayloftWrite
  refine ⟨?_, ?_, ?_, ?_, ?_, ?_⟩
  · exact fun a p who s b _ _ hb => memGet_loftWrite_other who s hb
  · exact fun a p who s hinv _ _ => loftBytes_loftWrite a p who hinv
  · exact fun a p who s b _ hb => memGet_loftWrite_other who s hb
  · exact fun a p who s hinv _ => loftBytes_loftWrite a p who hinv
  · exact fun a n who s b _ _ => by rw [loftCheck_mem]
  · exact fun a n who s h => loftCheck_undamaged a n who h

end Sys2Proof.Laws
end

section
/-!
The decision on a keyed copy at header time (R58): orders 1 to 5, and order 6 for a source with an entry, without one, and without room
for one (R70 to R72).
-/

namespace Sys2Proof.Laws

open Sys2Proof Sys2Proof.Machine

/-- The copy at an end is the frame that arrived, with a decision. -/
def DecidedAs (endB : Bool) (r : RxFrame) (d : Decision) (t : State) : Prop :=
  ∃ x, (endOf t endB).rx = some x ∧ x.hdr = r.hdr ∧ x.stamp = r.stamp ∧ x.tl = r.tl ∧ x.dec = d

theorem decidedAs_of_egress {endB : Bool} {r : RxFrame} {d : Decision} {s t : State} (h : egress t = egress s) :
    DecidedAs endB r d t ↔ DecidedAs endB r d s := by
  simp only [DecidedAs, endOf_of_egress h]

@[simp] theorem decidedAs_cntEnd (endB e : Bool) (i : Nat) (r : RxFrame) (d : Decision) (s : State) :
    DecidedAs endB r d (cntEnd e i s) ↔ DecidedAs endB r d s :=
  decidedAs_of_egress (egress_cntEnd e i s)

@[simp] theorem decidedAs_onEnd_other (endB : Bool) (f : CplEnd → CplEnd) (r : RxFrame) (d : Decision) (s : State) :
    DecidedAs endB r d (onEnd (!endB) f s) ↔ DecidedAs endB r d s := by
  simp only [DecidedAs, endOf_onEnd, show ¬ endB = !endB from by simp, if_false]

theorem decidedAs_modRx {endB : Bool} {x : RxFrame} {s : State} (hrx : (endOf s endB).rx = some x) (d : Decision) :
    DecidedAs endB x d (modRx endB (fun x => { x with dec := d }) s) :=
  ⟨{ x with dec := d }, by rw [modRx_rx, hrx]; rfl, rfl, rfl, rfl, rfl⟩

/-- A forwarded copy stays what arrived, whatever room the onward end has. -/
theorem startForward_decidedAs {endB : Bool} {r : RxFrame} {s : State} (hrx : (endOf s endB).rx = some r) :
    DecidedAs endB r .forwarded (startForward endB s) := by
  have held : ∀ w, DecidedAs endB r .forwarded (modRx endB (fun x => { x with dec := .forwarded, inBuf := w }) (tookFree s)) := fun w =>
    ⟨{ r with dec := .forwarded, inBuf := w }, by rw [modRx_rx, show (endOf (tookFree s) endB).rx = some r from hrx]; rfl, rfl, rfl, rfl, rfl⟩
  simp only [startForward, hrx]
  split <;> simp [held]

/-- Order 6 on what the source table holds: a source with no entry has nothing marked. -/
def mapDecision (s : State) (isOpen : Bool) (id : Nat) (h : Hdr) : Decision :=
  match srcFind s isOpen id with
  | none => .forwarded
  | some e => rowDec (fwdDecide (dirOf e h.dirY) h.seq)

theorem forwardByMap_decidedAs {endB o : Bool} {id : Nat} {r : RxFrame} {s : State} (hrx : (endOf s endB).rx = some r)
    (hfull : r.full = false) : DecidedAs endB r (mapDecision s o id r.hdr) (forwardByMap endB o id s) := by
  cases hfind : srcFind s o id with
  | none =>
    simp only [forwardByMap, hrx, hfull, Bool.false_eq_true, if_false, mapDecision, hfind]
    exact startForward_decidedAs hrx
  | some e =>
    cases hrow : fwdDecide (dirOf e r.hdr.dirY) r.hdr.seq <;>
      simp only [forwardByMap, hrx, hfull, Bool.false_eq_true, if_false, mapDecision, hfind, hrow, rowDec]
    case stale => exact (decidedAs_cntEnd _ _ _ _ _ _).2 (decidedAs_modRx hrx _)
    case repeated => exact (decidedAs_cntEnd _ _ _ _ _ _).2 (decidedAs_modRx hrx _)
    case mark => exact startForward_decidedAs hrx
    case unmarked => exact startForward_decidedAs ((congrArg CplEnd.rx (endOf_of_egress (egress_cntEnd _ _ _) _)).trans hrx)

/-! The source's entry (R70, R71). -/

/-- A source that has no entry gets an empty one where there is room. -/
theorem srcFind_newEntry {o : Bool} {id key now : Nat} {s : State} (h : srcFind s o id = none) :
    srcFind (s.onLane fun l => { l with src := l.src ++ [newEntry o id key now] }) o id = some (newEntry o id key now) := by
  have hnone : s.lane.src.find? (fun e => e.open_ == o && e.id == id) = none := h
  simp [srcFind, List.find?_append, hnone, newEntry]

theorem dirOf_newEntry (o : Bool) (id key now : Nat) (y : Bool) : dirOf (newEntry o id key now) y = .empty := by cases y <;> rfl

/-- A table with no room leaves the copy without an entry, and says so. -/
theorem laneHealth_rx (endB : Bool) (c : Nat) (y : Bool) (a n : Nat) (s : State) :
    (endOf (laneHealth c y a n s) endB).rx = (endOf s endB).rx :=
  congrArg CplEnd.rx (endOf_of_egress (egress_laneHealth c y a n s) endB)

/-- Order 6, the entry looked up or made first. -/
theorem entryFor_forwardByMap_decidedAs {endB o : Bool} {id : Nat} {r : RxFrame} {s : State} (hrx : (endOf s endB).rx = some r)
    (hfull : r.full = false) : DecidedAs endB r (mapDecision s o id r.hdr) (forwardByMap endB o id (entryFor endB o id s)) := by
  unfold entryFor
  simp only [hrx]
  split
  · next e hfind =>
    have hseen : srcFind (modSrc o id (fun e => { e with seen := s.clk.c }) s) o id = some { e with seen := s.clk.c } :=
      (srcFind_seenAgain o id s).trans (congrArg _ hfind)
    have h := forwardByMap_decidedAs (endB := endB) (o := o) (id := id)
      (s := modSrc o id (fun e => { e with seen := s.clk.c }) s) hrx hfull
    simp only [mapDecision, hseen] at h
    simp only [mapDecision, hfind]
    exact h
  · next hfind =>
    split
    · have h := forwardByMap_decidedAs (endB := endB) (o := o) (id := id)
        (s := s.onLane fun l => { l with src := l.src ++ [newEntry o id r.hdr.key s.clk.c] }) hrx hfull
      simp only [mapDecision, srcFind_newEntry hfind, dirOf_newEntry] at h
      simp only [mapDecision, hfind]
      exact h
    · have hrxFull : (endOf (laneHealth 3 r.hdr.dirY 0 1 (cntEnd endB 18 (modRx endB (fun x => { x with full := true }) s))) endB).rx
          = some { r with full := true } := by
        rw [laneHealth_rx, endOf_of_egress (egress_cntEnd _ _ _), modRx_rx, hrx]
        rfl
      simp only [mapDecision, hfind, forwardByMap, hrxFull, if_true]
      obtain ⟨x, hx, hhdr, hstamp, htl, hdec⟩ := startForward_decidedAs hrxFull
      exact ⟨x, hx, hhdr, hstamp, htl, hdec⟩

/-- The entry is looked up or made without touching what was decided. -/
theorem entryFor_decidedAs {endB o : Bool} {id : Nat} {r : RxFrame} {d : Decision} {s : State} (h : DecidedAs endB r d s) :
    DecidedAs endB r d (entryFor endB o id s) := by
  unfold entryFor
  split
  · exact h
  split
  · exact h
  split
  · exact h
  · refine (decidedAs_of_egress (egress_laneHealth _ _ _ _ _)).2 ((decidedAs_cntEnd _ _ _ _ _ _).2 ?_)
    obtain ⟨x, hx, hrest⟩ := h
    exact ⟨{ x with full := true }, by rw [modRx_rx, hx]; rfl, hrest⟩

/-! The orders of R58. -/

/-- Orders 1 to 7, the first that applies. -/
def orderedDecision (s : State) (endB isOpen own : Bool) (id : Nat) (h : Hdr) : Decision :=
  if (endOf s (!endB)).st != .up then .ended
  else if own then .returned
  else if 64 ≤ h.hops then .hopLimit
  else if 1996 < h.len then .badLen
  else if h.poison then .poisonedIn
  else mapDecision s isOpen id h

theorem decideOrdered_decidedAs {endB o own : Bool} {id : Nat} {r : RxFrame} {s : State} (hrx : (endOf s endB).rx = some r)
    (hfull : r.full = false) : DecidedAs endB r (orderedDecision s endB o own id r.hdr) (decideOrdered endB o own id s) := by
  have stopped : ∀ i d, DecidedAs endB r d (entryFor endB o id (cntEnd endB i (modRx endB (fun x => { x with dec := d }) s))) := fun i d =>
    entryFor_decidedAs ((decidedAs_cntEnd _ _ _ _ _ _).2 (decidedAs_modRx hrx d))
  have seen : ∀ i d, DecidedAs endB r d (cntEnd endB i (modRx endB (fun x => { x with dec := d }) (seenAgain o id s))) := fun i d =>
    (decidedAs_cntEnd _ _ _ _ _ _).2 (decidedAs_modRx (s := seenAgain o id s) hrx d)
  unfold decideOrdered orderedDecision
  split
  · next hdown => simpa [decideFrame, hrx, hdown] using stopped 10 .ended
  · next hup =>
    simp only [decideFrame, hrx, hup, Bool.false_and, Bool.false_eq_true, if_false]
    split
    · exact seen 11 .returned
    split
    · exact stopped 9 .hopLimit
    split
    · exact seen 8 .badLen
    split
    · exact stopped 5 .poisonedIn
    · exact entryFor_forwardByMap_decidedAs hrx hfull

/-- The claims' decision is that of the orders, on the source table before the header. -/
theorem orderedDecision_keyed (endB : Bool) (h : Hdr) (s : State) :
    orderedDecision (headerHeld endB h s) endB false (ownKeyed s h) h.adm h = hdrDecision endB h s := by
  simp only [orderedDecision, hdrDecision, endOf_headerHeld_other, mapDecision, srcFind_headerHeld]
  cases srcFind s false h.adm with
  | none => rfl
  | some e => cases hrow : fwdDecide (dirOf e h.dirY) h.seq <;> simp only [hrow, rowDec]

/-- Settles O11: the orders decide on the copy as it arrived, and the entries that go afterwards are none of its end. -/
theorem headerDecision : Obligations.HeaderDecision := by
  unfold Obligations.HeaderDecision
  intro endB h s hup hrx hfwd hadm
  refine ⟨frameHeader endB h s, rfl, ?_⟩
  rw [frameHeader_keyed hup hrx hfwd hadm]
  obtain ⟨x, hx, hhdr, hstamp, htl, hdec⟩ := decideOrdered_decidedAs (o := false) (own := ownKeyed s h) (id := h.adm)
    (headerHeld_rx endB h s) rfl
  exact ⟨x, hx, hhdr, hdec.trans (orderedDecision_keyed endB h s), hstamp, htl⟩

end Sys2Proof.Laws
end

section
/-!
What a step runs, what the nanosecond of an empty queue does, and what reset leaves.
-/

namespace Sys2Proof.Laws

open Sys2Proof Sys2Proof.Machine

theorem step_of_pending {c : Instr} {r : List Instr} {s : State} (h : s.pending = c :: r) : step s = exec c { s with pending := r } := by
  unfold step
  split <;> simp_all

theorem step_of_empty {s : State} (h : s.pending = []) : step s = .next (tick s) := by
  unfold step
  split <;> simp_all

/-- The ends of a lane clock cycle and of a cycle of the serial island (R76, R239, R443). -/
def cycleEnds (s : State) : State :=
  let s1 := if laneCycle s.clk.c ≠ laneCycle (s.clk.c + 1) then flushEvents (flushTails s) else s
  if s.clk.c % 10 = 9 then enterLates s1 else s1

theorem cycleEnds_eq (s : State) : when' (s.clk.c % 10 == 9) enterLates
    (when' (laneCycle s.clk.c != laneCycle (s.clk.c + 1)) (fun s => flushEvents (flushTails s)) s) = cycleEnds s := by
  simp only [cycleEnds, when', bne_iff_ne, beq_iff_eq]

theorem tick_unclocked {s : State} (h : (cycleEnds s).sys.dev = .off ∨ (cycleEnds s).sys.dev = .reset) : tick s = cycleEnds s := by
  simp only [tick, cycleEnds_eq]
  rcases h with h | h <;> rw [h]

theorem tick_clocked {s : State} (hoff : (cycleEnds s).sys.dev ≠ .off) (hreset : (cycleEnds s).sys.dev ≠ .reset) :
    tick s = fwFetch (commandReset ((cycleEnds s).onClk fun k => { k with c := (k.c + 1) % 2 ^ 64 })) := by
  simp only [tick, cycleEnds_eq]

theorem fwFetch_sound {s : State} (h : ∀ d ∈ s.loft.damage, d.2 = .one ∨ mib ≤ d.1) : fwFetch s = s := by
  have hnone : (s.loft.damage.find? fun d => d.2 != .one && decide (d.1 < mib)) = none := by
    refine List.find?_eq_none.2 fun d hd => ?_
    rcases h d hd with h | h
    · simp [h]
    · simp [Nat.not_lt.2 h]
  simp only [fwFetch, hnone]

theorem flushTails_empty {s : State} (h : s.lane.tailB = []) : flushTails s = s := by
  have hlane : (s.onLane fun l => { l with tailB := [] }) = s := by
    simp only [State.onLane, ← h]
  simp [flushTails, h, each, hlane]

theorem enterLates_none {s : State} (h : ∀ y ∈ s.ports, y.late = none) : enterLates s = s := by
  have hany : (s.ports.any fun y => y.late.isSome) = false := by
    simpa using h
  simp [enterLates, hany]

/-- Settles O1: the queue's front, and with an empty queue the ends of the two cycles before C counts. -/
theorem stepTakesFront : Obligations.StepTakesFront := by
  unfold Obligations.StepTakesFront
  refine ⟨?_, ?_, ?_, ?_, ?_, ?_, ?_, ?_, ?_, ?_, ?_⟩
  · exact fun c r s h => step_of_pending h
  · exact fun c s => rfl
  · rintro s s1 s2 hempty rfl rfl
    rw [step_of_empty hempty]
    exact ⟨fun h => congrArg _ (tick_unclocked h), fun hoff hreset => congrArg _ (tick_clocked hoff hreset)⟩
  · exact fun c => rfl
  · intro s h
    simp [commandReset, h]
  · intro t s h hearly
    simp [commandReset, h, Nat.not_le.2 hearly]
  · intro t s h hdue
    simp [commandReset, h, hdue]
  · exact fun s h => fwFetch_sound h
  · exact fun s h => flushTails_empty h
  · exact fun s h => enterLates_none h
  · exact fun s n w => ⟨rfl, rfl⟩

/-- Settles O2: the reset state is a closed value, read field by field. -/
theorem resetState : Obligations.ResetState := by
  unfold Obligations.ResetState
  refine ⟨rfl, rfl, rfl, rfl, rfl, rfl, rfl, rfl, rfl, rfl, rfl, rfl, rfl, rfl, rfl, rfl, rfl, rfl, rfl, rfl, rfl, rfl, rfl, rfl⟩

end Sys2Proof.Laws
end

section
/-!
VIN_LOGIC, the ways into and out of RESET, and BRACED: what each row does where its event can happen.
-/

namespace Sys2Proof.Laws

open Sys2Proof Sys2Proof.Machine

/-- A row whose meaning is a next state. -/
theorem next_eq {s t : State} (h : s = t) : (Host.Outcome.next s : Out) = .next t := congrArg _ h

/-! The supply's thresholds (R473). -/

theorem supplyThreshold_over {mv : Nat} {s : State} (halive : alive s = true) (hmv : 3435 < mv) (hout : s.sys.supplyOut ≠ 1) :
    supplyThreshold mv s = raise 120 (mv * 65536 + 1) (s.onSys fun x => { x with vin := mv, supplyOut := 1, supplyExt := mv }) := by
  simp [supplyThreshold, halive, hmv, hout, State.onSys]

theorem supplyThreshold_under {mv : Nat} {s : State} (halive : alive s = true) (hmv : mv < 3165) (hout : s.sys.supplyOut ≠ 2) :
    supplyThreshold mv s = raise 120 (mv * 65536 + 2) (s.onSys fun x => { x with vin := mv, supplyOut := 2, supplyExt := mv }) := by
  have hover : ¬ 3435 < mv := by omega
  simp [supplyThreshold, halive, hmv, hover, hout, State.onSys]

theorem supplyThreshold_stays_under {mv : Nat} {s : State} (halive : alive s = true) (hmv : mv < 3165) (hout : s.sys.supplyOut = 2) :
    supplyThreshold mv s = s.onSys fun x => { x with vin := mv, supplyExt := min x.supplyExt mv } := by
  have hover : ¬ 3435 < mv := by omega
  simp [supplyThreshold, halive, hmv, hover, hout, State.onSys]

theorem supplyReturned_inside {mv : Nat} {s : State} (halive : alive s = true) (hout : s.sys.supplyOut ≠ 0) (hlow : 3105 < mv)
    (hhigh : mv < 3495) :
    supplyReturned mv s = raise 120 (s.sys.supplyExt * 65536 + 3) (s.onSys fun x => { x with vin := mv, supplyOut := 0 }) := by
  simp [supplyReturned, halive, hout, hlow, hhigh]

/-- Settles O4: each threshold has its range, inside which the row is its event or its extreme. -/
theorem supplyEdges : Obligations.SupplyEdges := by
  unfold Obligations.SupplyEdges
  refine ⟨?_, ?_, ?_, ?_, ?_, ?_⟩
  · intro mv s halive hmv hrated hout
    exact (withVin_next hrated _ s).trans (next_eq (supplyThreshold_over halive hmv hout))
  · intro mv s halive hmv hout
    exact (withVin_next (by omega) _ s).trans (next_eq (supplyThreshold_under halive hmv hout))
  · intro mv s halive hmv hout
    exact (withVin_next (by omega) _ s).trans (next_eq (supplyThreshold_stays_under halive hmv hout))
  · intro mv s halive hout hlow hhigh
    exact (withVin_next (by omega) _ s).trans (next_eq (supplyReturned_inside halive hout hlow hhigh))
  · intro mv s hoff hrated
    exact (withVin_next hrated _ s).trans (next_eq (by simp [vinLogicRise, hoff]))
  · intro mv torn s hoff hmv
    exact (withVin_next (by omega) _ s).trans (next_eq (by simp [supplyReset, hoff, hmv]))

/-! RESET (R26, R478 to R481). -/

theorem alive_iff (s : State) : alive s = true ↔ s.sys.dev ≠ .off ∧ s.sys.dev ≠ .reset := by
  simp [alive]

theorem resetRelease_released {mv : Nat} {recov own pinA pinB sig : Bool} {s : State} (hdev : s.sys.dev = .reset)
    (hthermal : s.sys.thermalHold = false) (hmv : 3070 < mv) :
    ∀ s1, s1 = ((s.onSys fun x => { x with dev := .boot, vin := mv, vinLow := mv, porst := false, ownLow := own, ceremony := false,
                                           bypassA := .low, bypassB := .low }).onEnds fun e =>
      { e with a := { e.a with pin := pinA }, b := { e.b with pin := pinB } }) →
    resetRelease mv recov own pinA pinB sig s = if recov then enterRecovery 3 sig (securityStart s1) else txPin (securityStart s1) := by
  rintro s1 rfl
  simp [resetRelease, hdev, hthermal, hmv]

/-! The device record under what a release does (R293, R302). -/

@[simp] theorem sys_securityStart (s : State) :
    (securityStart s).sys = { s.sys with badge := (Config.badgeOf s.sec.identity).toNat } := by
  unfold securityStart
  exact sys_when _ _ (fun t => sys_raise 102 4 t) _

@[simp] theorem sys_txPin (s : State) : (txPin s).sys = s.sys := rfl

@[simp] theorem sys_fieldOn (s : State) : (fieldOn s).sys = s.sys := rfl

@[simp] theorem sys_macClose (s : State) : (macClose s).sys = s.sys := by
  unfold macClose
  dsimp only
  split <;> simp

@[simp] theorem sys_linkDown (s : State) : (linkDown s).sys = s.sys := by
  unfold linkDown
  dsimp only
  split <;> simp

@[simp] theorem sys_rxInit (s : State) : (rxInit s).sys = s.sys := by
  unfold rxInit
  rw [sys_each _ _ fun q t => sys_each _ _ (fun i t => sys_of_quiet (quiet_loftWrite _ _ _ _)) t]
  rfl

@[simp] theorem sys_yardApply (r hash : List Word) (s : State) : (yardApply r hash s).sys = s.sys := by
  unfold yardApply
  dsimp only
  rw [sys_when _ _ sys_macClose]
  simp [apply_ite State.sys]

@[simp] theorem sys_recoveryYard (sig : Bool) (s : State) : (recoveryYard sig s).sys = s.sys := by
  unfold recoveryYard
  dsimp only
  split
  · rfl
  split
  · exact sys_yardApply _ _ _
  · rfl

@[simp] theorem sys_flushSlots (s : State) : (flushSlots s).sys = { s.sys with slotsFull := [] } := by
  have hfreed : ∀ l : List Nat, (each l (fun ch => modMang ch fun m => { m with inFull := false, inDrop := min (m.inDrop + 1) 0xFFFF }) s).sys
      = s.sys := fun l =>
    sys_each _ (fun ch => modMang ch _) (fun _ _ => rfl) s
  unfold flushSlots dropEvent
  dsimp only
  split <;> simp [hfreed, ringHost]

/-- RECOVERY: the state, the code and the bypass pins; the slots a firmware reset had noted are flushed. -/
theorem enterRecovery_sys (code : Nat) (sig : Bool) (s : State) :
    (enterRecovery code sig s).sys.dev = .recovery ∧ (enterRecovery code sig s).sys.bootCode = code
      ∧ (enterRecovery code sig s).sys.bypassA = .low ∧ (enterRecovery code sig s).sys.bypassB = .low
      ∧ (enterRecovery code sig s).sys.ownLow = s.sys.ownLow := by
  simp only [enterRecovery, sys_txPin, sys_recoveryYard, sys_raise, sys_fieldOn]
  split <;> simp

theorem cmdReset_runs {via : Via} {s : State} (h : cmdRuns 0x00B 1 .operate via s = true) :
    exec (.reset via) s = .next ((replyOk (cmdOf 0x00B via s) [] (takenBy 0x00B via s)).onSys fun x =>
      { x with resetAt := x.resetAt.orElse fun _ => some s.clk.c }) := by
  show (Host.Outcome.next (firmware 0x00B 1 .operate cmdReset via s) : Out) = _
  rw [firmware_runs h, cmdReset, takenBy_clk]

/-- Settles O5: the ways in end in `enterReset`, the way out samples the pins, and the command's reset waits. -/
theorem resetEdges : Obligations.ResetEdges := by
  unfold Obligations.ResetEdges
  refine ⟨?_, ?_, ?_, ?_, ?_, ?_, ?_, ?_⟩
  · intro torn s hoff
    exact next_eq (by simp [pinReset, hoff])
  · intro s hruns
    exact next_eq (by simp [watchdogExpiry, hruns])
  · intro t s halive hhot
    obtain ⟨hoff, hreset⟩ := (alive_iff s).1 halive
    exact next_eq (by simp [dieTemperatureSample, hoff, hreset, hhot])
  · intro t s halive hwarm hcool hwarn
    obtain ⟨hoff, hreset⟩ := (alive_iff s).1 halive
    exact next_eq (by simp [dieTemperatureSample, hoff, hreset, Int.not_le.2 hcool, hwarm, hwarn, State.onSys])
  · intro t s halive hcool hwarn
    obtain ⟨hoff, hreset⟩ := (alive_iff s).1 halive
    have hhot : ¬ 1350 ≤ t := by omega
    exact next_eq (by simp [dieTemperatureSample, hoff, hreset, hhot, hcool, hwarn, State.onSys])
  · intro mv own pinA pinB sig s hdev hthermal hmv hrated
    exact (withVin_next hrated _ s).trans (next_eq (resetRelease_released hdev hthermal hmv _ rfl))
  · intro mv own pinA pinB sig s hdev hthermal hmv hrated
    refine ⟨_, (withVin_next hrated _ s).trans (next_eq (resetRelease_released hdev hthermal hmv _ rfl)), ?_⟩
    obtain ⟨hrec, hcode, hbypA, hbypB, hown⟩ := enterRecovery_sys 3 sig (securityStart ((s.onSys fun x =>
      { x with dev := .boot, vin := mv, vinLow := mv, porst := false, ownLow := own, ceremony := false, bypassA := .low, bypassB := .low }).onEnds
        fun e => { e with a := { e.a with pin := pinA }, b := { e.b with pin := pinB } }))
    exact ⟨hrec, hcode, hbypA, hbypB, by rw [if_pos rfl, hown, sys_securityStart]; rfl⟩
  · exact fun via s hruns => cmdReset_runs hruns

/-! BRACED (R27, R475). -/

theorem drain_none_waiting (n : Nat) {s : State} (h : s.cmd.waiting = []) : drain n s = s := by
  cases n with
  | zero => rfl
  | succ n => simp [drain, h]

theorem bracedEntry_entered {mv : Nat} {s : State} (halive : alive s = true) (hbarn : s.sys.dev ≠ .barn) (hbraced : s.sys.braced = false)
    (hmv : mv < 3080) :
    bracedEntry mv s = notifyState s.sys.dev.code (raise2 121 1 mv (fieldSettle ((writeOut s).onSys fun x =>
      { x with braced := true, bracedAt := s.clk.c, vinLow := mv, vin := mv }))) := by
  simp [bracedEntry, halive, hbarn, hbraced, hmv]

/-- An exit with nothing held and no command waiting ends with its event and its notification. -/
theorem bracedExit_idle {mv low : Nat} {s : State} (hbraced : s.sys.braced = true) (hmv : 3070 < mv) (hheld : s.cmd.held = [])
    (hwaiting : s.cmd.waiting = []) (hauto : s.sys.autoHeld = false) :
    bracedExit mv low s
      = notifyState s.sys.dev.code (raise2 121 (min ((s.clk.c - s.sys.bracedAt) / 1000) 0xFFFFFF * 256 + 2) (min s.sys.vinLow low)
          ((fieldSettle (s.onSys fun x => { x with braced := false, vin := mv, vinLow := min s.sys.vinLow low })).onFlash fun f =>
            { f with op := f.op.map fun o => { o with started := true } })) := by
  have hnotified : ∀ t : State, autoHeldStart t = if t.sys.autoHeld then autoStart (t.onSys fun x => { x with autoHeld := false }) else t :=
    fun _ => rfl
  simp only [bracedExit, hbraced, hheld, Nat.not_le.2 hmv, Bool.not_true, decide_false, Bool.or_self, Bool.false_eq_true, if_false,
    List.isEmpty_nil, if_true]
  rw [hnotified, if_neg (by simp [hauto]), drain_none_waiting]
  rw [cmd_of_quiet (quiet_notifyState _ _), cmd_of_quiet (quiet_raise2 _ _ _ _)]
  exact hwaiting

/-- Settles O6: the entry writes the collector out first, and an exit with nothing held ends with its notification. -/
theorem braced : Obligations.Braced := by
  unfold Obligations.Braced
  refine ⟨?_, ?_⟩
  · intro mv s halive hbarn hbraced hmv
    exact (withVin_next (by omega) _ s).trans (next_eq (bracedEntry_entered halive hbarn hbraced hmv))
  · intro mv low s hbraced hmv hrated hheld hwaiting hauto
    exact (withVin_next hrated _ s).trans (next_eq (bracedExit_idle hbraced hmv hheld hwaiting hauto))

end Sys2Proof.Laws
end

section
/-!
From BOOT to STOPPED: the images, the begin of STARTUP, the relays and the end of the start.
-/

namespace Sys2Proof.Laws

open Sys2Proof Sys2Proof.Machine

/-! The images of the two slots (R300). -/

/-- The operations that an image's signatures take (R329): its own, and its co-signature where it carries one. -/
theorem bootImageVerified_of_form {ok sig : Bool} {s : State} (hdev : s.sys.dev = .boot) (hrun : s.sys.running = none) :
    ∀ p, p = wordBytes (slotOf s (b2n s.sys.triedA)).words → imageForm p = true →
    bootImageVerified ok sig s
      = if imageOk p ok s then startImage s.sys.triedA p (when' (natBit (le p 8 4) 0) (cntSec 7) (cntSec 7 s))
        else if !s.sys.triedA then (when' (natBit (le p 8 4) 0) (cntSec 7) (cntSec 7 s)).onSys fun x => { x with triedA := true }
        else enterRecovery 4 sig (when' (natBit (le p 8 4) 0) (cntSec 7) (cntSec 7 s)) := by
  rintro p rfl hform
  have hcounted : ∀ c : Bool, (when' c (cntSec 7) (cntSec 7 s)).sys = s.sys ∧ (when' c (cntSec 7) (cntSec 7 s)).sec = s.sec := fun c => by
    cases c <;> exact ⟨rfl, rfl⟩
  have hok : ∀ (q : List Byte) (c : Bool), imageOk q ok (when' c (cntSec 7) (cntSec 7 s)) = imageOk q ok s := fun q c => by
    cases c <;> rfl
  simp only [bootImageVerified, hdev, hrun, hform, bne_self_eq_false, Option.isSome_none, Bool.or_self, Bool.false_eq_true, if_false,
    Bool.true_and, show when' true (cntSec 7) s = cntSec 7 s from rfl, hok, (hcounted _).1]

theorem bootImageVerified_of_no_form {ok sig : Bool} {s : State} (hdev : s.sys.dev = .boot) (hrun : s.sys.running = none)
    (hform : imageForm (wordBytes (slotOf s (b2n s.sys.triedA)).words) = false) :
    bootImageVerified ok sig s = if !s.sys.triedA then s.onSys fun x => { x with triedA := true } else enterRecovery 4 sig s := by
  simp [bootImageVerified, hdev, hrun, hform, imageOk, when']

theorem imageForm_of_imageOk {p : List Byte} {ok : Bool} {s : State} (h : imageOk p ok s = true) : imageForm p = true := by
  simp only [imageOk, Bool.and_eq_true] at h
  exact h.1.1.2

/-! The begin of STARTUP (R439, R447, R466). -/

theorem flash_each {α : Type} (l : List α) (f : α → State → State) (h : ∀ a s, (f a s).flash = s.flash) (s : State) :
    (each l f s).flash = s.flash := by
  unfold each
  induction l generalizing s with
  | nil => rfl
  | cons a l ih => rw [List.foldl_cons, ih, h]

@[simp] theorem flash_raise (a b : Nat) (s : State) : (raise a b s).flash = s.flash := flash_of_quiet (quiet_raise a b s)

@[simp] theorem flash_raiseCode (a b c d : Nat) (s : State) : (raiseCode a b c d s).flash = s.flash :=
  flash_of_quiet (quiet_raiseCode a b c d s)

@[simp] theorem flash_endOwner (g a b : Nat) (s : State) : (endOwner g a b s).flash = s.flash := by
  have hnotify : ∀ (o : Owner) (w : Nat) (t : State), (ownNotify o g w t).flash = t.flash := fun o w t => by
    cases o with
    | host session =>
      simp only [ownNotify, apply_ite State.flash, flash_of_quiet (quiet_notifySession _ _ _), ite_self]
    | none => rfl
    | firmware => rfl
  simp [endOwner, ownEvent, fieldSettle, modGrp, apply_ite State.flash, hnotify]

@[simp] theorem flash_roleIn (d : Dev) (s : State) : (roleIn d s).flash = s.flash := by
  cases d <;> simp [roleIn, setRole, apply_ite State.flash]

@[simp] theorem flash_endOwners (a b : Nat) (s : State) : (endOwners a b s).flash = s.flash :=
  flash_each _ _ (fun g t => flash_endOwner g a b t) s

@[simp] theorem flash_notifyState (d : Nat) (s : State) : (notifyState d s).flash = s.flash := flash_of_quiet (quiet_notifyState d s)

@[simp] theorem flash_setDev (d : Dev) (s : State) : (setDev d s).flash = s.flash := by
  simp [setDev, when', fieldSettle, apply_ite State.flash]

/-- STARTUP has begun: no event of BOOT waits. -/
def Begun (s : State) : Prop := s.sys.dev = .startup ∧ s.ev.bootPend = []

/-- From then on an event goes to the cycle's end, and not to those that wait for STARTUP. -/
theorem begun_raiseCode (a b c d : Nat) {s : State} (h : Begun s) : Begun (raiseCode a b c d s) := by
  obtain ⟨hdev, hpend⟩ := h
  refine ⟨(sys_raiseCode a b c d s).symm ▸ hdev, ?_⟩
  simp only [raiseCode, raiseAt, hdev, onEv_ev, noteStamp, apply_ite State.ev, onClk_ev, ite_self]
  exact hpend

theorem begun_raise (a b : Nat) {s : State} (h : Begun s) : Begun (raise a b s) := begun_raiseCode _ _ _ _ h

theorem begun_raisePending {s : State} (hdev : s.sys.dev = .startup) : Begun (raisePending s) := by
  unfold raisePending each
  have hstart : Begun (s.onEv fun v => { v with bootPend := [] }) := ⟨hdev, rfl⟩
  generalize s.onEv (fun v => { v with bootPend := [] }) = t at hstart ⊢
  induction s.ev.bootPend generalizing t with
  | nil => exact hstart
  | cons e l ih => exact ih _ (begun_raiseCode _ _ _ _ hstart)

theorem begun_raiseShutdown {s : State} (h : Begun s) : Begun (raiseShutdown s) := by
  unfold raiseShutdown
  split
  · exact begun_raise _ _ (s := s.onSys fun x => { x with pendThermal := none }) h
  · exact h

theorem begun_raiseTorn {s : State} (h : Begun s) : Begun (raiseTorn s) := by
  unfold raiseTorn
  split
  · exact begun_raise _ _ (s := s.onFlash fun f => { f with torn := false }) h
  · exact h

/-- A cut entry of the journal has been reported, and the boot count is as it was. -/
theorem flash_raiseTorn (s : State) : (raiseTorn s).flash = { s.flash with torn := false } := by
  unfold raiseTorn
  split
  · rw [flash_raise]
    rfl
  · next htorn => simp [← Bool.eq_false_iff.2 htorn]

@[simp] theorem flash_raiseShutdown (s : State) : (raiseShutdown s).flash = s.flash := by
  unfold raiseShutdown
  split
  · rw [flash_raise]
    rfl
  · rfl

@[simp] theorem flash_raisePending (s : State) : (raisePending s).flash = s.flash := by
  unfold raisePending
  rw [flash_each _ _ fun _ _ => flash_raiseCode _ _ _ _ _]
  rfl

@[simp] theorem quiet_resumeStart (s : State) : quiet (resumeStart s) = quiet s := by
  unfold resumeStart
  split
  · rw [quiet_raiseCode, quiet_resumeRecord, quiet_onEv _ _ ⟨rfl, rfl, rfl, rfl⟩]
  · rw [quiet_raiseCode, quiet_resumeRecord]

@[simp] theorem flash_flushSlots (s : State) : (flushSlots s).flash = s.flash := by
  have hfreed : ∀ l : List Nat, (each l (fun ch => modMang ch fun m => { m with inFull := false, inDrop := min (m.inDrop + 1) 0xFFFF }) s).flash
      = s.flash := fun l =>
    flash_each _ (fun ch => modMang ch _) (fun _ _ => rfl) s
  simp [flushSlots, dropEvent, apply_ite State.flash, ringHost, hfreed]

@[simp] theorem sys_raiseShutdown (s : State) : (raiseShutdown s).sys = { s.sys with pendThermal := none } := by
  unfold raiseShutdown
  split
  · rw [sys_raise]
    rfl
  · next hnone => simp [← hnone]

@[simp] theorem sys_raiseTorn (s : State) : (raiseTorn s).sys = s.sys := by
  unfold raiseTorn
  split
  · rw [sys_raise]
    rfl
  · rfl

@[simp] theorem sys_raisePending (s : State) : (raisePending s).sys = s.sys := by
  unfold raisePending
  rw [sys_each _ _ fun _ _ => sys_raiseCode _ _ _ _ _]
  rfl

/-- The boot count is written, STARTUP entered and the record of the start made. -/
def startupEntered (katOk : Bool) (s : State) : State :=
  let s1 := journalEntry (s.onFlash fun f => { f with bootCount := (f.bootCount + 1) % 2 ^ 32 })
  let s2 := fieldOn (setDev .startup (cntSec 6 (cntSec 6 (s1.onSys fun x => { x with katFail := !katOk }))))
  let s3 := resumeStart s2
  if isFirmware s.sys.cause then flushSlots s3 else s3

theorem startupBegin_begun {katOk : Bool} {s : State} (hdev : s.sys.dev = .boot) (hrun : s.sys.running ≠ none)
    (hbraced : s.sys.braced = false) :
    startupBegin katOk s = when' (!katOk) (raise 103 2)
      ((raiseTorn (raiseShutdown (raisePending (startupEntered katOk s)))).onTeth fun t => { t with plantOff := none }) := by
  simp only [startupBegin, hdev, hrun, hbraced, bne_self_eq_false, Option.isNone_iff_eq_none, Bool.or_false, Bool.false_or,
    if_false, startupEntered]

theorem startupEntered_sys {katOk : Bool} {s : State} (hdev : s.sys.dev = .boot) :
    (startupEntered katOk s).sys.dev = .startup ∧ (startupEntered katOk s).sys.katFail = !katOk := by
  have hjournal : ∀ t : State, (journalEntry t).sys = t.sys := fun _ => rfl
  have hcount : ∀ t : State, (cntSec 6 t).sys = t.sys := fun _ => rfl
  simp only [startupEntered, apply_ite State.sys, sys_flushSlots, sys_of_quiet (quiet_resumeStart _), sys_fieldOn, sys_setDev, hcount,
    onSys_sys, hjournal, onFlash_sys, hdev]
  split <;> exact ⟨rfl, rfl⟩

theorem startupEntered_bootCount (katOk : Bool) (s : State) :
    (startupEntered katOk s).flash.bootCount = (s.flash.bootCount + 1) % 2 ^ 32 := by
  have hfield : ∀ t : State, (fieldOn t).flash = t.flash := fun _ => rfl
  have hcount : ∀ t : State, (cntSec 6 t).flash = t.flash := fun _ => rfl
  have hjournal : ∀ t : State, (journalEntry t).flash.bootCount = t.flash.bootCount := fun t => by
    unfold journalEntry
    rw [onFlash_flash]
    split <;> rfl
  simp only [startupEntered, apply_ite State.flash, flash_flushSlots, flash_of_quiet (quiet_resumeStart _), hfield, flash_setDev, hcount,
    onSys_flash, ite_self, hjournal]
  rfl

/-- Settles O7: slot A is tried, then slot B, then RECOVERY; STARTUP begins with its count and ends in STOPPED. -/
theorem bootToStopped : Obligations.BootToStopped := by
  unfold Obligations.BootToStopped
  refine ⟨?_, ?_, ?_, ?_, ?_, ?_, ?_, ?_⟩
  · intro ok sig s hdev hrun hok
    refine next_eq ?_
    rw [bootImageVerified_of_form hdev hrun _ rfl (imageForm_of_imageOk hok), if_pos hok]
  · intro ok sig s hdev hrun htried hform
    refine next_eq ?_
    rw [bootImageVerified_of_no_form hdev hrun (by rw [htried]; exact hform), htried]
    rfl
  · intro ok sig s hdev hrun htried hform hok
    refine next_eq ?_
    rw [bootImageVerified_of_form hdev hrun _ rfl (by rw [htried]; exact hform), htried]
    rw [show b2n false = 0 from rfl, hok]
    rfl
  · intro ok sig s hdev hrun htried hform
    refine next_eq ?_
    rw [bootImageVerified_of_no_form hdev hrun (by rw [htried]; exact hform), htried]
    rfl
  · intro ok sig s hdev hrun htried hform hok
    refine next_eq ?_
    rw [bootImageVerified_of_form hdev hrun _ rfl (by rw [htried]; exact hform), htried]
    rw [show b2n true = 1 from rfl, hok]
    rfl
  · intro katOk s hdev hrun hbraced
    obtain ⟨hstartup, hkat⟩ := startupEntered_sys (katOk := katOk) hdev
    have hbegun : Begun (when' (!katOk) (raise 103 2)
        ((raiseTorn (raiseShutdown (raisePending (startupEntered katOk s)))).onTeth fun t => { t with plantOff := none })) := by
      have h := begun_raiseTorn (begun_raiseShutdown (begun_raisePending hstartup))
      cases katOk
      · exact begun_raise 103 2 (s := State.onTeth _ _) h
      · exact h
    refine ⟨_, next_eq (startupBegin_begun hdev hrun hbraced), hbegun.1, ?_, ?_, hbegun.2, ?_⟩
    · rw [sys_when _ _ fun t => sys_raise 103 2 t]
      simpa using hkat
    · rw [when', apply_ite State.flash, flash_raise, ite_self, onTeth_flash, flash_raiseTorn, flash_raiseShutdown, flash_raisePending]
      exact startupEntered_bootCount katOk s
    · rw [when', apply_ite State.flash, flash_raise, ite_self, onTeth_flash, flash_raiseTorn]
  · intro s hdev ha hb
    exact next_eq (by simp [bypassRelease, hdev, ha, hb])
  · intro sigA sigO s hdev hdone
    exact next_eq (by simp [startupDone, hdev, hdone])

end Sys2Proof.Laws
end

section
/-!
BARN: its entry, its wake sources, and the return to STOPPED.
-/

namespace Sys2Proof.Laws

open Sys2Proof Sys2Proof.Machine

/-! The device record under the operations that BARN uses. -/

@[simp] theorem sys_writeOut (s : State) : (writeOut s).sys = s.sys := sys_of_quiet (quiet_writeOut s)

@[simp] theorem sys_fieldOff (s : State) : (fieldOff s).sys = s.sys := rfl

@[simp] theorem sys_onEnd (endB : Bool) (f : CplEnd → CplEnd) (s : State) : (onEnd endB f s).sys = s.sys := rfl

@[simp] theorem sys_cntEnd (endB : Bool) (i : Nat) (s : State) : (cntEnd endB i s).sys = s.sys := rfl

@[simp] theorem sys_cutArriving (endB : Bool) (s : State) : (cutArriving endB s).sys = s.sys := by
  unfold cutArriving
  split
  · rfl
  · simp [apply_ite State.sys]

@[simp] theorem sys_setEnd (endB : Bool) (st : EndState) (s : State) : (setEnd endB st s).sys = s.sys := by
  simp [setEnd, apply_ite State.sys]

@[simp] theorem sys_endUpdate (endB : Bool) (s : State) : (endUpdate endB s).sys = s.sys := by
  unfold endUpdate
  split <;> simp [apply_ite State.sys]

@[simp] theorem sys_strmWait (s : State) : (strmWait s).sys = s.sys := sys_of_quiet (quiet_strmWait s)

@[simp] theorem sys_modLq (slot : Nat) (f : LQueue → LQueue) (s : State) : (modLq slot f s).sys = s.sys := rfl

@[simp] theorem sys_dropCurrent (s : State) : (dropCurrent s).sys = s.sys := by
  unfold dropCurrent
  split <;> simp [apply_ite State.sys]

@[simp] theorem sys_strmDir (inward : Bool) (s : State) : (strmDir inward s).sys = s.sys := by
  simp [strmDir, setLink, strmRestart, apply_ite State.sys]

@[simp] theorem sys_strmSettle (s : State) : (strmSettle s).sys = s.sys := by
  simp [strmSettle, noteStarve, apply_ite State.sys]

@[simp] theorem sys_modPort (p : Nat) (f : PortSt → PortSt) (s : State) : (modPort p f s).sys = s.sys := rfl

@[simp] theorem sys_txFill (p : Nat) (s : State) : (txFill p s).sys = s.sys := by
  unfold txFill
  split <;> rfl

@[simp] theorem sys_txNext (p from_ : Nat) (lead : Bool) (s : State) : (txNext p from_ lead s).sys = s.sys := by
  unfold txNext
  dsimp only
  split <;> simp [txAdopt, rateApplied, apply_ite State.sys]

@[simp] theorem sys_txStart (p : Nat) (s : State) : (txStart p s).sys = s.sys := by
  unfold txStart
  dsimp only
  split
  · rfl
  · split <;> simp

/-! The entry (R488). -/

theorem cmdBarn_runs {via : Via} {s : State} (h : cmdRuns 0x009 2 .operate via s = true) :
    exec (.barn via) s = .next (cmdBarn (cmdOf 0x009 via s) (takenBy 0x009 via s)) :=
  next_eq (firmware_runs h)

theorem barnEntryDone_entered {s : State} (hdev : s.sys.dev = .stopped) (hbarn : s.sys.barn = .entering)
    (hidle : s.ports.any portBusy = false) :
    barnEntryDone s =
      (let written := writeOut (s.onPorts fun ps => ps.map (portHalt s.clk.c))
       let bypassed := strmSettle (setDev .barn written)
       let down := endUpdate true (endUpdate false (bypassed.onEnds fun e => { e with a := endHalt s.clk.c e.a, b := endHalt s.clk.c e.b }))
       (if barnWatch down then down else fieldOff down).onSys fun x =>
         { x with barn := if x.wakeSrc == 0 then .asleep else .waking, barnIn := s.clk.c }) := by
  simp only [barnEntryDone, hdev, hbarn, hidle, bne_self_eq_false, Bool.or_self, Bool.false_eq_true, if_false]

theorem barnEntryDone_sys {s : State} (hdev : s.sys.dev = .stopped) (hbarn : s.sys.barn = .entering)
    (hidle : s.ports.any portBusy = false) :
    (barnEntryDone s).sys = { s.sys with
      dev := .barn, bypassA := .low, bypassB := .low, barn := if s.sys.wakeSrc == 0 then .asleep else .waking, barnIn := s.clk.c } := by
  simp [barnEntryDone_entered hdev hbarn hidle, apply_ite State.sys, sys_setDev, hdev, bypassOf]

/-! The wake sources (R489). -/

/-- While the entry goes on or the device sleeps, a source that its condition allows is latched. -/
theorem barnWake_allowed {src idx : Nat} {s : State} (hstate : s.sys.barn = .entering ∨ s.sys.dev = .barn)
    (hallowed : wakeAllowed src idx s = true) : exec (.barnWake src idx) s = .next (wakeLatch src idx s) := by
  refine next_eq ?_
  rcases hstate with h | h <;> simp [barnWake, h, hallowed]

theorem couplerWakes_absent {endB : Bool} {a : Nat} {s : State} (hdev : s.sys.dev = .barn) (habsent : (endOf s endB).absentAt = some a)
    (hms : a + 1000000 ≤ s.clk.c) (hin : s.sys.barnIn + 1000000 ≤ s.clk.c) : wakeAllowed 2 0 s = true := by
  have hend : couplerWakes s (endOf s endB) = true := by
    simp only [couplerWakes, habsent, hdev, beq_self_eq_true, Bool.true_and, decide_eq_true_eq]
    omega
  cases endB
  · exact Bool.or_eq_true_iff.2 (.inl hend)
  · exact Bool.or_eq_true_iff.2 (.inr hend)

/-! The return (R490). -/

/-- The device goes to STOPPED: the state, the bypass pins, and no wake source left. -/
def wokenUp (s : State) : State :=
  let up := setDev .stopped (s.onSys fun x => { x with barn := .awake, wakeSrc := 0, wakeIdx := none, wakeTimer := 0, bypassA := .high, bypassB := .high })
  let powered := (if barnWatch s then fieldSettle up else fieldOn up).onTeth fun t => { t with tether := t.tetherPin }
  let locked := endUpdate true (endUpdate false powered)
  each (List.range 16) txStart (strmSettle (raise2 124 (s.sys.wakeIdx.getD 0 % 32 * 65536 + s.sys.wakeSrc % 32 * 256 + 1)
    (min ((s.clk.c - s.sys.barnIn) / 1000000) 0xFFFFFFFF) locked))

theorem wakeDone_locked {s : State} (hdev : s.sys.dev = .barn) (hbarn : s.sys.barn = .waking) (ha : s.ends.a.lock = true)
    (hb : s.ends.b.lock = true) : wakeDone true s = wokenUp s := by
  simp only [wakeDone, hdev, hbarn, ha, hb, bne_self_eq_false, Bool.or_self, Bool.false_eq_true, if_false, Bool.not_true, Bool.and_self,
    wokenUp]

theorem wokenUp_sys {s : State} (hdev : s.sys.dev = .barn) : (wokenUp s).sys = { s.sys with
    dev := .stopped, barn := .awake, wakeSrc := 0, wakeIdx := none, wakeTimer := 0, bypassA := .high, bypassB := .high } := by
  unfold wokenUp
  rw [sys_each _ _ fun p t => sys_txStart p t]
  simp [apply_ite State.sys, sys_setDev, hdev, bypassOf]

/-- Settles O8: the entry and the return as their whole next states, and of the device record what they leave. -/
theorem barn : Obligations.Barn := by
  unfold Obligations.Barn
  refine ⟨?_, ?_, ?_, ?_, ?_, ?_, ?_, ?_, ?_, ?_, ?_, ?_, ?_, ?_⟩
  · intro via s hruns hdev
    rw [cmdBarn_runs hruns]
    exact next_eq (by simp [cmdBarn, hdev])
  · intro via s hruns hdev
    rw [cmdBarn_runs hruns]
    exact next_eq (by simp [cmdBarn, hdev])
  · exact fun s hdev hbarn hidle => next_eq (barnEntryDone_entered hdev hbarn hidle)
  · intro s hdev hbarn hidle
    refine ⟨_, rfl, ?_⟩
    rw [barnEntryDone_sys hdev hbarn hidle]
    simp
  · exact fun idx s hstate hrec => barnWake_allowed hstate hrec
  · exact fun idx s hstate hwatch hmode hwake => barnWake_allowed hstate (by simp [wakeAllowed, hwatch, hmode, hwake])
  · exact fun idx endB a s hdev habsent hms hin => barnWake_allowed (.inr hdev) (couplerWakes_absent hdev habsent hms hin)
  · exact fun idx s hstate => barnWake_allowed hstate rfl
  · exact fun idx s hstate htimer hms => barnWake_allowed hstate (by simp [wakeAllowed, htimer, hms])
  · intro src idx s hasleep
    simp [wakeLatch, when', portsWake, hasleep, State.onSys, State.onPorts]
  · intro src idx s hawake
    simp [wakeLatch, when', hawake, State.onSys]
  · exact fun s hdev hbarn ha hb => next_eq (wakeDone_locked hdev hbarn ha hb)
  · intro s hdev hbarn ha hb
    refine ⟨_, next_eq (wakeDone_locked hdev hbarn ha hb), ?_⟩
    rw [wokenUp_sys hdev]
    exact ⟨rfl, rfl, rfl, rfl, rfl, rfl⟩
  · intro s hdev hbarn
    exact next_eq (by simp [wakeDone, hdev, hbarn])

end Sys2Proof.Laws
end

section
/-!
Coupler ends: presence, the state of the lanes, and hellos.
-/

namespace Sys2Proof.Laws

open Sys2Proof Sys2Proof.Machine

/-! Two changes of one end, and what an event leaves of an end. -/

theorem onEnd_onEnd (endB : Bool) (f g : CplEnd → CplEnd) (s : State) :
    onEnd endB f (onEnd endB g s) = onEnd endB (fun e => f (g e)) s := by
  cases endB <;> rfl

@[simp] theorem endOf_onEnd_self (endB : Bool) (f : CplEnd → CplEnd) (s : State) : endOf (onEnd endB f s) endB = f (endOf s endB) := by
  rw [endOf_onEnd, if_pos rfl]

@[simp] theorem endOf_raise (a b : Nat) (s : State) (endB : Bool) : endOf (raise a b s) endB = endOf s endB :=
  endOf_of_egress (egress_raise a b s) endB

@[simp] theorem endOf_cntEnd (e : Bool) (i : Nat) (s : State) (endB : Bool) : endOf (cntEnd e i s) endB = endOf s endB :=
  endOf_of_egress (egress_cntEnd e i s) endB

theorem trainTime_of_quiet {s t : State} (h : quiet t = quiet s) : trainTime t = trainTime s := by
  have e := congrArg trainTime h
  exact e

@[simp] theorem trainTime_raise (a b : Nat) (s : State) : trainTime (raise a b s) = trainTime s := trainTime_of_quiet (quiet_raise a b s)

@[simp] theorem trainTime_onEnd (endB : Bool) (f : CplEnd → CplEnd) (s : State) : trainTime (onEnd endB f s) = trainTime s := rfl

@[simp] theorem trainTime_cntEnd (endB : Bool) (i : Nat) (s : State) : trainTime (cntEnd endB i s) = trainTime s := rfl

/-! A composition trigger leaves the ends (R45, R96). -/

@[simp] theorem egress_commitReply (s : State) : egress (commitReply s) = egress s := by
  have hcmd : ∀ (f : CmdSt → CmdSt) (t : State), egress (t.onCmd f) = egress t := fun _ _ => egress_of_parts rfl rfl
  unfold commitReply
  split
  · rw [egress_of_quiet (quiet_replyOk _ _ _), hcmd]
  · rfl

@[simp] theorem egress_stateCommitted (s : State) : egress (stateCommitted s) = egress s := by
  simp [stateCommitted]

@[simp] theorem egress_trainSend (f : TxFrame) (s : State) : egress (trainSend f s) = egress s := egress_of_parts rfl rfl

@[simp] theorem egress_stateCopy (s : State) : egress (stateCopy s) = egress s := by
  simp [stateCopy]

/-- ORIENT is no part of an end. -/
@[simp] theorem egress_orientLead (s : State) : egress (orientLead s) = egress s := rfl

@[simp] theorem egress_openCensus (cause : Nat) (adm : Option Nat) (s : State) : egress (openCensus cause adm s) = egress s := by
  unfold openCensus
  split
  · simp [newCensus]
  · dsimp only
    split
    · simp
    · split <;> simp

@[simp] theorem egress_trigger (endB : Bool) (cause : Nat) (s : State) : egress (trigger endB cause s) = egress s := by
  simp [trigger]

@[simp] theorem endOf_trigger (e : Bool) (cause : Nat) (s : State) (endB : Bool) : endOf (trigger e cause s) endB = endOf s endB :=
  endOf_of_egress (egress_trigger e cause s) endB

/-! The states of R39. -/

/-- A lane that comes up at an end that is DOWN. -/
theorem endUpdate_down_good {endB : Bool} {s : State} (hst : (endOf s endB).st = .down) (hgood : laneGood s endB = true) :
    endOf (endUpdate endB s) endB = { endOf s endB with st := .locked, helloCur := [], helloLast := none } := by
  simp [endUpdate, hst, hgood, setEnd]

/-- What is lost with the link of an end that was UP. -/
theorem endUpdate_up_bad {endB : Bool} {s : State} (hst : (endOf s endB).st = .up) (hgood : laneGood s endB = false) :
    (endOf (endUpdate endB s) endB).st = .down ∧ (endOf (endUpdate endB s) endB).nbr = none ∧ (endOf (endUpdate endB s) endB).buf = []
      ∧ (endOf (endUpdate endB s) endB).rx = none ∧ (endOf (endUpdate endB s) endB).leftUp = some (trainTime s) := by
  have hcut : ∀ t : State, (endOf (cutArriving endB t) endB).rx = none ∧ (endOf (cutArriving endB t) endB).st = (endOf t endB).st := by
    intro t
    unfold cutArriving
    split
    · next hrx => exact ⟨hrx, rfl⟩
    · split
      · simp [endOf_onEnd]
      · simp
  obtain ⟨hrx, hcutst⟩ := hcut (raise (56 + b2n endB) (EndState.up.code * 256 + EndState.down.code) (onEnd endB (fun e => { e with st := .down }) s))
  simp [endUpdate, hst, hgood, setEnd, hrx, hcutst]

/-- An end of a lane with a new status, and what makes that status good. -/
theorem laneGood_onEnd {endB : Bool} {f : CplEnd → CplEnd} {s : State} (hpresent : (f (endOf s endB)).present = (endOf s endB).present) :
    laneGood (onEnd endB f s) endB
      = (lanesOn s && (f (endOf s endB)).signal && (f (endOf s endB)).lock && !(f (endOf s endB)).hiBer && coupled s endB) := by
  have hcoupled : coupled (onEnd endB f s) endB = coupled s endB := by
    simp only [coupled, endOf_onEnd_self, hpresent]
    rfl
  simp only [laneGood, hcoupled, endOf_onEnd_self]
  rfl

/-! Hellos (R37, R38). -/

theorem egress_raise2 (a b c : Nat) (s : State) : egress (raise2 a b c s) = egress s := egress_of_quiet (quiet_raise2 a b c s)

@[simp] theorem endOf_raise2 (a b c : Nat) (s : State) (endB : Bool) : endOf (raise2 a b c s) endB = endOf s endB :=
  endOf_of_egress (egress_raise2 a b c s) endB

/-- A LOCKED end that knows its neighbour is UP. -/
theorem acceptNeighbour_locked {endB : Bool} {badge : Nat} {s : State} (hst : (endOf s endB).st = .locked) :
    (endOf (acceptNeighbour endB badge s) endB).st = .up ∧ (endOf (acceptNeighbour endB badge s) endB).nbr = some badge
      ∧ (endOf (acceptNeighbour endB badge s) endB).prev = some badge := by
  have hset : ∀ t : State, (endOf t endB).st = .locked →
      endOf (setEnd endB .up t) endB = { endOf t endB with st := .up, leftUp := none } := by
    intro t ht
    simp [setEnd, ht]
  unfold acceptNeighbour
  dsimp only
  split
  · rw [hset _ (by simpa using hst)]
    simp
  · split
    · rw [hset _ (by simpa using hst)]
      simp
    · rw [endOf_trigger, endOf_raise2, hset _ (by simpa using hst)]
      simp

theorem helloChunkReceive_second {endB : Bool} {val : Nat} {s : State} (hst : (endOf s endB).st = .locked) (hlanes : lanesOn s = true)
    (hcur : (endOf s endB).helloCur.length = 4) (hlast : (endOf s endB).helloLast = some ((endOf s endB).helloCur ++ [(4, val)])) :
    helloChunkReceive endB 4 val s = acceptNeighbour endB (helloBadge ((endOf s endB).helloCur ++ [(4, val)]))
      (onEnd endB (fun x => { x with
        helloCur := [], helloLast := some ((endOf s endB).helloCur ++ [(4, val)]), nbrFlags := val / 256, nbrTrain := val % 256 }) s) := by
  have hlocked : ((endOf s endB).st == EndState.up) = false := by simp [hst]
  simp [helloChunkReceive, helloComplete, hst, hlanes, hcur, hlast]

/-- Settles O9: each row where its event can happen, the end states by `endUpdate` and the neighbour by the second hello. -/
theorem couplerLink : Obligations.CouplerLink := by
  unfold Obligations.CouplerLink
  refine ⟨?_, ?_, ?_, ?_, ?_, ?_, ?_⟩
  · intro endB level s hoff hreset hpin hlevel
    refine next_eq ?_
    unfold presenceChange
    dsimp only
    split
    · exact absurd ‹_› hoff
    · exact absurd ‹_› hreset
    · rw [onEnd_onEnd]
      simp [hpin, hlevel]
  · intro endB s hst hlanes hcoupled
    refine ⟨_, rfl, ?_⟩
    have hgood : laneGood (onEnd endB (fun e =>
        { e with signal := true, lock := true, hiBer := false, absentAt := none }) s) endB = true := by
      simp [laneGood_onEnd, hlanes, hcoupled]
    have hlocked := endUpdate_down_good (by simpa using hst) hgood
    simp only [laneStatusChange, if_true]
    rw [hlocked, endOf_onEnd_self]
    exact ⟨rfl, rfl, rfl⟩
  · intro endB signal lock hiBer s hst hbad
    refine ⟨_, rfl, endUpdate_up_bad (by simpa using hst) ?_⟩
    rw [laneGood_onEnd (by rfl)]
    grind
  · intro endB a s hleft hline hst hdue
    exact next_eq (by simp [lineLinkTimeout, hleft, hline, hst, hdue])
  · intro endB s hst hlanes hdue hidle
    refine next_eq ?_
    rcases hst with hst | hst <;> simp [helloChunkSend, hst, hlanes, hdue, hidle]
  · intro endB idx val s hst hlanes hidx hcur hlast
    refine next_eq ?_
    have hidx4 : ¬ 4 < idx := by omega
    have hne4 : ¬ idx = 4 := by omega
    rcases hst with hst | hst <;> simp [helloChunkReceive, hst, hlanes, hcur, hlast, hidx4, hne4]
  · intro endB val s hst hlanes hcur hlast
    refine ⟨_, next_eq (helloChunkReceive_second hst hlanes hcur hlast), ?_⟩
    obtain ⟨hup, hnbr, hprev⟩ := acceptNeighbour_locked (endB := endB) (badge := helloBadge ((endOf s endB).helloCur ++ [(4, val)]))
      (s := onEnd endB (fun x => { x with
        helloCur := [], helloLast := some ((endOf s endB).helloCur ++ [(4, val)]), nbrFlags := val / 256, nbrTrain := val % 256 }) s)
      (by simpa using hst)
    exact ⟨hup, hnbr, hprev.trans hnbr.symm⟩

end Sys2Proof.Laws
end

section
/-!
Open frames at header time and at their badge, and the tail checks of a frame.
-/

namespace Sys2Proof.Laws

open Sys2Proof Sys2Proof.Machine

/-- An open header is held, and its decision waits for the badge. -/
theorem frameHeader_open {endB : Bool} {h : Hdr} {s : State} (hup : (endOf s endB).st = .up) (hrx : (endOf s endB).rx = none)
    (hfwd : forwards s = true) (hadm : h.adm = 0) : frameHeader endB h s = headerHeld endB h s := by
  simp [frameHeader, hup, hrx, hfwd, hadm, headerHeld, arriving]

/-- Settles O13: the open frame is held undecided, and its badge decides as a header does. -/
theorem openFrames : Obligations.OpenFrames := by
  unfold Obligations.OpenFrames
  refine ⟨?_, ?_⟩
  · intro endB h s hup hrx hfwd hadm
    refine ⟨_, next_eq (frameHeader_open hup hrx hfwd hadm), arriving h s, headerHeld_rx endB h s, rfl, rfl, rfl⟩
  · intro endB badge r s hrx hadm hbadge
    exact next_eq (by simp [openFrameBadge, hrx, hadm, hbadge])

/-! Tail checks. -/

theorem tailChecks_errBlock {endB bad : Bool} {body : List Byte} {tag : BitVec 128} {fcs : BitVec 32} {r : RxFrame} {s : State}
    (hdec : r.dec ≠ .returned) :
    tailChecks endB r body tag fcs true bad s = poisonCopy endB r false (when' (r.dec != .poisonedIn) (cntEnd endB 5) (cntEnd endB 13 s)) := by
  simp [tailChecks, hdec, when']

theorem tailChecks_errBlock_returned {endB bad : Bool} {body : List Byte} {tag : BitVec 128} {fcs : BitVec 32} {r : RxFrame} {s : State}
    (hdec : r.dec = .returned) : tailChecks endB r body tag fcs true bad s = s := by
  simp [tailChecks, hdec]

theorem fcsPasses_of_bad {h : Hdr} {body : List Byte} {tag : BitVec 128} {fcs : BitVec 32}
    (hbad : fcs ≠ fcsOf h body tag ∨ body.length ≠ max h.len 12) : fcsPasses h body tag fcs = false := by
  rcases hbad with hbad | hbad <;> simp [fcsPasses, hbad]

/-- The checks of a frame without an error block, past the FCS and the length. -/
theorem tailChecks_key {endB : Bool} {body : List Byte} {tag : BitVec 128} {k : Nat} {r : RxFrame} {s : State}
    (hpoison : r.hdr.poison = false) (hlen : body.length = max r.hdr.len 12) (hkey : tailKey s r.hdr = some k) :
    tailChecks endB r body tag (fcsOf r.hdr body tag) false false s
      = if tag == tagOf k r.hdr (body.take r.hdr.len) then tailPassed endB r (confText k r.hdr (body.take r.hdr.len)) s
        else when' (!(s.inaug.role == .guest && s.sec.keys.isEmpty)) (poisonCopy endB r true) (tailFail endB 2 (cntEnd endB 4 s)) := by
  simp only [tailChecks, hpoison, fcsPasses_fcsOf hlen, hkey, Bool.or_self, Bool.not_true, Bool.false_eq_true, if_false, when']
  split
  · rfl
  · cases s.inaug.role == .guest && s.sec.keys.isEmpty <;> rfl

@[simp] theorem tailTaken_inaug (endB : Bool) (r : RxFrame) (body : List Byte) (tag : BitVec 128) (s : State) :
    (tailTaken endB r body tag s).inaug = s.inaug := by
  unfold tailTaken modCopy
  split <;> rfl

/-- Settles O14: each check in its order, on the frame that has left its end. -/
theorem frameTails : Obligations.FrameTails := by
  unfold Obligations.FrameTails
  refine ⟨?_, ?_, ?_, ?_, ?_⟩
  · intro endB body tag fcs bad r s hrx hdec
    rw [exec_frameTail hrx, tailChecks_errBlock hdec]
  · intro endB body tag fcs bad r s hrx hdec
    rw [exec_frameTail hrx, tailChecks_errBlock_returned hdec]
  · intro endB body tag fcs r s hrx hpoison hbad
    rw [exec_frameTail hrx]
    simp [tailChecks, hpoison, fcsPasses_of_bad hbad, when']
  · intro endB body tag k r s hrx hpoison hlen hkey htag
    rw [exec_frameTail hrx, tailChecks_key hpoison hlen (by simpa using hkey), if_neg (by simpa using htag), tailTaken_inaug, tailTaken_sec]
  · intro endB body tag k r s hrx hpoison hlen hkey htag
    rw [exec_frameTail hrx, tailChecks_key hpoison hlen (by simpa using hkey), if_pos (by simpa using htag)]

/-! Timers of the lane (R60, R70, R79, R101). -/

@[simp] theorem laneHealth_lane (c : Nat) (y : Bool) (a n : Nat) (s : State) : (laneHealth c y a n s).lane = s.lane :=
  raiseFirst_lane _ _ _ _

theorem lane_each {α : Type} (l : List α) (f : α → State → State) (h : ∀ a s, (f a s).lane = s.lane) (s : State) :
    (each l f s).lane = s.lane := by
  unfold each
  induction l generalizing s with
  | nil => rfl
  | cons a l ih => rw [List.foldl_cons, ih, h]

/-- Every due SEQ of every source settles; the lanes' health is reported beside it. -/
theorem pairSettlement_src {s : State} (hplan : planLoaded s = true) :
    (pairSettlement s).lane.src = s.lane.src.map fun e => (settleEntry (pPairH s) (trainTime s / cycleP s * cycleP s) e).1 := by
  simp only [pairSettlement, hplan, Bool.not_true, Bool.false_eq_true, if_false]
  rw [lane_each]
  · simp
  · intro k t
    split
    · rfl
    · exact laneHealth_lane _ _ _ _ _

/-- Settles O16: what each timer releases, where its time has come. -/
theorem laneTimers : Obligations.LaneTimers := by
  unfold Obligations.LaneTimers
  refine ⟨?_, ?_, ?_, ?_⟩
  · intro endB w rest s hbuf hfree hmax
    refine next_eq ?_
    simp [passBufferRelease, hbuf, Nat.not_lt.2 hfree, Nat.not_lt.2 hmax]
  · exact fun s => rfl
  · intro badge e s hfind hsilent
    exact next_eq (by simp [openEntryRelease, hfind, hsilent])
  · exact fun s hplan => ⟨_, rfl, pairSettlement_src hplan⟩

end Sys2Proof.Laws
end

section
/-!
The launches of frames, of their second copies and of cyclic images.
-/

namespace Sys2Proof.Laws

open Sys2Proof Sys2Proof.Machine

theorem turns_ne_nil_of_firstTurn {blocked : Nat → Bool} {ts : List Turn} {x : Turn} (h : firstTurn blocked ts = some x) : ts ≠ [] := by
  rintro rfl
  exact absurd h (by simp [firstTurn])

/-- The frame whose turn it is is committed, and leaves the place where it waited. -/
theorem launchTurns_commits {o : Occ} {n : Nat} {x : Turn} {s s2 : State} (hturn : firstTurn (blockedAll s o) (turns s o) = some x)
    (hspecial : x.frame.prio = 7 → behindSpecial s o x.at_ = false) (hroom : roomLeft s o x.frame.payload.length = true)
    (hcommit : commit x.frame o false s = some s2) : launchTurns o (n + 1) s = takeCand x.cand s2 := by
  have hfree : (x.frame.prio == 7 && behindSpecial s o x.at_) = false := by
    by_cases hprio : x.frame.prio = 7
    · simp [hspecial hprio]
    · simp [hprio]
  simp only [launchTurns, hturn, hfree, hroom, hcommit, Bool.not_true, Bool.false_eq_true, if_false]

theorem frameLaunch_commits {o : Occ} {x : Turn} {s : State} (hocc : occNow s = some o) :
    ∀ s1, s1 = packEvents o (enterOcc o s) → firstTurn (blockedAll s1 o) (turns s1 o) = some x → deadlineOk s1 o = true →
    (x.frame.prio = 7 → behindSpecial s1 o x.at_ = false) → roomLeft s1 o x.frame.payload.length = true →
    ∀ s2, commit x.frame o false s1 = some s2 → frameLaunch s = takeCand x.cand s2 := by
  rintro s1 rfl hturn hdeadline hspecial hroom s2 hcommit
  have hsome : (turns (packEvents o (enterOcc o s)) o).isEmpty = false := by
    simpa using turns_ne_nil_of_firstTurn hturn
  simp only [frameLaunch, hocc, hsome, hdeadline, Bool.not_true, Bool.false_and, Bool.false_eq_true, if_false]
  exact launchTurns_commits hturn hspecial hroom hcommit

/-- The owner's send buffer is committed in its occurrence. -/
theorem cyclicLaunch_commits {entry : Nat} {o : Occ} {i : Image} {s s1 : State}
    (hocc : occFind s (fun e => enCyclic e && enOwner e == s.sys.badge) = some o) (hidx : o.idx = entry)
    (honce : s.lane.cyclicOcc ≠ some o.start) (hadmitted : admitted s = true) (hdev : s.sys.dev = .running) (homitted : s.inaug.omitted = 0)
    (hdeadline : deadlineOk s o = true) (hroom : roomLeft s o (8 + enImgLen o.e) = true)
    (himg : s.plan.images.find? (fun i => i.entry == entry && i.out) = some i) (hbind : (imgBind s entry).1 = true)
    (hsound : (loftCheck (imgBuf s i i.ready) i.len 0 s).1 = true)
    (hcommit : commit { ftype := ftCyclic, prio := 6, grp := enDest o.e == 2, all := enDest o.e != 2,
                        dst := if enDest o.e = 2 then 0x3F00 + enGroup o.e else 0x3FFF, open_ := false, tag := .plain,
                        payload := beBytes 4 i.pubSeq ++ beBytes 4 0
                          ++ loftBytes (imgBuf s i i.ready) i.len (loftCheck (imgBuf s i i.ready) i.len 0 s).2 }
      o false (loftCheck (imgBuf s i i.ready) i.len 0 s).2 = some s1) :
    cyclicLaunch entry s = modImg entry true (fun _ => { i with stamp := stampNow s, cycle := o.cycle, adm := s.inaug.adm })
      (s1.onLane fun l => { l with cyclicOcc := some o.start }) := by
  have hother : (s.lane.cyclicOcc == some o.start) = false := by simpa using honce
  have hdest : (if enDest o.e = 2 then 0x3F00 + enGroup o.e else 0x3FFF) = if (enDest o.e == 2) = true then 0x3F00 + enGroup o.e else 0x3FFF := by
    simp only [beq_iff_eq]
  rw [hdest, show (enDest o.e != 2) = !(enDest o.e == 2) from rfl] at hcommit
  simp only [cyclicLaunch, hocc, hidx, hother, hadmitted, hdev, homitted, hdeadline, hroom, himg, hbind, hsound, bne_self_eq_false, Bool.not_true,
    Bool.or_self, Bool.false_eq_true, if_false, if_true]
  rw [hcommit]

/-- Settles O17: a launch by the frame's turn, a copy at its end, and an image by its owner. -/
theorem launches : Obligations.Launches := by
  unfold Obligations.Launches
  refine ⟨?_, ?_, ?_⟩
  · intro o x s s2 hocc hturn hdeadline hspecial hroom hcommit
    exact next_eq (frameLaunch_commits hocc _ rfl hturn hdeadline hspecial hroom _ hcommit)
  · intro endB c s hfind hup hroom hidle hmay
    exact next_eq (by simp [frameCopyLaunch, hfind, hup, Nat.not_lt.2 hroom, hidle, hmay])
  · intro entry o i s s1 hocc hidx honce hadmitted hdev homitted hdeadline hroom himg hbind hsound hcommit
    exact next_eq (cyclicLaunch_commits hocc hidx honce hadmitted hdev homitted hdeadline hroom himg hbind hsound hcommit)

end Sys2Proof.Laws
end

section
/-!
The stall engine: silence, cyclic occurrences, image copies, cycle marks, strobes, and the boundary of a basic cycle.
-/

namespace Sys2Proof.Laws

open Sys2Proof Sys2Proof.Machine

/-! What the boundary's duties leave of the commands' queue and of the plan's cycle (R162). -/

/-- The commands' queue and the plan's cycle. -/
def cmdCycle (s : State) : CmdSt × Nat := (s.cmd, s.plan.cycle)

theorem cmdCycle_of_quiet {s t : State} (h : quiet t = quiet s) : cmdCycle t = cmdCycle s := by
  simp only [cmdCycle, cmd_of_quiet h, plan_of_quiet h]

theorem cmdCycle_each {α : Type} {l : List α} {f : α → State → State} (h : ∀ a s, cmdCycle (f a s) = cmdCycle s) (s : State) :
    cmdCycle (each l f s) = cmdCycle s := by
  unfold each
  induction l generalizing s with
  | nil => rfl
  | cons a r ih => simp only [List.foldl_cons, ih, h]

@[simp] theorem cmdCycle_ite (c : Prop) [Decidable c] (s t : State) : cmdCycle (if c then s else t) = if c then cmdCycle s else cmdCycle t :=
  apply_ite cmdCycle c s t

@[simp] theorem cmdCycle_onRef (s : State) (f) : cmdCycle (s.onRef f) = cmdCycle s := rfl
@[simp] theorem cmdCycle_onTeth (s : State) (f) : cmdCycle (s.onTeth f) = cmdCycle s := rfl
@[simp] theorem cmdCycle_onFld (s : State) (f) : cmdCycle (s.onFld f) = cmdCycle s := rfl
@[simp] theorem cmdCycle_onClk (s : State) (f) : cmdCycle (s.onClk f) = cmdCycle s := rfl
@[simp] theorem cmdCycle_onCtr (s : State) (f) : cmdCycle (s.onCtr f) = cmdCycle s := rfl
@[simp] theorem cmdCycle_cntTime (i : Nat) (s : State) : cmdCycle (cntTime i s) = cmdCycle s := rfl
@[simp] theorem cmdCycle_cntGrp (g i : Nat) (s : State) : cmdCycle (cntGrp g i s) = cmdCycle s := rfl
@[simp] theorem cmdCycle_modGrp (g : Nat) (f : FGroup → FGroup) (s : State) : cmdCycle (modGrp g f s) = cmdCycle s := rfl
@[simp] theorem cmdCycle_fieldSettle (s : State) : cmdCycle (fieldSettle s) = cmdCycle s := rfl
@[simp] theorem cmdCycle_logImage (s : State) : cmdCycle (logImage s) = cmdCycle s := rfl
@[simp] theorem cmdCycle_raise (a b : Nat) (s : State) : cmdCycle (raise a b s) = cmdCycle s := cmdCycle_of_quiet (quiet_raise a b s)

@[simp] theorem cmdCycle_setFitBit (i : Nat) (v : Bool) (s : State) : cmdCycle (setFitBit i v s) = cmdCycle s := by
  simp [setFitBit, setFit]

@[simp] theorem cmdCycle_refDuty (s : State) : cmdCycle (refDuty s) = cmdCycle s := by
  simp [refDuty, when']

@[simp] theorem cmdCycle_tetherDuty (u : Bool) (s : State) : cmdCycle (tetherDuty u s) = cmdCycle s := by
  simp [tetherDuty, tetherFaultEnd]

@[simp] theorem cmdCycle_shadowDuty (s : State) : cmdCycle (shadowDuty s) = cmdCycle s :=
  cmdCycle_each (fun i t => by simp) s

@[simp] theorem cmdCycle_delayDuty (cycle : Nat) (s : State) : cmdCycle (delayDuty cycle s) = cmdCycle s :=
  cmdCycle_each (fun _ t => cmdCycle_cntTime 10 t) _

@[simp] theorem cmdCycle_rateDuty (s : State) : cmdCycle (rateDuty s) = cmdCycle s := by
  simp [rateDuty, plantRate, setRate]

@[simp] theorem cmdCycle_leaseDuty (s : State) : cmdCycle (leaseDuty s) = cmdCycle s :=
  cmdCycle_each (fun g t => by split <;> rfl) _

@[simp] theorem cmdCycle_fwTake (g : Nat) (s : State) : cmdCycle (fwTake g s) = cmdCycle s := by
  simp [fwTake, ownEvent]

/-- The duties move the plan's cycle on, and leave the commands' queue. -/
theorem cmdCycle_boundaryDuties (s : State) : cmdCycle (boundaryDuties s) = (s.cmd, trainTime s / cycleP s) := by
  unfold boundaryDuties
  dsimp only
  rw [cmdCycle_each cmdCycle_fwTake, cmdCycle_leaseDuty, cmdCycle_rateDuty, cmdCycle_delayDuty, cmdCycle_shadowDuty, cmdCycle_tetherDuty,
    cmdCycle_refDuty]
  rfl

theorem basicCycleBoundary_idle {s : State} (hfw : fwRuns s = true) (hplan : planLoaded s = true)
    (hcycle : trainTime s / cycleP s ≠ s.plan.cycle) (hstop : s.cmd.stopping = none) (hcommit : s.cmd.commitWait = none)
    (hwaiting : s.cmd.waiting = []) : basicCycleBoundary s = boundaryDuties s := by
  have hcmd : (boundaryDuties s).cmd = s.cmd := congrArg Prod.fst (cmdCycle_boundaryDuties s)
  have hfinish : finishStop (boundaryDuties s) = boundaryDuties s := by simp [finishStop, hcmd, hstop]
  have hlost : commitLost (boundaryDuties s) = boundaryDuties s := by simp [commitLost, hcmd, hcommit]
  have hnext : (planLoaded s && trainTime s / cycleP s != s.plan.cycle) = true := by simp [hplan, hcycle]
  simp only [basicCycleBoundary, hfw, hnext, hfinish, hlost, Bool.not_true, Bool.false_eq_true, if_false, if_true]
  exact drain_none_waiting 9 (by rw [hcmd, hwaiting])

theorem onTrain_serialDone (f : CmdSt → CmdSt) (s : State) : onTrain (serialDone (s.onCmd f)) = onTrain s := rfl

/-- A STOP whose cycle has passed takes effect at the boundary (R26). -/
theorem basicCycleBoundary_stops {c : Ctx} {old : Nat} {s : State} (hfw : fwRuns s = true) (htrain : onTrain s = true)
    (hcycle : trainTime s / cycleP s = s.plan.cycle) (hstop : s.cmd.stopping = some (c, old)) (hold : s.plan.cycle ≠ old) :
    basicCycleBoundary s
      = drain 9 (commitLost (replyOk c [] (stopNow (serialDone (s.onCmd fun q => { q with stopping := none }))))) := by
  have hnext : (planLoaded s && trainTime s / cycleP s != s.plan.cycle) = false := by simp [hcycle]
  have hother : (s.plan.cycle == old) = false := by simpa using hold
  simp only [basicCycleBoundary, hfw, hnext, finishStop, hstop, hother, onTrain_serialDone, htrain, Bool.not_true, Bool.false_eq_true,
    if_false, if_true]

/-! Cyclic occurrences (R182). -/

/-- The checks of an occurrence whose end is now, and that has not been checked. -/
theorem cyclicOccurrenceCheck_due {entry st : Nat} {e : List Word} {i : Image} {s : State} (hentry : s.plan.entries[entry]? = some e)
    (himg : s.plan.images.find? (fun i => i.entry == entry && !i.out) = some i) (hlast : lastOcc s e = some st) (htrain : onTrain s = true)
    (hbound : errBound s ≠ none) (hcyclic : enCyclic e = true) (hother : enOwner e ≠ s.sys.badge) (hdest : destHere s e = true)
    (hchecked : i.checked ≠ some st) (hnow : checkNow s e st = true) (hcar : (carOfBadge s (enOwner e)).isSome = true) :
    cyclicOccurrenceCheck entry s
      = if i.got.contains st then imageFlags entry false false (modImg entry false (fun i => { i with checked := some st }) s)
        else imageFlags entry true i.absent (raiseFirst 8200 82 (enStall e * 256 + cycleOf s st) (cntStall 3
          (modImg entry false (fun i => { i with checked := some st }) s))) := by
  have hnone : (carOfBadge s (enOwner e)).isNone = false := by
    cases h : carOfBadge s (enOwner e) <;> simp_all
  have hbad : (!onTrain s || (errBound s).isNone || !enCyclic e || enOwner e == s.sys.badge || !destHere s e || i.checked == some st
      || !checkNow s e st) = false := by
    simp [htrain, Option.ne_none_iff_isSome.1 hbound, hcyclic, hother, hdest, hchecked, hnow]
  simp only [cyclicOccurrenceCheck, hentry, himg, hlast, hbad, hnone, Bool.false_eq_true, if_false]

/-! Cycle marks (R170, R185). -/

/-- The marks before m that are due at its instant come first, in their order. -/
theorem cycleMarkFire_due {m : Nat} {s : State} (hdue : markDue s m = true) (before : List Nat)
    (hbefore : ((List.range m).filter fun k => markDue s k && markInstant s (markRec s k) (trainTime s) == markInstant s (markRec s m) (trainTime s))
      = before) : cycleMarkFire m s = each (before ++ [m]) fireMark s := by
  simp only [cycleMarkFire, hdue, hbefore, if_true]

theorem filter_range_eq_singleton {m k : Nat} {p : Nat → Bool} (hk : k < m) (hp : p k = true) (honly : ∀ j, j < m → j ≠ k → p j = false) :
    (List.range m).filter p = [k] := by
  have hcongr : (List.range m).filter p = (List.range m).filter fun j => j == k := by
    refine List.filter_congr fun j hj => ?_
    by_cases hjk : j = k
    · simp [hjk, hp]
    · simp [hjk, honly j (List.mem_range.1 hj) hjk]
  rw [hcongr, List.filter_beq, List.count_eq_one_of_mem List.nodup_range (List.mem_range.2 hk)]
  rfl

/-! STOP (R396). -/

theorem cmdStop_onTrain {c : Ctx} {s : State} (h : onTrain s = true) :
    cmdStop c s = (holdSerial c s).onCmd fun q => { q with stopping := some (c, s.plan.cycle) } := by
  simp [cmdStop, h]

theorem cmdStop_test {c : Ctx} {s : State} (h : s.sys.dev = .test) : cmdStop c s = replyOk c [] (stopNow s) := by
  simp [cmdStop, onTrain, h]

theorem exec_stop {via : Via} {s : State} (h : cmdRuns 0x008 1 .operate via s = true) :
    exec (.stop via) s = .next (cmdStop (cmdOf 0x008 via s) (takenBy 0x008 via s)) :=
  next_eq (firmware_runs h)

/-- Settles O19: each duty of the engine where it is due. -/
theorem stallEngine : Obligations.StallEngine := by
  unfold Obligations.StallEngine
  refine ⟨?_, ?_, ?_, ?_, ?_, ?_, ?_, ?_, ?_, ?_, ?_⟩
  · intro s hplan htrain hcross
    refine next_eq ?_
    simp [ebLimitCrossing, hplan, htrain, ← hcross]
  · intro entry e i st s hentry himg hlast htrain hbound hcyclic hother hdest hchecked hnow hcar hgot
    refine next_eq ?_
    rw [cyclicOccurrenceCheck_due hentry himg hlast htrain hbound hcyclic hother hdest hchecked hnow hcar, if_pos hgot]
  · intro entry e i st s hentry himg hlast htrain hbound hcyclic hother hdest hchecked hnow hcar hgot
    refine next_eq ?_
    rw [cyclicOccurrenceCheck_due hentry himg hlast htrain hbound hcyclic hother hdest hchecked hnow hcar, hgot, if_neg Bool.false_ne_true]
  · intro entry i d s himg hcopying hfrozen
    refine next_eq ?_
    simp only [imageCopyComplete, himg, hcopying, hfrozen, Bool.false_eq_true, if_false]
  · intro m s hplan htrain henabled hin hinstant hfired hpassed hearlier
    refine next_eq ?_
    have hdue : markDue s m = true := by
      have hunfired : (s.plan.fired.getD m 0 != trainTime s / cycleP s + 1) = true := bne_iff_ne.2 hfired
      simp only [markDue, hplan, htrain, henabled, hin, ← hinstant, hunfired, hpassed, beq_self_eq_true, Bool.true_or, Bool.and_self, Bool.not_false]
    have hnone : ((List.range m).filter fun k => markDue s k
        && markInstant s (markRec s k) (trainTime s) == markInstant s (markRec s m) (trainTime s)) = [] := by
      refine List.filter_eq_nil_iff.2 fun k hk => ?_
      simp [hearlier k (List.mem_range.1 hk)]
    rw [cycleMarkFire_due hdue [] hnone]
    show fireMark m s = _
    simp only [fireMark, ← hinstant]
  · intro k m s hkm hdue hduek hsame honly
    refine next_eq ?_
    rw [cycleMarkFire_due hdue [k] (filter_range_eq_singleton hkm (by simp [hduek, hsame]) fun j hj hjk => by simp [honly j hj hjk])]
    rfl
  · intro s
    refine ⟨_, rfl, rfl, fun x hx => List.mem_append_left _ hx, fun m a hsoon hskips => ?_⟩
    have hstrobe : Strobe.mk (.mark m) a (markMask s m) (imageAt s (a - 10000)).1 ∈ strobesDue s :=
      List.mem_append_left _ (List.mem_map.2 ⟨(m, a), List.mem_filter.2 ⟨hsoon, by simp [hskips]⟩, rfl⟩)
    by_cases hissued : Strobe.mk (.mark m) a (markMask s m) (imageAt s (a - 10000)).1 ∈ s.plan.strobes
    · exact List.mem_append_left _ hissued
    · exact List.mem_append_right _ (List.mem_filter.2 ⟨hstrobe, by simp [hissued]⟩)
  · intro s hfw hplan hcycle hstop hcommit hwaiting
    exact ⟨next_eq (basicCycleBoundary_idle hfw hplan hcycle hstop hcommit hwaiting), congrArg Prod.snd (cmdCycle_boundaryDuties s)⟩
  · exact fun c old s hfw htrain hcycle hstop hold => next_eq (basicCycleBoundary_stops hfw htrain hcycle hstop hold)
  · intro via s hruns htrain
    rw [exec_stop hruns, cmdStop_onTrain (by simpa [onTrain] using htrain), takenBy_plan]
  · intro via s hruns htest
    rw [exec_stop hruns, cmdStop_test (by simpa using htest)]

end Sys2Proof.Laws
end

section
/-!
REFERENCE, SHADOW and DELAY frames.
-/

namespace Sys2Proof.Laws

open Sys2Proof Sys2Proof.Machine

/-- The master has a REFERENCE to send in this basic cycle (R125). -/
theorem referenceSend_due {s : State} (hmaster : s.clk.st = .master) (homitted : s.inaug.omitted = 0) (hplan : planLoaded s = true)
    (hskipped : s.ref.skipped ≠ trainTime s / cycleP s + 1) :
    (s.clk.st != .master || s.inaug.omitted != 0 || !planLoaded s || s.ref.skipped == trainTime s / cycleP s + 1) = false := by
  simp [hmaster, homitted, hplan, hskipped]

/-- Settles O20: each frame in its stall, and a REFERENCE that no longer fits. -/
theorem timeFrames : Obligations.TimeFrames := by
  unfold Obligations.TimeFrames
  refine ⟨?_, ?_, ?_, ?_, ?_⟩
  · intro o s s1 hmaster homitted hplan hskipped hocc hroom hcommit habdicate
    refine next_eq ?_
    simp only [referenceSend, referenceSend_due hmaster homitted hplan hskipped, hocc, hroom, hcommit, habdicate, Bool.not_true,
      Option.isSome_none, Bool.false_eq_true, if_false]
  · intro s homitted
    exact next_eq (by simp [referenceSend, homitted])
  · intro o s hmaster homitted hplan hskipped hocc hroom
    refine next_eq ?_
    simp only [referenceSend, referenceSend_due hmaster homitted hplan hskipped, hocc, hroom, Bool.not_false, Bool.false_eq_true, if_false,
      if_true]
  · intro o s s1 hocc hrole hlocked homitted htrain hat hdeadline hcommit
    refine next_eq ?_
    have hother : (s.ref.shadowAt == some o.start) = false := by simpa using hat
    simp only [shadowSend, hocc, hrole, hlocked, homitted, htrain, hother, hdeadline, bne_self_eq_false, Bool.not_true, Bool.or_self,
      Bool.false_eq_true, if_false]
    rw [hcommit]
  · intro o dst s s1 hocc hmaster hdc hadmitted htrain homitted hst hat hdeadline hcommit
    refine next_eq ?_
    have hactive : (s.teth.dc == .acquiring || s.teth.dc == .dcLocked) = true := by simpa using hdc
    have hnotMaster : (s.clk.st == .master) = false := by simpa using hst
    have hother : (s.teth.delayAt == some o.start) = false := by simpa using hat
    simp only [delaySend, hocc, hmaster, hactive, hadmitted, htrain, homitted, hnotMaster, hother, hdeadline, bne_self_eq_false,
      Bool.not_true, Bool.or_self, Bool.false_eq_true, if_false]
    rw [hcommit]

end Sys2Proof.Laws
end

section
/-!
Holdover, the self-checks, the tether line, and claims of mastery.
-/

namespace Sys2Proof.Laws

open Sys2Proof Sys2Proof.Machine

/-- What a change of the time state leaves: the clock's rate and its corrections, the driven tether, the master and this car's badge. -/
structure Held where
  rate : Int
  freq : Int
  theta : Int
  phase : Int
  tdrive : Bool
  holdCycles : Nat
  mbadge : Nat
  badge : Nat

def held (s : State) : Held :=
  { rate := s.clk.rate, freq := s.clk.freq, theta := s.clk.theta, phase := s.clk.phase, tdrive := s.teth.tdrive,
    holdCycles := s.teth.holdCycles, mbadge := s.ref.mbadge, badge := s.sys.badge }

theorem held_of_quiet {s t : State} (h : quiet t = quiet s) : held t = held s := by
  have e := congrArg held h
  exact e

theorem st_of_quiet {s t : State} (h : quiet t = quiet s) : t.clk.st = s.clk.st := by
  have e := congrArg (fun x : State => x.clk.st) h
  exact e

@[simp] theorem held_ite (c : Prop) [Decidable c] (s t : State) : held (if c then s else t) = if c then held s else held t :=
  apply_ite held c s t

@[simp] theorem held_raise (a b : Nat) (s : State) : held (raise a b s) = held s := held_of_quiet (quiet_raise a b s)
@[simp] theorem held_clockMark (c : Nat) (s : State) : held (clockMark c s) = held s := held_of_quiet (quiet_clockMark c s)
@[simp] theorem held_logImage (s : State) : held (logImage s) = held s := rfl
@[simp] theorem st_raise (a b : Nat) (s : State) : (raise a b s).clk.st = s.clk.st := st_of_quiet (quiet_raise a b s)
@[simp] theorem st_clockMark (c : Nat) (s : State) : (clockMark c s).clk.st = s.clk.st := st_of_quiet (quiet_clockMark c s)
@[simp] theorem st_logImage (s : State) : (logImage s).clk.st = s.clk.st := rfl

@[simp] theorem held_plantEnd (s : State) : held (plantEnd s) = held s := by
  simp only [plantEnd, held_ite, held_raise]
  exact ite_self _

@[simp] theorem st_plantEnd (s : State) : (plantEnd s).clk.st = s.clk.st := by
  simp [plantEnd, apply_ite State.clk, apply_ite Clock.st]

@[simp] theorem held_setTState (t : TState) (s : State) : held (setTState t s) = held s := by
  simp only [setTState, held_ite, held_plantEnd, held_raise, held_logImage, held_clockMark, ite_self]
  exact ite_self _

@[simp] theorem st_setTState (t : TState) (s : State) : (setTState t s).clk.st = t := by
  unfold setTState
  dsimp only
  split
  · next h => exact beq_iff_eq.1 h
  · simp [apply_ite State.clk, apply_ite Clock.st]

@[simp] theorem held_adoptEpoch (e : Nat) (s : State) : held (adoptEpoch e s) = held s := by
  simp only [adoptEpoch, epochMark, held_ite, held_raise, held_clockMark]
  exact ite_self _

@[simp] theorem held_routeCalc (s : State) : held (routeCalc s) = held s := by
  unfold routeCalc
  dsimp only
  split <;> rfl

@[simp] theorem st_routeCalc (s : State) : (routeCalc s).clk.st = s.clk.st := by
  unfold routeCalc
  dsimp only
  split <;> rfl

/-- What a change of a drive car's state leaves (R146). -/
theorem driveRestart_cases (s : State) : ∃ d, driveRestart s = s.onTeth (fun t => { t with dc := d, exch := [], exchN := 0 })
    ∨ ∃ n, driveRestart s = raise 79 n (s.onTeth fun t => { t with dc := d, exch := [], exchN := 0 }) := by
  unfold driveRestart
  extract_lets new s1
  refine ⟨new, ?_⟩
  clear_value new
  split
  · exact .inl rfl
  · split
    · exact .inl rfl
    · exact .inr ⟨8, rfl⟩
    · exact .inr ⟨6, rfl⟩
    · exact .inl rfl

@[simp] theorem held_driveRestart (s : State) : held (driveRestart s) = held s := by
  obtain ⟨d, h | ⟨n, h⟩⟩ := driveRestart_cases s
  · rw [h]
    rfl
  · rw [h, held_raise]
    rfl

@[simp] theorem st_driveRestart (s : State) : (driveRestart s).clk.st = s.clk.st := by
  obtain ⟨d, h | ⟨n, h⟩⟩ := driveRestart_cases s
  · rw [h]
    rfl
  · rw [h, st_raise]
    rfl

/-! Holdover (R124, R137). -/

theorem holdoverEntry_due {s : State} (hlocked : s.clk.st = .locked) (hmissed : 3 ≤ s.ref.missRun) :
    holdoverEntry s = raise 73 (min s.ref.missRun 255) (setTState .holdover
      (((setRate s.clk.freq s).onClk fun k => { k with theta := thetaLeft s, phase := 0, slewing := false }).onTeth fun t =>
        { t with holdCycles := 0, eligible := 0 })) := by
  simp [holdoverEntry, hlocked, hmissed]

/-- A new master: its state, the tether that it drives, and its rate. -/
theorem becomeMaster_master (keep : Bool) (s : State) :
    (becomeMaster keep s).clk.st = .master ∧ (becomeMaster keep s).teth.tdrive = true ∧ (becomeMaster keep s).ref.mbadge = s.sys.badge
      ∧ (becomeMaster keep s).clk.rate = s.clk.freq := by
  unfold becomeMaster
  extract_lets s1 s2 s3 s4 s5
  have h2 : held s2 = held s1 := by
    show held (if keep then s1 else adoptEpoch ((s1.clk.tepoch + 1) % 256) s1) = held s1
    rw [held_ite, held_adoptEpoch, ite_self]
  have h3 : held s3 = held (setRate s2.clk.freq s2) := held_setTState _ _
  have h5 : held s5 = held s4 := by
    show held (driveRestart (routeCalc s4)) = held s4
    rw [held_driveRestart, held_routeCalc]
  have hst : s5.clk.st = .master := by
    show (driveRestart (routeCalc s4)).clk.st = .master
    rw [st_driveRestart, st_routeCalc]
    exact st_setTState .master _
  have hrate : s5.clk.rate = s.clk.freq :=
    (congrArg Held.rate h5).trans ((congrArg Held.rate h3).trans (congrArg Held.freq h2))
  have hdrive : s5.teth.tdrive = true :=
    (congrArg Held.tdrive h5).trans ((congrArg Held.tdrive h3).trans (congrArg Held.tdrive h2))
  have hbadge : s5.ref.mbadge = s.sys.badge :=
    (congrArg Held.mbadge h5).trans ((congrArg Held.badge h3).trans (congrArg Held.badge h2))
  have hraised := held_raise 75 (s5.inaug.adm * 65536 + ownMrole s5) (s5.onClk fun k => { k with phase := 0, slewing := false })
  refine ⟨by rw [st_raise]; exact hst, (congrArg Held.tdrive hraised).trans hdrive, (congrArg Held.mbadge hraised).trans hbadge,
    (congrArg Held.rate hraised).trans hrate⟩

/-- Settles O21: each row in the state in which it acts. -/
theorem timeWatch : Obligations.TimeWatch := by
  unfold Obligations.TimeWatch
  refine ⟨?_, ?_, ?_, ?_, ?_, ?_, ?_, ?_, ?_, ?_, ?_, ?_⟩
  · intro s hlocked hmissed
    refine ⟨_, next_eq (holdoverEntry_due hlocked hmissed), ?_⟩
    have hheld := held_setTState .holdover (((setRate s.clk.freq s).onClk fun k =>
      { k with theta := thetaLeft s, phase := 0, slewing := false }).onTeth fun t => { t with holdCycles := 0, eligible := 0 })
    rw [← held_raise 73 (min s.ref.missRun 255)] at hheld
    refine ⟨by simp, congrArg Held.rate hheld, congrArg Held.theta hheld, congrArg Held.phase hheld, congrArg Held.holdCycles hheld⟩
  · intro s hfw hsec
    exact next_eq (by simp [wholeSecondMark, hfw, hsec])
  · intro s hfw hmaster
    exact next_eq (by simp [refclkFault, selfCheckFail, hfw, hmaster])
  · intro s hfw hmaster
    exact next_eq (by simp [refclkFault, selfCheckFail, hfw, hmaster])
  · intro diff s hfw hmaster hdiff
    exact next_eq (by simp [stampSelfCheck, selfCheckFail, hfw, hmaster, Nat.not_le.2 hdiff])
  · intro diff s hfw hdiff
    exact next_eq (by simp [stampSelfCheck, checkBarred, selfCheckPass, hfw, hdiff])
  · intro s hlanes htether
    refine next_eq ?_
    simp [tetherChange, hlanes, htether, onTeth_onTeth]
  · intro s hlanes hfitted hfw htether
    refine next_eq ?_
    simp [tetherChange, hlanes, hfitted, hfw, htether, onTeth_onTeth]
  · intro s hfitted htfault htether hlow hmaster
    exact next_eq (by simp [tetherFaultBegin, hfitted, htfault, htether, hlow, hmaster])
  · intro s hocc htrain homitted htake hlead heligible htether
    exact next_eq (by simp [masterClaim, hocc, htrain, homitted, htake, claimRank, hlead, heligible, htether])
  · intro s hocc htrain homitted htake hcycle hbackup hmaster hbarred
    refine next_eq ?_
    have hnext : trainTime s / cycleP s = trainTime s / cycleP s - 1 + 1 := by omega
    simp [masterClaim, hocc, htrain, homitted, htake, ← hnext, hbackup, hmaster, hbarred]
  · exact fun keep s => ⟨_, rfl, becomeMaster_master keep s⟩

end Sys2Proof.Laws
end

section
/-!
Cold start, and the BEACON frames of a lead.
-/

namespace Sys2Proof.Laws

open Sys2Proof Sys2Proof.Machine

/-- A row on the first delivered frame of its kind acts on it, taken from its queue (R77). -/
theorem withMsg_first {p : RxMsg → Bool} {m : RxMsg} {s : State} (h : firstMsg p s = some m) (f : RxMsg → State → State) :
    withMsg p f s = f m (takenMsg m s) := by
  have hfind : s.lane.rxq.find? p = some m := h
  simp only [withMsg, hfind, takenMsg]

/-! Cold start (R92, R93). -/

/-- The listening has ended: the claim goes out as it was signed before, or is drawn and signed now. -/
theorem coldStartListenEnd_due {since : Nat} {s : State} (hcold : s.inaug.cold = .listening since) (hdev : s.sys.dev = .integrating)
    (hrole : s.inaug.role = .guest) (hrank : 1 ≤ pColdRank s) (hranks : pColdRank s ≤ 4) (htether : s.teth.tether = true)
    (hdue : since + listenT s + (pColdRank s - 1) * 6000000 ≤ trainTime s) (hsource : s.inaug.claimSigned = true ∨ s.sec.entropyOk = true) :
    coldStartListenEnd s = if s.inaug.claimSigned then
        (s.onInaug fun x => { x with cold := .claiming 0, claimSent := none }).onLdr fun l => { l with winner := none }
      else
        let s2 := (tookFree (s.onInaug fun x => { x with cold := .claiming 0, claimSent := none })).onLdr fun l =>
          { l with nl := freeNat 256 s, echo := 0, winner := none }
        cntSec 6 ((s2.onLdr fun l => { l with beaconNow := beaconDone s2.sec.idKey (beaconBody true s2) }).onInaug fun x => { x with claimSigned := true }) := by
  have hnow : (s.sys.dev != .integrating || s.inaug.role != .guest || pColdRank s == 0 || decide (4 < pColdRank s)
      || !(s.teth.tether || s.teth.tfault || !pTetherFitted s) || decide (trainTime s < since + listenT s + (pColdRank s - 1) * 6000000)
      || (!s.inaug.claimSigned && !s.sec.entropyOk)) = false := by
    have hzero : (pColdRank s == 0) = false := by simp; omega
    have hlate : decide (trainTime s < since + listenT s + (pColdRank s - 1) * 6000000) = false := by simp; omega
    have hsigned : (!s.inaug.claimSigned && !s.sec.entropyOk) = false := by
      rcases hsource with h | h <;> simp [h]
    simp only [hdev, hrole, hzero, htether, hlate, hsigned, bne_self_eq_false, Bool.true_or, Bool.not_true, Bool.or_false, Bool.false_or,
      decide_eq_false_iff_not]
    omega
  simp only [coldStartListenEnd, hcold, hnow, Bool.false_eq_true, if_false]

/-- Settles O22: each step of a cold start at its time. -/
theorem coldStart : Obligations.ColdStart := by
  unfold Obligations.ColdStart
  refine ⟨?_, ?_, ?_, ?_, ?_⟩
  · intro since s hcold hdev hrole hrank hranks htether hdue hsigned
    refine next_eq ?_
    rw [coldStartListenEnd_due hcold hdev hrole hrank hranks htether hdue (.inl hsigned), if_pos hsigned]
  · intro since s hcold hdev hrole hrank hranks htether hdue hsigned hentropy
    refine ⟨_, next_eq (coldStartListenEnd_due hcold hdev hrole hrank hranks htether hdue (.inr hentropy)), ?_⟩
    rw [hsigned, if_neg Bool.false_ne_true]
    exact ⟨rfl, rfl, rfl, rfl⟩
  · intro first s s1 hcold hsent hsend
    refine next_eq ?_
    cases h : s.inaug.claimSent with
    | none => simp [claimSend, hcold, h, show sendGuest (claimFrom s) (beaconFrame s) s = some s1 from hsend]
    | some a =>
      simp [claimSend, hcold, h, hsent a h, show sendGuest (claimFrom s) (beaconFrame s) s = some s1 from hsend]
  · intro badge since s hcold hdue
    exact next_eq (by simp [claimWaitTimeout, hcold, Nat.not_lt.2 hdue])
  · intro first s hcold hsent hdue hentropy htrain
    have hsome : s.inaug.claimSent.isNone = false := by
      cases h : s.inaug.claimSent with
      | none => exact absurd h hsent
      | some a => rfl
    exact next_eq (by simp [claimWin, hcold, hsome, Nat.not_lt.2 hdue, hentropy, htrain])

/-! BEACON frames (R89, R104, R105). -/

theorem beaconSend_due {s s1 : State} (hlead : isLead s = true) (hdue : ∀ a, s.ldr.beaconAt = some a → a + 1000000 ≤ trainTime s)
    (hnow : s.ldr.beaconNow ≠ []) (hclaim : bcClaim s.ldr.beaconNow = false) (hsend : sendGuest (beaconFrom s) (beaconFrame s) s = some s1) :
    beaconSend s = trainSend (openInaug s1 2 0 s1.sec.devCert) (s1.onLdr fun l => { l with beaconAt := some (trainTime s) }) := by
  cases h : s.ldr.beaconAt with
  | none => simp [beaconSend, hlead, h, hnow, hclaim, hsend]
  | some a => simp [beaconSend, hlead, h, hdue a h, hnow, hclaim, hsend]

theorem exec_beaconReceive {sigOk : Bool} {m : RxMsg} {s : State} (h : firstMsg (isSub ftInauguration true 1) s = some m) :
    exec (.beaconReceive sigOk) s = .next
      (if (verifyOnce (part m.payload 116 154) sigOk (takenMsg m s)).1 && bcForm (msgBadge m) m.payload then
        beaconAct { badge := msgBadge m, raw := m.payload } (learnOrient m.endB m.hdr (verifyOnce (part m.payload 116 154) sigOk (takenMsg m s)).2)
      else (verifyOnce (part m.payload 116 154) sigOk (takenMsg m s)).2) :=
  next_eq (withMsg_first h _)

/-- Settles O23: the BEACON leaves when due, its NL is drawn anew, and one that arrives acts if its quote is over it. -/
theorem beacons : Obligations.Beacons := by
  unfold Obligations.Beacons
  refine ⟨?_, ?_, ?_, ?_, ?_⟩
  · exact fun s s1 hlead hdue hnow hclaim hsend => next_eq (beaconSend_due hlead hdue hnow hclaim hsend)
  · intro s hlead hentropy hdue
    exact next_eq (by simp [nlRedraw, drawNl, hlead, hentropy, hdue])
  · intro s hturn
    refine next_eq ?_
    simp only [beaconSigned, hturn, Bool.not_true, Bool.false_eq_true, if_false]
  · intro sigOk m s hfirst hsig hform
    rw [exec_beaconReceive hfirst, hsig, hform]
    rfl
  · intro sigOk m s hfirst hform
    rw [exec_beaconReceive hfirst, hform, Bool.and_false]
    rfl

end Sys2Proof.Laws
end

section
/-!
Admission as the guest does it: the lead's certificate, its own quote, and the grant.
-/

namespace Sys2Proof.Laws

open Sys2Proof Sys2Proof.Machine

@[simp] theorem takenMsg_inaug (m : RxMsg) (s : State) : (takenMsg m s).inaug = s.inaug := rfl
@[simp] theorem takenMsg_sys (m : RxMsg) (s : State) : (takenMsg m s).sys = s.sys := rfl
@[simp] theorem takenMsg_ldr (m : RxMsg) (s : State) : (takenMsg m s).ldr = s.ldr := rfl
@[simp] theorem isLead_takenMsg (m : RxMsg) (s : State) : isLead (takenMsg m s) = isLead s := rfl

/-! The lead's certificate and BEACON (R106). -/

/-- The lead is the one whose BEACON the guest holds, by both signatures, the badge and the policy. -/
def leadTrusted (b : Beacon) (chain sig : Bool) (t : State) : Bool :=
  chain && sig && (Config.badgeOf (Config.certKey t.inaug.leadCert)).toNat == b.badge && policyOk t (bcQuote b.raw)

theorem leadVerified_checks {chainOk sigOk : Bool} {b : Beacon} {s : State} (hguest : s.inaug.guest = .verifying)
    (hbeacon : s.inaug.beacon = some b) :
    ∀ r1 r2, r1 = verifyOnce s.inaug.leadCert chainOk s → r2 = verifyOnce (part b.raw 116 154) sigOk r1.2 →
    leadVerified chainOk sigOk s =
      if !leadTrusted b r1.1 r2.1 r2.2 then admFail 0x11 r2.2
      else if bcLine b.raw != pLine r2.2 then admFail 0x10 r2.2
      else if quPlan (bcQuote b.raw) != planMeas r2.2 then raise2 80 3 (planId r2.2) (admFail 0x14 r2.2)
      else rsaBegin (r2.2.onInaug fun x =>
        { x with guest := .signing, quoteDue := quoteBody (sha (beBytes 32 (bcNl b.raw) ++ ownerHash r2.2)) r2.2 }) := by
  rintro r1 r2 rfl rfl
  simp only [leadVerified, hguest, hbeacon]
  rfl

theorem leadTrusted_of {b : Beacon} {chain sig : Bool} {t : State} (hchain : chain = true) (hsig : sig = true)
    (hbadge : (Config.badgeOf (Config.certKey t.inaug.leadCert)).toNat = b.badge) (hpolicy : policyOk t (bcQuote b.raw) = true) :
    leadTrusted b chain sig t = true := by
  simp [leadTrusted, hchain, hsig, hbadge, hpolicy]

theorem not_leadTrusted_of {b : Beacon} {chain sig : Bool} {t : State}
    (h : chain = false ∨ sig = false ∨ (Config.badgeOf (Config.certKey t.inaug.leadCert)).toNat ≠ b.badge ∨ policyOk t (bcQuote b.raw) = false) :
    leadTrusted b chain sig t = false := by
  rcases h with h | h | h | h <;> simp [leadTrusted, h]

/-! The grant (R105, R107). -/

theorem exec_admGrantReceive {sigOk : Bool} {m : RxMsg} {b : Beacon} {a : Nat} {s : State}
    (hfirst : firstMsg (isSub ftAdmission true 0x23) s = some m) (hto : be m.payload 12 8 = s.sys.badge) (hguest : s.inaug.guest = .asked a)
    (hbeacon : s.inaug.beacon = some b) (hbadge : b.badge = msgBadge m) :
    exec (.admGrantReceive sigOk) s = .next
      (if sigOk && be m.payload 20 32 == bcNl b.raw && part m.payload 52 384 == bcSig b.raw then
        rsaBegin ((takenMsg m s).onInaug fun x => { x with block := part m.payload 436 384, guest := .unwrapping })
      else admFail 0x12 (takenMsg m s)) := by
  refine next_eq ((withMsg_first hfirst _).trans ?_)
  simp [hto, hguest, hbeacon, hbadge]

@[simp] theorem rsaEnd_inaug (priv : Bool) (s : State) : (rsaEnd priv s).inaug = s.inaug := rfl

@[simp] theorem rsaEnd_idKey (priv : Bool) (s : State) : (rsaEnd priv s).sec.idKey = s.sec.idKey := by
  cases priv <;> rfl

/-- What the identity key takes out of the block of a grant. -/
def grantText (s : State) : List Byte := beBytes 100 (Config.unwrapKey s.sec.idKey s.inaug.block)

/-- The keys of a grant are those of the lead's BEACON: the current one, and the next one where both name one. -/
def grantKeysMatch (b : Beacon) (p : List Byte) : Bool :=
  keyCheck (be p 2 1) (be p 3 32) == bcCheckCur b.raw
    && (!bcNextValid b.raw || be p 35 1 == 0xFF || keyCheck (be p 35 1) (be p 36 32) == bcCheckNext b.raw)

/-- The keys of the block are installed, and the car takes its ADMIT, its epoch and its first SEQ. -/
def grantInstalled (b : Beacon) (p : List Byte) (s : State) : State :=
  when' (be p 35 1 != 0xFF) (raise 97 (be p 35 1 % 16 * 256 + 2))
    ((((releaseEntries (s.onSec fun x =>
        { x with
          keys := { epoch := be p 2 1 % 16, key := be p 3 32 } :: (if be p 35 1 == 0xFF then [] else [{ epoch := be p 35 1 % 16, key := be p 36 32 }])
          cur := be p 2 1 % 16, inst := none, unwrap := [], oldKey := none })).onInaug fun x =>
      { x with adm := be p 0 2, epoch := be b.raw 14 2 / 16, adoptSys := srcField s, guest := .done, block := [] }).onLane fun l => { l with seq := 0 }).onSent fun t =>
      { t with gseq := [] })

theorem grantUnwrapped_turn {ok : Bool} {b : Beacon} {s : State} (hturn : rsaTurn .grantOpen s = true) (hguest : s.inaug.guest = .unwrapping)
    (hbeacon : s.inaug.beacon = some b) :
    grantUnwrapped ok s =
      if !ok || be (grantText s) 68 32 != s.inaug.quoteHash || !grantKeysMatch b (grantText s) then admFail 0x12 (rsaEnd true s)
      else
        let u := grantInstalled b (grantText s) (rsaEnd true s)
        trainSend (admFrame u false (bcTrain b.raw * 64) 0x24 (beBytes 2 (be (grantText s) 0 2) ++ [0, 0] ++ beBytes 32 u.inaug.quoteHash)) u := by
  simp only [grantUnwrapped, hturn, hguest, hbeacon, Bool.not_true, Bool.false_eq_true, if_false]
  rfl

/-- Settles O24: each step of the guest, and the code of each failure. -/
theorem guestSteps : Obligations.GuestSteps := by
  unfold Obligations.GuestSteps
  refine ⟨?_, ?_, ?_, ?_, ?_, ?_, ?_, ?_, ?_⟩
  · intro m b s hfirst hguest hbeacon hbadge
    refine next_eq ((withMsg_first hfirst _).trans ?_)
    simp [hguest, hbeacon, hbadge]
  · intro chainOk sigOk b s r1 r2 hguest hbeacon hr1 hr2 hbad
    refine next_eq ?_
    rw [leadVerified_checks hguest hbeacon r1 r2 hr1 hr2, not_leadTrusted_of hbad]
    rfl
  · intro chainOk sigOk b s r1 r2 hguest hbeacon hr1 hr2 hchain hsig hbadge hpolicy
    have hchecked := leadVerified_checks hguest hbeacon r1 r2 hr1 hr2
    rw [leadTrusted_of hchain hsig hbadge hpolicy] at hchecked
    refine ⟨fun hline => next_eq ?_, fun hline hplan => next_eq ?_, fun hline hplan => next_eq ?_⟩
    · rw [hchecked]
      simp [hline]
    · rw [hchecked]
      simp [hline, hplan]
    · rw [hchecked]
      simp [hline, hplan]
  · intro b s q s1 hturn hguest hbeacon hq hs1
    subst hq hs1
    refine next_eq ?_
    simp only [quoteSignedStep, hturn, hguest, hbeacon, Bool.not_true, Bool.false_eq_true, if_false]
  · intro m b a s hfirst hto hguest hbeacon hbadge hnl hsig
    rw [exec_admGrantReceive hfirst hto hguest hbeacon hbadge]
    simp [hnl, hsig]
  · intro sigOk m b a s hfirst hto hguest hbeacon hbadge hbad
    rw [exec_admGrantReceive hfirst hto hguest hbeacon hbadge]
    have hwrong : (sigOk && be m.payload 20 32 == bcNl b.raw && part m.payload 52 384 == bcSig b.raw) = false := by
      rcases hbad with h | h | h <;> simp [h]
    rw [hwrong]
    rfl
  · intro ok b s p hturn hguest hbeacon hp hbad
    subst hp
    refine next_eq ?_
    have hfails : (!ok || be (grantText s) 68 32 != s.inaug.quoteHash || !grantKeysMatch b (grantText s)) = true := by
      rcases hbad with h | h | h | ⟨hvalid, hnamed, h⟩
      · simp [h]
      · simp [grantText, h]
      · simp [grantKeysMatch, grantText, h]
      · simp [grantKeysMatch, grantText, hvalid, hnamed, h]
    rw [grantUnwrapped_turn hturn hguest hbeacon, if_pos hfails]
  · intro b s p u hturn hguest hbeacon hp hhash hcur hnext hu
    subst hp hu
    refine next_eq ?_
    have hpasses : (!true || be (grantText s) 68 32 != s.inaug.quoteHash || !grantKeysMatch b (grantText s)) = false := by
      have hkeys : grantKeysMatch b (grantText s) = true := by
        rcases hnext with h | h | h <;> simp [grantKeysMatch, grantText, hcur, h]
      have hhashed : be (grantText s) 68 32 = s.inaug.quoteHash := hhash
      simp [hkeys, hhashed]
    rw [grantUnwrapped_turn hturn hguest hbeacon, hpasses, if_neg Bool.false_ne_true]
    rfl
  · intro a s hguest hdue
    exact next_eq (by simp [grantTimeout, hguest, Nat.not_lt.2 hdue])

end Sys2Proof.Laws
end

section
/-!
Admission as the lead does it.
-/

namespace Sys2Proof.Laws

open Sys2Proof Sys2Proof.Machine

/-! A certificate and a quote of a guest (R105, R106). -/

theorem exec_admCertReceive {m : RxMsg} {s : State} {r : Bool × State} (hfirst : firstMsg (isSub ftAdmission true 0x21) s = some m)
    (hlead : isLead s = true) (hr : r = verifyOnce (m.payload.drop 12) (Config.certVerifies (m.payload.drop 12)) (takenMsg m s)) :
    exec .admCertReceive s = .next (if !r.1 then r.2 else r.2.onLdr fun l =>
      { l with guests := (l.guests.filter fun g => g.badge != msgBadge m) ++
        [{ badge := msgBadge m, cert := m.payload.drop 12, ok := false, nl := 0, adm := 0, quoteHash := 0, granted := false, done := false }] }) := by
  subst hr
  refine next_eq ((withMsg_first hfirst _).trans ?_)
  simp only [isLead_takenMsg, hlead, Bool.not_true, Bool.false_eq_true, if_false]

/-- The quote meets the certificate that the lead keeps for its guest; the first check that fails is the reason. -/
theorem exec_admQuoteReceive {chainOk sigOk : Bool} {m : RxMsg} {s : State} {cert : List Byte} {r1 r2 : Bool × State}
    (hfirst : firstMsg (isSub ftAdmission true 0x22) s = some m) (hlead : isLead s = true)
    (hcert : cert = ((s.ldr.guests.find? fun g => g.badge == msgBadge m).map (·.cert)).getD [])
    (hr1 : r1 = verifyOnce cert chainOk (takenMsg m s)) (hr2 : r2 = verifyOnce (part m.payload 76 154) sigOk r1.2) :
    exec (.admQuoteReceive chainOk sigOk) s = .next
      (if admCheck cert m.payload (msgBadge m) r1.1 r2.1 r2.2 != 0 then admRefuse (msgBadge m) (admCheck cert m.payload (msgBadge m) r1.1 r2.1 r2.2) r2.2
      else takeAdmits (r2.2.onLdr fun l =>
        { l with
          guests := (l.guests.filter fun g => g.badge != msgBadge m) ++ (l.guests.filter fun g => g.badge == msgBadge m).map fun g =>
            { g with ok := true, nl := be m.payload 12 32, quoteHash := shaNat (part m.payload 76 538) } })) := by
  subst hr2 hr1 hcert
  refine next_eq ((withMsg_first hfirst _).trans ?_)
  obtain hfind | ⟨g, hfind⟩ := Option.eq_none_or_eq_some (s.ldr.guests.find? fun g => g.badge == msgBadge m)
  · simp only [isLead_takenMsg, hlead, takenMsg_ldr, hfind, Option.map_none, Option.getD_none, Bool.not_true, Bool.false_eq_true, if_false]
  · simp only [isLead_takenMsg, hlead, takenMsg_ldr, hfind, Option.map_some, Option.getD_some, Bool.not_true, Bool.false_eq_true, if_false]

/-! ADM_DONE and PRESENT (R96, R107, R108). -/

theorem exec_admDoneReceive {m : RxMsg} {g : GuestReq} {s : State} (hfirst : firstMsg (isSub ftAdmission false 0x24) s = some m)
    (hlead : isLead s = true) (hdone : g.done = false)
    (hfind : s.ldr.guests.find? (fun g => g.granted && g.adm == m.hdr.adm && g.adm == be m.payload 12 2 && g.quoteHash == be m.payload 16 32)
      = some g) :
    exec .admDoneReceive s = .next (stateCopy (openCensus 4 none (raise 91 (g.adm * 65536) ((tookFree (takenMsg m s)).onLdr fun l =>
      { l with
        guests := l.guests.map fun x => if x.badge == g.badge then { x with done := true } else x
        present := l.present.filter fun b => b != g.badge
        roster := (l.roster.filter fun c => c.badge != g.badge) ++
          [{ badge := g.badge, adm := g.adm, rank := freeNat 8 s % 5, cert := shaNat g.cert, posX := 0, posY := 0, ends_ := 0, nbrA := 0, nbrB := 0,
             omits := 0 }] })))) := by
  refine next_eq ((withMsg_first hfirst _).trans ?_)
  simp only [takenMsg_ldr, hfind, isLead_takenMsg, hlead, hdone, Bool.not_true, Bool.or_self, Bool.false_eq_true, if_false]
  rfl

theorem presentReceive_new {sigOk : Bool} {m : RxMsg} {s : State} (hfirst : firstMsg (isSub ftInauguration true 12) s = some m)
    (hlead : isLead s = true) (hsig : (verifyOnce (m.payload.drop 12) sigOk (takenMsg m s)).1 = true)
    (hbadge : (Config.badgeOf (Config.certKey (m.payload.drop 12))).toNat = msgBadge m)
    (hnew : (verifyOnce (m.payload.drop 12) sigOk (takenMsg m s)).2.ldr.present.contains (msgBadge m) = false) :
    presentReceive sigOk s = raise 95 0 ((learnOrient m.endB m.hdr (verifyOnce (m.payload.drop 12) sigOk (takenMsg m s)).2).onLdr fun l =>
      { l with present := l.present ++ [msgBadge m] }) := by
  refine (withMsg_first hfirst _).trans ?_
  simp only [isLead_takenMsg, hlead, hsig, hbadge, hnew, Bool.not_true, bne_self_eq_false, Bool.or_self, Bool.false_eq_true, if_false]

/-- Settles O25: the certificate, the first check that fails or the ADMIT, the grant, the new member and a car that is present. -/
theorem leadAdmits : Obligations.LeadAdmits := by
  unfold Obligations.LeadAdmits
  refine ⟨?_, ?_, ?_, ?_, ?_, ?_⟩
  · intro m s r hfirst hlead hr
    rw [exec_admCertReceive hfirst hlead hr]
    exact ⟨fun hbad => by rw [hbad]; rfl, fun hok => by rw [hok]; rfl⟩
  · intro chainOk sigOk m s cert r1 r2 hfirst hlead hcert hr1 hr2 hcode
    rw [exec_admQuoteReceive hfirst hlead hcert hr1 hr2, if_pos (bne_iff_ne.2 hcode)]
  · intro chainOk sigOk m s cert r1 r2 hfirst hlead hcert hr1 hr2 hcode
    rw [exec_admQuoteReceive hfirst hlead hcert hr1 hr2, hcode]
    rfl
  · intro badge g s u hfind hbadge hturn hu
    subst hu
    refine next_eq ?_
    simp only [grantBuilt, hfind, hbadge, hturn, bne_self_eq_false, Bool.not_true, Bool.or_self, Bool.false_eq_true, if_false, beq_iff_eq]
  · exact fun m g s hfirst hlead hdone hfind => exec_admDoneReceive hfirst hlead hdone hfind
  · exact fun sigOk m s hfirst hlead hsig hbadge hnew => next_eq (presentReceive_new hfirst hlead hsig hbadge hnew)

end Sys2Proof.Laws
end

section
/-!
The lead's status and censuses, numberings, and who leads next.
-/

namespace Sys2Proof.Laws

open Sys2Proof Sys2Proof.Machine

@[simp] theorem admitted_takenMsg (m : RxMsg) (s : State) : admitted (takenMsg m s) = admitted s := rfl
@[simp] theorem onTrain_takenMsg (m : RxMsg) (s : State) : onTrain (takenMsg m s) = onTrain s := rfl
@[simp] theorem trainTime_takenMsg (m : RxMsg) (s : State) : trainTime (takenMsg m s) = trainTime s := rfl
@[simp] theorem knownMember_takenMsg (m : RxMsg) (s : State) (a : Nat) : knownMember (takenMsg m s) a = knownMember s a := rfl

/-- Settles O26: the status and the censuses, each row where it is due. -/
theorem leadCensus : Obligations.LeadCensus := by
  unfold Obligations.LeadCensus
  refine ⟨?_, ?_, ?_, ?_, ?_, ?_, ?_, ?_, ?_, ?_⟩
  · intro s s1 hlead hsend
    refine next_eq ?_
    simp only [leadStatusSend, hlead, hsend, Bool.not_true, Bool.false_eq_true, if_false]
  · intro m s hfirst hlead
    refine next_eq ((withMsg_first hfirst _).trans ?_)
    simp only [isLead_takenMsg, hlead, trainTime_takenMsg, Bool.false_eq_true, if_false]
  · intro g s hgrace hdue
    exact next_eq (by simp [gracePeriodEnd, hgrace, hdue])
  · intro s hrole htrain hdue
    exact next_eq (by simp [leadLossTimeout, hrole, htrain, hdue])
  · intro c s s1 hcensus hlead hsent hsend
    refine next_eq ?_
    simp only [censusSend, hcensus, hlead, hsent, hsend, Bool.not_true, Option.isSome_none, Bool.or_self, Bool.false_eq_true, if_false]
  · intro m s hfirst hadmitted hlead
    refine next_eq ((withMsg_first hfirst _).trans ?_)
    simp only [admitted_takenMsg, hadmitted, isLead_takenMsg, hlead, Bool.not_true, Bool.or_self, Bool.false_eq_true, if_false]
  · intro m s hfirst hlead hknown hcid
    refine next_eq ((withMsg_first hfirst _).trans ?_)
    simp [hlead, hknown, hcid]
  · intro m s hfirst hlead hknown hcid
    refine next_eq ((withMsg_first hfirst _).trans ?_)
    simp [hlead, hknown, hcid]
  · intro cid a px py s s1 hheard hadmitted hlead hreplied hsend
    refine next_eq ?_
    simp [positionReplySend, hheard, hadmitted, hlead, hreplied, hsend]
  · intro c a s hcensus hsent hlead hclosed hdone
    refine next_eq ?_
    have hclose : (allReplied c s || decide (a + 500000 + 3 * pTransit s ≤ trainTime s)) = true := by simpa using hdone
    simp [censusClose, hcensus, hsent, hlead, hclosed, hclose]

/-- Settles O27: the lead adopts what it sends, and a car adopts, takes over or leaves by its place in the list. -/
theorem numberings : Obligations.Numberings := by
  unfold Obligations.Numberings
  refine ⟨?_, ?_, ?_, ?_⟩
  · intro es cause s s1 hdue hlead hsend
    refine next_eq ?_
    simp only [numberingSend, hdue, hlead, hsend, Bool.not_true, Bool.false_eq_true, if_false]
  · intro m n s hfirst hlead hplace hguest
    refine next_eq ((withMsg_first hfirst _).trans ?_)
    have hfresh : (s.inaug.guest == .done) = false := by simpa using hguest
    simp only [isLead_takenMsg, hlead, takenMsg_sys, takenMsg_inaug, hplace, hfresh, Bool.false_eq_true, if_false]
  · intro m s hfirst hlead hplace hadmitted homitted
    refine next_eq ((withMsg_first hfirst _).trans ?_)
    simp [hlead, hplace, hadmitted, homitted]
  · intro m s hfirst hlead hplace hadmitted homitted
    refine next_eq ((withMsg_first hfirst _).trans ?_)
    simp [hlead, hplace, hadmitted, homitted]

end Sys2Proof.Laws
end

section
/-!
Takeover, dissolution and handover.
-/

namespace Sys2Proof.Laws

open Sys2Proof Sys2Proof.Machine

/-- A BACKUP whose wait is over becomes lead (R109). -/
theorem backupTakeover_due {s : State} (hrole : s.inaug.role = .backup) (htrain : onTrain s = true) (homitted : s.inaug.omitted = 0)
    (hdue : s.inaug.heardLead + pLeadLoss s + (s.inaug.rank - 1) * 3000000 ≤ trainTime s) : backupTakeover s = becomeLead 6 s := by
  simp [backupTakeover, hrole, htrain, homitted, hdue]

theorem handReady_of {b : Nat} {s : State} (hlead : isLead s = true) (hcommitted : s.ldr.committed = true) (hmaster : s.clk.st ≠ .master)
    (hfit : natBit s.ref.fit 0 = true) (hbackup : backupBadge s.inaug.numbering 1 = some b) (hcensus : s.ldr.census = none) :
    handReady b s = true := by
  simp [handReady, hlead, hcommitted, hmaster, hfit, hbackup, hcensus]

/-- Settles O28: who leads next, by the committed copy, by a cold start behind a DISSOLVE, or by a HANDOVER. -/
theorem leadChanges : Obligations.LeadChanges := by
  unfold Obligations.LeadChanges
  refine ⟨?_, ?_, ?_, ?_, ?_, ?_, ?_, ?_, ?_⟩
  · intro b s hrole htrain homitted hdue hactive
    refine next_eq ?_
    rw [backupTakeover_due hrole htrain homitted hdue]
    simp only [becomeLead, hactive]
  · intro s t s1 hrole htrain homitted hdue hactive hentropy ht hsend
    subst ht
    refine next_eq ?_
    rw [backupTakeover_due hrole htrain homitted hdue]
    simp only [becomeLead, hactive, hentropy, ownDissolve, hsend, Bool.not_true, Bool.false_eq_true, if_false]
  · intro s t hrole htrain homitted hdue hactive hentropy ht hsend
    subst ht
    refine next_eq ?_
    rw [backupTakeover_due hrole htrain homitted hdue]
    simp only [becomeLead, hactive, hentropy, ownDissolve, hsend, Bool.not_true, Bool.false_eq_true, if_false]
  · intro s
    simp only [moveUp, when', decide_eq_true_eq]
  · intro m s hfirst htrain
    refine next_eq ((withMsg_first hfirst _).trans ?_)
    simp only [onTrain_takenMsg, htrain, Bool.not_true, Bool.false_eq_true, if_false]
  · intro b s s1 htarget hlead hcommitted hmaster hfit hbackup hcensus hsend hmaster1
    refine next_eq ?_
    have hfree : (s1.clk.st == .master) = false := by simpa using hmaster1
    simp only [handoverSend, htarget, handReady_of hlead hcommitted hmaster hfit hbackup hcensus, handFrame, hsend, hfree, when', Bool.not_true,
      Bool.false_eq_true, if_false]
  · intro b s htarget hlead hcommitted hmaster hfit hbackup hcensus hsend
    refine next_eq ?_
    simp only [handoverSend, htarget, handReady_of hlead hcommitted hmaster hfit hbackup hcensus, handFrame, hsend, Bool.not_true,
      Bool.false_eq_true, if_false]
  · intro m b s hfirst hto hrole hactive
    refine next_eq ((withMsg_first hfirst _).trans ?_)
    simp [hto, hrole, becomeLead, hactive]
  · intro m s hfirst hto
    refine next_eq ((withMsg_first hfirst _).trans ?_)
    simp [hto]

end Sys2Proof.Laws
end

section
/-!
The copy of the lead state to BACKUP 1.
-/

namespace Sys2Proof.Laws

open Sys2Proof Sys2Proof.Machine

@[simp] theorem isBackup1_takenMsg (m : RxMsg) (s : State) : isBackup1 (takenMsg m s) = isBackup1 s := rfl
@[simp] theorem backup1_takenMsg (m : RxMsg) (s : State) : backup1 (takenMsg m s) = backup1 s := rfl

theorem heldChunks_same {b : Bank} {v : Nat} {l : LeadSt} (hbuild : l.build = some b) (hv : b.version = v) : heldChunks v l = b.chunks := by
  simp [heldChunks, hbuild, hv]

/-- A new version is built from the active bank. -/
theorem heldChunks_new {v : Nat} {l : LeadSt} (h : ∀ b, l.build = some b → b.version ≠ v) :
    heldChunks v l = (l.active.map Bank.chunks).getD [] := by
  cases hbuild : l.build with
  | none => simp [heldChunks, hbuild]
  | some b => simp [heldChunks, hbuild, h b hbuild]

theorem exec_stateChunkReceive {m : RxMsg} {s : State} (hfirst : firstMsg (isSub ftInauguration false 9) s = some m) (hbackup : isBackup1 s = true)
    {held : List (Nat × List Byte)} (hheld : heldChunks (be m.payload 12 4) s.ldr = held) :
    exec .stateChunkReceive s = .next ((takenMsg m s).onLdr fun l =>
      { l with build := some { version := be m.payload 12 4, chunks :=
          (be m.payload 16 1, part m.payload 20 (be m.payload 18 2)) :: held.filter fun c => c.1 != be m.payload 16 1 } }) := by
  subst hheld
  refine next_eq ((withMsg_first hfirst _).trans ?_)
  simp only [isBackup1_takenMsg, hbackup, Bool.not_true, Bool.false_eq_true, if_false]
  rfl

/-! The commit (R113). -/

/-- A chunk of the version is there. -/
def hasChunk (m : RxMsg) (s : State) (i : Nat) : Bool := (heldChunks (be m.payload 12 4) s.ldr).any fun c => c.1 == i

/-- The image of the version. -/
def chunksUsed (m : RxMsg) (s : State) : List (Nat × List Byte) :=
  sortBy (·.1) ((heldChunks (be m.payload 12 4) s.ldr).filter fun c => decide (c.1 < be m.payload 16 1))

theorem find_missing_none {n : Nat} {p : Nat → Bool} (h : ∀ i, i < n → p i = true) : ((List.range n).find? fun i => !p i) = none := by
  refine List.find?_eq_none.2 fun i hi => ?_
  simp [h i (List.mem_range.1 hi)]

theorem find_missing_some {n i : Nat} {p : Nat → Bool} (hi : i < n) (hmissing : p i = false) (hbefore : ∀ j, j < i → p j = true) :
    ((List.range n).find? fun i => !p i) = some i := by
  refine List.find?_range_eq_some.2 ⟨by simp [hmissing], List.mem_range.2 hi, fun j hj => by simp [hbefore j hj]⟩

/-- The answer to a commit: 0 and the banks exchanged, 1 for a wrong hash, 2 for a missing chunk. -/
theorem exec_stateCommitReceive {m : RxMsg} {s : State} (hfirst : firstMsg (isSub ftInauguration false 10) s = some m)
    (hbackup : isBackup1 s = true) {missing : Option Nat} (hmissing : ((List.range (be m.payload 16 1)).find? fun i => !hasChunk m s i) = missing)
    {result : Nat} (hresult : result = if missing.isSome then 2 else if sha ((chunksUsed m s).flatMap (·.2)) == part m.payload 20 32 then 0 else 1)
    {t : State} (ht : t = if result == 0 then
      cntInaug 7 ((takenMsg m s).onLdr fun l => { l with active := some { version := be m.payload 12 4, chunks := chunksUsed m s }, build := l.active })
      else cntInaug 8 (takenMsg m s)) :
    exec .stateCommitReceive s
      = .next (trainSend (inaugFrame t .plain 11 (beBytes 4 (be m.payload 12 4) ++ [byteOf result, byteOf (missing.getD 0)])) t) := by
  subst ht
  refine next_eq ((withMsg_first hfirst _).trans ?_)
  have hfind : ((List.range (be m.payload 16 1)).find? fun i => !(heldChunks (be m.payload 12 4) (takenMsg m s).ldr).any fun c => c.1 == i) = missing :=
    hmissing
  cases missing with
  | none =>
    subst hresult
    simp only [isBackup1_takenMsg, hbackup, hfind, Bool.not_true, Bool.false_eq_true, if_false, Option.isSome_none]
    rfl
  | some i =>
    subst hresult
    simp only [isBackup1_takenMsg, hbackup, hfind, Bool.not_true, Bool.false_eq_true, if_false, Option.isSome_some, if_true]
    rfl

/-- Settles O29: the chunk, the commit with its three answers, the acknowledgement, and the repetitions. -/
theorem stateCopy : Obligations.StateCopy := by
  unfold Obligations.StateCopy
  refine ⟨?_, ?_, ?_, ?_, ?_, ?_, ?_, ?_, ?_, ?_, ?_, ?_⟩
  · exact fun m b s hfirst hbackup hbuild hv => exec_stateChunkReceive hfirst hbackup (heldChunks_same hbuild hv)
  · exact fun m s hfirst hbackup hnew => exec_stateChunkReceive hfirst hbackup (heldChunks_new hnew)
  · intro m used s t hfirst hbackup hall hused hsha ht
    subst hused
    refine exec_stateCommitReceive hfirst hbackup (find_missing_none hall) (result := 0) ?_ ht
    simp [chunksUsed, hsha]
  · intro m s t hfirst hbackup hall hsha ht
    refine exec_stateCommitReceive hfirst hbackup (find_missing_none hall) (result := 1) ?_ ht
    simp [chunksUsed, hsha]
  · intro m i s t hfirst hbackup hi hmissing hbefore ht
    exact exec_stateCommitReceive hfirst hbackup (find_missing_some hi hmissing hbefore) (result := 2) rfl ht
  · intro m s hfirst hlead hv hadm hzero
    refine next_eq ((withMsg_first hfirst _).trans ?_)
    simp [hlead, hv, hadm, hzero]
  · intro m s hfirst hlead hv hadm hzero
    refine next_eq ((withMsg_first hfirst _).trans ?_)
    simp [hlead, hv, hadm, hzero]
  · exact fun s => rfl
  · intro s hfails
    simp [copyFailed, hfails, State.onLdr]
  · intro s hfails
    have hthree : ¬ s.ldr.copyFails = 2 := by omega
    have hfew : ¬ 3 < s.ldr.copyFails + 1 := by omega
    simp [copyFailed, hthree, hfew]
  · intro a s hat hlead hdue
    exact next_eq (by simp [stateCopyTimeout, hat, hlead, hdue])
  · intro s hlead hfails hat hdue
    exact next_eq (by simp [stateCopyRetry, hlead, hfails, hat, hdue])

end Sys2Proof.Laws
end

section
/-!
The serial ports: reception, items and the end of a transmission, and the commands.
-/

namespace Sys2Proof.Laws

open Sys2Proof Sys2Proof.Machine

/-! Reception (R231 to R240). -/

theorem rxAdopt_none {p : Nat} {s : State} (h : (portOf s p).rxPend = false) : rxAdopt p s = s := by simp [rxAdopt, h]

theorem exec_startEdge_bit {p : Nat} {v : List Bool} {s : State} (hopen : portOpen s p = true) (hecho : (portOf s p).echo = false)
    (hphase : (portOf s p).phase = .hunting) (hset : (portOf s p).rxPend = false) (hbit : bitOf (portOf s p).rxSet v = false) :
    exec (.startEdge p v) s = .next (noteStamp (modPort p (fun y =>
      { y with phase := .character, edge := some (stampAt s (s.clk.c - bits (portOf s p).rec_ 4 31 24)), edgeAt := s.clk.c, rx := false,
               noisy := bitNoise (portOf s p).rxSet v }) s)) :=
  next_eq (by simp [startEdge, hopen, hecho, hphase, rxAdopt_none hset, hbit])

/-- A glitch leaves the receiver hunting: beside that it is counted, with its event. -/
theorem exec_startEdge_glitch {p : Nat} {v : List Bool} {s : State} (hopen : portOpen s p = true) (hecho : (portOf s p).echo = false)
    (hphase : (portOf s p).phase = .hunting) (hset : (portOf s p).rxPend = false) (hbit : bitOf (portOf s p).rxSet v = true) :
    ∃ t, exec (.startEdge p v) s = .next t ∧ quiet t = quiet (modPort p (fun y => { y with phase := .hunting, rx := true }) s) := by
  refine ⟨_, rfl, ?_⟩
  simp only [startEdge, hopen, hecho, hphase, rxAdopt_none hset, hbit, Bool.not_true, Bool.or_self, Bool.false_eq_true, if_false, if_true,
    bne_self_eq_false, portFirst]
  exact quiet_firstInCycle _ _ (quiet_raiseCode _ _ _ _) _

theorem startEdge_waiting {p : Nat} {v : List Bool} {s : State} (hopen : portOpen s p = true) (hecho : (portOf s p).echo = false)
    (hphase : (portOf s p).phase = .stuck ∨ (portOf s p).phase = .waitIdle) :
    startEdge p v s = modPort p (fun y => { y with lowAt := s.clk.c }) s := by
  rcases hphase with hphase | hphase <;> simp [startEdge, hopen, hecho, hphase]

/-- Without nine data bits there is no address and nothing is muted. -/
theorem characterComplete_eight {p : Nat} {body : List (List Bool)} {stop : List Bool} {s : State} (hphase : (portOf s p).phase = .character)
    (hclocked : portsClocked s = true) (hcentre : stopCentre (portOf s p) ≤ s.clk.c) (height : poData (portOf s p).rxSet ≠ 2) :
    characterComplete p body stop s = portClose p (modPort p (fun y => { y with edge := none })
      (storeChar p { slot := slotWord (charRead p body stop s).2 (charRead p body stop s).1, stamp := (portOf s p).edge.getD Stamp.zero, gap := false }
        (charOver p body stop s))) := by
  have hnine : (poData (portOf s p).rxSet == 2) = false := by simpa using height
  simp only [characterComplete, hphase, hclocked, hnine, bne_self_eq_false, Nat.not_lt.2 hcentre, decide_false, Bool.not_true, Bool.or_self,
    Bool.false_eq_true, if_false, Bool.false_and, Bool.and_false, b2n, Nat.zero_mul, Nat.add_zero]
  rfl

/-- A muted port drops a character that is no address. -/
theorem characterComplete_muted {p : Nat} {body : List (List Bool)} {stop : List Bool} {s : State} (hphase : (portOf s p).phase = .character)
    (hclocked : portsClocked s = true) (hcentre : stopCentre (portOf s p) ≤ s.clk.c) (hnine : poData (portOf s p).rxSet = 2)
    (hmute : poMute (portOf s p).rec_ = true) (hmuted : (portOf s p).muted = true) (hdata : natBit (charRead p body stop s).1 8 = false) :
    characterComplete p body stop s = portClose p (modPort p (fun y => { y with edge := none }) (cntSerial p 9 (charOver p body stop s))) := by
  have hdata' : natBit (readChar (portOf s p).rxSet (portOf s p).noisy body stop).1 8 = false := hdata
  simp only [characterComplete, hphase, hclocked, hnine, hmute, hmuted, hdata', bne_self_eq_false, Nat.not_lt.2 hcentre, decide_false, Bool.not_true,
    Bool.or_self, Bool.false_eq_true, if_false, if_true, Bool.false_and, Bool.and_false, Bool.and_self, beq_self_eq_true]
  rfl

theorem lineResumed_open {p high : Nat} {s : State} (hopen : portOpen s p = true) (hecho : (portOf s p).echo = false)
    (hphase : (portOf s p).phase = .breakHold
      ∨ ((portOf s p).phase = .waitIdle ∧ quietTime (portOf s p).rxSet ≤ high ∧ (portOf s p).lowAt + high ≤ s.clk.c)) :
    lineResumed ⟨p, high⟩ s = modPort p (fun y => { y with phase := .hunting, rx := true }) s := by
  rcases hphase with hphase | ⟨hphase, hquiet, hhigh⟩
  · simp [lineResumed, hopen, hecho, hphase]
  · simp [lineResumed, hopen, hecho, hphase, quietLine, hquiet, hhigh]

/-- Settles O30: start bits, characters, stuck and resumed lines, and the end of the echo mute. -/
theorem serialReceive : Obligations.SerialReceive := by
  unfold Obligations.SerialReceive
  refine ⟨?_, ?_, ?_, ?_, ?_, ?_, ?_, ?_, ?_⟩
  · exact fun p v s => exec_startEdge_bit
  · exact fun p v s => exec_startEdge_glitch
  · exact fun p v s hopen hecho hphase => next_eq (startEdge_waiting hopen hecho hphase)
  · exact fun p body stop s hphase hclocked hcentre height => next_eq (characterComplete_eight hphase hclocked hcentre height)
  · exact fun p body stop s hphase hclocked hcentre hnine hmute hmuted hdata =>
      next_eq (characterComplete_muted hphase hclocked hcentre hnine hmute hmuted hdata)
  · exact fun p s hopen hecho hphase hdue => next_eq (by simp [lineStuckTimeout, hopen, hecho, hphase, hdue])
  · exact fun p high s hopen hecho hphase hquiet hhigh =>
      next_eq (by simp [lineResumed, hopen, hecho, hphase, quietLine, hquiet, hhigh])
  · exact fun p high s hopen hecho hphase => next_eq (lineResumed_open hopen hecho hphase)
  · exact fun p s hecho hde hdue => next_eq (by simp [echoMuteEnd, hecho, hde, hdue])

/-! Items of the receive ring, and the transmitter (R239, R242, R243). -/

theorem fifoItemTransfer_due {p : Nat} {s : State} (hlive : portLive s p = true) (hfour : 4 ≤ (portOf s p).fifo.length) :
    fifoItemTransfer p s = putItem p 4 s := by simp [fifoItemTransfer, hlive, hfour]

theorem putAll_empty {p n : Nat} {s : State} (h : (portOf s p).fifo = []) : putAll p n s = s := by
  cases n with
  | zero => rfl
  | succ n => simp [putAll, h]

theorem putItem_open {p n : Nat} {b : RingBlock} {s : State} (hcur : (portOf s p).cur = some b) (hroom : b.items.length < 14) :
    putItem p n s = enterLate p (levelCheck p (writeItem p b.place b.items.length ((portOf s p).fifo.take n) (modPort p (fun y =>
      { y with fifo := y.fifo.drop n, cur := some { b with items := b.items ++ [(portOf s p).fifo.take n] } }) s))) := by
  have hopen : ¬ 15 ≤ b.items.length + 1 := by omega
  simp only [putItem, hcur, hopen, if_false]

theorem putItem_last {p n : Nat} {b : RingBlock} {s : State} (hcur : (portOf s p).cur = some b) (hlast : b.items.length = 14) :
    putItem p n s = enterLate p (levelCheck p (closeBlock p false (writeItem p b.place 14 ((portOf s p).fifo.take n) (modPort p (fun y =>
      { y with fifo := y.fifo.drop n, cur := some { b with items := b.items ++ [(portOf s p).fifo.take n] } }) s)))) := by
  simp [putItem, hcur, hlast]

theorem putItem_new {p n : Nat} {s : State} (hcur : (portOf s p).cur = none) (hfree : ringFree (portOf s p) ≠ 0) :
    putItem p n s = enterLate p (levelCheck p (writeItem p (portOf s p).place 0 ((portOf s p).fifo.take n) (modPort p (fun y =>
      { y with
        fifo := y.fifo.drop n, bseq := (y.bseq + 1) % 65536, place := (y.place + 1) % max 1 (poRingKib y.rec_ * 8), stalled := false
        cur := some { bseq := y.bseq, place := y.place, items := [(portOf s p).fifo.take n], tmo := false } }) s))) := by
  have hfree' : (ringFree (portOf s p) == 0) = false := by simpa using hfree
  simp only [putItem, hcur, hfree', Bool.false_eq_true, if_false]

theorem txCharacterEnd_open {p c : Nat} {s : State} (hch : (portOf s p).txCh = some c) (hopen : portOpen s p = true)
    (hend : (portOf s p).txAt + charTime (portOf s p).txSet ≤ s.clk.c) :
    txCharacterEnd p s = txNext p ((portOf s p).txAt + charTime (portOf s p).txSet) false (serialSent p (cntSerial p 1
      (modPort p (fun y => { y with txCh := none, txPhase := .tail, txAt := (portOf s p).txAt + charTime (portOf s p).txSet }) s))) := by
  have hclocked : portsClocked s = true := by
    simp only [portOpen, portLive, Bool.and_eq_true] at hopen
    exact hopen.1.1.1
  simp only [txCharacterEnd, hch, hclocked, Nat.not_lt.2 hend, Option.isNone_some, Bool.not_true, decide_false, Bool.or_self, Bool.false_eq_true,
    if_false, hopen, if_true]

/-- Settles O31: the item of four slots, the block's close, the next character, and the end of the tail. -/
theorem serialDma : Obligations.SerialDma := by
  unfold Obligations.SerialDma
  refine ⟨?_, ?_, ?_, ?_, ?_, ?_⟩
  · exact fun p b s hlive hfour hcur hroom => next_eq ((fifoItemTransfer_due hlive hfour).trans (putItem_open hcur hroom))
  · exact fun p b s hlive hfour hcur hlast => next_eq ((fifoItemTransfer_due hlive hfour).trans (putItem_last hcur hlast))
  · exact fun p s hlive hfour hcur hfree => next_eq ((fifoItemTransfer_due hlive hfour).trans (putItem_new hcur hfree))
  · exact fun p b s hlive hphase hempty hcur hdue =>
      next_eq (by simp [rxTimeoutFlush, hlive, hphase, hdue, hcur, putAll_empty hempty])
  · exact fun p c s hch hopen hend =>
      next_eq (txCharacterEnd_open hch hopen hend)
  · exact fun p s hphase hend => next_eq (by simp [deTailEnd, hphase, hend])

/-! The commands (R249, R401). -/

@[simp] theorem takenBy_yardRecord (code : Nat) (via : Via) (s : State) : (takenBy code via s).yard.record = s.yard.record := by
  unfold takenBy
  split
  · rfl
  · cases via <;> rfl

@[simp] theorem portOf_takenBy (code : Nat) (via : Via) (s : State) (p : Nat) : portOf (takenBy code via s) p = portOf s p := by simp [portOf]

/-- Settles O32: the three commands of a port. -/
theorem serialCommands : Obligations.SerialCommands := by
  unfold Obligations.SerialCommands
  refine ⟨?_, ?_, ?_, ?_, ?_⟩
  · intro via s c hc hruns hport hcheck hfit
    subst hc
    refine next_eq ((firmware_runs hruns).trans ?_)
    simp [cmdPortSet, Nat.not_lt.2 hport, hcheck, Nat.not_lt.2 hfit]
  · intro via s c i hc hruns hport hcheck
    subst hc
    refine next_eq ((firmware_runs hruns).trans ?_)
    simp [cmdPortSet, Nat.not_lt.2 hport, hcheck]
  · intro via s c x hc hx hruns hport hroom
    subst hc hx
    refine next_eq ((firmware_runs hruns).trans ?_)
    simp [cmdPortStatus, when', Nat.not_lt.2 hport, Nat.not_le.2 hroom]
  · intro via s c x hc hx hruns hport hfull
    subst hc hx
    refine next_eq ((firmware_runs hruns).trans ?_)
    simp [cmdPortStatus, when', Nat.not_lt.2 hport, hfull]
  · intro via s c t u bs hc ht hu hbs hruns hport hparcel hparcel' hfit htalker
    subst hc ht hu hbs
    refine next_eq ((firmware_runs hruns).trans ?_)
    have htalker' : bit ((takenBy 0x503 via s).sent.talkers.getD (wd (cmdOf 0x503 via s).words 1) []) 0 31 = false := by simpa using htalker
    simp only [cmdRawRead, Nat.not_lt.2 hport, if_false, withParcel_ok hparcel, htalker', Bool.false_eq_true]
    exact writeItems_ok hparcel' hfit

end Sys2Proof.Laws
end

section
/-!
The sentence multiplexer: framing and classification, the train, emission, and the commands.
-/

namespace Sys2Proof.Laws

open Sys2Proof Sys2Proof.Machine

/-! Framing and classification (R193, R194, R200 to R202). -/

/-- A sentence as its rule marks it (R202). -/
def marked (x : Sentence) (i : Nat) (ru : RuleSt) : Sentence :=
  { x with cls := bits ru.rec_ 10 26 24, sup := bit ru.rec_ 10 28, hist := bit ru.rec_ 10 29, rule := i }

/-- The state in which the rule of a sentence decides on it. -/
def matched (x : Sentence) (i : Nat) (ru : RuleSt) (s : State) : State := when' (bit ru.rec_ 10 29) (historyPut (marked x i ru)) (cntRule i 0 s)

theorem classify_drop {x : Sentence} {i : Nat} {ru : RuleSt} {s : State} (hrule : ruleOf s x = (i, ru)) (hdrop : ruDrop ru.rec_ = true) :
    classify x s = cntRule i 2 (matched x i ru s) := by
  simp only [classify, hrule, hdrop, if_true]
  rfl

/-- A rule that neither decimates nor limits the rate passes a sentence on. -/
theorem classify_pass {x : Sentence} {i : Nat} {ru : RuleSt} {s : State} (hrule : ruleOf s x = (i, ru)) (hdrop : ruDrop ru.rec_ = false)
    (hdec : bits ru.rec_ 11 31 16 < 2) (hrate : ruRate ru.rec_ = 0) :
    classify x s = routeGroup (bits ru.rec_ 10 23 16) (marked x i ru) (cntRule i 1 (matched x i ru s)) := by
  simp only [classify, hrule, hdrop, Bool.false_eq_true, if_false, Nat.not_le.2 hdec, ruleRate, hrate, beq_self_eq_true, if_true]
  rfl

/-- The input queue has no part in the choice of a rule. -/
theorem ruleOf_onInq (q : List Sentence) (s : State) (x : Sentence) : ruleOf (s.onSent fun t => { t with inq := q }) x = ruleOf s x := rfl

theorem sentenceClassify_cons {x : Sentence} {r : List Sentence} {s : State} (h : s.sent.inq = x :: r) :
    sentenceClassify s = classify x (s.onSent fun t => { t with inq := r }) := by simp only [sentenceClassify, h]

/-- Settles O33: characters framed, the gap that ends a sentence, and the rule's decision. -/
theorem sentenceEngine : Obligations.SentenceEngine := by
  unfold Obligations.SentenceEngine
  refine ⟨?_, ?_, ?_, ?_⟩
  · intro slot s hslot hen hbarn
    refine next_eq ?_
    simp [sentenceFramed, Nat.not_le.2 hslot, hen, hbarn, -List.getD_eq_getElem?_getD]
  · intro slot s hslot hen hlive hphase hprofile hempty hframed hgap
    refine next_eq ?_
    simp [idleGapSentenceEnd, Nat.not_le.2 hslot, hen, hlive, hphase, Nat.not_lt.2 hprofile, hempty, hframed, Nat.not_lt.2 hgap,
      -List.getD_eq_getElem?_getD]
  · intro x r i ru s hin hrule hdrop
    exact next_eq ((sentenceClassify_cons hin).trans (classify_drop ((ruleOf_onInq _ _ _).trans hrule) hdrop))
  · intro x r i ru s hin hrule hdrop hdec hrate
    exact next_eq ((sentenceClassify_cons hin).trans (classify_pass ((ruleOf_onInq _ _ _).trans hrule) hdrop hdec hrate))

/-! Sentences that arrive over the train (R206, R209, R210, R218). -/

theorem withCtl_first {op : Nat} {m : RxMsg} {s : State} (h : firstMsg (isCtl op) s = some m) (f : RxMsg → State → State) :
    withCtl op f s = f m (takenMsg m s) := withMsg_first h f

theorem mergeRelease_cons {n : Nat} {x : Sentence} {r : List Sentence} {s : State} (hheld : (lqOf s n).held = x :: r) :
    mergeRelease n s = if mergeDue s n x then mergeLoop n r.length (enqueue n x (modLq n (fun l => { l with held := r }) s)) else s := by
  simp only [mergeRelease, hheld, List.length_cons, mergeLoop]

/-- Settles O34: the frames of a pair, its oldest gap, the merge stage, and the lead's map. -/
theorem sentenceTrain : Obligations.SentenceTrain := by
  unfold Obligations.SentenceTrain
  refine ⟨?_, ?_, ?_, ?_, ?_, ?_⟩
  · intro m s hfirst hparse
    refine next_eq ((withMsg_first hfirst _).trans ?_)
    simp only [sentenceFrameIn, trainTime_takenMsg, hparse]
  · intro m xs s hfirst hparse hsome hlen hzero hstream hgrp
    refine next_eq ((withMsg_first hfirst _).trans ?_)
    simp [sentenceFrameIn, trainTime_takenMsg, hparse, hsome, Nat.not_lt.2 hlen, hzero, hstream, hgrp]
  · intro adm stream p s hpair hdue
    exact next_eq (by simp only [reseqHoldExpiry, hpair, hdue, if_true])
  · intro n x r s hheld hdue
    exact next_eq ((mergeRelease_cons hheld).trans (if_pos hdue))
  · intro n x r s hheld hdue
    exact next_eq ((mergeRelease_cons hheld).trans (if_neg (by simp [hdue])))
  · intro m s hfirst hlead
    refine next_eq ((withCtl_first hfirst _).trans ?_)
    simp [hlead]

/-! Emission (R216). -/

theorem beginEmit_cons {n : Nat} {x : Sentence} {r : List Sentence} {s : State} (h : (lqOf s n).q = x :: r) :
    beginEmit n s = some (x, (modLq n (fun l => { l with q := r, emitting := some x }) s).onSent fun t =>
      { t with lastOut := some (n, (formBytes s n x).1) }) := by simp only [beginEmit, h]

/-- Settles O35: the three kinds of listener. -/
theorem listenerEmit : Obligations.ListenerEmit := by
  unfold Obligations.ListenerEmit
  refine ⟨?_, ?_, ?_⟩
  · intro n x r s hn hfill hopen hphase hempty hidle hq
    refine next_eq ?_
    simp [Machine.listenerEmit, hn, hfill, hopen, hphase, hempty, hidle, beginEmit_cons hq]
  · intro n x r s hn hn' hfill hparcel hen hidle hq
    refine next_eq ?_
    simp [Machine.listenerEmit, Nat.not_lt.2 hn, hn', hfill, hparcel, hen, hidle, beginEmit_cons hq, -List.getD_eq_getElem?_getD]
  · intro n x r s hn hfill hen hq hfits
    have hn' : ¬ n < 16 := by omega
    refine next_eq ?_
    simp [Machine.listenerEmit, hn', Nat.not_lt.2 hn, hfill, hen, hq, hfits]

/-! The commands (R195, R203, R205, R211, R216, R395, R397, R399). -/

@[simp] theorem membersOf_takenBy (code : Nat) (via : Via) (s : State) (g : Nat) : membersOf (takenBy code via s) g = membersOf s g := by
  simp only [membersOf, takenBy_sent]

@[simp] theorem isLead_takenBy (code : Nat) (via : Via) (s : State) : isLead (takenBy code via s) = isLead s := by
  simp only [isLead, takenBy_inaug]

@[simp] theorem framerOf_takenBy (code : Nat) (via : Via) (s : State) (slot : Nat) : framerOf (takenBy code via s) slot = framerOf s slot := by
  simp only [framerOf, takenBy_sent]

/-- The sentence of a DIRECT_SEND (R211). -/
def directSentence (c : Ctx) (i : Nat × Nat × List Byte) (t : State) : Sentence :=
  let v := freeNat 96 t
  { slot := 64, talker := sysAddr t * 64 + v % 64
    stamp := if natBit i.2.1 23 then { s32 := i.1, ep := natBits i.2.1 31 24, sync := synced t } else stampNow t
    endStamp := none, noise := false, addr := false, checked := false, yard := false, late := false, replay := false, gap := false
    tseq := natBits v 37 6, cls := natBits (wd c.words 1) 31 29, sup := false, hist := false, rule := natBits v 80 70
    key := leBytes 4 (natBits v 69 38), body := i.2.2, arrived := trainTime t }

theorem directSentence_talker (c : Ctx) (i : Nat × Nat × List Byte) (t : State) : (directSentence c i t).talker / 64 = sysAddr t := by
  simp only [directSentence]
  omega

/-- The sentence of a DIRECT_SEND to a listener of this car: its body and class are the sender's, its talker is the car's. -/
theorem cmdDirectSend_own {c : Ctx} {s : State} {i : Nat × Nat × List Byte} (hzero : natBits (wd c.words 1) 28 20 = 0) (hparcel : parcelOk 2 c s = true)
    (hread : (parcelRead 2 c s).1 = true) (hitem : parseItems (parcelBytes 2 c s).length (parcelBytes 2 c s) = ([i], true))
    (hown : natBits (wd c.words 1) 19 0 / 64 = sysAddr (parcelRead 2 c s).2) :
    ∃ x, cmdDirectSend c s
        = replyOk c [] (offerListener (natBits (wd c.words 1) 19 0 % 64) x (tookFree (noteStamp (parcelRead 2 c s).2)))
      ∧ x.body = i.2.2 ∧ x.cls = natBits (wd c.words 1) 31 29 ∧ x.talker / 64 = sysAddr (parcelRead 2 c s).2 := by
  refine ⟨directSentence c i (parcelRead 2 c s).2, ?_, rfl, rfl, directSentence_talker _ _ _⟩
  simp only [cmdDirectSend, hzero, bne_self_eq_false, Bool.false_eq_true, if_false]
  rw [readParcel_ok hparcel hread]
  simp only [hitem, hown, beq_self_eq_true, if_true]
  rfl

/-- Settles O36: the records, the sentences submitted, fetched and sent, the counters, and the groups. -/
theorem sentenceControl : Obligations.SentenceControl := by
  unfold Obligations.SentenceControl
  refine ⟨?_, ?_, ?_, ?_, ?_, ?_, ?_, ?_, ?_, ?_, ?_⟩
  · intro via s c hc hruns hslot hcheck hidle
    subst hc
    refine next_eq ((firmware_runs hruns).trans ?_)
    simp [cmdTalkerSet, Nat.not_lt.2 hslot, hcheck, hidle]
  · intro via s c hc hruns hslot hcheck hactive
    subst hc
    refine next_eq ((firmware_runs hruns).trans ?_)
    simp [cmdTalkerSet, Nat.not_lt.2 hslot, hcheck, hactive]
  · intro via s c hc hruns hslot hcheck
    subst hc
    refine next_eq ((firmware_runs hruns).trans ?_)
    simp [cmdListenerSet, Nat.not_lt.2 hslot, hcheck]
  · intro via s c t hc ht hruns hidx hlen hparcel hread hcheck
    subst hc ht
    refine next_eq ((firmware_runs hruns).trans ?_)
    simp [cmdRuleReplace, Nat.not_lt.2 hidx, hlen, readParcel_ok hparcel hread, hcheck]
  · intro via s c t items hc ht hruns hlow hhigh hparcel hread hitems hen
    subst hc ht
    refine ⟨_, _, rfl, rfl, next_eq ((firmware_runs hruns).trans ?_)⟩
    simp only [cmdSubmit, Nat.not_lt.2 hlow, Nat.not_lt.2 hhigh, if_false, decide_false, Bool.or_self, Bool.false_eq_true]
    rw [readParcel_ok hparcel hread]
    simp only [hitems, hen, Bool.not_true, Bool.false_eq_true, if_false]
  · intro via s c t u items hc ht hu hitems hruns hlow hhigh hlisten hparcel hfit
    subst hc ht hu hitems
    refine ⟨_, _, rfl, rfl, next_eq ((firmware_runs hruns).trans ?_)⟩
    simp only [cmdFetch, Nat.not_lt.2 hlow, Nat.not_lt.2 hhigh, takenBy_sent, hlisten, Bool.not_true, decide_false, Bool.or_self, Bool.false_eq_true,
      if_false]
    exact writeItems_ok hparcel hfit
  · intro via s c t i hc ht hruns hzero hparcel hread hitem hown
    subst hc ht
    obtain ⟨x, hrow, hbody⟩ := cmdDirectSend_own hzero hparcel hread hitem hown
    exact ⟨x, next_eq ((firmware_runs hruns).trans hrow), hbody⟩
  · intro via s c t hc ht hruns hparcel hfit
    subst hc ht
    exact next_eq ((firmware_runs hruns).trans (writeItems_ok hparcel (.inr hfit)))
  · intro via s c g m t hc ht hg hm hruns hzero hzero' hlead hadd hnew hroom hrooms
    subst hc ht hg hm
    refine next_eq ((firmware_runs hruns).trans ?_)
    simp only [cmdGroupChange, hzero, hzero', isLead_takenBy, hlead, hadd, membersOf_takenBy, hnew, takenBy_sent, Nat.not_le.2 hroom,
      Nat.not_le.2 hrooms, bne_self_eq_false, Bool.or_self, Bool.not_true, Bool.false_eq_true, if_false, decide_false]
  · intro via s c g m t hc ht hg hm hruns hzero hzero' hlead hremove hold
    subst hc ht hg hm
    refine next_eq ((firmware_runs hruns).trans ?_)
    simp only [cmdGroupChange, hzero, hzero', isLead_takenBy, hlead, hremove, membersOf_takenBy, hold, bne_self_eq_false, Bool.or_self,
      Bool.not_true, Bool.false_eq_true, if_false, if_true]
  · intro via s c t hc ht hruns hlead hparcel hfit
    subst hc ht
    refine next_eq ((firmware_runs hruns).trans ?_)
    simp only [cmdGroupRead, isLead_takenBy, hlead, if_true, takenBy_sent]
    exact writeItems_ok hparcel hfit

end Sys2Proof.Laws
end

section
/-!
Bulk transfers, parcels and replay, and the snapshots of the counters.
-/

namespace Sys2Proof.Laws

open Sys2Proof Sys2Proof.Machine

@[simp] theorem trainTime_takenBy (code : Nat) (via : Via) (s : State) : trainTime (takenBy code via s) = trainTime s := by
  simp only [trainTime, timeAt, timeFxAt, takenBy_clk]

@[simp] theorem sysAddr_takenBy (code : Nat) (via : Via) (s : State) : sysAddr (takenBy code via s) = sysAddr s := by
  simp only [sysAddr, takenBy_inaug]

/-! Inbound transfers (R56, R222, R400). -/

/-- The frame's bytes in their transfer. -/
def bulkPiece (m : RxMsg) : Nat × Nat := (be m.payload 4 8, (m.payload.drop 16).length)

theorem bulkFrameIn_malformed {m : RxMsg} {s : State}
    (h : m.payload.length < 16 ∨ be m.payload 12 4 < be m.payload 4 8 + (m.payload.drop 16).length) : bulkFrameIn m s = s := by
  rcases h with h | h <;> simp only [bulkFrameIn, h, decide_true, Bool.or_true, Bool.true_or, if_true]

section Pieces

variable {m : RxMsg} {b : BulkIn} {s : State} (hlen : 16 ≤ m.payload.length)
  (hfits : be m.payload 4 8 + (m.payload.drop 16).length ≤ be m.payload 12 4)
  (hopen : s.lane.bulkIn.find? (fun x => x.src == m.hdr.adm && x.xid == be m.payload 0 4) = some b) (hgood : b.bad = false)

include hlen hfits hopen hgood

/-- A replay to a disabled listener is refused. -/
theorem bulkFrameIn_refused (hodd : Config.bulkTarget m.hdr.adm (be m.payload 0 4) % 2 = 1)
    (hoff : lsEnable (s.sent.listeners.getD (Config.bulkTarget m.hdr.adm (be m.payload 0 4) / 2 % 64) []) = false) :
    bulkFrameIn m s = sendBulkStatus m.hdr.src (be m.payload 0 4) 5 (stateDetail s)
      (putBulk { b with got := bulkPiece m :: b.got, data := [], bad := true } s) := by
  simp only [bulkFrameIn, Nat.not_lt.2 hlen, Nat.not_lt.2 hfits, decide_false, Bool.or_self, Bool.false_eq_true, if_false, hopen, hgood, hodd, hoff,
    beq_self_eq_true, Bool.not_false, Bool.and_self, if_true]
  rfl

theorem bulkFrameIn_replay (hodd : Config.bulkTarget m.hdr.adm (be m.payload 0 4) % 2 = 1)
    (hon : lsEnable (s.sent.listeners.getD (Config.bulkTarget m.hdr.adm (be m.payload 0 4) / 2 % 64) []) = true)
    (hmore : covered (b.got.length + 1) (bulkPiece m :: b.got) 0 (be m.payload 12 4) = false) :
    bulkFrameIn m s = putBulk { b with got := bulkPiece m :: b.got, data := (be m.payload 4 8, m.payload.drop 16) :: b.data } s := by
  simp only [bulkPiece] at hmore
  simp only [bulkFrameIn, Nat.not_lt.2 hlen, Nat.not_lt.2 hfits, decide_false, Bool.or_self, Bool.false_eq_true, if_false, hopen, hgood, hodd, hon,
    beq_self_eq_true, Bool.not_true, Bool.and_false, if_true, List.length_cons, hmore]
  rfl

theorem bulkFrameIn_parcel (heven : Config.bulkTarget m.hdr.adm (be m.payload 0 4) % 2 = 0)
    (hmore : covered (b.got.length + 1) (bulkPiece m :: b.got) 0 (be m.payload 12 4) = false) :
    bulkFrameIn m s = putBulk { b with got := bulkPiece m :: b.got }
      (bulkPlace (Config.bulkTarget m.hdr.adm (be m.payload 0 4) / 2 + be m.payload 4 8) (m.payload.drop 16) s) := by
  have hparcel : (Config.bulkTarget m.hdr.adm (be m.payload 0 4) % 2 == 1) = false := by simp [heven]
  simp only [bulkPiece] at hmore
  simp only [bulkFrameIn, Nat.not_lt.2 hlen, Nat.not_lt.2 hfits, decide_false, Bool.or_self, Bool.false_eq_true, if_false, hopen, hgood, hparcel,
    Bool.false_and, List.length_cons, hmore]
  rfl

end Pieces

/-! PARCEL_PUSH and REPLAY (R222, R404, R406). -/

theorem cmdParcelPush_starts {c : Ctx} {s u : State} (hu : u = (parcelRead 2 c s).2) (hdst : wd c.words 1 ≤ 16383) (hsize : wd c.words 3 ≤ bulkMax)
    (hparcel : parcelOk 2 c s = true) (hread : (parcelRead 2 c s).1 = true) (hroom : bulkCount u < 4) (hother : wd c.words 1 ≠ sysAddr u)
    (hknown : carKnown u (wd c.words 1) = true) (hbytes : parcelBytes 2 c s ≠ []) :
    cmdParcelPush c s = bulkStart (badgeOfCar u (wd c.words 1)) (wd c.words 1) .push c 0 (parcelBytes 2 c s) (replyOk c [u.lane.nextXfer] u) := by
  subst hu
  have hother' : (wd c.words 1 == sysAddr (parcelRead 2 c s).2) = false := by simpa using hother
  have hbytes' : (parcelBytes 2 c s).isEmpty = false := by simpa using hbytes
  simp only [cmdParcelPush, Nat.not_lt.2 hdst, Nat.not_lt.2 hsize, decide_false, Bool.and_false, Bool.false_eq_true, if_false]
  rw [readParcel_ok hparcel hread]
  simp only [hother', Nat.not_le.2 hroom, hknown, hbytes', Bool.not_true, Bool.false_eq_true, if_false]

theorem replaySelect_takenBy (code : Nat) (via : Via) (s : State) (t0 t1 ep : Nat) (mask : Option Nat) :
    replaySelect (takenBy code via s) t0 t1 ep mask = replaySelect s t0 t1 ep mask := by simp only [replaySelect, takenBy_sent]

/-- Settles O37: the pieces of a transfer, its status and its end, and the commands that start one. -/
theorem transfers : Obligations.Transfers := by
  unfold Obligations.Transfers
  refine ⟨?_, ?_, ?_, ?_, ?_, ?_, ?_⟩
  · exact fun m s hfirst hbad => next_eq ((withMsg_first hfirst _).trans (bulkFrameIn_malformed hbad))
  · intro m b s x hfirst hlen hfits hopen hgood hx
    subst hx
    refine ⟨bulkFrameIn m (takenMsg m s), next_eq (withMsg_first hfirst _), ?_, fun hmore => ⟨?_, ?_⟩⟩
    · exact fun hodd hoff => bulkFrameIn_refused hlen hfits hopen hgood hodd hoff
    · exact fun hodd hon => bulkFrameIn_replay hlen hfits hopen hgood hodd hon hmore
    · exact fun heven => bulkFrameIn_parcel hlen hfits hopen hgood heven hmore
  · intro m b s hfirst hfound
    refine next_eq ((withCtl_first hfirst _).trans ?_)
    have hfound' : (takenMsg m s).lane.bulkOut.find? (fun b => b.xid == be m.payload 8 4 && b.dst == m.hdr.src) = some b := hfound
    simp only [hfound']
  · exact fun xid b s hfound hgone => next_eq (by simp [parcelTransferTimeout, hfound, hgone])
  · exact fun xid b n s hfound hcar hpush hdue => next_eq (by simp [parcelTransferTimeout, hfound, hcar, hpush, hdue])
  · intro via s c t u hc ht hu hruns hdst hsize hparcel hread hroom hother hknown hbytes
    subst hc ht
    exact next_eq ((firmware_runs hruns).trans (cmdParcelPush_starts hu hdst hsize hparcel hread hroom hother hknown hbytes))
  · intro via s c t sel trunc first hc ht hruns hid horder hmask hroom hhere hen hsel hsome htrunc hfirst
    have hsome' : sel.isEmpty = false := by simpa using hsome
    subst hc ht
    refine next_eq ((firmware_runs hruns).trans ?_)
    simp only [cmdReplay, Nat.not_lt.2 hid, Nat.not_lt.2 horder, Nat.not_lt.2 hmask, takenBy_sent, Nat.not_le.2 hroom, sysAddr_takenBy, hhere, hen,
      beq_self_eq_true, Bool.not_true, Bool.false_and, Bool.false_eq_true, if_false, if_true, replaySelect_takenBy, ← hsel, hsome']
    subst hfirst htrunc
    rfl

/-! Snapshots (R349 to R351, R404, R406, R412). -/

theorem clearCounters_snap (s : State) : (clearCounters s).snap = s.snap := rfl

/-- What a freeze leaves in the snapshot bank. -/
theorem freeze_snap (sid : Nat) (clear wide : Bool) (s : State) :
    ∃ rest, (freeze sid clear wide s).snap.bank = wordOf ((s.snap.seq + 1) % 2 ^ 32) :: rest
      ∧ (freeze sid clear wide s).snap.seq = (s.snap.seq + 1) % 2 ^ 32 := by
  have hsnap : ∀ u : State, (raiseCode 70 1 1 0 (if clear then clearCounters u else u)).snap = u.snap := fun u => by
    rw [snap_of_quiet (quiet_raiseCode _ _ _ _ _)]
    cases clear <;> rfl
  simp only [freeze, hsnap]
  exact ⟨_, rfl, rfl⟩

/-- Settles O38: the freezes by command and by request, and the commands on the bank and the counters. -/
theorem snapshots : Obligations.Snapshots := by
  unfold Obligations.Snapshots
  refine ⟨?_, ?_, ?_, ?_, ?_, ?_, ?_, ?_⟩
  · intro via s c t hc ht hruns hclear
    subst hc ht
    exact next_eq ((firmware_runs hruns).trans (by simp only [cmdSnapshot, Nat.not_lt.2 hclear, if_false]))
  · intro sid clear wide s
    obtain ⟨rest, hbank, hseq⟩ := freeze_snap sid clear wide s
    exact ⟨hseq, by rw [hbank]; rfl⟩
  · intro via s c t hc ht hruns hsid hclear hearly hlate
    subst hc ht
    refine next_eq ((firmware_runs hruns).trans ?_)
    have hsid' : (wd (cmdOf 0x806 via s).words 3 == 0) = false := by simpa using hsid
    simp only [cmdTrainSnapshot, hsid', Nat.not_lt.2 hclear, trainTime_takenBy, Nat.not_lt.2 hearly, Nat.not_lt.2 hlate, Bool.false_eq_true, if_false,
      decide_false, Bool.or_self]
  · intro m s hfirst hpend htime
    refine next_eq ((withCtl_first hfirst _).trans ?_)
    have hpend' : (takenMsg m s).snap.pend = none := hpend
    simp [snapRequest, hpend', Nat.not_lt.2 htime]
  · exact fun r s hpend hdue => next_eq (by simp [snapshotFreeze, hpend, hdue])
  · intro via s c t hc ht hruns hdst hown halign hin hfree
    subst hc ht
    refine next_eq ((firmware_runs hruns).trans ?_)
    have hhost : ¬ 16383 < sysAddr s := by omega
    simp only [cmdSnapshotSend, hown, sysAddr_takenBy, hhost, if_false, halign, bne_self_eq_false, takenBy_snap, hin, hfree, beq_self_eq_true, if_true,
      Bool.not_true, Bool.false_and, Bool.false_eq_true]
  · intro via s c t p hc ht hp hruns hdst hother halign hsome hsize hknown hroom
    subst hc ht
    refine next_eq ((firmware_runs hruns).trans ?_)
    have hsome' : p.isEmpty = false := by simpa using hsome
    simp [cmdSnapshotSend, Nat.not_lt.2 hdst, hother, halign, ← hp, hsome', Nat.not_lt.2 hsize, hknown, Nat.not_le.2 hroom]
  · intro via s c hc hruns
    subst hc
    exact next_eq (firmware_runs hruns)

end Sys2Proof.Laws
end

section
/-!
The field section: the barrier, its heartbeat and the inputs, and the protection of outputs.
-/

namespace Sys2Proof.Laws

open Sys2Proof Sys2Proof.Machine

/-! The barrier (R253 to R255). -/

theorem barrierFrameReceive_powered {k : LinkCrc} {s : State} (h : fieldPowered s = true) :
    barrierFrameReceive k s = logicReceives k.toLogic (fieldReceives k.toField s) := if_pos h

theorem fieldReceives_stateBad {s : State} (hidx : s.fld.txIdx = 0) (hgo : s.fld.stateStop = false) :
    fieldReceives false s = cntFmod 0 (s.onFld fun d => { d with stateRun := 0 }) := by simp [fieldReceives, hidx, hgo]

theorem fieldReceives_stateGood {s : State} (hidx : s.fld.txIdx = 0) (hgo : s.fld.stateStop = false) (halive : s.fld.hbLost = false) :
    fieldReceives true s = s.onFld fun d => { d with lastState := s.clk.c, stateRun := min (d.stateRun + 1) 10 } := by
  simp [fieldReceives, hidx, hgo, stateFrame, halive, State.onFld]

theorem fieldReceives_cmdsBad {s : State} (hidx : s.fld.txIdx ≠ 0) : fieldReceives false s = cntFmod 0 s := by simp [fieldReceives, hidx]

theorem fieldReceives_cmds {s : State} (hidx : s.fld.txIdx ≠ 0) :
    fieldReceives true s = each s.fld.cmds crossBarrier (s.onFld fun d => { d with cmds := [] }) := by simp [fieldReceives, hidx]

/-- With no command queued the frame from the logic side changes nothing. -/
theorem fieldReceives_noCmds {s : State} (hidx : s.fld.txIdx ≠ 0) (hnone : s.fld.cmds = []) :
    fieldReceives true s = s.onFld fun d => { d with cmds := [] } := by
  rw [fieldReceives_cmds hidx, hnone]
  rfl

theorem logicReceives_edges {s : State} (hidx : s.fld.rxIdx ≠ 0) :
    logicReceives true s = s.onFld fun d => { d with lastField := s.clk.c, arrived := d.arrived ++ d.edges.take 4, edges := d.edges.drop 4 } := by
  simp [logicReceives, when', hidx]

theorem logicReceives_status {s : State} (hidx : s.fld.rxIdx = 0) (hlink : s.fld.linkError = false) :
    logicReceives true s = tookFree (s.onFld fun d =>
      { d with
        lastField := s.clk.c, arrived := d.arrived ++ d.edges.take 4, edges := d.edges.drop 4
        kept := d.ch, keptGrp := d.grp, keptHb := d.hbLost, keptCur := freeNat 352 s }) := by
  simp only [logicReceives, when', hidx, beq_self_eq_true, if_true, statusFrame, State.onFld, hlink, Bool.false_eq_true, if_false]
  rfl

/-! Inputs (R258 to R260, R275). -/

theorem inputLevelChange_run {n : Nat} {level : Bool} {s : State} (hlevel : (chanOf s n).runLevel ≠ level)
    (hlater : (chanOf s n).runStart < sampleAt s.clk.c) :
    inputLevelChange n level s
      = if fieldPowered s && chIsIn s n && !(grpOf s (n / 8)).under && decide (sampleAt s.clk.c < (chanOf s n).runStart + chDebounce s n)
          && (!(chanOf s n).known || (chanOf s n).runLevel != (chanOf s n).level)
        then cntChan n 1 (modChan n (fun y => { y with runLevel := level, runStart := sampleAt s.clk.c }) s)
        else modChan n (fun y => { y with runLevel := level, runStart := sampleAt s.clk.c }) s := by
  have hlevel' : ((chanOf s n).runLevel == level) = false := by simpa using hlevel
  have hback : ¬ sampleAt s.clk.c < (chanOf s n).runStart := by omega
  have hsame : ¬ sampleAt s.clk.c = (chanOf s n).runStart := by omega
  simp only [inputLevelChange, hlevel', hback, hsame, decide_false, Bool.false_and, Bool.or_self, Bool.false_eq_true, if_false]

theorem inputTransitionAccept_known {n : Nat} {s : State} (hpower : fieldPowered s = true) (hin : chIsIn s n = true) (hout : chIsOut s n = false)
    (hunder : (grpOf s (n / 8)).under = false) (hknown : (chanOf s n).known = true) (hstood : (chanOf s n).runStart + chDebounce s n ≤ s.clk.c)
    (hnew : (chanOf s n).runLevel ≠ (chanOf s n).level) :
    inputTransitionAccept n s
      = queueEdge { ch := n, level := (chanOf s n).runLevel, at_ := (chanOf s n).runStart - (25 + (Config.cmpDelay n).toNat),
                    overrun := (chanOf s n).overrun, starting := false }
          (cntChan n 0 (modChan n (fun y => { y with level := y.runLevel, known := true, lastLevel := y.runLevel, hadLevel := true }) s)) := by
  have hnew' : ((chanOf s n).runLevel != (chanOf s n).level) = true := by simpa using hnew
  simp only [inputTransitionAccept, hpower, hin, hout, hunder, hknown, hstood, hnew', decide_true, Bool.not_true, Bool.false_or, Bool.or_false,
    Bool.and_self, Bool.not_false, Bool.false_and, Bool.false_eq_true, if_false, when', if_true]

/-- A rule that is not valid writes nothing. -/
theorem each_ruleOutput_invalid {n : Nat} {level : Bool} {l : List Word} (h : ∀ w ∈ l, natBit w.toNat 31 = false) (s : State) :
    each l (ruleOutput n level) s = s := by
  induction l with
  | nil => rfl
  | cons w l ih =>
    have hw : ruleOutput n level w s = s := by simp [ruleOutput, h w List.mem_cons_self]
    simpa only [each, List.foldl_cons, hw] using ih fun v hv => h v (List.mem_cons_of_mem _ hv)

/-- A rising edge whose event is asked for, where no rule is valid. -/
theorem edgeReportReceive_rising {e : EdgeRep} {r : List EdgeRep} {s : State} (harrived : s.fld.arrived = e :: r) (hedge : e.starting = false)
    (hlevel : e.level = true) (hevent : bit (chRec s e.ch) 1 31 = true) (hrules : ∀ w ∈ s.fld.ruleRec, natBit w.toNat 31 = false) :
    edgeReportReceive s = raiseAt (stampAt s e.at_) (16 + e.ch) 1 (b2n e.overrun * 2 + 1) 0
      (s.onFld fun d => { d with arrived := r, kept := d.kept.modify e.ch fun y => { y with level := e.level, known := true } }) := by
  simp only [edgeReportReceive, harrived, hedge, Bool.false_eq_true, if_false, hlevel, if_true, hevent]
  refine each_ruleOutput_invalid ?_ _
  rw [fld_of_quiet (quiet_raiseAt _ _ _ _ _ _)]
  exact hrules

/-- Settles O39: the frames in both directions, the heartbeat, the runs of an input, and the edge reports. -/
theorem fieldLink : Obligations.FieldLink := by
  unfold Obligations.FieldLink
  refine ⟨?_, ?_, ?_, ?_, ?_, ?_, ?_, ?_, ?_, ?_, ?_, ?_, ?_, ?_, ?_, ?_, ?_⟩
  · exact fun s hpower => next_eq (if_pos hpower)
  · intro k s hpower hidx hgo hbad
    exact next_eq (by rw [barrierFrameReceive_powered hpower, hbad, fieldReceives_stateBad hidx hgo])
  · intro k s hpower hidx hgo hok halive
    exact next_eq (by rw [barrierFrameReceive_powered hpower, hok, fieldReceives_stateGood hidx hgo halive])
  · intro k s hpower hidx hbad
    exact next_eq (by rw [barrierFrameReceive_powered hpower, hbad, fieldReceives_cmdsBad hidx])
  · intro k s hpower hidx hok
    exact next_eq (by rw [barrierFrameReceive_powered hpower, hok, fieldReceives_cmds hidx])
  · intro k s hpower hidx hok hnone hbad
    exact next_eq (by rw [barrierFrameReceive_powered hpower, hok, hbad, fieldReceives_noCmds hidx hnone]; rfl)
  · intro k s hpower hidx hok hnone hgood hrx
    exact next_eq (by
      rw [barrierFrameReceive_powered hpower, hok, hgood, fieldReceives_noCmds hidx hnone]
      exact logicReceives_edges (s := s.onFld fun d => { d with cmds := [] }) hrx)
  · intro k s hpower hidx hok hnone hgood hrx hlink
    exact next_eq (by
      rw [barrierFrameReceive_powered hpower, hok, hgood, fieldReceives_noCmds hidx hnone]
      exact logicReceives_status (s := s.onFld fun d => { d with cmds := [] }) hrx hlink)
  · exact fun s hpower hlink hdue => next_eq (by simp [barrierLinkTimeout, hpower, hlink, hdue])
  · exact fun s htakes => next_eq (if_pos htakes)
  · exact fun s hpower hdue => next_eq (by simp [heartbeatMissing, hpower, hdue])
  · exact fun s hpower halive hdue => next_eq (by simp [hbTimeoutAct, hpower, halive, hdue])
  · intro n level s hlevel hlater hlong
    exact next_eq (by rw [inputLevelChange_run hlevel hlater]; simp [Nat.not_lt.2 hlong])
  · intro n level s hlevel hlater hshort hpower hin hunder hknown hnew
    have hnew' : (chanOf s n).runLevel ≠ (chanOf s n).level := fun h => hnew h.symm
    exact next_eq (by rw [inputLevelChange_run hlevel hlater]; simp [hshort, hpower, hin, hunder, hknown, hnew'])
  · exact fun n s hpower hin hout hunder hknown hstood hnew _ =>
      next_eq (inputTransitionAccept_known hpower hin hout hunder hknown hstood hnew)
  · exact fun e r s harrived hstart => next_eq (by simp [edgeReportReceive, harrived, hstart])
  · exact fun e r s harrived hedge hlevel hevent hrules => next_eq (edgeReportReceive_rising harrived hedge hlevel hevent hrules)

/-! Outputs (R262 to R266). -/

/-- A switch that is on has been in current limit long enough, or is in thermal shutdown. -/
theorem currentLimitTimeout_acts {n : Nat} {since : Option Nat} {s : State} {latch : Bool} (hpower : fieldPowered s = true) (hout : chIsOut s n = true)
    (hon : (chanOf s n).drive = true) (hlong : ∀ k, since = some k → max k (chanOf s n).onSince + chLimit s n ≤ s.clk.c)
    (hlatch : (chRetryMax s n != 15 && decide (chRetryMax s n ≤ (chanOf s n).retry)) = latch) {t : State}
    (ht : t = chEvent n 0x10 ((chanOf s n).retry * 16 + b2n since.isNone) (cntChan n 3 (fieldSettle (modChan n (fun y =>
      { y with short := !latch, thermal := since.isNone, offAt := s.clk.c, latched := if latch then some .retries else y.latched }) s)))) :
    currentLimitTimeout n since s = if latch then chEvent n 0x11 1 (cntChan n 5 t) else t := by
  subst ht
  cases since with
  | none => simp only [currentLimitTimeout, hpower, hout, hon, hlatch, Bool.and_self, Bool.not_true, Bool.or_self, Bool.false_eq_true, if_false]
  | some k =>
    simp only [currentLimitTimeout, hpower, hout, hon, hlatch, Nat.not_lt.2 (hlong k rfl), decide_false, Bool.and_self, Bool.not_true, Bool.or_self,
      Bool.false_eq_true, if_false]

/-- The highest channel of the group that is on is shed, if none was in the last 10 ms. -/
theorem overloadShed_acts {g n : Nat} {mod : Bool} {s : State} (hpower : fieldPowered s = true)
    (hrest : ∀ k, lastShed s g mod = some k → k + 10000000 ≤ s.clk.c)
    (hfound : ((List.range 8).map fun i => 8 * g + 7 - i).find? (fun n => chIsOut s n && (chanOf s n).drive) = some n) {s1 : State}
    (hs1 : s1 = fieldSettle (modChan n (fun y => { y with shed := true })
      (if mod then s.onFld fun d => { d with modShed := some s.clk.c } else modGrp g (fun y => { y with shedAt := some s.clk.c }) s))) :
    overloadShed g mod s = if mod then raise 54 1 (chEvent n 0x15 (freeNat 16 s1) (tookFree (cntChan n 6 s1)))
      else supplyEvent g 8 (chEvent n 0x15 (freeNat 16 s1) (tookFree (cntChan n 6 s1))) := by
  subst hs1
  cases hlast : lastShed s g mod with
  | none => simp only [overloadShed, hfound, hpower, hlast, Bool.not_true, Bool.or_self, Bool.false_eq_true, if_false]
  | some k =>
    simp only [overloadShed, hfound, hpower, hlast, Nat.not_lt.2 (hrest k hlast), decide_false, Bool.not_true, Bool.or_self, Bool.false_eq_true, if_false]

theorem modChan_modChan (n : Nat) (f g : Chan → Chan) (s : State) : modChan n f (modChan n g s) = modChan n (fun y => f (g y)) s := by
  simp only [modChan, State.onFld, List.modify_modify_eq]
  rfl

/-- The end of an open-load test that has not been disturbed. -/
theorem openLoadTestEnd_decides {n : Nat} {high : Bool} {s : State} (hpower : fieldPowered s = true) (htest : (chanOf s n).testing = true)
    (hlong : (chanOf s n).testAt + 1000000 ≤ s.clk.c) (hoff : (chanOf s n).drive = false) (hsupply : (grpOf s (n / 8)).suppress = false) {t : State}
    (ht : t = modChan n (fun y => { y with testing := false, testOver := s.clk.c, openLoad := high }) s) :
    openLoadTestEnd n high s = if high && !(chanOf s n).openLoad then chEvent n 0x14 0 (cntChan n 8 t)
      else if !high && (chanOf s n).openLoad then chEvent n 0x16 0x14 t else t := by
  subst ht
  simp only [openLoadTestEnd, hpower, htest, Nat.not_lt.2 hlong, hoff, hsupply, modChan_modChan, decide_false, Bool.not_true, Bool.or_self,
    Bool.false_eq_true, if_false]

/-- Settles O40: the limits and retries of a switch, the shed channel, the readback, and the open-load test. -/
theorem outputFaults : Obligations.OutputFaults := by
  unfold Obligations.OutputFaults
  refine ⟨?_, ?_, ?_, ?_, ?_, ?_, ?_, ?_, ?_, ?_, ?_, ?_, ?_, ?_⟩
  · intro n since s hpower hout hon hlong hretry
    have hlatch : (chRetryMax s n != 15 && decide (chRetryMax s n ≤ (chanOf s n).retry)) = false := by
      rcases hretry with hretry | hretry
      · simp [hretry]
      · simp [Nat.not_le.2 hretry]
    exact next_eq (currentLimitTimeout_acts hpower hout hon hlong hlatch rfl)
  · intro n since s hpower hout hon hmax hlong hretry
    have hlatch : (chRetryMax s n != 15 && decide (chRetryMax s n ≤ (chanOf s n).retry)) = true := by simp [hmax, hretry]
    exact next_eq (currentLimitTimeout_acts hpower hout hon hlong hlatch rfl)
  · exact fun n s hpower hshort hdue => next_eq (by simp [shortRetry, hpower, hshort, hdue])
  · exact fun n s hpower hon hretry hdue => next_eq (by simp [retryCountReset, hpower, hon, hretry, hdue])
  · exact fun g n s hpower hrest hfound => next_eq (overloadShed_acts (mod := true) hpower hrest hfound rfl)
  · exact fun g n s hpower hrest hfound => next_eq (overloadShed_acts (mod := false) hpower hrest hfound rfl)
  · intro n lim s hpower hout hsupply hon hlim hlow hstood
    exact next_eq (by simp [readbackFault, hpower, hout, hsupply, hon, hlim, hlow, Nat.not_le.2 hstood])
  · intro n lim s hpower hout hsupply hoff hhigh hstood hnew hexempt
    exact next_eq (by simp [readbackFault, hpower, hout, hsupply, hoff, hhigh, Nat.not_le.2 hstood, hnew, hexempt])
  · intro n s hpower hback hsupply hsame hexempt hstood
    exact next_eq (by simp [readbackFaultEnd, hpower, hback, hsupply, hsame, hexempt, hstood])
  · intro n s hpower hout hrec hoff hidle hsupply hlow hgrid
    exact next_eq (by simp [openLoadTestStart, hpower, hout, hrec, hoff, hidle, hsupply, hlow, hgrid])
  · intro n s hpower htest hlong hoff hsupply hload
    exact next_eq ((openLoadTestEnd_decides hpower htest hlong hoff hsupply rfl).trans (by simp [hload]))
  · intro n s hpower htest hlong hoff hsupply hload
    exact next_eq ((openLoadTestEnd_decides hpower htest hlong hoff hsupply rfl).trans (by simp [hload]))
  · intro n b s hpower htest hlong hoff hsupply hload
    exact next_eq ((openLoadTestEnd_decides hpower htest hlong hoff hsupply rfl).trans (by simp [hload]))
  · intro n b s hpower htest hlong hvoid
    exact next_eq (by simp [openLoadTestEnd, hpower, htest, Nat.not_lt.2 hlong, hvoid])

end Sys2Proof.Laws
end

section
/-!
The groups of the field section: their supplies, leases and timed applies.
-/

namespace Sys2Proof.Laws

open Sys2Proof Sys2Proof.Machine

/-! Group supplies (R260, R268, R269). -/

/-- A group as a reading of its supply leaves it, its thresholds apart. -/
def supplyRead (away : Bool) (g : Nat) (v : SupplyObs) (s : State) : State :=
  when' ((grpOf s g).under && !away) (runsRestart g) (modGrp g (fun y =>
    { y with
      vfield := v.mv
      under := away
      above := if 15500 < v.mv then some (y.above.getD (s.clk.c - v.held)) else none
      inRange := if decide (18000 < v.mv) && (!(grpOf s g).ov || decide (v.mv < 32000)) then some (y.inRange.getD (s.clk.c - v.held)) else none }) s)

section Crossings

variable {g : Nat} {v : SupplyObs} {s : State} (hheld : 50000 ≤ v.held) (hpower : fieldPowered s = true)

include hheld hpower

/-- The row once the reading has held for both filter times. -/
theorem groupSupplyCrossing_held {s0 : State} (hs0 : s0 = supplyRead (supplyAway (grpOf s g) v) g v s) :
    groupSupplyCrossing g v s =
      let x := grpOf s g
      let s1 := if v.mv < 19200 ∧ x.warn = false then supplyEvent g 1 (modGrp g (fun y => { y with warn := true }) s0)
        else if 19600 < v.mv ∧ x.warn = true then supplyEvent g 2 (modGrp g (fun y => { y with warn := false }) s0) else s0
      let s2 := if v.mv < 15000 ∧ x.suppress = false then
          supplyEvent g 3 (cntGrp g 4 (timersReset g (modGrp g (fun y => { y with suppress := true }) s1)))
        else if x.suppress = true ∧ 15500 < v.mv ∧ x.above.getD (s.clk.c - v.held) + 10000000 ≤ s.clk.c then
          supplyEvent g 4 (timersReset g (modGrp g (fun y => { y with suppress := false }) s1))
        else s1
      let s3 := if v.mv < 12000 ∧ x.uv = false then voltLatch g 5 (fun y => { y with uv := true }) s2 else s2
      if 35000 < v.mv ∧ x.ov = false then voltLatch g 7 (fun y => { y with ov := true, inRange := none }) s3
      else when' (decide (v.mv < 12000) || decide (35000 < v.mv)) (groupInvalid g) s3 := by
  subst hs0
  have hf20 : 20000 ≤ v.held := by omega
  simp [groupSupplyCrossing, supplyRead, hpower, hheld, hf20, and_assoc]

end Crossings

theorem supplyAway_held {x : FGroup} {v : SupplyObs} (h : 50000 ≤ v.held) :
    supplyAway x v = (decide (v.mv < 12000) || decide (35000 < v.mv) || (x.under && x.ov && decide (32000 ≤ v.mv))) := by
  have hlong : ¬ v.held < 20000 := by omega
  simp only [supplyAway, hlong, if_false]

/-- A reading that has not held for a filter time is only noted. -/
theorem groupSupplyCrossing_early {g : Nat} {v : SupplyObs} {s : State} (hheld : v.held < 20000) (hpower : fieldPowered s = true)
    (hsuppress : (grpOf s g).suppress = false) : groupSupplyCrossing g v s = supplyRead (grpOf s g).under g v s := by
  have haway : supplyAway (grpOf s g) v = (grpOf s g).under := if_pos hheld
  have hf20 : ¬ 20000 ≤ v.held := by omega
  have hf50 : ¬ 50000 ≤ v.held := by omega
  simp [groupSupplyCrossing, supplyRead, hpower, haway, hf20, hf50, hsuppress, when']

/-- The clauses on a reading that has held, where the suppression already agrees with it. -/
theorem groupSupplyCrossing_settled {g : Nat} {v : SupplyObs} {s s0 : State} {away : Bool} (hheld : 50000 ≤ v.held)
    (haway : away = (decide (v.mv < 12000) || decide (35000 < v.mv) || ((grpOf s g).under && (grpOf s g).ov && decide (32000 ≤ v.mv))))
    (hs0 : s0 = supplyRead away g v s) (hpower : fieldPowered s = true) (hsuppress : (grpOf s g).suppress = decide (v.mv < 15000)) :
    (19600 < v.mv → v.mv ≤ 35000 → (grpOf s g).warn = false → groupSupplyCrossing g v s = s0)
    ∧ (12000 ≤ v.mv → v.mv < 19200 → (grpOf s g).warn = false →
      groupSupplyCrossing g v s = supplyEvent g 1 (modGrp g (fun y => { y with warn := true }) s0))
    ∧ (19600 < v.mv → v.mv ≤ 35000 → (grpOf s g).warn = true →
      groupSupplyCrossing g v s = supplyEvent g 2 (modGrp g (fun y => { y with warn := false }) s0))
    ∧ (v.mv < 12000 → (grpOf s g).warn = true → (grpOf s g).uv = false →
      groupSupplyCrossing g v s = groupInvalid g (voltLatch g 5 (fun y => { y with uv := true }) s0))
    ∧ (35000 < v.mv → (grpOf s g).warn = false → (grpOf s g).ov = false →
      groupSupplyCrossing g v s = voltLatch g 7 (fun y => { y with ov := true, inRange := none }) s0) := by
  have hrow := groupSupplyCrossing_held hheld hpower (s0 := s0) (g := g) (by rw [supplyAway_held hheld, ← haway, hs0])
  rw [hrow]
  refine ⟨fun hlow hhigh hwarn => ?_, fun hlow hhigh hwarn => ?_, fun hlow hhigh hwarn => ?_, fun hlow hwarn huv => ?_, fun hhigh hwarn hov => ?_⟩
  · have h12 : ¬ v.mv < 12000 := by omega
    have h15 : ¬ v.mv < 15000 := by omega
    have h19 : ¬ v.mv < 19200 := by omega
    simp [hsuppress, hwarn, h12, h15, h19, Nat.not_lt.2 hhigh, when']
  · have h15 : ¬ (15500 < v.mv ∧ v.mv < 15000) := by omega
    have h196 : ¬ 19600 < v.mv := by omega
    have h35 : ¬ 35000 < v.mv := by omega
    by_cases hs : v.mv < 15000
    · have h155 : ¬ 15500 < v.mv := by omega
      simp [hsuppress, hwarn, hs, h155, hhigh, h35, Nat.not_lt.2 hlow, when']
    · simp [hsuppress, hwarn, hs, hhigh, h35, Nat.not_lt.2 hlow, when']
  · have h12 : ¬ v.mv < 12000 := by omega
    have h15 : ¬ v.mv < 15000 := by omega
    simp [hsuppress, hwarn, hlow, h12, h15, Nat.not_lt.2 hhigh, when']
  · have h15 : v.mv < 15000 := by omega
    have h155 : ¬ 15500 < v.mv := by omega
    have h196 : ¬ 19600 < v.mv := by omega
    have h35 : ¬ 35000 < v.mv := by omega
    simp [hsuppress, hwarn, huv, hlow, h15, h155, h196, h35, when']
  · have h12 : ¬ v.mv < 12000 := by omega
    have h15 : ¬ v.mv < 15000 := by omega
    have h19 : ¬ v.mv < 19200 := by omega
    simp [hsuppress, hwarn, hov, hhigh, h12, h15, h19]

/-- Suppression stays until the supply has been good for 10 ms. -/
theorem groupSupplyCrossing_suppressed {g : Nat} {v : SupplyObs} {s : State} (hpower : fieldPowered s = true)
    (hsuppress : (grpOf s g).suppress = true) (hwarn : (grpOf s g).warn = false) (hunder : (grpOf s g).under = false) (hlow : 19600 < v.mv)
    (hhigh : v.mv ≤ 35000) (hheld : 50000 ≤ v.held) (hsoon : s.clk.c ≤ (grpOf s g).above.getD (s.clk.c - v.held) + 9999999) :
    groupSupplyCrossing g v s = supplyRead false g v s := by
  have h12 : ¬ v.mv < 12000 := by omega
  have h15 : ¬ v.mv < 15000 := by omega
  have h19 : ¬ v.mv < 19200 := by omega
  have haway : supplyAway (grpOf s g) v = false := by simp [supplyAway_held hheld, hunder, h12, hhigh]
  have hwait : ¬ (grpOf s g).above.getD (s.clk.c - v.held) + 10000000 ≤ s.clk.c := by omega
  rw [groupSupplyCrossing_held hheld hpower rfl, haway]
  simp [hsuppress, hwarn, h12, h15, h19, Nat.not_lt.2 hhigh, hwait, when']

/-! Timed applies (R162, R278). -/

/-- A timed apply is taken from the list, with the strobes issued for it. -/
def timedTaken (x : Timed) (s : State) : State :=
  (s.onFld fun d => { d with timed := d.timed.filter fun y => y.slot != x.slot }).onPlan fun p =>
    { p with strobes := p.strobes.filter fun y => y.for_ != .timed x.slot }

theorem timedApplyDue_due {x : Timed} {s : State}
    (h : s.fld.timed.find? (fun x => x.ep != s.clk.tepoch || decide (x.at_ ≤ trainTime s)) = some x) :
    timedApplyDue s =
      if x.ep == s.clk.tepoch && passedOver s x.at_ then timedTaken x s
      else if !timedLive s x then cntGrp x.g 0 (timedTaken x s)
      else if !synced s then raise 86 (freeNat 4 s) (tookFree (cntStall 9 (timedTaken x s)))
      else if s.plan.strobes.any fun y => y.for_ == .timed x.slot && y.at_ == x.at_ then fieldRequest x.g x.mask x.vals true (timedTaken x s)
      else timedTaken x s := by
  simp only [timedApplyDue, h]
  rfl

theorem timedLive_iff {x : Timed} {s : State} (hep : x.ep = s.clk.tepoch) : timedLive s x = ((grpOf s x.g).gen == x.gen) := by
  simp [timedLive, hep]

/-- What becomes of an apply whose time has come. -/
theorem timedApplyDue_cases {x : Timed} {s : State}
    (hfound : s.fld.timed.find? (fun x => x.ep != s.clk.tepoch || decide (x.at_ ≤ trainTime s)) = some x) :
    (x.ep = s.clk.tepoch → passedOver s x.at_ = true → timedApplyDue s = timedTaken x s)
    ∧ ((x.ep ≠ s.clk.tepoch ∨ (passedOver s x.at_ = false ∧ (grpOf s x.g).gen ≠ x.gen)) → timedApplyDue s = cntGrp x.g 0 (timedTaken x s))
    ∧ (x.ep = s.clk.tepoch → passedOver s x.at_ = false → (grpOf s x.g).gen = x.gen → synced s = false →
      timedApplyDue s = raise 86 (freeNat 4 s) (tookFree (cntStall 9 (timedTaken x s))))
    ∧ (x.ep = s.clk.tepoch → passedOver s x.at_ = false → (grpOf s x.g).gen = x.gen → synced s = true →
      (s.plan.strobes.any fun y => y.for_ == .timed x.slot && y.at_ == x.at_) = true →
      timedApplyDue s = fieldRequest x.g x.mask x.vals true (timedTaken x s))
    ∧ (x.ep = s.clk.tepoch → passedOver s x.at_ = false → (grpOf s x.g).gen = x.gen → synced s = true →
      (s.plan.strobes.any fun y => y.for_ == .timed x.slot && y.at_ == x.at_) = false → timedApplyDue s = timedTaken x s) := by
  rw [timedApplyDue_due hfound]
  refine ⟨fun hep hpast => ?_, ?_, fun hep hpast hgen hsync => ?_, fun hep hpast hgen hsync hstrobe => ?_, fun hep hpast hgen hsync hstrobe => ?_⟩
  · simp only [hep, hpast, beq_self_eq_true, Bool.and_self, if_true]
  · rintro (hep | ⟨hpast, hgen⟩)
    · simp [hep, timedLive]
    · simp [hpast, hgen, timedLive]
  · simp [hpast, timedLive_iff hep, hgen, hsync]
  · simp only [hpast, timedLive_iff hep, hgen, hsync, hstrobe, Bool.and_false, beq_self_eq_true, Bool.not_true, Bool.false_eq_true, if_false, if_true]
  · simp only [hpast, timedLive_iff hep, hgen, hsync, hstrobe, Bool.and_false, beq_self_eq_true, Bool.not_true, Bool.false_eq_true, if_false]

/-- Settles O41: the supply of a group, its lease, and a timed apply at its time. -/
theorem groupEvents : Obligations.GroupEvents := by
  unfold Obligations.GroupEvents
  refine ⟨?_, ?_, ?_, ?_, ?_, ?_, ?_, ?_, ?_⟩
  · intro g v s s0 away hheld haway hs0 hpower hsuppress
    obtain ⟨hgood, hwarns, hends, hunder, hover⟩ := groupSupplyCrossing_settled hheld haway hs0 hpower hsuppress
    exact ⟨fun h1 h2 h3 => next_eq (hgood h1 h2 h3), fun h1 h2 h3 => next_eq (hwarns h1 h2 h3), fun h1 h2 h3 => next_eq (hends h1 h2 h3),
      fun h1 h2 h3 => next_eq (hunder h1 h2 h3), fun h1 h2 h3 => next_eq (hover h1 h2 h3)⟩
  · intro g v s hheld hpower hsuppress
    refine next_eq ((groupSupplyCrossing_early hheld hpower hsuppress).trans ?_)
    simp only [supplyRead, Bool.and_not_self, when', Bool.false_eq_true, if_false]
  · intro g v s c hc hpower hsuppress hwarn hunder hlow hhigh hheld hsoon
    subst hc
    refine next_eq ((groupSupplyCrossing_suppressed hpower hsuppress hwarn hunder hlow hhigh hheld hsoon).trans ?_)
    have h15 : 15500 < v.mv := by omega
    have h18 : 18000 < v.mv := by omega
    simp only [supplyRead, hunder, Bool.false_and, when', Bool.false_eq_true, if_false, h15, if_true, h18, decide_true, Bool.true_and]
  · exact fun g s hpower hauto hgood huv => next_eq (by simp [groupAutoRestore, hpower, hauto, hgood, restoreGroup, huv])
  · exact fun t s hcool => next_eq (by simp [fieldDieTemp, Int.not_lt.2 hcool])
  · exact fun t s hhot hfirst hpower => next_eq (by simp [fieldDieTemp, hhot, hfirst, hpower])
  · exact fun g s hgone c gen => by simp [ownsGen, hgone]
  · exact fun g s howned hover => next_eq (by simp [leaseExpiry, howned, hover])
  · intro x s t hfound ht
    obtain ⟨hpast, hstale, hskip, happly, hnone⟩ := timedApplyDue_cases hfound
    subst ht
    exact ⟨fun h1 h2 => next_eq (hpast h1 h2), fun h => next_eq (hstale h), fun h1 h2 h3 h4 => next_eq (hskip h1 h2 h3 h4),
      fun h1 h2 h3 h4 h5 => next_eq (happly h1 h2 h3 h4 h5), fun h1 h2 h3 h4 h5 => next_eq (hnone h1 h2 h3 h4 h5)⟩

end Sys2Proof.Laws
end

section
/-!
The commands of the field section, and what crosses the barrier.
-/

namespace Sys2Proof.Laws

open Sys2Proof Sys2Proof.Machine

@[simp] theorem grpOf_takenBy (code : Nat) (via : Via) (s : State) (g : Nat) : grpOf (takenBy code via s) g = grpOf s g := by
  simp only [grpOf, takenBy_fld]

@[simp] theorem chRec_takenBy (code : Nat) (via : Via) (s : State) (n : Nat) : chRec (takenBy code via s) n = chRec s n := by
  simp only [chRec, takenBy_fld]

@[simp] theorem leaseGone_takenBy (code : Nat) (via : Via) (s : State) (g : Nat) : leaseGone (takenBy code via s) g = leaseGone s g := by
  simp only [leaseGone, grpOf_takenBy, grpLease, atBoundary, takenBy_fld, takenBy_clk]

@[simp] theorem ownsGen_takenBy (code : Nat) (via : Via) (s : State) (c : Ctx) (g gen : Nat) :
    ownsGen c g gen (takenBy code via s) = ownsGen c g gen s := by simp only [ownsGen, grpOf_takenBy, leaseGone_takenBy]

/-- Who owns a group under a generation has a lease that runs. -/
theorem leaseGone_of_ownsGen {c : Ctx} {g gen : Nat} {s : State} (h : ownsGen c g gen s = true) : leaseGone s g = false := by
  simp only [ownsGen, Bool.and_eq_true, Bool.not_eq_true'] at h
  exact h.2

theorem hasOwner_takenBy {code : Nat} {via : Via} {s : State} {c : Ctx} {g gen : Nat} (howned : (grpOf s g).owner ≠ .none)
    (howns : ownsGen c g gen s = true) : hasOwner (takenBy code via s) g = true := by
  simp [hasOwner, howned, leaseGone_of_ownsGen howns]

/-! The status item (R286). -/

theorem flatMap_leBytes_length (l : List Nat) : (l.flatMap (leBytes 4)).length = 4 * l.length := by
  induction l with
  | nil => rfl
  | cons a l ih =>
    have hword : (leBytes 4 a).length = 4 := rfl
    simp only [List.flatMap_cons, List.length_append, hword, ih, List.length_cons]
    omega

/-- The 52 words of FIELD_STATUS. -/
def statusItem (s : State) : List Nat := (List.range 32).map (chStatus s) ++ (List.range 4).flatMap (grpStatus s)

theorem statusItem_length (s : State) : (statusItem s).length = 52 := by
  have hgrp : ∀ g, (grpStatus s g).length = 5 := fun _ => rfl
  simp [statusItem, List.length_flatMap, hgrp]

/-- An item that fits its parcel is written whole. -/
theorem writeItems_one {i : Nat} {p : List Byte} {done : Nat → State → State} {c : Ctx} {s : State} (hparcel : parcelOk i c s = true)
    (hroom : p.length ≤ wd c.words (i + 1)) : writeItems i [p] done c s = done 1 (loftWrite (wd c.words i) p coreId s) := by
  have hfit : parcelFit i [p] c = 1 := by simp [parcelFit, fitCount, hroom]
  rw [writeItems_ok hparcel (.inr (by rw [hfit]; exact Nat.one_pos)), parcelPut, hfit]
  simp

theorem cmdFieldStatus_writes {c : Ctx} {s : State} (hparcel : parcelOk 1 c s = true) (hroom : 208 ≤ wd c.words 2) :
    cmdFieldStatus c s = replyOk c [] (loftWrite (wd c.words 1) ((statusItem s).flatMap (leBytes 4)) coreId s) := by
  have hlen : ((statusItem s).flatMap (leBytes 4)).length ≤ wd c.words 2 := by
    rw [flatMap_leBytes_length, statusItem_length]
    exact hroom
  exact writeItems_one (done := fun _ t => replyOk c [] t) hparcel hlen

/-! What crosses the barrier is decided by the generation (R253, R267, R269, R272, R274). -/

theorem crossBarrier_stale {c : Ctx} {g gen : Nat} (mask : Nat) {s : State} (h : (grpOf s g).gen ≠ gen) :
    crossBarrier (.release c g gen) s = staleGen c (grpOf s g).gen s
    ∧ crossBarrier (.clear c g gen mask) s = staleGen c (grpOf s g).gen s
    ∧ crossBarrier (.rearm c g gen) s = staleGen c (grpOf s g).gen s := by
  have h' : ((grpOf s g).gen == gen) = false := by simpa using h
  refine ⟨?_, ?_, ?_⟩
  · simp [crossBarrier, releaseDecide, h']
  · simp [crossBarrier, clearDecide, h']
  · simp [crossBarrier, rearmDecide, h]

/-- Settles O42: the ordered queue, the decisions behind the barrier, the status item, and the records. -/
theorem fieldCommands : Obligations.FieldCommands := by
  unfold Obligations.FieldCommands
  refine ⟨?_, ?_, ?_, ?_, ?_, ?_, ?_, ?_, ?_, ?_, ?_, ?_, ?_, ?_, ?_, ?_, ?_, ?_, ?_⟩
  · intro via s c hc hruns hzero
    subst hc
    exact next_eq ((firmware_runs hruns).trans (by simp [cmdTake, hzero]))
  · intro via s c hc hruns hzero howns
    subst hc
    exact next_eq ((firmware_runs hruns).trans (by simp [cmdRelease, hzero, howns]))
  · exact fun c g gen s hgen => by simp [crossBarrier, releaseDecide, hgen]
  · exact fun c g gen mask vals s hgen => by simp [crossBarrier, outputDecide, hgen]
  · exact fun c g gen mask vals s hgen => by simp [crossBarrier, outputDecide, hgen, staleCmd, staleGen]
  · exact fun c g gen mask s hgen => crossBarrier_stale mask hgen
  · intro via s c hc hruns hg howned howns
    subst hc
    refine next_eq ((firmware_runs hruns).trans ?_)
    simp [cmdFieldOutput, Nat.not_lt.2 hg, hasOwner_takenBy howned howns, howns]
  · intro via s c g k hc hg hruns hzero hzero' hepoch howned howns hslot htime
    subst hc hg
    refine next_eq ((firmware_runs hruns).trans ?_)
    simp only [cmdTimedApply, hzero, hzero', hepoch, takenBy_clk, hasOwner_takenBy howned howns, ownsGen_takenBy, howns, takenBy_fld, hslot,
      trainTime_takenBy, Nat.not_lt.2 htime, bne_self_eq_false, Bool.or_self, Bool.not_true, Bool.false_eq_true, if_false]
  · intro via s c g hc hg hruns hzero howns
    subst hc hg
    exact next_eq ((firmware_runs hruns).trans (by simp [cmdFaultClear, hzero, howns]))
  · exact fun c g gen mask s hgen => by simp [crossBarrier, clearDecide, hgen]
  · intro via s c g hc hg hruns hzero howns
    subst hc hg
    exact next_eq ((firmware_runs hruns).trans (by simp [cmdRearm, hzero, howns]))
  · exact fun c g gen s hgen hgood => by simp [crossBarrier, rearmDecide, hgen, hgood]
  · exact fun c g gen s hgen hbad => by simp [crossBarrier, rearmDecide, hgen, hbad]
  · intro via s c hc hruns hparcel hroom
    subst hc
    refine ⟨(statusItem (takenBy 0x605 via s)).flatMap (leBytes 4), _, next_eq ((firmware_runs hruns).trans (cmdFieldStatus_writes hparcel hroom)), rfl, ?_⟩
    rw [flatMap_leBytes_length, statusItem_length]
  · intro via s c hc hruns hcheck
    subst hc
    refine next_eq ((firmware_runs hruns).trans ?_)
    simp only [cmdFieldModuleSet, takenBy_fld, hcheck]
  · intro via s c hc hruns hg hcheck
    subst hc
    refine next_eq ((firmware_runs hruns).trans ?_)
    simp only [cmdFieldGroupSet, takenBy_fld, hcheck, Nat.not_lt.2 hg, if_false]
  · intro via s c n r hc hn hr hruns hch hcheck hstate
    subst hc hn hr
    refine next_eq ((firmware_runs hruns).trans ?_)
    simp only [cmdFieldChannelSet, takenBy_fld, hcheck, Nat.not_lt.2 hch, if_false, chRec_takenBy, takenBy_sys]
    rcases hstate with hstate | hstate <;> simp [hstate]
  · intro via s c n r hc hn hr hruns hch hcheck hfixed hstate
    subst hc hn hr
    refine next_eq ((firmware_runs hruns).trans ?_)
    simp only [cmdFieldChannelSet, takenBy_fld, hcheck, Nat.not_lt.2 hch, if_false, chRec_takenBy, takenBy_sys]
    simp [hfixed, hstate]
  · intro via s c hc hruns hi hcheck
    subst hc
    refine next_eq ((firmware_runs hruns).trans ?_)
    simp only [cmdFieldRuleSet, takenBy_fld, hcheck, Nat.not_lt.2 hi, if_false]

end Sys2Proof.Laws
end

section
/-!
The train key: its rotation at the lead and at the other cars, and the turns of the RSA units.
-/

namespace Sys2Proof.Laws

open Sys2Proof Sys2Proof.Machine

/-! What a beacon and a state copy leave of the security state (R104, R113). -/

/-- The security state without what runs and waits on the private unit. -/
def idleSec (x : Sec) : Sec := { x with runPriv := .idle, runPub := .idle, rsaPriv := [] }

/-- A quantity that no step of a list changes. -/
theorem each_keeps {α β : Type} {g : State → β} {f : α → State → State} (h : ∀ a t, g (f a t) = g t) (l : List α) (s : State) :
    g (each l f s) = g s := by
  induction l generalizing s with
  | nil => rfl
  | cons a l ih => exact (ih (f a s)).trans (h a s)

theorem commitReply_sec (s : State) : (commitReply s).sec = s.sec := by
  unfold commitReply
  split
  · exact (sec_of_quiet (quiet_replyOk _ _ _)).trans rfl
  · rfl

theorem stateCopy_sec (s : State) : (Machine.stateCopy s).sec = s.sec := by
  unfold Machine.stateCopy
  dsimp only
  split
  · exact commitReply_sec _
  · exact each_keeps (g := State.sec) (f := trainSend) (fun _ _ => rfl) _ _

theorem startBeacon_sec (s : State) : idleSec (startBeacon s).sec = idleSec s.sec := rfl

theorem rotation_of_idleSec {x y : Sec} (h : idleSec x = idleSec y) : x.rot = y.rot ∧ x.rotCtr = y.rotCtr ∧ x.cur = y.cur := by
  have hrot := congrArg Sec.rot h
  have hctr := congrArg Sec.rotCtr h
  have hcur := congrArg Sec.cur h
  exact ⟨hrot, hctr, hcur⟩

/-- A fresh NL changes nothing of the keys and their rotation. -/
theorem drawNl_sec (s : State) : idleSec (drawNl s).sec = idleSec s.sec := by
  unfold drawNl
  split
  · rw [stateCopy_sec]
    rfl
  · rfl

/-! Entropy (R291). -/

theorem quiet_entropyBack (s : State) : quiet (entropyBack s) = quiet (s.onSec fun x => { x with entropyOk := true }) := quiet_raise _ _ _

theorem entropyBack_sec (s : State) : (entropyBack s).sec = { s.sec with entropyOk := true } := sec_of_quiet (quiet_entropyBack s)

theorem entropyBack_ldr (s : State) : (entropyBack s).ldr = s.ldr := (ldr_of_quiet (quiet_entropyBack s)).trans rfl

theorem isLead_entropyBack (s : State) : isLead (entropyBack s) = isLead s := by
  simp only [isLead, inaug_of_quiet (quiet_entropyBack s)]
  rfl

/-- A source that recovers lets go on what waited for it. -/
theorem entropyHealthChange_back {s : State} (hoff : s.sys.dev ≠ .off) (hreset : s.sys.dev ≠ .reset) (hbarn : s.sys.dev ≠ .barn)
    (hbad : s.sec.entropyOk = false) :
    entropyHealthChange true s = when' s.sec.rotWait startRotation (when' (isLead s && s.ldr.nlDue) drawNl (entropyBack s)) := by
  have hdev : (s.sys.dev == .off || s.sys.dev == .reset || s.sys.dev == .barn) = false := by simp [hoff, hreset, hbarn]
  have hwait : (when' (isLead s && s.ldr.nlDue) drawNl (entropyBack s)).sec.rotWait = s.sec.rotWait := by
    have hback : (entropyBack s).sec.rotWait = s.sec.rotWait := by rw [entropyBack_sec]
    unfold when'
    split
    · have hdraw := congrArg Sec.rotWait (drawNl_sec (entropyBack s))
      exact hdraw.trans hback
    · exact hback
  have hrow : entropyHealthChange true s = (let t := when' (isLead (entropyBack s) && (entropyBack s).ldr.nlDue) drawNl (entropyBack s)
      when' t.sec.rotWait startRotation t) := by
    simp only [entropyHealthChange, hdev, hbad, Bool.not_true, Bool.false_eq_true, if_false]
    rfl
  rw [hrow, isLead_entropyBack, entropyBack_ldr]
  dsimp only
  rw [hwait]

/-! The RSA units (R327). -/

theorem rsaBegin_runPriv (s : State) : (rsaBegin s).sec.runPriv = rsaNext s s.sec.runPriv privOrder := rfl

theorem rsaBegin_runPub (s : State) : (rsaBegin s).sec.runPub = rsaNext s s.sec.runPub (pubOrder s) := rfl

theorem find_cons_if {α : Type} (p : α → Bool) (a : α) (l : List α) : (a :: l).find? p = if p a = true then some a else l.find? p := by
  cases h : p a <;> simp [h]

/-- An idle unit takes the first use that asks. -/
theorem rsaNext_cons (s : State) (u : RsaUse) (l : List RsaUse) :
    rsaNext s .idle (u :: l) = if rsaAsked s u = true then u else rsaNext s .idle l := by
  have hidle : rsaAsked s .idle = false := rfl
  simp only [rsaNext, hidle, Bool.false_eq_true, if_false, find_cons_if]
  split_ifs <;> rfl

theorem rsaNext_nil (s : State) : rsaNext s .idle [] = .idle := rfl

/-- What an idle private unit begins. -/
theorem rsaNext_idlePriv (s : State) : rsaNext s .idle privOrder =
    if s.inaug.guest = .unwrapping then .grantOpen
    else if s.sec.unwrap ≠ [] then .rekeyOpen
    else if s.inaug.guest = .signing then .signQuote
    else if isLead s = true ∧ s.ldr.beaconNext ≠ [] then .signBeacon
    else if s.sec.rsaPriv ≠ [] then .hostPriv else .idle := by
  simp [privOrder, rsaNext_cons, rsaNext_nil, rsaAsked]

/-- What an idle public unit begins. -/
theorem rsaNext_idlePub (s : State) : rsaNext s .idle (pubOrder s) =
    if s.sec.wrapAhead = 0 ∧ wrapWaits s = true then .rekeyWrap
    else if isLead s = true ∧ s.ldr.guests.any grantWaits = true then .grantWrap
    else if wrapWaits s = true then .rekeyWrap
    else if s.sec.rsaPub ≠ [] then .hostPub else .idle := by
  by_cases hahead : s.sec.wrapAhead = 0
  · by_cases hwaits : wrapWaits s = true
    · simp [pubOrder, rsaNext_cons, rsaAsked, hahead, hwaits]
    · simp [pubOrder, rsaNext_cons, rsaNext_nil, rsaAsked, hahead, hwaits]
  · simp [pubOrder, rsaNext_cons, rsaNext_nil, rsaAsked, hahead]

theorem rsaTurn_rekeyWrap {s : State} (hwaits : wrapWaits s = true) (hidle : s.sec.runPub = .idle) (hahead : s.sec.wrapAhead = 0) :
    rsaTurn .rekeyWrap s = true := by
  simp [rsaTurn, rsaBegin_runPub, hidle, rsaNext_idlePub, hahead, hwaits]

theorem rsaTurn_rekeyOpen {s : State} (hguest : s.inaug.guest ≠ .unwrapping) (hwaits : s.sec.unwrap ≠ []) (hidle : s.sec.runPriv = .idle) :
    rsaTurn .rekeyOpen s = true := by
  simp [rsaTurn, rsaBegin_runPriv, hidle, rsaNext_idlePriv, hguest, hwaits]

/-! The lead's rotation (R312, R313). -/

/-- A block that has been acknowledged, sent three times or whose switch is near is not sent again. -/
theorem rekeyResendTimeout_none {adm : Nat} {r : Rotation} {b : RekeyBlk} {s : State} (hrot : s.sec.rot = some r)
    (hblock : r.blocks.find? (fun b => b.adm == adm) = some b)
    (hover : b.acked = true ∨ 2 ≤ b.resent ∨ matrixReached s r.switchM = true ∨ matrixAhead s r.switchM < 5000000) : rekeyResendTimeout adm s = s := by
  simp only [rekeyResendTimeout, hrot, hblock]
  cases b.sentAt with
  | none => rfl
  | some t =>
    refine if_neg ?_
    simp only [Bool.and_eq_true, decide_eq_true_eq, Bool.not_eq_true']
    rintro ⟨⟨⟨⟨⟨-, hacked⟩, hresent⟩, -⟩, hreached⟩, hahead⟩
    rcases hover with h | h | h | h
    · simp [h] at hacked
    · omega
    · simp [h] at hreached
    · omega

/-- What starting a rotation leaves (R312, R313): a key for the next epoch, under the next rotation id, while the current one runs on. -/
theorem startRotation_sec {s : State} (hlead : isLead s = true) (hkeys : s.sec.keys ≠ []) (hold : s.sec.oldKey = none)
    (hentropy : s.sec.entropyOk = true) (hrot : s.sec.rot = none) :
    ∃ r, (startRotation s).sec.rot = some r ∧ r.next = (s.sec.cur + 1 + s.sec.takeRank) % 16 ∧ r.rid = (s.sec.rotCtr + 1) % 2 ^ 32
      ∧ (startRotation s).sec.rotCtr = r.rid ∧ (startRotation s).sec.cur = s.sec.cur := by
  have hkeys' : s.sec.keys.isEmpty = false := by simpa using hkeys
  have hsec : ∀ (a b : Nat) (t : State), idleSec (Machine.stateCopy (startBeacon (raise a b t))).sec = idleSec t.sec := fun a b t => by
    rw [stateCopy_sec, startBeacon_sec, sec_of_quiet (quiet_raise a b t)]
  obtain ⟨hrots, hctrs, hcurs⟩ := rotation_of_idleSec (x := (startRotation s).sec) (by
    simp only [startRotation, hlead, hkeys', hold, hentropy, hrot, Bool.not_true, Bool.or_self, Bool.false_eq_true, if_false, Option.isSome_none]
    exact hsec _ _ _)
  exact ⟨_, hrots, rfl, rfl, hctrs, hcurs⟩

/-! The rotation at the other cars (R313). -/

theorem contains_false {α : Type} [BEq α] [LawfulBEq α] {l : List α} {a : α} (h : a ∉ l) : l.contains a = false := by simpa using h

theorem rekeyAccept_member {u : Installed} {s : State} (hguest : s.inaug.guest ≠ .done) (hnew : u ∉ s.sec.unwrap) :
    rekeyAccept u s = if s.sec.inst.isNone then rsaBegin (s.onSec fun x => { x with unwrap := [u] })
      else rsaBegin (releaseEntries (s.onSec fun x => { x with unwrap := [u], inst := none, keys := x.keys.filter fun k => k.epoch == x.cur })) := by
  have hguest' : (s.inaug.guest == .done) = false := by simpa using hguest
  simp only [rekeyAccept, contains_false hnew, hguest', Bool.false_eq_true, if_false]
  rfl

@[simp] theorem takenMsg_sec (m : RxMsg) (s : State) : (takenMsg m s).sec = s.sec := rfl

/-- The fields of a REKEY, with its block still wrapped. -/
def rekeyOf (m : RxMsg) (s : State) : Installed :=
  { rid := be m.payload 8 4, epoch := be m.payload 12 1 % 16, switchM := be m.payload 16 4, key := Config.unwrapKey s.sec.idKey (part m.payload 20 384) }

section Rekey

variable {m : RxMsg} {s : State} (hfirst : firstMsg (isCtl 0x11) s = some m) (hmember : isLead s = false) (hkeys : s.sec.keys ≠ [])
  (hlead : fromLead m s = true)

include hfirst hmember hkeys hlead

/-- An installed key is acknowledged at once. -/
theorem rekey_same {i : Installed} (hinst : s.sec.inst = some i) (hrid : i.rid = be m.payload 8 4) (hepoch : i.epoch = be m.payload 12 1 % 16)
    (hswitch : i.switchM = be m.payload 16 4) : rekey s = sendAck i (takenMsg m s) := by
  have hkeys' : s.sec.keys.isEmpty = false := by simpa using hkeys
  have hlead' : fromLead m (takenMsg m s) = true := hlead
  refine (withCtl_first hfirst _).trans ?_
  simp only [isLead_takenMsg, hmember, takenMsg_sec, hkeys', hlead', hinst, hrid, hepoch, hswitch, beq_self_eq_true, Bool.and_self, Bool.not_true,
    Bool.or_self, Bool.false_eq_true, if_false, if_true]

theorem rekey_new (hnew : ∀ i, s.sec.inst = some i → ¬ (i.rid = be m.payload 8 4 ∧ i.epoch = be m.payload 12 1 % 16 ∧ i.switchM = be m.payload 16 4)) :
    rekey s = rekeyAccept (rekeyOf m s) (takenMsg m s) := by
  have hkeys' : s.sec.keys.isEmpty = false := by simpa using hkeys
  have hlead' : fromLead m (takenMsg m s) = true := hlead
  refine (withCtl_first hfirst _).trans ?_
  simp only [isLead_takenMsg, hmember, takenMsg_sec, hkeys', hlead', Bool.not_true, Bool.or_self, Bool.false_eq_true, if_false]
  cases hinst : s.sec.inst with
  | none => rfl
  | some i =>
    have hother : (i.rid == be m.payload 8 4 && i.epoch == be m.payload 12 1 % 16 && i.switchM == be m.payload 16 4) = false := by
      simpa [and_assoc] using hnew i hinst
    simp only [hother]
    rfl

end Rekey

theorem rekeyUnwrapped_turn {u : Installed} {r : List Installed} {s : State} (hfirst : s.sec.unwrap = u :: r) (hturn : rsaTurn .rekeyOpen s = true) :
    rekeyUnwrapped s =
      if u.key != rekeyPlain u.epoch (u.key / 2 ^ 64 % 2 ^ 256) u.rid u.switchM || u.epoch == s.sec.cur then
        rsaBegin (rsaEnd true (s.onSec fun x => { x with unwrap := r }))
      else sendAck { u with key := u.key / 2 ^ 64 % 2 ^ 256 } (raise 97 (u.epoch * 256 + 2) (releaseEntries
        ((rsaBegin (rsaEnd true (s.onSec fun x => { x with unwrap := r }))).onSec fun x =>
          { x with
            inst := some { u with key := u.key / 2 ^ 64 % 2 ^ 256 }
            keys := (x.keys.filter fun k => k.epoch == x.cur) ++ [{ epoch := u.epoch, key := u.key / 2 ^ 64 % 2 ^ 256 }] }))) := by
  simp only [rekeyUnwrapped, hfirst, hturn, Bool.not_true, Bool.false_eq_true, if_false]

/-! The switch and the erasure (R314). -/

theorem keySwitched_inaug (i : Installed) (s : State) : (keySwitched i s).inaug = s.inaug := (inaug_of_quiet (quiet_raise _ _ _)).trans rfl

theorem keySwitch_installed {i : Installed} {s : State} (hold : s.sec.oldKey = none) (hinst : s.sec.inst = some i)
    (hreached : matrixReached s i.switchM = true) :
    keySwitch s = when' (isLead s) (fun t => drawAndCopy (carryIssued i.epoch (t.onLdr fun l =>
      { l with rekeyedSelf := l.rekeyedSelf || (s.sec.rot.map fun r => r.next == i.epoch).getD false }))) (keySwitched i s) := by
  have hlead : isLead (keySwitched i s) = isLead s := by simp only [isLead, keySwitched_inaug]
  rw [← hlead]
  simp only [keySwitch, hold, hinst, hreached, Option.isSome_none, Bool.not_true, Bool.false_eq_true, if_false]
  cases s.sec.rot <;> rfl

/-- Without the new key the car notes the boundary. -/
theorem keySwitch_waiting {u : Installed} {r : List Installed} {s : State} (hold : s.sec.oldKey = none) (hinst : s.sec.inst = none)
    (hfirst : s.sec.unwrap = u :: r) (hreached : matrixReached s u.switchM = true) :
    keySwitch s = raise 97 (u.epoch * 256 + 5) (s.onSec fun x =>
      { x with oldKey := some x.cur, switchM := some u.switchM, switchAt := matrixStart s u.switchM, unwrap := [] }) := by
  simp only [keySwitch, hold, hinst, hfirst, hreached, Option.isSome_none, Bool.not_true, Bool.false_eq_true, if_false]

theorem keyErased_sec (e : Nat) (s : State) : (keyErased e s).sec = { s.sec with keys := s.sec.keys.filter fun k => k.epoch != e, oldKey := none } :=
  (sec_of_quiet (quiet_raise _ _ _)).trans rfl

theorem keyErased_inaug (e : Nat) (s : State) : (keyErased e s).inaug = s.inaug := (inaug_of_quiet (quiet_raise _ _ _)).trans rfl

theorem oldKeyErase_due {e : Nat} {s : State} (hold : s.sec.oldKey = some e) (hdue : s.sec.switchAt + 1000000 ≤ trainTime s) :
    oldKeyErase s = if s.sec.cur == e then loseAndSeek (keyErased e s)
      else when' s.sec.rotWait startRotation (when' (isLead s) (fun t => Machine.stateCopy (takeAdmits t)) (keyErased e s)) := by
  have hrow : oldKeyErase s = if (keyErased e s).sec.cur == e then loseAndSeek (keyErased e s)
      else when' (keyErased e s).sec.rotWait startRotation
        (when' (isLead (keyErased e s)) (fun t => Machine.stateCopy (takeAdmits t)) (keyErased e s)) := by
    simp only [oldKeyErase, hold, Nat.not_lt.2 hdue, if_false]
    rfl
  rw [hrow, keyErased_sec]
  simp only [isLead, keyErased_inaug]

/-- Settles O43: the entropy, the rotation at the lead and at a car, the switch, and the erasure. -/
theorem keyRotation : Obligations.KeyRotation := by
  unfold Obligations.KeyRotation
  refine ⟨?_, ?_, ?_, ?_, ?_, ?_, ?_, ?_, ?_, ?_, ?_, ?_, ?_, ?_, ?_, ?_, ?_, ?_, ?_, ?_, ?_⟩
  · intro s hoff hreset hbarn
    have hdev : (s.sys.dev == .off || s.sys.dev == .reset || s.sys.dev == .barn) = false := by simp [hoff, hreset, hbarn]
    refine ⟨next_eq ?_, fun hok => next_eq ?_, fun hbad hnl hrot => next_eq ?_, fun hbad hlead hnl hrot => next_eq ?_,
      fun hbad hlead hnl hrot => next_eq ?_⟩
    · simp only [entropyHealthChange, hdev, Bool.not_false, Bool.false_eq_true, if_false, if_true]
    · simp only [entropyHealthChange, hdev, hok, Bool.not_true, Bool.false_eq_true, if_false, if_true]
    · have hidle : (isLead s && s.ldr.nlDue) = false := by
        cases hlead : isLead s with
        | false => rfl
        | true => simpa using hnl hlead
      rw [entropyHealthChange_back hoff hreset hbarn hbad, hrot, hidle]
      rfl
    · rw [entropyHealthChange_back hoff hreset hbarn hbad, hrot, hlead, hnl]
      rfl
    · rw [entropyHealthChange_back hoff hreset hbarn hbad, hrot, hnl, Bool.and_false]
      rfl
  · exact fun s hlead hrot hwait hdue => next_eq (by simp [keyLifeExpiry, hlead, hrot, hwait, hdue])
  · exact fun r b s hrot hblock hturn => next_eq (by simp [rekeyBlockWrapped, hrot, hblock, hturn])
  · exact fun s hwaits hidle hahead => rsaTurn_rekeyWrap hwaits hidle hahead
  · intro adm r b t s hrot hblock hsent hwrapped hacked hresent hlate hreached hahead
    exact next_eq (by simp [rekeyResendTimeout, hrot, hblock, hsent, hwrapped, hacked, hresent, hlate, hreached, hahead])
  · exact fun adm r b s hrot hblock hover => next_eq (rekeyResendTimeout_none hrot hblock hover)
  · intro m r s hfirst hrot hlead hrid hblock
    refine next_eq ((withCtl_first hfirst _).trans ?_)
    simp only [takenMsg_sec, hrot, isLead_takenMsg, hlead, hrid, hblock, bne_self_eq_false, Bool.not_true, Bool.or_self, Bool.false_eq_true, if_false,
      beq_iff_eq]
  · intro m u s hfirst hmember hkeys hlead hnew hu
    subst hu
    exact next_eq (rekey_new hfirst hmember hkeys hlead hnew)
  · intro u i s hguest hnew hinst
    rw [rekeyAccept_member hguest hnew, hinst]
    rfl
  · intro u s hguest hnew hinst
    rw [rekeyAccept_member hguest hnew, hinst]
    rfl
  · exact fun u s hguest hnew hroom => by simp [rekeyAccept, hnew, hguest, hroom]
  · exact fun m i s hfirst hmember hkeys hlead hinst hrid hepoch hswitch =>
      next_eq (rekey_same hfirst hmember hkeys hlead hinst hrid hepoch hswitch)
  · intro u i r s hfirst hi hkey hepoch hturn
    subst hi
    have hgood : (u.key != rekeyPlain u.epoch (u.key / 2 ^ 64 % 2 ^ 256) u.rid u.switchM || u.epoch == s.sec.cur) = false := by
      simpa [hepoch] using hkey
    exact next_eq ((rekeyUnwrapped_turn hfirst hturn).trans (if_neg (by rw [hgood]; exact Bool.false_ne_true)))
  · intro u r s hfirst hturn hbad
    exact next_eq ((rekeyUnwrapped_turn hfirst hturn).trans (if_pos (by simpa using hbad)))
  · exact fun s hguest hwaits hidle => rsaTurn_rekeyOpen hguest hwaits hidle
  · intro i s hold hinst hreached hmember
    exact next_eq (by rw [keySwitch_installed hold hinst hreached, hmember]; rfl)
  · intro i r s hold hinst hreached hlead hrot
    exact next_eq (by rw [keySwitch_installed hold hinst hreached, hlead, hrot]; rfl)
  · exact fun u r s hold hinst hfirst hreached => next_eq (keySwitch_waiting hold hinst hfirst hreached)
  · intro e s hold hdue
    have hrow := oldKeyErase_due hold hdue
    refine ⟨fun hcur => next_eq ?_, fun hcur hlead hwait => next_eq ?_, fun hcur hlead hwait => next_eq ?_, fun hcur hlead hwait => next_eq ?_⟩
    · simp [hrow, hcur]
    · simp [hrow, hcur, hlead, hwait, when']
    · simp [hrow, hcur, hlead, hwait, when']
    · simp [hrow, hcur, hlead, hwait, when']
  · intro via s c hc hruns hlead hkeys
    subst hc
    exact next_eq ((firmware_runs hruns).trans (by simp [cmdRotate, hlead, hkeys]))
  · exact fun s => startRotation_sec

end Sys2Proof.Laws
end

section
/-!
Challenges, tokens, envelopes, the owner's commands, and the completion of an RSA operation.
-/

namespace Sys2Proof.Laws

open Sys2Proof Sys2Proof.Machine

@[simp] theorem yardSecured_takenBy (code : Nat) (via : Via) (s : State) : yardSecured (takenBy code via s) = yardSecured s := by
  simp only [yardSecured, takenBy_sec]

@[simp] theorem ceremonyOpen_takenBy (code : Nat) (via : Via) (s : State) : ceremonyOpen (takenBy code via s) = ceremonyOpen s := by
  simp only [ceremonyOpen, takenBy_sys]

theorem rsaPut_pub {job : RsaJob} {data : List Byte} {c : Ctx} {s : State} (h : rsaWaiting false s < 16) :
    rsaPut false job data c s = rsaBegin (s.onSec fun x => { x with rsaPub := x.rsaPub ++ [Job.mk c job data] }) := by
  simp [rsaPut, Nat.not_le.2 h]

theorem rsaPut_priv {job : RsaJob} {data : List Byte} {c : Ctx} {s : State} (h : rsaWaiting true s < 16) :
    rsaPut true job data c s = rsaBegin (s.onSec fun x => { x with rsaPriv := x.rsaPriv ++ [Job.mk c job data] }) := by
  simp [rsaPut, Nat.not_le.2 h]

/-- A serialised command that has room in the public unit is held there. -/
theorem rsaPut_held {job : RsaJob} {data : List Byte} {c : Ctx} {s : State} (h : rsaWaiting false s < 16) :
    rsaPut false job data c (if rsaWaiting false s < 16 then holdSerial c s else s)
      = rsaBegin ((holdSerial c s).onSec fun x => { x with rsaPub := x.rsaPub ++ [Job.mk c job data] }) := by
  rw [if_pos h]
  exact rsaPut_pub (s := holdSerial c s) h

/-! Challenges (R303, R304, R318, R321). -/

/-- A challenge that is not refused draws its nonce. -/
theorem cmdOperatorChallenge_issues {c : Ctx} {s : State} (hfree : s.sec.lockout = none) (hsecured : ∀ k, c.via = .yard k → yardSecured s = true) :
    cmdOperatorChallenge c s = cmdOperatorChallenge.issue c s := by
  cases hvia : c.via with
  | manger n => simp [cmdOperatorChallenge, hvia, hfree]
  | yard k => simp [cmdOperatorChallenge, hvia, hfree, hsecured k hvia]

theorem cmdOperatorResponse_checked {c : Ctx} {s u : State} {p : List Byte} (hu : u = (parcelRead 1 c s).2) (hp : p = parcelBytes 1 c s)
    (hsome : 0 < wd c.words 3) (hlen : wd c.words 3 < p.length) (hmax : wd c.words 3 < 65536) (hparcel : parcelOk 1 c s = true)
    (hread : (parcelRead 1 c s).1 = true) (hfree : u.sec.lockout = none) (hlisted : operListed c (p.take (wd c.words 3)) u = true)
    (hnonce : u.sec.operChal.any (fun y => y.session == sessKey u c && decide (u.clk.c < y.until_)) = true) (hroom : rsaWaiting false u < 16) :
    cmdOperatorResponse c s = rsaBegin (u.onSec fun x =>
      { x with
        operChal := x.operChal.filter fun y => y.session != sessKey u c
        rsaPub := x.rsaPub ++ [Job.mk c .operResponse (p.take (wd c.words 3))] }) := by
  subst hu hp
  have hsome' : (wd c.words 3 == 0) = false := by simpa using Nat.pos_iff_ne_zero.1 hsome
  simp only [cmdOperatorResponse, Nat.not_le.2 hmax, hsome', decide_false, Bool.or_self, Bool.false_eq_true, if_false]
  rw [readParcel_ok hparcel hread]
  simp only [Nat.not_le.2 hlen, hfree, hlisted, hnonce, Option.isSome_none, Bool.not_true, Bool.false_eq_true, if_false]
  exact rsaPut_pub (s := (parcelRead 1 c s).2.onSec _) hroom

/-- A yard session may use a key with the YARD flag while the port is secured, one of this car's ports any listed key. -/
theorem operListed_yard {c : Ctx} {k : Nat} (key : List Byte) (s : State) (hvia : c.via = .yard k) :
    operListed c key s = s.sec.operators.any fun o => o.1 == shaNat key && (o.2 && yardSecured s) := by simp [operListed, hvia]

theorem operListed_manger {c : Ctx} {n : Nat} (key : List Byte) (s : State) (hvia : c.via = .manger n) :
    operListed c key s = s.sec.operators.any fun o => o.1 == shaNat key := by simp [operListed, hvia]

theorem cmdServiceToken_checked {c : Ctx} {s u : State} {p : List Byte} (hu : u = (parcelRead 1 c s).2) (hp : p = parcelBytes 1 c s)
    (hparcel : parcelOk 1 c s = true) (hread : (parcelRead 1 c s).1 = true) (hlen : p.length = if owned u then 816 else 432)
    (hmagic : part p 0 4 = ascii [0x4B, 0x4E, 0x53, 0x56]) (hversion : le p 4 2 = 1) (hscope : le p 6 2 < 8) (hbadge : le p 8 8 = u.sys.badge)
    (hnonce : u.sec.svcChal.any (fun y => y.nonce == be p 16 32 && decide (u.clk.c < y.until_)) = true) (hroom : rsaWaiting false u < 16) :
    cmdServiceToken c s = rsaBegin (u.onSec fun x =>
      { x with svcChal := x.svcChal.filter fun y => y.nonce != be p 16 32, rsaPub := x.rsaPub ++ [Job.mk c .serviceToken p] }) := by
  subst hu hp
  unfold cmdServiceToken
  rw [readParcel_ok hparcel hread]
  simp only [hlen, hmagic, hversion, Nat.not_le.2 hscope, hbadge, hnonce, bne_self_eq_false, decide_false, Bool.or_self, Bool.false_eq_true, if_false,
    if_true]
  exact rsaPut_pub (s := (parcelRead 1 c s).2.onSec _) hroom

/-- Settles O44: the challenges, and the commands that the RSA units serve. -/
theorem challenges : Obligations.Challenges := by
  unfold Obligations.Challenges
  refine ⟨?_, ?_, ?_, ?_, ?_, ?_, ?_, ?_⟩
  · exact fun t s hlocked hover => next_eq (by simp [challengeLockoutEnd, hlocked, Nat.not_lt.2 hover])
  · intro via s c hc hruns hentropy hfree hsecured
    subst hc
    refine ⟨freeNat 256 (takenBy 0x005 via s), next_eq ((if_pos hentropy).trans ((firmware_runs hruns).trans ?_))⟩
    rw [cmdOperatorChallenge_issues (by simpa using hfree) (by simpa using hsecured)]
    simp only [cmdOperatorChallenge.issue, takenBy_clk]
  · intro via s c t u p k hc ht hu hp hk hruns hsome hlen hmax hparcel hread hfree hlisted hnonce hroom
    subst hc ht hk
    have hlisted' : operListed (cmdOf 0x006 via s) (p.take (wd (cmdOf 0x006 via s).words 3)) u = true := by
      cases hvia : (cmdOf 0x006 via s).via with
      | manger n => simpa only [operListed_manger _ _ hvia, hvia, Bool.and_true] using hlisted
      | yard k => simpa only [operListed_yard _ _ hvia, hvia] using hlisted
    exact next_eq ((firmware_runs hruns).trans
      (cmdOperatorResponse_checked hu hp hsome hlen hmax hparcel hread hfree hlisted' hnonce hroom))
  · intro via s c t hc ht hruns hparcel hlen hroom
    subst hc ht
    refine next_eq ((firmware_runs hruns).trans ((withParcel_ok hparcel).trans ?_))
    have hlen' : ¬ wd (cmdOf 0x701 via s).words (9 + 1) < 538 := Nat.not_lt.2 hlen
    rw [if_neg hlen', rsaPut_priv hroom]
  · intro via s c t hc ht hruns hi hcert hparcel hroom
    subst hc ht
    refine next_eq ((firmware_runs hruns).trans ?_)
    have hcert' : s.sec.devCert.isEmpty = false := by simpa using hcert
    simp only [cmdCertRead, hi, takenBy_sec, beq_self_eq_true, if_true, hcert', Nat.not_lt_zero, decide_false, Bool.false_and, Bool.false_eq_true,
      if_false]
    exact writeItems_one hparcel hroom
  · intro via s c hc hruns hentropy
    subst hc
    refine ⟨freeNat 256 (takenBy 0x70A via s), next_eq ((if_pos hentropy).trans ((firmware_runs hruns).trans ?_))⟩
    simp only [cmdServiceChallenge, takenBy_clk]
  · intro via s c t u p hc ht hu hp hruns hparcel hread hlen hmagic hversion hscope hbadge hnonce hroom
    subst hc ht
    exact next_eq ((firmware_runs hruns).trans
      (cmdServiceToken_checked hu hp hparcel hread hlen hmagic hversion hscope hbadge hnonce hroom))
  · intro via s c t u p hc ht hu hp hruns hparcel hread hlen howned hroom
    subst hc ht hu hp
    refine next_eq ((firmware_runs hruns).trans ((readParcel_ok hparcel hread).trans ?_))
    simp only [hlen, howned, bne_self_eq_false, Bool.not_true, Bool.false_eq_true, if_false]
    exact rsaPut_held hroom

/-! Ownership and erasure (R296 to R298, R301, R323). -/

theorem operEnd_sec (was : Bool) (s : State) : (operEnd was s).sec = s.sec := by
  unfold operEnd
  split
  · exact sec_of_quiet (quiet_raise _ _ _)
  · rfl

/-- Sessions lose their privilege, and the keys stay as they are. -/
theorem demote_sec (cond : Priv → Nat → Bool) (all : Bool) (s : State) : (demote cond all s).sec = s.sec := by
  unfold demote
  dsimp only
  refine (each_keeps (g := State.sec) (fun _ _ => operEnd_sec _ _) _ _).trans ?_
  simp only [when', State.onYard]
  split_ifs <;> simp only [operEnd_sec, State.onStrm, State.onHost]

/-- What a zeroise leaves of the keys and rights. -/
theorem zeroKeys_sec (s : State) :
    (zeroKeys s).sec.cak = none ∧ (zeroKeys s).sec.sak = false ∧ (zeroKeys s).sec.txSas = [] ∧ (zeroKeys s).sec.rxSas = []
      ∧ (zeroKeys s).sec.macOpen = false ∧ (zeroKeys s).sec.operators = [] := by
  unfold zeroKeys
  dsimp only
  rw [demote_sec]
  exact ⟨rfl, rfl, rfl, rfl, rfl, rfl⟩

/-- Settles O45: the ceremony, the transfer, the rollback counter, and the erasure. -/
theorem ownerCommands : Obligations.OwnerCommands := by
  unfold Obligations.OwnerCommands
  refine ⟨?_, ?_, ?_, ?_, ?_, ?_, ?_, ?_⟩
  · intro via s c hc hruns hentropy
    subst hc
    refine ⟨freeNat 256 (takenBy 0x703 via s), next_eq ((if_pos hentropy).trans ((firmware_runs hruns).trans ?_))⟩
    simp only [cmdOwnChallenge, takenBy_clk]
  · intro via s c t u p v end_ hc ht hu hp hruns hopen hparcel hread hunowned hchal htime hroom
    subst hc ht hu hp
    refine next_eq ((firmware_runs hruns).trans ?_)
    simp only [cmdTakeOwnership, ceremonyOpen_takenBy, hopen, Bool.not_true, Bool.false_eq_true, if_false]
    rw [readParcel_ok hparcel hread]
    cases howner : ownerParcel (parcelBytes 1 (cmdOf 0x704 via s) (takenBy 0x704 via s)) with
    | none => simp only [if_true]
    | some x =>
      simp only [hunowned, hchal, Nat.not_le.2 htime, Bool.false_eq_true, if_false, reduceCtorEq]
      exact rsaPut_held hroom
  · exact fun s => rfl
  · intro via s c t u p hc ht hu hp hruns hparcel hread hroom
    subst hc ht hu hp
    refine next_eq ((firmware_runs hruns).trans ((readParcel_ok hparcel hread).trans ?_))
    cases howner : ownerParcel (parcelBytes 1 (cmdOf 0x708 via s) (takenBy 0x708 via s)) with
    | none => simp only [if_true]
    | some x =>
      simp only [reduceCtorEq, if_false]
      exact rsaPut_held hroom
  · intro via s c hc hruns
    subst hc
    refine next_eq ((firmware_runs hruns).trans ?_)
    simp only [cmdRollbackCommit, takenBy_sec, takenBy_sys]
  · intro via s c hc hruns hright hquiet
    subst hc
    refine next_eq ((firmware_runs hruns).trans ?_)
    rcases hright with hright | hright <;> simp [cmdZeroise, hright, hquiet]
  · intro via s c hc hruns hright hbraced
    subst hc
    refine next_eq ((firmware_runs hruns).trans ?_)
    rcases hright with hright | hright <;> simp [cmdZeroise, hright, hbraced]
  · exact fun s => zeroKeys_sec s

end Sys2Proof.Laws
end

section
/-!
What completes on an RSA unit, and what goes on with it.
-/

namespace Sys2Proof.Laws

open Sys2Proof Sys2Proof.Machine

/-- A use that still asks keeps its unit (R327). -/
theorem rsaNext_keeps {s : State} {u : RsaUse} (l : List RsaUse) (h : rsaAsked s u = true) : rsaNext s u l = u := if_pos h

theorem hostRsaOperationDone_priv {j : Job} {r : List Job} {s : State} (htakes : takesMsgs s = true) (hhead : (rsaBegin s).sec.rsaPriv = j :: r)
    (hwrites : s.sys.braced = false ∨ jobWrites j.job = false) (hturn : rsaTurn .hostPriv s = true) (ok : Bool) :
    hostRsaOperationDone true ok s = drain 9 (rsaBegin (jobDone j ok (rsaEnd true (s.onSec fun x => { x with rsaPriv := r })))) := by
  have hwrites' : (s.sys.braced && jobWrites j.job) = false := by rcases hwrites with h | h <;> simp [h]
  simp only [hostRsaOperationDone, htakes, if_true, hhead, hwrites', hturn, Bool.not_true, Bool.or_self, Bool.false_eq_true, if_false]

theorem hostRsaOperationDone_pub {j : Job} {r : List Job} {s : State} (htakes : takesMsgs s = true) (hhead : s.sec.rsaPub = j :: r)
    (hwrites : s.sys.braced = false ∨ jobWrites j.job = false) (hturn : rsaTurn .hostPub s = true) (ok : Bool) :
    hostRsaOperationDone false ok s = drain 9 (rsaBegin (jobDone j ok (rsaEnd false (s.onSec fun x => { x with rsaPub := r })))) := by
  have hwrites' : (s.sys.braced && jobWrites j.job) = false := by rcases hwrites with h | h <;> simp [h]
  simp only [hostRsaOperationDone, htakes, hhead, hwrites', hturn, Bool.not_true, Bool.or_self, Bool.false_eq_true, if_false]

/-! Operators (R317, R318). -/

theorem operListed_unsecured {c : Ctx} {k : Nat} {s : State} (key : List Byte) (hvia : c.via = .yard k) (h : yardSecured s = false) :
    operListed c key s = false := by simp [operListed_yard key s hvia, h]

theorem operListed_none {s : State} (c : Ctx) (key : List Byte) (h : s.sec.operators = []) : operListed c key s = false := by
  simp [operListed, h]

/-! Ownership (R296 to R298). -/

/-- The seal does not cover itself. -/
theorem enrolSeal_sealed (s : State) (e : Enrol) : enrolSeal s (sealed s e) = enrolSeal s e := rfl

theorem enrolSet_owned (cert : List Byte) (cosign : Bool) (s : State) : owned (enrolSet cert cosign s) = true := rfl

theorem takeOwnershipDone_bad (c : Ctx) (p : List Byte) (s : State) : takeOwnershipDone c p false s = sigError c (serialDone s) := by
  unfold takeOwnershipDone
  cases ownerParcel p with
  | none => rfl
  | some x => rfl

/-- An envelope whose signature is bad is refused before any other check (R305). -/
theorem envCheck_bad (p : List Byte) (s : State) : envCheck p false s = some (9, 0) := by simp [envCheck]

theorem envelopeDone_bad (c : Ctx) (p : List Byte) (s : State) : envelopeDone c p false s = envRefuse 9 0 c (serialDone s) := by
  simp [envelopeDone, envCheck_bad]

/-- Settles O46: the ends and beginnings of operations on both units, and what each job does as it ends. -/
theorem rsaCompletion : Obligations.RsaCompletion := by
  unfold Obligations.RsaCompletion
  refine ⟨?_, ?_, ?_, ?_, ?_, ?_, ?_, ?_, ?_, ?_, ?_, ?_, ?_, ?_, ?_, ?_, ?_, ?_, ?_, ?_⟩
  · exact fun j r s htakes hhead hwrites hturn ok => next_eq (hostRsaOperationDone_priv htakes hhead hwrites hturn ok)
  · exact fun j r s htakes hhead hwrites hturn ok => next_eq (hostRsaOperationDone_pub htakes hhead hwrites hturn ok)
  · exact fun u s hasked hruns => hruns ▸ rsaNext_keeps privOrder hasked
  · exact fun u s hasked hruns => hruns ▸ rsaNext_keeps (pubOrder s) hasked
  · intro s hidle
    rw [rsaBegin_runPriv, hidle, rsaNext_idlePriv]
  · intro s hidle
    rw [rsaBegin_runPub, hidle, rsaNext_idlePub]
  · exact fun priv job data c s hfull => if_pos hfull
  · exact fun c p s => rfl
  · intro c p s hlisted hopen
    simp [jobDone, operDone, hlisted, hopen]
  · intro c p s hlisted
    simp [jobDone, operDone, hlisted, operRefuse]
  · intro c p s ok hlisted
    simp [jobDone, operDone, hlisted, operRefuse]
  · exact fun c p s hnone => operListed_none c p hnone
  · exact fun c p s k hvia hbad => operListed_unsecured p hvia hbad
  · intro c p s
    simp only [jobDone, takeOwnershipDone]
    cases ownerParcel p <;> rfl
  · intro cert cosign s
    exact ⟨_, rfl, rfl, rfl, rfl, rfl, rfl, enrolSeal_sealed _ _ |>.symm, enrolSet_owned cert cosign s⟩
  · intro c p s
    simp only [jobDone, transferDone']
    cases ownerParcel p <;> rfl
  · exact takeOwnershipDone_bad
  · intro c p s hlen hscope
    simp [jobDone, tokenDone, hlen, hscope, when']
  · intro c p s hgood
    simp only [jobDone, envelopeDone, hgood]
  · exact envelopeDone_bad

end Sys2Proof.Laws
end

section
/-!
The yard port: its link, MACsec, the frames of both directions, and the IP services.
-/

namespace Sys2Proof.Laws

open Sys2Proof Sys2Proof.Machine

/-! The port's settings, which no report changes. -/

theorem yardRecord_of_quiet {s t : State} (h : quiet t = quiet s) : t.yard.record = s.yard.record := by
  have e := congrArg (fun x : State => x.yard.record) h
  exact e

theorem modAbs_of_quiet {s t : State} (h : quiet t = quiet s) : t.yard.modAbs = s.yard.modAbs := by
  have e := congrArg (fun x : State => x.yard.modAbs) h
  exact e

theorem los_of_quiet {s t : State} (h : quiet t = quiet s) : t.yard.los = s.yard.los := by
  have e := congrArg (fun x : State => x.yard.los) h
  exact e

theorem yardHeld_of_quiet {s t : State} (h : quiet t = quiet s) : yardHeld t = yardHeld s := by
  simp only [yardHeld, yMode, yardRecord_of_quiet h, modAbs_of_quiet h, los_of_quiet h]

theorem yMac_of_quiet {s t : State} (h : quiet t = quiet s) : yMac t = yMac s := by
  simp only [yMac, yardRecord_of_quiet h, sys_of_quiet h]

theorem yLinkLocal_of_quiet {s t : State} (h : quiet t = quiet s) : yLinkLocal t = yLinkLocal s := by
  simp only [yLinkLocal, yMac_of_quiet h]

theorem ownIp_of_quiet {s t : State} (h : quiet t = quiet s) (a : Nat) : ownIp t a = ownIp s a := by
  simp only [ownIp, yV6En, yIp6, yLinkLocal_of_quiet h, yIp4, yardRecord_of_quiet h]

theorem yardHeld_txPin (s : State) : yardHeld (txPin s) = yardHeld s := rfl

/-! The link and MACsec (R324, R331, R353, R511). -/

theorem macClose_closed {s : State} (h : s.sec.macOpen = false) :
    macClose s = s.onSec fun x => { x with sak := false, txSas := [], rxSas := [], macOpen := false } := by
  simp [macClose, h]

theorem macClose_open {s : State} (h : s.sec.macOpen = true) :
    macClose s = raise 67 2 (s.onSec fun x => { x with sak := false, txSas := [], rxSas := [], macOpen := false }) := by
  simp [macClose, h]

theorem linkDown_up {s : State} (hlink : s.yard.link = true) (hclosed : s.sec.macOpen = false) :
    linkDown s = (raise 64 2 (s.onYard fun d => { d with link := false, pcs := false, rx := none })).onSec fun x =>
      { x with sak := false, txSas := [], rxSas := [], macOpen := false } := by
  have hclosed' : (raise 64 2 (s.onYard fun d => { d with link := false, pcs := false, rx := none })).sec.macOpen = false := by
    rw [sec_of_quiet (quiet_raise _ _ _)]
    exact hclosed
  simp only [linkDown, hlink, if_true, macClose_closed hclosed']

/-- A module that appears brings no link by itself. -/
theorem yardModulePinChange_present {s : State} (habs : s.yard.modAbs = true) (hlos : s.yard.los = false) (hmode : yMode s ≠ 0) :
    yardModulePinChange false false s
      = txPin (raise 65 1 (s.onYard fun d => { d with modAbs := false, los := false, quietAt := s.clk.c })) := by
  have hheld : yardHeld (txPin (raise 65 1 (s.onYard fun d => { d with modAbs := false, los := false, quietAt := s.clk.c }))) = false := by
    have hmode' : (yMode s == 0) = false := by simpa using hmode
    rw [yardHeld_txPin, yardHeld_of_quiet (quiet_raise _ _ _)]
    exact (congrArg (fun b => b || false || false) hmode').trans rfl
  simp [yardModulePinChange, habs, hlos, when', hheld]

theorem yardModulePinChange_lost {s : State} (habs : s.yard.modAbs = false) (hlos : s.yard.los = false) :
    yardModulePinChange false true s
      = linkDown (txPin (raise 65 3 (s.onYard fun d => { d with modAbs := false, los := true, quietAt := s.clk.c }))) := by
  have hheld : yardHeld (txPin (raise 65 3 (s.onYard fun d => { d with modAbs := false, los := true, quietAt := s.clk.c }))) = true := by
    rw [yardHeld_txPin, yardHeld_of_quiet (quiet_raise _ _ _)]
    exact Bool.or_true _
  simp [yardModulePinChange, habs, hlos, when', hheld]

/-- The confidentiality offsets that MKA may agree on. -/
theorem macOffset_mem (n : Nat) : [0, 30, 50].getD (n % 3) 0 ∈ [0, 30, 50] := by
  have h : n % 3 < 3 := Nat.mod_lt _ (by decide)
  interval_cases n % 3 <;> decide

theorem newSa_eq (key : Nat) (old : List MacSa) :
    newSa key old = { an := ((old.head?.map fun a => (a.an + 1) % 4).getD 0), key := key, pn := 1 } :: old.take 1 := by
  cases old <;> rfl

theorem macReady_clear {s : State} (h : yMacsec s = false) : macReady s = true := by simp [macReady, h]

theorem macSent_clear {s : State} (h : yMacsec s = false) : macSent s = s := by simp [macSent, h]

theorem macReady_sa {s : State} {a : MacSa} {r : List MacSa} (hmac : yMacsec s = true) (hopen : s.sec.macOpen = true) (hsa : s.sec.txSas = a :: r)
    (hpn : a.pn < 2 ^ 32) : macReady s = true := by
  cases hx : s.sec.macXpn with
  | false => simpa [macReady, hmac, hopen, hsa, hx] using hpn
  | true =>
    have hpn' : a.pn < 2 ^ 64 := Nat.lt_trans hpn (by decide)
    simpa [macReady, hmac, hopen, hsa, hx] using hpn'

/-! Received frames (R332 to R337). -/

theorem noteStamp_yard (s : State) : (noteStamp s).yard = s.yard := by
  unfold noteStamp
  split <;> rfl

theorem rxQueue_noteStamp (s : State) (hdr : List Byte) : rxQueue (noteStamp s) hdr = rxQueue s hdr := by
  unfold noteStamp
  split <;> rfl

section Start

variable {hdr : List Byte} {len : Nat} {s : State} (hlink : s.yard.link = true) (hidle : s.yard.rx = none)

include hlink hidle

theorem yardFrameStart_short (hlen : len < 64) : yardFrameStart hdr len s = cntYard 1 (noteStamp s) := by
  simp [yardFrameStart, hlink, hidle, hlen]

/-- A frame of a good length whose queue is known claims its descriptors, or overflows. -/
theorem yardFrameStart_queued {q n : Nat} (hmin : 64 ≤ len) (hmax : len ≤ yardMaxlen s + (if (hdrTci hdr).isSome then 4 else 0))
    (htype : hdrType hdr ≠ 0x8808) (hqueue : rxQueue s hdr = some q)
    (hn : n = if yBuf s q == 0 then 0 else (yardMaxlen s - 4 + yBuf s q - 1) / yBuf s q) :
    yardFrameStart hdr len s = if rxClaim (noteStamp s) q n then (noteStamp s).onYard fun d =>
        { d with
          rx := some { queue := q, claimed := n, stamp := stampNow (noteStamp s), tagged := (hdrTci hdr).isSome, tci := (hdrTci hdr).getD 0,
                       hdr := hdr, len := len } }
      else raiseFirst 6600 66 (q * 256) (cntYard 4 (noteStamp s)) := by
  have hmax' : yardMaxlen (noteStamp s) = yardMaxlen s := by simp only [yardMaxlen, noteStamp_yard]
  have hbuf : yBuf (noteStamp s) q = yBuf s q := by simp only [yBuf, noteStamp_yard]
  have htype' : (hdrType hdr == 0x8808) = false := by simpa using htype
  simp only [yardFrameStart, hlink, hidle, Bool.not_true, Option.isSome_none, Bool.or_self, Bool.false_eq_true, if_false, Nat.not_lt.2 hmin, hmax',
    Nat.not_lt.2 hmax, htype', rxQueue_noteStamp, hqueue, hbuf, ← hn]
  cases rxClaim (noteStamp s) q n <;> rfl

end Start

theorem rxClaim_iff (q n : Nat) (s : State) : rxClaim s q n = true ↔ n ≤ rxNdesc s.yard.record q
    ∧ ∀ k < n, natBit (rxWord s q ((s.yard.rings.getD q 0 + k) % rxNdesc s.yard.record q) 1) 31 = true := by
  simp only [rxClaim, Bool.and_eq_true, decide_eq_true_eq, List.all_eq_true, List.mem_range]
  rfl

/-- A frame in one descriptor: its bytes go to its buffer. -/
theorem rxBytes_one {f : YFrame} {s : State} (h : f.used = 1) :
    rxBytes f s = loftWrite (rxWord s f.queue (rxIdx s f.queue 0) 0) (f.bytes.take (yBuf s f.queue)) 0 s := by
  simp [rxBytes, h, each, List.range_succ]

theorem rxHand_one {f : YFrame} {s : State} (h : f.used = 1) :
    rxHand f s = (loftWrite (rxDescAt s f.queue (rxIdx s f.queue 0)) (leBytes 4 (rxWord s f.queue (rxIdx s f.queue 0) 0)
      ++ leBytes 4 (2 ^ 30 + 2 ^ 29 + b2n f.tagged * 2 ^ 28 + f.queue * 2 ^ 25 + min (yBuf s f.queue) f.bytes.length)
      ++ leBytes 4 f.stamp.s32 ++ leBytes 4 (f.stamp.ep * 2 ^ 24 + b2n f.stamp.sync * 2 ^ 23 + f.tci)) 0 s).onYard fun d =>
        { d with rings := d.rings.modify f.queue fun n => (n + 1) % rxNdesc d.record f.queue } := by
  have hdesc : rxDescOf s f 0 = [rxWord s f.queue (rxIdx s f.queue 0) 0,
      2 ^ 30 + 2 ^ 29 + b2n f.tagged * 2 ^ 28 + f.queue * 2 ^ 25 + min (yBuf s f.queue) f.bytes.length, f.stamp.s32,
      f.stamp.ep * 2 ^ 24 + b2n f.stamp.sync * 2 ^ 23 + f.tci] := by
    have hbit : b2n true = 1 := rfl
    simp only [rxDescOf, h, Nat.zero_add, beq_self_eq_true, hbit, if_true, Nat.zero_mul, Nat.sub_zero, Nat.one_mul]
  have hrange : List.range 1 = [0] := rfl
  simp only [rxHand, h, hrange, each, List.foldl_cons, List.foldl_nil, hdesc, List.flatMap_cons, List.flatMap_nil, List.append_nil, List.append_assoc]

theorem rxDescOf_later {f : YFrame} {k : Nat} {s : State} (h : 0 < k) : rxDescOf s f k = [rxWord s f.queue (rxIdx s f.queue k) 0,
    b2n (k + 1 == f.used) * 2 ^ 29 + b2n f.tagged * 2 ^ 28 + f.queue * 2 ^ 25 + min (yBuf s f.queue) (f.bytes.length - k * yBuf s f.queue), 0, f.tci] := by
  have hk : (k == 0) = false := by simpa using Nat.pos_iff_ne_zero.1 h
  have hbit : b2n false = 0 := rfl
  simp only [rxDescOf, hk, hbit, Bool.false_eq_true, if_false, Nat.zero_mul, Nat.zero_add]

theorem headYard_pair {f g : YFrame} {s : State} (h : s.yard.inbox = [f, g]) : headYard s = some (if f.queue < g.queue then g else f) := by
  simp only [headYard, h, List.foldl_cons, List.foldl_nil]
  split_ifs <;> rfl

/-! Frames that leave (R338). -/

section Transmit

variable {s : State} (hlink : s.yard.link = true) (hserved : yardServed s = true) (hready : macReady s = true)

include hlink hserved hready

theorem yardFrameTransmit_frame {x : YTx} (hfirst : firstYardOut s = some x) (hbefore : ∀ g, s.yard.seg = some g → g.queue ≤ x.queue) :
    yardFrameTransmit s = sendOne x (macSent (s.onYard fun d => { d with txq := d.txq.erase x })) := by
  simp only [yardFrameTransmit, hlink, hserved, hready, hfirst, Bool.not_true, Bool.or_self, Bool.false_eq_true, if_false]
  cases hseg : s.yard.seg with
  | none => rfl
  | some g => exact if_neg (Nat.not_lt.2 (hbefore g hseg))

theorem yardFrameTransmit_segment {g : SegSend} (hseg : s.yard.seg = some g) (hbefore : ∀ x, firstYardOut s = some x → x.queue < g.queue) :
    yardFrameTransmit s = segSend g (macSent s) := by
  simp only [yardFrameTransmit, hlink, hserved, hready, hseg, Bool.not_true, Bool.or_self, Bool.false_eq_true, if_false]
  cases hfirst : firstYardOut s with
  | none => rfl
  | some x => exact if_pos (hbefore x hfirst)

end Transmit

/-! What the firmware answers (R340). -/

theorem yardTake_first {p : YFrame → Bool} {f : YFrame} {s : State} (h : firstYard p s = some f) (g : YFrame → State → State) :
    yardTake p g s = g f (takenYard f s) := by simp only [yardTake, h]

/-- Descriptors return to their ring, and nothing of the port's settings changes. -/
theorem quiet_ringBack (f : YFrame) (s : State) : quiet (ringBack f s) = quiet s :=
  quiet_each _ _ (fun _ _ => quiet_loftWrite _ _ _ _) s

theorem ownIp_takenYard (f : YFrame) (s : State) (a : Nat) : ownIp (takenYard f s) a = ownIp s a :=
  (ownIp_of_quiet (quiet_ringBack f _) a).trans rfl

/-- Settles O47: the link, the SAK, the frames of both directions, and the IP services. -/
theorem yardPort : Obligations.YardPort := by
  unfold Obligations.YardPort
  refine ⟨?_, ?_, ?_, ?_, ?_, ?_, ?_, ?_, ?_, ?_, ?_, ?_, ?_, ?_, ?_, ?_, ?_, ?_, ?_, ?_, ?_, ?_, ?_, ?_, ?_, ?_, ?_, ?_, ?_⟩
  · exact fun s hlink hheld hserved hstood => next_eq (by simp [yardLinkChange, hlink, hheld, hserved, Nat.not_lt.2 hstood])
  · exact fun s hlink _ hclosed => next_eq (linkDown_up hlink hclosed)
  · exact fun s habs hlos hmode => next_eq (yardModulePinChange_present habs hlos hmode)
  · exact fun s habs hlos => next_eq (yardModulePinChange_lost habs hlos)
  · intro s hruns hlink hmac hcak
    refine ⟨freeNat 320 s % 2 ^ 256, natBit (freeNat 320 s) 256, [0, 30, 50].getD (natBits (freeNat 320 s) 264 257 % 3) 0,
      natBits (freeNat 320 s) 319 265 % (2 ^ 30 + 1), Nat.mod_lt _ (by decide), macOffset_mem _, Nat.le_of_lt_succ (Nat.mod_lt _ (by decide)), next_eq ?_⟩
    simp only [macsecSakInstall, hruns, hlink, hmac, hcak, Bool.and_self, if_true]
  · exact newSa_eq
  · intro s hopen
    have hopen' : (raise 67 3 s).sec.macOpen = true := by rw [sec_of_quiet (quiet_raise _ _ _), hopen]
    exact next_eq (by simp only [mkaPeerLost, hopen, if_true, macClose_open hopen'])
  · intro hdr len q n s hlink hidle hmin hmax htype hqueue hn hclaim
    exact next_eq ((yardFrameStart_queued hlink hidle hmin hmax htype hqueue hn).trans (if_pos hclaim))
  · intro hdr len q n s hlink hidle hmin hmax htype hqueue hn hclaim
    exact next_eq ((yardFrameStart_queued hlink hidle hmin hmax htype hqueue hn).trans (if_neg (by simp [hclaim])))
  · exact rxClaim_iff
  · exact fun hdr len s hlink hidle hlen => next_eq (yardFrameStart_short hlink hidle hlen)
  · exact fun rest m r s hrx => next_eq (by simp [yardFrameTail, hrx])
  · exact fun rest m r s hrx hpass => next_eq (by simp [yardFrameTail, hrx, hpass])
  · exact fun rest m r f s hrx hpass hf => next_eq (by simp [yardFrameTail, hrx, hpass, hf])
  · exact fun f s hhost hwhole => by simp [yardHand, hhost, hwhole]
  · exact fun f s hhost hfrag => by simp [yardHand, hhost, hfrag]
  · exact fun f s hstream => by simp [yardHand, hstream]
  · exact fun f s hused => ⟨rxBytes_one hused, rxHand_one hused⟩
  · exact fun f k s hk => rxDescOf_later hk
  · exact fun p f s hhead => by simp [firstYard, hhead, Option.filter]
  · exact fun f s hin => by simp [headYard, hin]
  · exact fun f g s hin => headYard_pair hin
  · exact fun x s hlink hserved hready hfirst hbefore => next_eq (yardFrameTransmit_frame hlink hserved hready hfirst hbefore)
  · exact fun g s hlink hserved hready hseg hbefore => next_eq (yardFrameTransmit_segment hlink hserved hready hseg hbefore)
  · exact fun s hclear => ⟨macReady_clear hclear, macSent_clear hclear⟩
  · exact fun a r s hmac hopen hsa hpn => ⟨macReady_sa hmac hopen hsa hpn, by simp [macSent, hmac, hsa, State.onSec]⟩
  · intro f s hserved hfirst harp _ _ _
    refine next_eq ?_
    simp only [yardIpService, hserved, Bool.not_true, Bool.false_eq_true, if_false, yardTake_first hfirst, harp, beq_self_eq_true, if_true]
  · intro f i s hserved hfirst harp hip hproto
    refine next_eq ?_
    have harp' : (be f.bytes 12 2 == 0x0806) = false := by simpa using harp
    have hproto' : (i.proto == 17) = false := by simpa using hproto
    simp only [yardIpService, hserved, Bool.not_true, Bool.false_eq_true, if_false, yardTake_first hfirst, harp', hip, hproto']
  · intro f i s hserved hfirst harp hip hproto hown hudp
    refine next_eq ?_
    have harp' : (be f.bytes 12 2 == 0x0806) = false := by simpa using harp
    simp only [yardIpService, hserved, Bool.not_true, Bool.false_eq_true, if_false, yardTake_first hfirst, harp', hip, hproto, beq_self_eq_true, if_true,
      ownIp_takenYard, hown, hudp, Bool.and_self]

end Sys2Proof.Laws
end

section
/-!
Services of the yard port: sentence datagrams, sessions, PTP, and the commands of the port and of train time.
-/

namespace Sys2Proof.Laws

open Sys2Proof Sys2Proof.Machine

/-! Taking a frame from the yard port's queue changes nothing that its services go by. -/

theorem subs_of_quiet {s t : State} (h : quiet t = quiet s) : t.yard.subs = s.yard.subs := by
  have e := congrArg (fun x : State => x.yard.subs) h
  exact e

theorem quiet_takenYard (f : YFrame) (s : State) : quiet (takenYard f s) = quiet (s.onYard fun d => { d with inbox := d.inbox.erase f }) :=
  quiet_ringBack f _

/-- A subscription takes a frame from the queue, or marks it as seen there. -/
theorem quiet_takenSub (k : Nat) (f : YFrame) (s : State) : ∃ q : List YFrame, quiet (takenSub k f s) = quiet (s.onYard fun d => { d with inbox := q }) := by
  unfold takenSub
  split
  · exact ⟨_, quiet_takenYard f s⟩
  · exact ⟨_, rfl⟩

theorem subRec_takenSub (k : Nat) (f : YFrame) (s : State) (j : Nat) : subRec (takenSub k f s) j = subRec s j := by
  obtain ⟨q, hq⟩ := quiet_takenSub k f s
  simp only [subRec]
  exact congrArg (fun l => List.getD l j []) ((subs_of_quiet hq).trans rfl)

theorem inaug_takenSub (k : Nat) (f : YFrame) (s : State) : (takenSub k f s).inaug = s.inaug := by
  obtain ⟨q, hq⟩ := quiet_takenSub k f s
  exact (inaug_of_quiet hq).trans rfl

theorem trainTime_takenSub (k : Nat) (f : YFrame) (s : State) : trainTime (takenSub k f s) = trainTime s := by
  obtain ⟨q, hq⟩ := quiet_takenSub k f s
  exact (trainTime_of_quiet hq).trans rfl

theorem rcp_takenYard (f : YFrame) (s : State) : (takenYard f s).rcp = s.rcp := (rcp_of_quiet (quiet_takenYard f s)).trans rfl

theorem teth_takenYard (f : YFrame) (s : State) : (takenYard f s).teth = s.teth := (teth_of_quiet (quiet_takenYard f s)).trans rfl

theorem c_takenYard (f : YFrame) (s : State) : (takenYard f s).clk.c = s.clk.c := (c_of_quiet (quiet_takenYard f s)).trans rfl

theorem pPtpPeer_takenYard (f : YFrame) (s : State) : pPtpPeer (takenYard f s) = pPtpPeer s := by simp only [pPtpPeer, rcp_takenYard]

theorem ptpMine_takenYard (f : YFrame) (s : State) (b m : List Byte) : ptpMine (takenYard f s) b m = ptpMine s b m := by
  simp only [ptpMine, pPtpDomain, pPtpTransport, rcp_takenYard]

theorem ptpFromBest_takenYard (f : YFrame) (s : State) (m : List Byte) : ptpFromBest (takenYard f s) m = ptpFromBest s m := by
  simp only [ptpFromBest, ptpBest, teth_takenYard, c_takenYard]

theorem syncOk_takenYard (f : YFrame) (s : State) (m : List Byte) : syncOk (takenYard f s) m = syncOk s m := by
  simp only [syncOk, ptpFromBest_takenYard]

theorem ptpIdentity_takenYard (f : YFrame) (s : State) : ptpIdentity (takenYard f s) = ptpIdentity s := by
  have hmac : yMac (takenYard f s) = yMac s := (yMac_of_quiet (quiet_takenYard f s)).trans rfl
  simp only [ptpIdentity, hmac]

/-! Sentence datagrams (R341 to R343). -/

theorem datagramSend_due {e : Nat} {p : EpSt} {s : State} (hp : p = s.yard.epSt.getD e ⟨[], 0, 0, 0⟩) (hen : epEnable (epRec s e) = true)
    (hpack : p.pack ≠ []) (hdue : p.first + bits (epRec s e) 0 25 16 * 1000 ≤ s.clk.c) :
    datagramSend e s = udpSend (bits (epRec s e) 0 28 26) (recAddr6 (epRec s e)) (recPort (epRec s e)) (recPort (epRec s e)) (bits (epRec s e) 0 7 0)
      ([0x4B, 0x4E, 0x59, 0x53, 1, byteOf p.pack.length] ++ beBytes 2 (sysAddr s) ++ [byteOf e, 0, byteOf s.flash.bootCount, byteOf p.runs]
        ++ beBytes 4 p.dseq ++ p.pack.flatMap sentenceBytes)
      ((each p.pack (fun _ => cntLstn (32 + e) 1) (cntYard 10 s)).onYard fun d =>
        { d with epSt := d.epSt.modify e fun x => { x with pack := [], dseq := (x.dseq + 1) % 2 ^ 32 } }) := by
  have hempty : p.pack.isEmpty = false := by simpa using hpack
  simp only [datagramSend, hen, ← hp, hempty, Nat.not_lt.2 hdue, decide_false, Bool.and_false, Bool.not_true, Bool.or_self, Bool.false_eq_true, if_false]

/-- A datagram in order of a known pair. -/
theorem dgramTrack_next {k src e run dseq : Nat} {xs : List Sentence} {p : DPair} {s : State}
    (hpair : (s.yard.pairs.getD k []).find? (fun p => p.src == src && p.ep == e) = some p) (hheard : s.clk.c < p.heard + 10000000000)
    (hrun : p.run = run) (hnext : p.next = dseq) :
    dgramTrack k src e run dseq xs s = dgramAccept k false xs (modPairs k (fun l => l.map fun p => if p.src == src && p.ep == e then
      { p with run := run, next := (dseq + 1) % 2 ^ 32, heard := s.clk.c } else p) s) := by
  have hahead : (dseq + 2 ^ 32 - p.next) % 2 ^ 32 = 0 := by rw [hnext, Nat.add_sub_cancel_left, Nat.mod_self]
  simp only [dgramTrack, hpair, Nat.not_le.2 hheard, hrun, bne_self_eq_false, hahead, beq_self_eq_true, Bool.false_eq_true, if_false, if_true]

theorem datagramReceive_record {k : Nat} {f : YFrame} {u : Udp} {xs : List Sentence} {s : State} (hruns : fwRuns s = true)
    (hfirst : firstYard (isSubFrame s k) s = some f) (hudp : udpOf f.bytes = some u) (hcount : be u.data 5 1 ≠ 0)
    (hparse : parseRecords (trainTime s) (be u.data 5 1) (u.data.drop 16) = some xs) (hlen : 16 ≤ u.data.length)
    (hmagic : be u.data 0 4 = 0x4B4E5953) (hversion : be u.data 4 1 = 1) (hsrc : be u.data 6 2 < 16384) (hep : be u.data 8 1 < 32)
    (hzero : be u.data 9 1 = 0) (hany : bit (subRec s k) 0 29 = false) (hother : s.inaug.car = none ∨ be u.data 6 2 / 64 ≠ s.inaug.train) :
    datagramReceive k s = dgramTrack k (be u.data 6 2) (be u.data 8 1) (be u.data 10 2) (be u.data 12 4) xs (takenSub k f s) := by
  have hcount' : (be u.data 5 1 == 0) = false := by simpa using hcount
  have hother' : (s.inaug.car.isSome && be u.data 6 2 / 64 == s.inaug.train) = false := by
    obtain hnone | htrain := hother
    · rw [hnone]; rfl
    · simp [htrain]
  simp only [datagramReceive, hruns, hfirst, hudp, hcount', trainTime_takenSub, hparse, Nat.not_lt.2 hlen, hmagic, hversion, Nat.not_le.2 hsrc,
    Nat.not_le.2 hep, hzero, subRec_takenSub, hany, inaug_takenSub, hother', bne_self_eq_false, decide_false, Bool.not_true, Bool.or_self, Bool.false_and,
    Bool.false_eq_true, if_false]

/-! Yard sessions (R344 to R346). -/

section Session

variable {f : YFrame} {u : Udp} {s : State} (hserved : yardServed s = true) (hfirst : firstYard (isSessFrame s) s = some f) (hudp : udpOf f.bytes = some u)
  (hmin : 12 ≤ u.data.length) (hmax : u.data.length ≤ 72) (hwords : u.data.length % 4 = 0) (hzero : be u.data 2 2 = 0)

include hserved hfirst hudp hmin hmax hwords hzero

theorem yardSessionDatagram_open (hid : be u.data 0 2 = 0) (hmseq : be u.data 4 4 ≠ 0)
    (hcode : msgCode (sentBy coreId (bytesWords (u.data.drop 8))) = 0x003) :
    yardSessionDatagram s = sessOpenReq u (be u.data 4 4) (sentBy coreId (bytesWords (u.data.drop 8))) (takenYard f s) := by
  have hmseq' : (be u.data 4 4 == 0) = false := by simpa using hmseq
  simp only [yardSessionDatagram, hserved, yardTake_first hfirst, hudp, Nat.not_lt.2 hmin, Nat.not_lt.2 hmax, hwords, hzero, hid, hmseq', hcode,
    bne_self_eq_false, beq_self_eq_true, decide_false, Bool.not_true, Bool.or_self, Bool.false_eq_true, if_false, if_true]

/-- The next message of a session that has been answered. -/
theorem yardSessionDatagram_next {k : Nat} {y : YSess} (hid : be u.data 0 2 ≠ 0)
    (hsess : (takenYard f s).yard.sess.findIdx? (fun y => sessLive y && y.id == be u.data 0 2 && y.addr == u.src && y.port == u.sport) = some k)
    (hy : sessOf (takenYard f s) k = some y) (hmseq : be u.data 4 4 = mseqNext y.mseq) (hinbox : y.inbox = none) (hreply : y.reply ≠ [])
    (hnew : be u.data 4 4 ≠ y.mseq) :
    yardSessionDatagram s = putSess k
      { y with heard := (takenYard f s).clk.c, mseq := be u.data 4 4, inbox := some (sentBy coreId (bytesWords (u.data.drop 8))), reply := [] }
      (putSess k { y with heard := (takenYard f s).clk.c } (takenYard f s)) := by
  have hid' : (be u.data 0 2 == 0) = false := by simpa using hid
  have hnew' : (be u.data 4 4 == y.mseq) = false := by simpa using hnew
  have hmseq' : (be u.data 4 4 == mseqNext y.mseq) = true := by simpa using hmseq
  have hreply' : y.reply.isEmpty = false := by simpa using hreply
  simp only [yardSessionDatagram, hserved, yardTake_first hfirst, hudp, Nat.not_lt.2 hmin, Nat.not_lt.2 hmax, hwords, hzero, hid', hsess, hy, hnew',
    hmseq', hinbox, hreply', Option.isNone_none, bne_self_eq_false, decide_false, Bool.not_true, Bool.not_false, Bool.or_self, Bool.and_self,
    Bool.false_eq_true, if_false, if_true]

end Session

/-! PTP over the yard port (R150 to R154, R347, R348). -/

theorem ptpSend_udp {m : List Byte} {s : State} (h : pPtpTransport s ≠ 2) (timed : Option Nat) (tsub : Nat) (relayed : Option Nat) :
    ptpSend m timed tsub relayed s = s.onYard fun d =>
      { d with txq := d.txq ++ [{ queue := 7, udp := some ((ptpGroup s (ptpPdelay m)).2, if ptpEvent m then 319 else 320),
                                  sport := if ptpEvent m then 319 else 320, hop := 0, bytes := m, timed := timed, tsub := tsub, relayed := relayed }] } := by
  have h' : (pPtpTransport s == 2) = false := by simpa using h
  simp only [ptpSend, h', Bool.false_eq_true, if_false]

theorem ptpSend_ethernet {m : List Byte} {s : State} (h : pPtpTransport s = 2) (timed : Option Nat) (tsub : Nat) (relayed : Option Nat) :
    ptpSend m timed tsub relayed s = s.onYard fun d =>
      { d with txq := d.txq ++ [{ queue := 7, udp := none, sport := if ptpEvent m then 319 else 320, hop := 0,
                                  bytes := ethFrame s (ptpGroup s (ptpPdelay m)).1 0x88F7 m, timed := timed, tsub := tsub, relayed := relayed }] } := by
  simp only [ptpSend, h, beq_self_eq_true, if_true]

section Ptp

variable {off : Int} {locked : Bool} {f : YFrame} {m : List Byte} {s : State}

/-- What a PTP message of this car's domain and transport does, by its type. -/
def ptpByType (f : YFrame) (m : List Byte) (off : Int) (locked : Bool) (t : State) : State :=
  match ptpType m with
  | 0 => if syncOk t m then ptpSyncIn m off locked t else t
  | 2 => if pPtpPeer t then pdelayResp f m t else t
  | 3 => if pPtpPeer t then delayResp m t else t
  | 8 => ptpFollowIn m off locked t
  | 9 => if pPtpPeer t || !ptpFromBest t m then t else delayResp m t
  | 11 => ptpAnnounce m t
  | _ => t

theorem ptpMessageReceive_mine (hruns : fwRuns s = true) (hfirst : firstYard (fun f => (ptpOf f.bytes).isSome) s = some f)
    (hptp : ptpOf f.bytes = some m) (hmine : ptpMine s f.bytes m = true) :
    ptpMessageReceive off locked s = ptpByType f m off locked (takenYard f s) := by
  simp only [ptpMessageReceive, hruns, yardTake_first hfirst, hptp, ptpMine_takenYard, hmine, Bool.not_true, Bool.false_eq_true, if_false]
  rfl

theorem ptpByType_sync (htype : ptpType m = 0) (s : State) : ptpByType f m off locked s = if syncOk s m then ptpSyncIn m off locked s else s := by
  simp only [ptpByType, htype]

theorem ptpByType_pdelayReq (htype : ptpType m = 2) (s : State) : ptpByType f m off locked s = if pPtpPeer s then pdelayResp f m s else s := by
  simp only [ptpByType, htype]

theorem ptpByType_pdelayResp (htype : ptpType m = 3) (s : State) : ptpByType f m off locked s = if pPtpPeer s then delayResp m s else s := by
  simp only [ptpByType, htype]

theorem ptpByType_followUp (htype : ptpType m = 8) (s : State) : ptpByType f m off locked s = ptpFollowIn m off locked s := by
  simp only [ptpByType, htype]

theorem ptpByType_delayResp (htype : ptpType m = 9) (s : State) :
    ptpByType f m off locked s = if pPtpPeer s || !ptpFromBest s m then s else delayResp m s := by
  simp only [ptpByType, htype]

theorem ptpByType_announce (htype : ptpType m = 11) (s : State) : ptpByType f m off locked s = ptpAnnounce m s := by
  simp only [ptpByType, htype]

theorem ptpSyncIn_twoStep (htwo : natBit (be m 6 1) 1 = true) (s : State) :
    ptpSyncIn m off locked s = (delayReq s).onTeth fun x => { x with ptpSync := some (ptpSender m, be m 30 2) } := by
  simp only [ptpSyncIn, htwo, if_true]

theorem ptpSyncIn_oneStep (hone : natBit (be m 6 1) 1 = false) (s : State) :
    ptpSyncIn m off locked s = plantMeasure off locked ((delayReq s).onTeth fun x => { x with ptpSync := none }) := by
  simp only [ptpSyncIn, hone, Bool.false_eq_true, if_false]

theorem ptpFollowIn_match (hsync : s.teth.ptpSync = some (ptpSender m, be m 30 2)) (hbest : ptpFromBest s m = true) :
    ptpFollowIn m off locked s = plantMeasure off locked (s.onTeth fun x => { x with ptpSync := none }) := by
  simp only [ptpFollowIn, hsync, hbest, beq_self_eq_true, Bool.and_self, if_true]

theorem ptpFollowIn_other (hsync : s.teth.ptpSync ≠ some (ptpSender m, be m 30 2)) : ptpFollowIn m off locked s = s := by
  have hsync' : (s.teth.ptpSync == some (ptpSender m, be m 30 2)) = false := by simpa using hsync
  simp only [ptpFollowIn, hsync', Bool.false_and, Bool.false_eq_true, if_false]

theorem delayResp_own (hown : part m 44 10 = ptpIdentity s) :
    delayResp m s = s.onTeth fun x => { x with tsq := x.tsq.filter fun e => e.1 != be m 30 2 } := by
  simp only [delayResp, hown, beq_self_eq_true, if_true]

end Ptp

/-- Settles O48: the datagrams, the sessions, and the PTP messages. -/
theorem yardServices : Obligations.YardServices := by
  unfold Obligations.YardServices
  refine ⟨?_, ?_, ?_, ?_, ?_, ?_, ?_, ?_, ?_, ?_, ?_, ?_, ?_, ?_, ?_⟩
  · exact fun e s p hp hen hpack hdue => next_eq (datagramSend_due hp hen hpack hdue)
  · exact fun k f u xs s hruns hfirst hudp hcount hparse hlen hmagic hversion hsrc hep hzero hany hother =>
      next_eq (datagramReceive_record hruns hfirst hudp hcount hparse hlen hmagic hversion hsrc hep hzero hany hother)
  · intro k f s hleft
    simp only [takenSub, hleft, beq_self_eq_true, if_true]
  · exact fun k src e run dseq xs p s hpair hheard hrun hnext _ => dgramTrack_next hpair hheard hrun hnext
  · exact fun k src e s => next_eq rfl
  · exact fun f u s hserved hfirst hudp hmin hmax hwords hzero hid hmseq hcode =>
      next_eq (yardSessionDatagram_open hserved hfirst hudp hmin hmax hwords hzero hid hmseq hcode)
  · exact fun f u k y s hserved hfirst hudp hmin hmax hwords hzero hid hsess hy hmseq hinbox hreply hnew =>
      next_eq (yardSessionDatagram_next hserved hfirst hudp hmin hmax hwords hzero hid hsess hy hmseq hinbox hreply hnew)
  · intro u mseq ws s hnew hfull
    simp only [sessOpenReq, hnew, hfull]
  · intro u k mseq ws s hnew hfree
    simp only [sessOpenReq, hnew, hfree]
  · intro k y s hy hlive hlate
    exact next_eq (by simp only [yardSessionTimeout, hy, hlive, hlate, decide_true, Bool.and_self, if_true])
  · intro m e s hfirst hen hnum hbadge
    have hinaug : (takenMsg m s).inaug = s.inaug := takenMsg_inaug m s
    refine next_eq ((withCtl_first hfirst _).trans ?_)
    have hnum' : numbered (takenMsg m s) (m.hdr.src % 64) = some e := by rw [← hnum]; simp only [numbered, hinaug]
    have hen' : yRelayEn (takenMsg m s) = true := hen
    have hpeer : yRelayPeer (takenMsg m s) = yRelayPeer s := rfl
    have hbadge' : (e.badge != yRelayPeer (takenMsg m s)) = false := by rw [hpeer, hbadge, bne_self_eq_false]
    simp only [hnum', hen', hbadge', trainTime_takenMsg, Bool.not_true, Bool.or_self, Bool.false_eq_true, if_false]
  · exact fun m timed tsub relayed s htransport => ptpSend_udp htransport timed tsub relayed
  · exact fun m timed tsub relayed s htransport => ptpSend_ethernet htransport timed tsub relayed
  · intro off locked f m s hruns hfirst hptp hmine
    have hbody := ptpMessageReceive_mine (off := off) (locked := locked) hruns hfirst hptp hmine
    have hteth := teth_takenYard f s
    refine ⟨?_, ?_, ?_, ?_, ?_, ?_, ?_, ?_⟩
    · intro htype hsync htwo
      refine next_eq (hbody.trans ?_)
      rw [ptpByType_sync htype, syncOk_takenYard, hsync, if_pos rfl, ptpSyncIn_twoStep htwo]
    · intro htype hsync hone
      refine next_eq (hbody.trans ?_)
      rw [ptpByType_sync htype, syncOk_takenYard, hsync, if_pos rfl, ptpSyncIn_oneStep hone]
    · intro htype hsync
      refine next_eq (hbody.trans ?_)
      rw [ptpByType_sync htype, syncOk_takenYard, hsync, if_neg Bool.false_ne_true]
    · intro htype hbest hsync
      refine next_eq (hbody.trans ?_)
      rw [ptpByType_followUp htype]
      exact ptpFollowIn_match (by rw [hteth, hsync]) (by rw [ptpFromBest_takenYard, hbest])
    · intro htype hsync
      refine next_eq (hbody.trans ?_)
      rw [ptpByType_followUp htype]
      exact ptpFollowIn_other (by rwa [hteth])
    · intro htype hpeer
      refine next_eq (hbody.trans ?_)
      rw [ptpByType_pdelayReq htype, pPtpPeer_takenYard, hpeer, if_pos rfl]
    · intro hkind hown
      have hown' : part m 44 10 = ptpIdentity (takenYard f s) := by rw [hown, ptpIdentity_takenYard]
      refine next_eq (hbody.trans ?_)
      obtain ⟨htype, hpeer⟩ | ⟨htype, hpeer, hbest⟩ := hkind
      · rw [ptpByType_pdelayResp htype, pPtpPeer_takenYard, hpeer, if_pos rfl, delayResp_own hown']
      · rw [ptpByType_delayResp htype, pPtpPeer_takenYard, hpeer, ptpFromBest_takenYard, hbest]
        exact delayResp_own hown'
    · intro htype
      exact next_eq (hbody.trans (ptpByType_announce htype _))
  · intro s hmaster hplant
    exact next_eq (by simp only [ptpServoLockLoss, hmaster, hplant, beq_self_eq_true, Bool.and_self, if_true])

end Sys2Proof.Laws
end

section
/-!
Commands of the yard port and of train time.
-/

namespace Sys2Proof.Laws

open Sys2Proof Sys2Proof.Machine

@[simp] theorem takenBy_yardSteer (code : Nat) (via : Via) (s : State) : (takenBy code via s).yard.steer = s.yard.steer := by
  unfold takenBy
  split
  · rfl
  · cases via <;> rfl

theorem yV6En_takenBy (code : Nat) (via : Via) (s : State) : yV6En (takenBy code via s) = yV6En s := by
  simp only [yV6En, takenBy_yardRecord]

theorem timeRecord_takenBy (code : Nat) (via : Via) (s : State) : timeRecord (takenBy code via s) = timeRecord s := by
  unfold takenBy
  split
  · rfl
  · cases via <;> rfl

theorem synced_takenBy (code : Nat) (via : Via) (s : State) : synced (takenBy code via s) = synced s := by
  simp only [synced, takenBy_clk]

/-! The records (R160, R334, R341, R345, R352). -/

theorem cmdYardSet_applies {c : Ctx} {s : State} (hsize : wd c.words 2 = 176) (hparcel : parcelOk 1 c s = true) (hread : (parcelRead 1 c s).1 = true)
    (hcheck : yardCheck (bytesWords ((parcelBytes 1 c s).take 112)) = none)
    (hstate : (parcelRead 1 c s).2.sys.dev = .stopped
      ∨ yardFixed (bytesWords ((parcelBytes 1 c s).take 112)) = yardFixed (parcelRead 1 c s).2.yard.record)
    (hfit : ringBytes (bytesWords ((parcelBytes 1 c s).take 112)) + ringsKib ((parcelRead 1 c s).2.ports.map (·.rec_)) * 1024
      ≤ regionSize (parcelRead 1 c s).2 1) :
    cmdYardSet c s = replyOk c [] (yardApply (bytesWords ((parcelBytes 1 c s).take 112)) (bytesWords ((parcelBytes 1 c s).drop 112)) (parcelRead 1 c s).2) := by
  have hstate' : ((parcelRead 1 c s).2.sys.dev != .stopped
      && yardFixed (bytesWords ((parcelBytes 1 c s).take 112)) != yardFixed (parcelRead 1 c s).2.yard.record) = false := by
    obtain hstopped | hfixed := hstate
    · rw [hstopped]; rfl
    · rw [hfixed, bne_self_eq_false, Bool.and_false]
  simp only [cmdYardSet, hsize, bne_self_eq_false, Bool.false_eq_true, if_false]
  rw [readParcel_ok hparcel hread]
  simp only [hcheck, hstate', Nat.not_lt.2 hfit, Bool.false_eq_true, if_false]

theorem cmdSteerSet_applies {c : Ctx} {s : State} (hidx : wd c.words 1 ≤ 63) (hcheck : steerCheck ((c.words.drop 2).take 2) = none) :
    cmdSteerSet c s = replyOk c [] (s.onYard fun d => { d with steer := d.steer.set (wd c.words 1) ((c.words.drop 2).take 2) }) := by
  simp only [cmdSteerSet, Nat.not_lt.2 hidx, if_false, hcheck]

theorem cmdEndpointSet_endpoint {c : Ctx} {s : State} (hidx : wd c.words 1 < 32) (hcheck : endpointCheck false (yV6En s) ((c.words.drop 2).take 6) = none) :
    cmdEndpointSet c s = replyOk c [] (endpointApply (wd c.words 1) ((c.words.drop 2).take 6) s) := by
  have hkind : natBit (wd c.words 1) 5 = false := by simp [natBit, Nat.div_eq_of_lt hidx]
  have hrange : ¬ 63 < wd c.words 1 := by omega
  simp only [cmdEndpointSet, hkind, hrange, hcheck, Nat.mod_eq_of_lt hidx, decide_false, Bool.false_and, Bool.or_self, Bool.false_eq_true, if_false]

theorem cmdEndpointSet_subscription {c : Ctx} {s : State} (hlow : 32 ≤ wd c.words 1) (hhigh : wd c.words 1 < 40)
    (hcheck : endpointCheck true (yV6En s) ((c.words.drop 2).take 6) = none) :
    cmdEndpointSet c s = replyOk c [] (subApply (wd c.words 1 - 32) ((c.words.drop 2).take 6) s) := by
  have hdiv : wd c.words 1 / 2 ^ 5 = 1 := by omega
  have hkind : natBit (wd c.words 1) 5 = true := by simp only [natBit, hdiv]; rfl
  have hmod : wd c.words 1 % 32 = wd c.words 1 - 32 := by omega
  have hrange : ¬ 63 < wd c.words 1 := by omega
  have hslot : ¬ 8 ≤ wd c.words 1 - 32 := by omega
  simp only [cmdEndpointSet, hkind, hmod, hrange, hslot, hcheck, decide_false, Bool.and_false, Bool.or_self, Bool.false_eq_true, if_false, if_true]

/-! SEGMENT_SEND where it is accepted (R29, R339). -/

theorem segStart_eq (g : SegSend) (s : State) :
    segStart g s = s.onYard fun d => if d.seg.isSome then { d with segQ := d.segQ ++ [g] } else { d with seg := some g } := rfl

theorem cmdSegmentSend_starts {c : Ctx} {s : State} {n : Nat} (hdev : segAccepts s) (hqueue : wd c.words 1 % 65536 < 6)
    (hlow : 256 ≤ wd c.words 1 / 65536) (hhigh : wd c.words 1 / 65536 ≤ 8952) (hparcel : parcelOk 2 c s = true) (hread : (parcelRead 2 c s).1 = true)
    (hhdr : segHdr (parcelBytes 2 c s) = some n) (hlen : (parcelBytes 2 c s).length - (n - 8) ≤ 4194304) :
    cmdSegmentSend c s = segStart { ctx := c, mss := wd c.words 1 / 65536, queue := wd c.words 1 % 8, hdr := (parcelBytes 2 c s).take n,
                                    left := (parcelBytes 2 c s).drop n, sent := 0, ipId := be (parcelBytes 2 c s) 18 2 } (parcelRead 2 c s).2 := by
  have hdev' : (s.sys.dev == .startup || s.sys.dev == .test || s.sys.dev == .recovery) = true := by
    simpa [segAccepts, or_assoc] using hdev
  simp only [cmdSegmentSend, ge_iff_le, Nat.not_le.2 hqueue, Nat.not_lt.2 hlow, Nat.not_lt.2 hhigh, decide_false, Bool.or_self, Bool.false_eq_true, if_false]
  rw [readParcel_ok hparcel hread]
  simp only [hhdr, Nat.not_lt.2 hlen, hdev', Bool.not_true, Bool.false_eq_true, if_false]

/-- Settles O49: the records of the yard port, its status, SEGMENT_SEND, and the two reads of train time. -/
theorem yardCommands : Obligations.YardCommands := by
  unfold Obligations.YardCommands
  refine ⟨?_, ?_, ?_, ?_, ?_, ?_, ?_, ?_⟩
  · intro via s c t u r hc ht hu hr hruns hsize hparcel hread hcheck hstate hfit
    subst hc ht hu hr
    exact next_eq ((firmware_runs hruns).trans (cmdYardSet_applies hsize hparcel hread hcheck hstate hfit))
  · intro via s c hc hruns hidx hcheck
    subst hc
    exact next_eq ((firmware_runs hruns).trans (cmdSteerSet_applies hidx hcheck))
  · intro via s c r hc hr hruns hidx hcheck
    subst hc hr
    exact next_eq ((firmware_runs hruns).trans (cmdEndpointSet_endpoint hidx (by rw [yV6En_takenBy, hcheck])))
  · intro via s c r hc hr hruns hlow hhigh hcheck
    subst hc hr
    exact next_eq ((firmware_runs hruns).trans (cmdEndpointSet_subscription hlow hhigh (by rw [yV6En_takenBy, hcheck])))
  · intro via s c hc hruns
    subst hc
    refine next_eq ((firmware_runs hruns).trans ?_)
    simp only [cmdYardStatus, takenBy_sec]
  · intro via s c t u p n g hc ht hu hp hruns hqueue hlow hhigh hdev hparcel hread hhdr hlen hg
    subst hc ht hu hp hg
    have hdev' : segAccepts (takenBy 0x807 via s) := by simpa only [segAccepts, takenBy_sys] using hdev
    exact next_eq ((firmware_runs hruns).trans (cmdSegmentSend_starts hdev' hqueue hlow hhigh hparcel hread hhdr hlen))
  · intro via s c t hc ht hruns
    subst hc ht
    refine next_eq ((firmware_runs hruns).trans ?_)
    simp only [cmdTimeRead, trainTime_takenBy, takenBy_clk, synced_takenBy]
  · intro via s c hc hruns
    subst hc
    refine next_eq ((firmware_runs hruns).trans ?_)
    simp only [cmdTimeStatus, timeRecord_takenBy]

end Sys2Proof.Laws
end

section
/-!
The host port: what a word of a transaction does, reads with a side effect, and the words of messages, counts and locks.
-/

namespace Sys2Proof.Laws

open Sys2Proof Sys2Proof.Machine

/-! A word of a transaction (R355 to R359). -/

theorem wordOk_iff {n : Bool} {a : Nat} {s : State} :
    wordOk n a s = true ↔ wordComes n a s = true ∧ (txnState n a s).host.txn.bus = false ∧ rejects (txnState n a s) a = none := by
  simp [wordOk, Bool.and_eq_true, and_assoc]

theorem hostWord_ok {n : Bool} {a : Nat} {s : State} (h : wordOk n a s = true) (f : State → State) : hostWord n a f s = f (txnState n a s) := by
  obtain ⟨hcomes, hbus, hrej⟩ := wordOk_iff.1 h
  simp only [txnState] at hbus hrej
  simp only [hostWord, hcomes, hbus, hrej, txnState, Bool.not_true, Bool.false_eq_true, if_false]

theorem hostWord_rejected {n : Bool} {a kind : Nat} {s : State} (hcomes : wordComes n a s = true) (hbus : (txnState n a s).host.txn.bus = false)
    (hrej : rejects (txnState n a s) a = some kind) (f : State → State) : hostWord n a f s = rejectWord kind a (txnState n a s) := by
  simp only [txnState] at hbus hrej
  simp only [hostWord, hcomes, hbus, hrej, txnState, Bool.not_true, Bool.false_eq_true, if_false]

theorem beginTxn_awake {s : State} (h : s.sys.dev ≠ .barn) : beginTxn s = s.onHost fun h =>
    { h with prevTxn := h.txn, txn := TxnStat.clear, pageNow := h.page, out := wordOf (statusByte s h.txn), nextAddr := none } := by
  have h' : (s.sys.dev == .barn) = false := by simpa using h
  simp only [beginTxn, selectFalls, h', Bool.false_eq_true, if_false]

/-- A device that the transaction wakes keeps its host side. -/
theorem selectFalls_host (s : State) : (selectFalls s).host = s.host := by
  unfold selectFalls wakeLatch
  cases s.sys.dev == .barn <;> cases s.sys.barn == .asleep <;> rfl

theorem selectFalls_dev (s : State) : (selectFalls s).sys.dev = s.sys.dev := by
  unfold selectFalls wakeLatch
  cases s.sys.dev == .barn <;> cases s.sys.barn == .asleep <;> rfl

theorem beginTxn_host (s : State) : (beginTxn s).host = { s.host with
    prevTxn := s.host.txn, txn := TxnStat.clear, pageNow := s.host.page, out := wordOf (statusByte s s.host.txn), nextAddr := none } := by
  simp only [beginTxn, onHost_host, selectFalls_host]

section TxnState

variable (n : Bool) (a : Nat) (s : State)

@[simp] theorem txnState_dev : (txnState n a s).sys.dev = s.sys.dev := by
  cases n
  · rfl
  · exact selectFalls_dev s

@[simp] theorem txnState_session : (txnState n a s).host.session = s.host.session := by
  cases n
  · rfl
  · simp [txnState, openWords, beginTxn_host]

@[simp] theorem txnState_priv : (txnState n a s).host.priv = s.host.priv := by
  cases n
  · rfl
  · simp [txnState, openWords, beginTxn_host]

@[simp] theorem txnState_locks : (txnState n a s).host.locks = s.host.locks := by
  cases n
  · rfl
  · simp [txnState, openWords, beginTxn_host]

theorem txnState_bus : (txnState n a s).host.txn.bus = (!n && s.host.txn.bus) := by
  cases n
  · rfl
  · simp [txnState, openWords, beginTxn_host, TxnStat.clear]

end TxnState

/-- An address is judged by the device state alone. -/
theorem rejects_congr {s t : State} (h : t.sys.dev = s.sys.dev) (a : Nat) : rejects t a = rejects s a := by simp only [rejects, h]

theorem rejects_txnState (n : Bool) (a : Nat) (s : State) (b : Nat) : rejects (txnState n a s) b = rejects s b :=
  rejects_congr (txnState_dev n a s) b

theorem lockVal_congr {s t : State} (h : t.host.locks = s.host.locks) (k : Nat) : lockVal k t = lockVal k s := by simp only [lockVal, h]

theorem rejects_unmapped {s : State} {a : Nat} (hmap : mapped a = false) (halign : a % 4 = 0) (hbarn : s.sys.dev ≠ .barn) (hboot : s.sys.dev ≠ .boot) :
    rejects s a = some 1 := by
  have hbarn' : (s.sys.dev == .barn) = false := by simpa using hbarn
  have hboot' : (s.sys.dev == .boot) = false := by simpa using hboot
  simp [rejects, hbarn', hboot', halign, hmap]

/-! Reads with a side effect (R12, R367). -/

theorem rcRead_first {n : Bool} {a : Nat} {r : RcWord} {s : State} (hprov : provOf s r = none) (h : wordOk n a s = true) (value : State → Nat) :
    rcRead n a r value false s = holdRead r (value (txnState n a s)) (driveOut (value (txnState n a s)) (txnState n a s)) := by
  simp only [rcRead, hprov, hostWord_ok h, Bool.false_eq_true, if_false]

theorem rcRead_whole {n : Bool} {a : Nat} {r : RcWord} {s : State} (hprov : provOf s r = none) (h : wordOk n a s = true) (value : State → Nat) :
    rcRead n a r value true s = commitRead r (value (txnState n a s))
      (holdRead r (value (txnState n a s)) (driveOut (value (txnState n a s)) (txnState n a s))) := by
  simp only [rcRead, hprov, hostWord_ok h, if_true]

theorem rcRead_held {n : Bool} {a : Nat} {r : RcWord} {p : Prov} {s : State} (hprov : provOf s r = some p) (value : State → Nat) (last : Bool) :
    rcRead n a r value last s = if last then commitRead r p.val s else s := by
  simp only [rcRead, hprov]

theorem holdRead_lock_free (k : Nat) (s : State) : holdRead (.lock k) 0 s
    = (s.onHost fun h => { h with prov := { reg := .lock k, val := 0 } :: h.prov }).onHost fun h => { h with locks := h.locks.set k 1 } := by
  simp only [holdRead, beq_self_eq_true, if_true]

theorem holdRead_lock_owned {k v : Nat} (h : v ≠ 0) (s : State) :
    holdRead (.lock k) v s = s.onHost fun h => { h with prov := { reg := .lock k, val := v } :: h.prov } := by
  have h' : (v == 0) = false := by simpa using h
  simp only [holdRead, h', Bool.false_eq_true, if_false]

theorem commitRead_outCommit {v : Nat} (h : natBit v 31 = true) (ch : Nat) (s : State) : commitRead (.outCommit ch) v s
    = modMang ch (fun m => { m with outFull := false, outSender := 0, outSession := 0 })
        (s.onHost fun h => { h with prov := h.prov.filter fun p => p.reg != .outCommit ch }) := by
  simp only [commitRead, h, if_true]

/-! Messages (R363 to R365). -/

theorem inWrite_free {ch : Nat} {s : State} (hch : ch < 10) (hfree : (mangOf s ch).inFull = false) (a : Nat) (f : State → State) :
    inWrite ch a f s = f s := by
  simp only [inWrite, Nat.not_le.2 hch, hfree, Bool.false_eq_true, if_false]

theorem inWrite_full {ch : Nat} {s : State} (hch : ch < 10) (hfull : (mangOf s ch).inFull = true) (a : Nat) (f : State → State) :
    inWrite ch a f s = rejectWord 0 a s := by
  simp only [inWrite, Nat.not_le.2 hch, hfull, if_false, if_true]

/-! Locks (R370, R371). -/

theorem lockTake_nobody (k : Nat) (s : State) : lockTake k [] s = s := rfl

/-- A read by the host port that comes with its address phase beats every other reader. -/
theorem lockRead_host {n : Bool} {k : Nat} {s : State} (hprov : provOf s (.lock k) = none) (hok : wordOk n (0x2100 + 4 * k) s = true) (ids : List Nat)
    (last : Bool) :
    lockRead n k { host := true, others := ids } last s = rcRead n (0x2100 + 4 * k) (.lock k) (lockVal k) last
      (if ids.any (lockMaster s) && lockVal k s == 0 then cntHost 2 s else s) := by
  obtain ⟨hcomes, hbus, hrej⟩ := wordOk_iff.1 hok
  rw [rejects_txnState] at hrej
  have hbus' : (n || !s.host.txn.bus) = true := by
    rw [txnState_bus] at hbus
    cases n
    · simpa using hbus
    · rfl
  simp only [lockRead, hprov, hcomes, hrej, hbus', Option.isNone_none, Bool.and_self, Bool.true_and, Bool.not_true, Bool.false_eq_true, if_false, if_true]

/-- A collision that is counted is no reason to reject the word. -/
theorem wordOk_cntHost {n : Bool} {a : Nat} {s : State} (i : Nat) (h : wordOk n a s = true) : wordOk n a (cntHost i s) = true := by
  obtain ⟨hcomes, hbus, hrej⟩ := wordOk_iff.1 h
  refine wordOk_iff.2 ⟨hcomes, ?_, ?_⟩
  · rw [txnState_bus] at hbus ⊢
    exact hbus
  · rw [rejects_txnState] at hrej ⊢
    exact hrej

theorem lockTake_won {k w : Nat} {ids : List Nat} {s : State} (hmin : (ids.filter (lockMaster s)).min? = some w) (hfree : s.host.locks.getD k 1 = 0) :
    lockTake k ids s = when' (decide (1 < (ids.filter (lockMaster s)).length)) (cntHost 2) (s.onHost fun h => { h with locks := h.locks.set k w }) := by
  simp only [lockTake, hmin, hfree, bne_self_eq_false, Bool.false_eq_true, if_false]

theorem lockWrite_owner {id k : Nat} {s : State} (hown : s.host.locks.getD k 0 = id) (hid : id ≠ 0) :
    Machine.lockWrite id k id s = s.onHost fun h => { h with locks := h.locks.set k 0 } := by
  have hid' : (id != 0) = true := by simpa using hid
  simp only [Machine.lockWrite, hown, beq_self_eq_true, hid', Bool.and_self, if_true]

theorem lockWrite_refused {id k w : Nat} {s : State} (h : s.host.locks.getD k 0 ≠ id ∨ w ≠ id) :
    Machine.lockWrite id k w s = raise 116 (k * 256 + 1) (cntHost 3 s) := by
  have h' : (s.host.locks.getD k 0 == id && w == id && id != 0) = false := by
    obtain hown | hval := h
    · simp only [beq_eq_false_iff_ne.2 hown, Bool.false_and]
    · simp only [beq_eq_false_iff_ne.2 hval, Bool.and_false, Bool.false_and]
  simp only [Machine.lockWrite, h', Bool.false_eq_true, if_false]

/-- No master that takes part in a lock has the ID 0. -/
theorem lockMaster_ne_zero {s : State} {id : Nat} (h : lockMaster s id = true) : id ≠ 0 := by
  rintro rfl
  cases hd : s.sys.dev <;> simp [lockMaster, hd] at h

/-- Settles O51: STATUS, plain reads and unknown opcodes, the abort, message words and commits, the counts, and the locks. -/
theorem hostWords : Obligations.HostWords := by
  unfold Obligations.HostWords
  refine ⟨?_, ?_, ?_, ?_, ?_, ?_, ?_, ?_, ?_, ?_, ?_, ?_, ?_, ?_, ?_, ?_, ?_, ?_, ?_, ?_, ?_, ?_⟩
  · intro s hport hawake
    have hawake' : (s.sys.dev == .barn) = false := by simpa using hawake
    exact next_eq (by simp only [hport, hawake', Bool.not_true, Bool.false_eq_true, if_false, beginTxn_awake hawake])
  · intro s hport hbarn
    exact next_eq (by simp only [hport, hbarn, beq_self_eq_true, Bool.not_true, Bool.false_eq_true, if_false, if_true])
  · intro a s t ht hok hrow
    subst ht
    have hport : portAnswers s = true := by
      have h := (wordOk_iff.1 hok).1
      simpa [wordComes] using h
    exact next_eq (by simp [unknownOpcode, hport, plainRead, hrow, hostWord_ok hok])
  · intro a s t ht hport hbus hrej
    subst ht
    have hcomes : wordComes true a s = true := by simp [wordComes, hport]
    have hrej' : rejects s a = some 1 := by rw [← rejects_txnState true a s]; exact hrej
    exact next_eq (by simp [unknownOpcode, hport, plainRead, hrej', hostWord_rejected hcomes hbus hrej])
  · intro a s hport hawake
    have hawake' : (s.sys.dev == .barn) = false := by simpa using hawake
    exact next_eq (by simp [unknownOpcode, hport, hawake', openWords])
  · intro a f s hport hnext
    have hcomes : wordComes false a s = false := by simpa [wordComes, hport] using hnext
    simp only [hostWord, hcomes, Bool.not_false, if_true]
  · intro op a s hport hop hawake
    have hawake' : (s.sys.dev == .barn) = false := by simpa using hawake
    simp only [List.contains_cons, List.contains_nil, Bool.or_false, Bool.or_eq_false_iff] at hop
    obtain ⟨h02, h32, h03, h6b, heb, h05⟩ := hop
    exact next_eq (by simp only [unknownOpcode, hport, hawake', List.contains_cons, List.contains_nil, h02, h32, h03, h6b, heb, h05, Bool.not_true,
      Bool.or_self, Bool.false_eq_true, if_false])
  · intro s hport
    exact next_eq (by simp only [hostTransactionAbort, hport, Bool.not_true, Bool.false_eq_true, if_false])
  · intro n ch off w s t ht hok hch hfree
    subst ht
    exact next_eq ((hostWord_ok hok _).trans (inWrite_free hch hfree _ _))
  · intro n ch off w s t ht hok hch hfull
    subst ht
    exact next_eq ((hostWord_ok hok _).trans (inWrite_full hch hfull _ _))
  · intro n ch s t ht hok hch hfree
    subst ht
    refine next_eq ((hostWord_ok hok _).trans ((inWrite_free hch hfree _ _).trans ?_))
    simp only [commitIn, txnState_session, txnState_priv]
  · intro n ch s t ht hprov hok
    subst ht
    exact ⟨next_eq (rcRead_first hprov hok _), next_eq (rcRead_whole hprov hok _)⟩
  · exact fun ch v s hfull => commitRead_outCommit hfull ch s
  · intro n ch s t ht hprov hok
    subst ht
    exact next_eq (rcRead_first hprov hok _)
  · exact fun n ch last p s hprov => next_eq (rcRead_held hprov _ last)
  · intro n k s t ht hprov hok hfree
    subst ht
    refine next_eq ((lockRead_host hprov hok [] false).trans ?_)
    rw [List.any_nil, Bool.false_and, if_neg Bool.false_ne_true, rcRead_first hprov hok, hfree, holdRead_lock_free]
  · intro n k ids s t ht hprov hok hfree hothers
    subst ht
    have hfree' : lockVal k s = 0 := by
      rw [lockVal_congr (txnState_locks n (0x2100 + 4 * k) (cntHost 2 s))] at hfree
      exact hfree
    refine next_eq ((lockRead_host hprov hok ids false).trans ?_)
    rw [hothers, hfree', beq_self_eq_true, Bool.and_self, if_pos rfl, rcRead_first (s := cntHost 2 s) hprov (wordOk_cntHost 2 hok), hfree,
      holdRead_lock_free]
  · intro n k ids last s t ht hprov hok howned
    subst ht
    have hlocks := txnState_locks n (0x2100 + 4 * k) s
    have howned' : (lockVal k s == 0) = false := by
      rw [lockVal_congr hlocks] at howned
      simpa using howned
    refine ⟨_, next_eq (lockRead_host hprov hok ids last), ?_⟩
    rw [howned', Bool.and_false, if_neg Bool.false_ne_true]
    cases last
    · rw [rcRead_first hprov hok, holdRead_lock_owned howned]
      exact ⟨hlocks, rfl⟩
    · rw [rcRead_whole hprov hok, holdRead_lock_owned howned]
      exact ⟨hlocks, rfl⟩
  · exact fun n k ids last w s hmin hfree => next_eq (lockTake_won hmin hfree)
  · intro n k s t ht hok hown
    subst ht
    refine next_eq ((hostWord_ok hok _).trans ?_)
    exact lockWrite_owner (by rw [txnState_locks, hown]) Nat.one_ne_zero
  · intro n k v s t ht hok hbad
    subst ht
    refine next_eq ((hostWord_ok hok _).trans ?_)
    refine lockWrite_refused ?_
    rw [txnState_locks]
    exact hbad.imp_right fun hv hone => hv (BitVec.eq_of_toNat_eq hone)
  · intro n k w s hother hmaster hown hval
    have hother' : (w.id == 1) = false := by simpa using hother
    refine next_eq ?_
    simp only [hother', hmaster, Bool.false_eq_true, if_false, if_true]
    rw [hval]
    exact lockWrite_owner hown (lockMaster_ne_zero hmaster)

end Sys2Proof.Laws
end

section
/-!
The host port: bells, interrupt bits, registers, the window into the hayloft, and the host reset.
-/

namespace Sys2Proof.Laws

open Sys2Proof Sys2Proof.Machine

/-- What a host reset sets of the session and of the registers, and no event changes. -/
def hostCtl (s : State) : Nat × Priv × Nat × Nat × Nat × List Proxy :=
  (s.host.session, s.host.priv, s.host.irqEn, s.host.overflow, s.host.page, s.host.proxies)

theorem hostCtl_of_quiet {s t : State} (h : quiet t = quiet s) : hostCtl t = hostCtl s := by
  have e := congrArg hostCtl h
  exact e

/-! Registers (R361, R368, R369, R372, R377). -/

theorem fwBellTake_low {n : Nat} {s : State} (hmsgs : takesMsgs s = true) (hbell : natBit s.host.fwBell n = true) (hn : n < 31) :
    fwBellTake n s = raise2 113 n 0 (s.onHost fun h => { h with fwBell := clearBits h.fwBell (2 ^ n) }) := by
  simp only [fwBellTake, hmsgs, hbell, hn, Bool.not_true, Bool.or_self, Bool.false_eq_true, if_false, if_true]

theorem fwBellTake_reset {s : State} (hmsgs : takesMsgs s = true) (hbell : natBit s.host.fwBell 31 = true) :
    fwBellTake 31 s = s.onHost fun h => { h with fwBell := clearBits h.fwBell (2 ^ 31) } := by
  simp only [fwBellTake, hmsgs, hbell, Nat.lt_irrefl, Bool.not_true, Bool.or_self, Bool.false_eq_true, if_false]

theorem softRst_fenced {w : Nat} (hreset : natBit w 31 = true) (hfence : natBit w 0 = true) (s : State) :
    softRst w s = Machine.hostReset (s.onHost fun h => { h with fence := true }) := by
  simp only [softRst, hreset, hfence, Bool.or_true, if_true]

/-! The window into the hayloft (R362). -/

section Window

variable {off b : Nat} {s : State} (hb : b = s.host.pageNow * (8 * mib) + off)

include hb

theorem windowAccess_write {w : Word} (hallow : windowAllows s s.host.priv b true = true) (hctl : ctlBlockAt s b = none) :
    windowAccess off (some w) s = loftWrite b (leBytes 4 w.toNat) 1 s := by
  simp only [windowAccess, ← hb, Option.isSome_some, hallow, windowWrite, hctl, Bool.not_true, Bool.false_eq_true, if_false]

theorem windowAccess_read (hallow : windowAllows s s.host.priv b false = true) (hregion : regionOf s b ≠ 2) (hsound : (loftCheck b 4 1 s).1 = true) :
    windowAccess off none s = prefetch (b + 4) 1 (driveOut (windowWord (loftCheck b 4 1 s).2 b) (loftCheck b 4 1 s).2) := by
  have hregion' : (regionOf s b == 2) = false := by simpa using hregion
  simp only [windowAccess, ← hb, Option.isSome_none, hallow, hsound, hregion', Bool.not_true, Bool.false_eq_true, if_false]

end Window

theorem outboundHeldDeliver_first {ch : Nat} {m : OutMsg} {r : List OutMsg} {s : State} (hmsgs : takesMsgs s = true)
    (hfree : (mangOf s ch).outFull = false) (hheld : (mangOf s ch).held = m :: r) :
    outboundHeldDeliver ch s = commitOut ch m.words m.session (modMang ch (fun x => { x with held := r }) s) := by
  simp only [outboundHeldDeliver, hmsgs, hfree, hheld, Bool.not_true, Bool.or_self, Bool.false_eq_true, if_false]

/-! The host reset (R378). -/

theorem quiet_dropEvent (n cause : Nat) (s : State) : quiet (dropEvent n cause s) = quiet s := by
  unfold dropEvent
  split
  · rfl
  · exact quiet_raise _ _ _

theorem quiet_operEnd (was : Bool) (s : State) : quiet (operEnd was s) = quiet s := by
  unfold operEnd
  split
  · exact quiet_raise _ _ _
  · rfl

/-- What is outside the host side, and a host reset leaves. -/
def offHost (s : State) : Sys × Sec × Inaug := (s.sys, s.sec, s.inaug)

theorem offHost_releaseReads (s : State) : offHost (releaseReads s) = offHost s := by
  refine (each_keeps (fun p t => ?_) _ _).trans rfl
  unfold releaseRead
  split
  · rfl
  · rfl
  · split <;> rfl
  · rfl
  · rfl

theorem offHost_resetOut (chans : List Nat) (s : State) : offHost (each chans resetOut s) = offHost s := each_keeps (g := offHost) (f := resetOut) (fun _ _ => rfl) _ _

theorem offHost_fenceIn (chans : List Nat) (s : State) : offHost (each chans fenceIn s) = offHost s := by
  refine each_keeps (fun ch t => ?_) _ _
  unfold fenceIn
  split <;> rfl

/-- The messages that a host reset clears: those to the host, and with the fence set those to the firmware. -/
def cleared (s : State) : State :=
  if s.host.fence then each (List.range 10) fenceIn (each (List.range 10) resetOut (releaseReads s)) else each (List.range 10) resetOut (releaseReads s)

theorem offHost_cleared (s : State) : offHost (cleared s) = offHost s := by
  unfold cleared
  split
  · rw [offHost_fenceIn, offHost_resetOut, offHost_releaseReads]
  · rw [offHost_resetOut, offHost_releaseReads]

/-- The host side's own state after a host reset. -/
def hostCleared (s : State) : State :=
  ((cleared s).onHost fun h =>
    { h with
      session := 0, priv := .observe, scope := 0, operKey := 0, notify := 0
      dead := if s.host.session == 0 || h.dead.contains s.host.session then h.dead else s.host.session :: h.dead
      locks := h.locks.map fun o => if o == 1 then 0 else o
      proxies := []
      hostBell := 0, hostBellMask := 0, irqEn := 0, evMask := 0
      fwBell := h.fwBell ||| 2 ^ 31
      errLog := List.replicate 8 ErrEnt.reset, overflow := 0, page := 0, pageNow := 0
      prevTxn := TxnStat.clear, txn := TxnStat.clear, out := 0, nextAddr := none }).onCmd fun q =>
    { q with parcels := q.parcels.filter fun p => s.host.session == 0 || p.session != s.host.session }

/-- A host reset is that and the events that report it. -/
theorem quiet_hostReset (s : State) : quiet (Machine.hostReset s) = quiet (hostCleared s) := by
  simp only [Machine.hostReset]
  rw [quiet_raise, quiet_dropEvent, quiet_dropEvent, quiet_operEnd]
  rfl

/-- Settles O52: bells, interrupt bits, registers, the window into the hayloft, held messages, and the host reset. -/
theorem hostRegisters : Obligations.HostRegisters := by
  unfold Obligations.HostRegisters
  refine ⟨?_, ?_, ?_, ?_, ?_, ?_, ?_, ?_, ?_, ?_, ?_, ?_, ?_, ?_, ?_, ?_, ?_, ?_⟩
  · intro n s t ht hprov hok
    subst ht
    exact next_eq (rcRead_first hprov hok _)
  · intro n w s t ht hok
    subst ht
    exact next_eq (hostWord_ok hok _)
  · intro n w s t ht hok
    subst ht
    exact next_eq (hostWord_ok hok _)
  · exact fun n s hmsgs hbell hn => next_eq (fwBellTake_low hmsgs hbell hn)
  · exact fun s hmsgs hbell => next_eq (fwBellTake_reset hmsgs hbell)
  · intro n k w s t ht hok
    subst ht
    exact next_eq (hostWord_ok hok _)
  · intro n s t ht hok
    subst ht
    exact next_eq (hostWord_ok hok _)
  · intro n w s t ht hok
    subst ht
    exact next_eq (hostWord_ok hok _)
  · intro n w s t ht hok hreset hfence
    subst ht
    exact next_eq ((hostWord_ok hok _).trans (softRst_fenced hreset hfence _))
  · intro n w s t ht hok
    subst ht
    exact next_eq (hostWord_ok hok _)
  · intro n w s t ht hok
    subst ht
    exact next_eq (hostWord_ok hok _)
  · intro n a w s t ht hcomes hbus hmap halign hbarn hboot
    subst ht
    refine next_eq (hostWord_rejected hcomes hbus ?_ _)
    rw [rejects_txnState]
    exact rejects_unmapped hmap halign hbarn hboot
  · intro n off w s t b ht hb hok hallow hctl
    subst ht
    exact next_eq ((hostWord_ok hok _).trans (windowAccess_write hb hallow hctl))
  · intro n off s t b ht hb hok hallow hregion hsound _
    subst ht
    exact next_eq ((hostWord_ok hok _).trans (windowAccess_read hb hallow hregion hsound))
  · exact fun ch m r s hmsgs hfree hheld => next_eq (outboundHeldDeliver_first hmsgs hfree hheld)
  · intro s hdev
    have hdev' : (s.sys.dev == .off) = false := by simpa using hdev
    exact next_eq (by simp only [hostResetPin, hdev', Bool.false_eq_true, if_false])
  · intro s
    have hquiet := quiet_hostReset s
    have hctl := hostCtl_of_quiet hquiet
    simp only [hostCtl, Prod.mk.injEq] at hctl
    obtain ⟨hsession, hpriv, hirq, hoverflow, hpage, hproxies⟩ := hctl
    have hoff := offHost_cleared s
    simp only [offHost, Prod.mk.injEq] at hoff
    obtain ⟨hsys, hsec, hinaug⟩ := hoff
    exact ⟨hsession, hpriv, hirq, hoverflow, hpage, hproxies, (sys_of_quiet hquiet).trans hsys, (sec_of_quiet hquiet).trans hsec,
      (inaug_of_quiet hquiet).trans hinaug⟩
  · exact fun s => next_eq rfl

end Sys2Proof.Laws
end

section
/-!
The bridge to other cars: proxies, messages at the far car, and remote reads.
-/

namespace Sys2Proof.Laws

open Sys2Proof Sys2Proof.Machine

/-! Proxies (R373, R374). -/

theorem proxyCommit_reachable {k c far : Nat} {s : State} (hidle : (proxyOf s k c).st = .idle) (hfar : farCar s k = some far) :
    proxyCommit k c s = ctlSendIn s.inaug.epoch far (ctlPayload 1 (nextReq s) s.host.session s.host.priv.code (12 + c)
        (wordBytes ((proxyOf s k c).inMsg.take (msgWords (proxyOf s k c).inMsg))))
      (putProxy { proxyOf s k c with st := .sent, session := s.host.session, reqId := nextReq s, at_ := s.clk.c, far := far } (tookReq s)) := by
  simp only [proxyCommit, hidle, hfar, bne_self_eq_false, Bool.false_eq_true, if_false]

theorem proxyCommit_unreachable {k c : Nat} {s : State} (hidle : (proxyOf s k c).st = .idle) (hfar : farCar s k = none) :
    proxyCommit k c s = logError (proxyAddr k c 0x40) 1 0x0B (s.inaug.train * 64 + k) s := by
  simp only [proxyCommit, hidle, hfar, bne_self_eq_false, Bool.false_eq_true, if_false]

@[simp] theorem takenMsg_host (m : RxMsg) (s : State) : (takenMsg m s).host = s.host := rfl

@[simp] theorem takenMsg_brg (m : RxMsg) (s : State) : (takenMsg m s).brg = s.brg := rfl

theorem proxyWaiting_takenMsg (m : RxMsg) (s : State) (id : Nat) : proxyWaiting (takenMsg m s) id = proxyWaiting s id := rfl

theorem msgAccept_waiting {m : RxMsg} {p : Proxy} {s : State} (hfirst : firstMsg (isCtl 2) s = some m)
    (hp : proxyWaiting s (be m.payload 2 2) = some p) : msgAccept s = putProxy { p with st := .accepted } (takenMsg m s) := by
  refine (withCtl_first hfirst _).trans ?_
  simp only [proxyWaiting_takenMsg, hp]

theorem msgStatus_waiting {m : RxMsg} {p : Proxy} {s : State} (hfirst : firstMsg (isCtl 3) s = some m)
    (hp : proxyWaiting s (be m.payload 2 2) = some p) :
    msgStatus s = logError (proxyAddr p.k p.c 0x40) 1 (le m.payload 8 1) p.far (putProxy { p with st := .idle } (takenMsg m s)) := by
  refine (withCtl_first hfirst _).trans ?_
  simp only [proxyWaiting_takenMsg, hp]

theorem msgReply_waiting {m : RxMsg} {p : Proxy} {s : State} (hfirst : firstMsg (isCtl 4) s = some m)
    (hp : proxyWaiting s (be m.payload 2 2) = some p) :
    msgReply s = ringHost 30 (putProxy
      { p with
        st := .replied
        outMsg := bytesWords (m.payload.drop 8) ++ p.outMsg.drop (bytesWords (m.payload.drop 8)).length
        session := be m.payload 4 2 } (takenMsg m s)) := by
  refine (withCtl_first hfirst _).trans ?_
  simp only [proxyWaiting_takenMsg, hp]

theorem msgReply_ended {m : RxMsg} {s : State} (hfirst : firstMsg (isCtl 4) s = some m) (hp : proxyWaiting s (be m.payload 2 2) = none)
    (hsession : be m.payload 4 2 ≠ s.host.session) : msgReply s = dropEvent 1 4 (cntHost 5 (takenMsg m s)) := by
  have hsession' : (be m.payload 4 2 == s.host.session) = false := by simpa using hsession
  refine (withCtl_first hfirst _).trans ?_
  simp only [proxyWaiting_takenMsg, hp, takenMsg_host, hsession', Bool.false_eq_true, if_false]

/-! Messages at the far car (R374, R430). -/

theorem expectOf_takenMsg (m : RxMsg) (s : State) (origin : Nat) : expectOf (takenMsg m s) origin = expectOf s origin := rfl

/-- What MSG_COMMIT carries. -/
def msgOf (m : RxMsg) (s : State) : HeldCommit :=
  { origin := m.hdr.adm, sys := m.hdr.src, reqId := be m.payload 2 2, at_ := trainTime s, session := be m.payload 4 2,
    priv := be m.payload 6 1, win := be m.payload 7 1, words := bytesWords (m.payload.drop 8) }

section Commit

variable {m : RxMsg} {s : State} (hfirst : firstMsg (isCtl 1) s = some m)

include hfirst

theorem msgCommit_expected (hheld : s.brg.held = []) (hexpect : expectOf s m.hdr.adm = some (be m.payload 2 2)) :
    msgCommit s = commitFar (msgOf m s) ((takenMsg m s).onBrg fun b =>
      { b with expect := (m.hdr.adm, (be m.payload 2 2 + 1) % 65536) :: b.expect.filter fun x => x.1 != m.hdr.adm }) := by
  have hheld' : (takenMsg m s).brg.held = [] := hheld
  refine (withCtl_first hfirst _).trans ?_
  simp only [expectOf_takenMsg, hexpect, beq_self_eq_true, if_true, hheld', List.length_nil, drainCommits, actCommit, trainTime_takenMsg]
  refine congrArg (commitFar _) ?_
  simp only [State.onBrg, hheld', List.filter_nil]

theorem msgCommit_early {e : Nat} (hexpect : expectOf s m.hdr.adm = some e) (hne : e ≠ be m.payload 2 2)
    (hahead : (be m.payload 2 2 + 65536 - e) % 65536 < 32768) :
    msgCommit s = (takenMsg m s).onBrg fun b => { b with held := b.held ++ [msgOf m s] } := by
  have hne' : (e == be m.payload 2 2) = false := by simpa using hne
  refine (withCtl_first hfirst _).trans ?_
  simp only [expectOf_takenMsg, hexpect, hne', hahead, decide_true, Bool.false_eq_true, if_false, if_true, trainTime_takenMsg]
  rfl

theorem msgCommit_below {e : Nat} (hexpect : expectOf s m.hdr.adm = some e) (hbelow : 32768 ≤ (be m.payload 2 2 + 65536 - e) % 65536) :
    msgCommit s = cntStrm 11 (takenMsg m s) := by
  have hne : (e == be m.payload 2 2) = false := by
    rw [beq_eq_false_iff_ne]
    rintro rfl
    rw [Nat.add_sub_cancel_left, Nat.mod_self] at hbelow
    omega
  refine (withCtl_first hfirst _).trans ?_
  simp only [expectOf_takenMsg, hexpect, hne, Nat.not_lt.2 hbelow, decide_false, Bool.false_eq_true, if_false]

end Commit

section CommitFar

variable {h : HeldCommit} {p : Priv} {badge : Nat} {s : State} (hpriv : privOfCode h.priv = some p) (hbadge : carrierOfAdmit s h.origin = some badge)

include hpriv hbadge

theorem commitFar_full (hfull : (mangOf s h.win).inFull = true) : commitFar h s = msgAnswer h 1 s := by
  simp only [commitFar, hpriv, hbadge, hfull, if_true]

theorem commitFar_free (hfree : (mangOf s h.win).inFull = false) :
    commitFar h s = ctlSend h.sys (.accept h.win) (ctlPayload 2 h.reqId h.session 0 h.win [])
      ((commitIn h.win 3 h.session p (modMang h.win (fun m => { m with inMsg := h.words ++ m.inMsg.drop h.words.length }) s)).onBrg fun b =>
        { b with origin := b.origin ++ [{ ch := h.win, origin := h.sys, badge := badge, reqId := h.reqId, session := h.session }] }) := by
  simp only [commitFar, hpriv, hbadge, hfree, Bool.false_eq_true, if_false]

end CommitFar

theorem brgHeld_of_quiet {s t : State} (h : quiet t = quiet s) : t.brg.held = s.brg.held := by
  have e := congrArg (fun x : State => x.brg.held) h
  exact e

/-- Acting on a message puts none of those held aside, and none back. -/
theorem commitFar_held (h : HeldCommit) (s : State) : (commitFar h s).brg.held = s.brg.held := by
  unfold commitFar
  split
  · split
    · exact brgHeld_of_quiet (quiet_ctlSend _ _ _ _)
    · exact (brgHeld_of_quiet (quiet_ctlSend _ _ _ _)).trans rfl
  · exact brgHeld_of_quiet (quiet_ctlSend _ _ _ _)
  · exact brgHeld_of_quiet (quiet_ctlSend _ _ _ _)

theorem drainCommits_nothing {s : State} (h : s.brg.held = []) (origin n : Nat) : drainCommits origin n s = s := by
  cases n with
  | zero => rfl
  | succ n => simp only [drainCommits, h, List.find?_nil]

theorem actCommit_last {h : HeldCommit} {s : State} (hheld : s.brg.held = [h]) : (actCommit h s).brg.held = [] := by
  simp [actCommit, commitFar_held, hheld]

theorem firstHeld_only {h : HeldCommit} {s : State} (hheld : s.brg.held = [h]) : firstHeld h.origin s = some h := by
  simp only [firstHeld, hheld, List.filter_cons, beq_self_eq_true, if_true, List.filter_nil, List.foldl_cons, List.foldl_nil]

theorem msgCommitReorderExpiry_only {h : HeldCommit} {s : State} (hheld : s.brg.held = [h]) (hlate : h.at_ + pTransit s ≤ trainTime s) :
    msgCommitReorderExpiry s = actCommit h (cntStrm 11 s) := by
  have hfind : (s.brg.held.find? fun h => decide (h.at_ + pTransit s ≤ trainTime s)) = some h := by
    rw [hheld]
    exact List.find?_cons_of_pos (decide_eq_true hlate)
  have hheld' : (cntStrm 11 s).brg.held = [h] := hheld
  simp only [msgCommitReorderExpiry, hfind, firstHeld_only hheld, Option.getD_some]
  exact drainCommits_nothing (actCommit_last hheld') _ _

/-! Remote reads (R375, R431, R432). -/

/-- A burst is judged by its first word. -/
theorem hostWords_first {a cnt : Nat} {s : State} (h : wordOk true a s = true) (f : State → State) :
    Machine.hostWords true a cnt f s = f (openWords true a cnt s) := by
  obtain ⟨hcomes, -, hrej⟩ := wordOk_iff.1 h
  have hbus : (openWords true a cnt s).host.txn.bus = false := txnState_bus true a s
  have hrej' : rejects (openWords true a cnt s) a = none := by rw [← hrej]; rfl
  simp only [Machine.hostWords, hcomes, hbus, hrej', Bool.not_true, Bool.false_eq_true, if_false]

theorem openWords_rdBuf (a cnt : Nat) (s : State) : (openWords true a cnt s).host.rdBuf = s.host.rdBuf := by
  simp [openWords, beginTxn_host]

theorem rejectWords_zero (kind a : Nat) (s : State) : rejectWords kind a 0 s = s := by
  simp only [rejectWords, List.range_zero, List.replicate_zero, List.append_nil]
  rfl

/-- A burst that stays within the registers of a far car is one remote read. -/
theorem remoteRegisterRead_registers {k off cnt : Nat} {s : State} (hok : wordOk true (winAddr k off) s = true) (hoff : off < 0x40) (hpos : 0 < cnt)
    (hcnt : cnt ≤ (0x40 - off) / 4) : remoteRegisterRead true k off cnt s = remoteRead k off cnt (openWords true (winAddr k off) cnt s) := by
  have hlow : ¬ 0x1000 ≤ off := by omega
  have hpos' : (cnt == 0) = false := by rw [beq_eq_false_iff_ne]; omega
  simp only [remoteRegisterRead, hostWords_first hok, hlow, Nat.min_eq_left hcnt, hpos', Nat.sub_self, rejectWords_zero, Bool.false_eq_true, if_false]

section RemoteRead

variable {k off n : Nat} {s : State}

theorem remoteRead_idle (h : s.host.rdBuf = .idle) : remoteRead k off n s = remoteRetry n (remoteStart k off n s) := by
  simp only [remoteRead, h]

theorem remoteRead_data {ws : List Word} {a : Nat} (h : s.host.rdBuf = .data k off n ws a) :
    remoteRead k off n s = setRdBuf .idle (s.onHost fun h => { h with burst := ws, out := ws.getLastD 0 }) := by
  simp only [remoteRead, h, beq_self_eq_true, Bool.and_self, if_true]

theorem remoteRead_timedOut (h : s.host.rdBuf = .timedOut k off n) :
    remoteRead k off n s = rejectWords 3 (winAddr k off) n (setRdBuf .idle (s.onHost fun h => { h with burst := [] })) := by
  simp only [remoteRead, h, beq_self_eq_true, Bool.and_self, if_true]

end RemoteRead

theorem inboundReads_takenMsg (m : RxMsg) (s : State) : inboundReads (takenMsg m s) = inboundReads s := rfl

theorem readReq_room {m : RxMsg} {s : State} (hfirst : firstMsg (isCtl 5) s = some m) (hroom : inboundReads s < 16) :
    readReq s = ctlSend m.hdr.src .plain (ctlPayload 6 (be m.payload 2 2) (be m.payload 4 2) 0 0
      ((List.range (natBits (le m.payload 8 4) 20 16)).flatMap fun i => leBytes 4 (idReg (takenMsg m s) (le m.payload 8 4 % 65536 + 4 * i))))
      (takenMsg m s) := by
  refine (withCtl_first hfirst _).trans ?_
  simp only [inboundReads_takenMsg, Nat.not_le.2 hroom, if_false]

section Answer

variable {m : RxMsg} {k off n id far : Nat} {a : Option Nat} {s : State} (hbuf : s.host.rdBuf = .waiting k off n id a far) (hid : id = be m.payload 2 2)

include hbuf hid

theorem readData_waiting (hfirst : firstMsg (isCtl 6) s = some m) :
    readData s = setRdBuf (.data k off n (bytesWords (m.payload.drop 8)) s.clk.c) (takenMsg m s) := by
  refine (withCtl_first hfirst _).trans ?_
  simp only [takenMsg_host, hbuf, hid, beq_self_eq_true, if_true]
  rfl

theorem readStatus_waiting (hfirst : firstMsg (isCtl 7) s = some m) :
    readStatus s = logError (winAddr k off) 1 (le m.payload 8 1) far (setRdBuf .idle (takenMsg m s)) := by
  refine (withCtl_first hfirst _).trans ?_
  simp only [takenMsg_host, hbuf, hid, beq_self_eq_true, if_true]

end Answer

/-- Settles O53: proxies, the messages of their commits at both cars, and remote reads. -/
theorem bridge : Obligations.Bridge := by
  unfold Obligations.Bridge
  refine ⟨?_, ?_, ?_, ?_, ?_, ?_, ?_, ?_, ?_, ?_, ?_, ?_, ?_, ?_, ?_, ?_, ?_, ?_, ?_, ?_⟩
  · intro n k c s t far ht hok hidle hfar
    subst ht
    exact next_eq ((hostWord_ok hok _).trans (proxyCommit_reachable hidle hfar))
  · intro n k c s t ht hok hidle hfar
    subst ht
    exact next_eq ((hostWord_ok hok _).trans (proxyCommit_unreachable hidle hfar))
  · intro n k c s t ht hprov hok
    subst ht
    exact next_eq (rcRead_whole hprov hok _)
  · intro k c s hsent hlate
    exact next_eq (by simp only [proxyNoAnswer, hsent, hlate, beq_self_eq_true, decide_true, Bool.and_self, if_true])
  · exact fun m p s hfirst hp => next_eq (msgAccept_waiting hfirst hp)
  · exact fun m p s hfirst hp => next_eq (msgStatus_waiting hfirst hp)
  · exact fun m p s hfirst hp => next_eq (msgReply_waiting hfirst hp)
  · exact fun m s hfirst hp hsession => next_eq (msgReply_ended hfirst hp hsession)
  · intro m h s hfirst hheld hh
    subst hh
    exact ⟨fun hexpect => next_eq (msgCommit_expected hfirst hheld hexpect), fun e hexpect hne hahead => next_eq (msgCommit_early hfirst hexpect hne hahead),
      fun e hexpect hbelow => next_eq (msgCommit_below hfirst hexpect hbelow)⟩
  · exact fun p badge h s hpriv hbadge hfull => commitFar_full hpriv hbadge hfull
  · exact fun p badge h s hpriv hbadge hfree => commitFar_free hpriv hbadge hfree
  · exact fun h s hheld hlate => ⟨_, next_eq (msgCommitReorderExpiry_only hheld hlate), rfl⟩
  · intro k off cnt s t ht hok hoff hpos hcnt hbuf
    subst ht
    exact next_eq ((remoteRegisterRead_registers hok hoff hpos hcnt).trans (remoteRead_idle (by rw [openWords_rdBuf, hbuf])))
  · intro k off cnt ws a s t ht hok hoff hpos hcnt hbuf
    subst ht
    exact next_eq ((remoteRegisterRead_registers hok hoff hpos hcnt).trans (remoteRead_data (by rw [openWords_rdBuf, hbuf])))
  · intro k off cnt s t ht hok hoff hpos hcnt hbuf
    subst ht
    exact next_eq ((remoteRegisterRead_registers hok hoff hpos hcnt).trans (remoteRead_timedOut (by rw [openWords_rdBuf, hbuf])))
  · exact fun m s hfirst hroom => next_eq (readReq_room hfirst hroom)
  · exact fun m k off n id a far s hfirst hbuf hid => next_eq (readData_waiting hbuf hid hfirst)
  · exact fun m k off n id a far s hfirst hbuf hid => next_eq (readStatus_waiting hbuf hid hfirst)
  · intro k off n id t far s hbuf hlate
    exact next_eq (by simp only [remoteReadTimeout, hbuf, hlate, if_true])
  · intro k off n ws t s hbuf hlate
    exact next_eq (by simp only [remoteReadDataDiscard, hbuf, hlate, if_true])

end Sys2Proof.Laws
end

section
/-!
The stream port: the states of its directions, credits, the frames that leave, the frames of its channels, its session and its commands.
-/

namespace Sys2Proof.Laws

open Sys2Proof Sys2Proof.Machine

/-! Directions (R416, R417). -/

/-- The states of both directions, and the credits that the port has given. -/
def links (s : State) : LinkSt × LinkSt × Nat := (s.strm.si, s.strm.so, s.strm.crdOut)

theorem links_of_quiet {s t : State} (h : quiet t = quiet s) : links t = links s := by
  have e := congrArg links h
  exact e

theorem links_setLink_in (l : LinkSt) (s : State) : links (setLink true l s) = (l, s.strm.so, s.strm.crdOut) := by
  unfold setLink
  by_cases h : s.strm.si == l
  · have h' : s.strm.si = l := by simpa using h
    simp only [if_true, h', beq_self_eq_true, links]
  · simp only [if_true, h, Bool.false_eq_true, if_false]
    exact (links_of_quiet (quiet_raise2 _ _ _ _)).trans rfl

theorem links_setLink_out (l : LinkSt) (s : State) : links (setLink false l s) = (s.strm.si, l, s.strm.crdOut) := by
  unfold setLink
  by_cases h : s.strm.so == l
  · have h' : s.strm.so = l := by simpa using h
    simp only [Bool.false_eq_true, if_false, h', beq_self_eq_true, if_true, links]
  · simp only [h, Bool.false_eq_true, if_false]
    exact (links_of_quiet (quiet_raise2 _ _ _ _)).trans rfl

theorem dropCurrent_idle {s : State} (h : s.strm.cur = none) : dropCurrent s = s := by simp only [dropCurrent, h]

theorem dropCurrent_frame {f : SFrame} {s : State} (h : s.strm.cur = some f) (hch : ¬(32 ≤ f.ch ∧ f.ch ≤ 47)) :
    dropCurrent s = s.onStrm fun t => { t with cur := none, curLeft := 0, cfg := t.cfgNext.getD t.cfg, cfgNext := none } := by
  simp only [dropCurrent, h, hch, if_false]

theorem dropCurrent_sentence {f : SFrame} {s : State} (h : s.strm.cur = some f) (hch : 32 ≤ f.ch ∧ f.ch ≤ 47) :
    dropCurrent s = modLq (f.ch - 16) (fun l => { l with emitting := none })
      (s.onStrm fun t => { t with cur := none, curLeft := 0, cfg := t.cfgNext.getD t.cfg, cfgNext := none }) := by
  simp only [dropCurrent, h, hch, and_self, if_true]

theorem links_dropCurrent (s : State) : links (dropCurrent s) = links s := by
  cases h : s.strm.cur with
  | none => rw [dropCurrent_idle h]
  | some f =>
    by_cases hch : 32 ≤ f.ch ∧ f.ch ≤ 47
    · rw [dropCurrent_sentence h hch]; rfl
    · rw [dropCurrent_frame h hch]; rfl

theorem dropCurrent_curLeft (s : State) : (dropCurrent s).strm.curLeft = if s.strm.cur = none then s.strm.curLeft else 0 := by
  cases h : s.strm.cur with
  | none => rw [dropCurrent_idle h, if_pos rfl]
  | some f =>
    rw [if_neg (Option.some_ne_none f)]
    by_cases hch : 32 ≤ f.ch ∧ f.ch ≤ 47
    · rw [dropCurrent_sentence h hch]; rfl
    · rw [dropCurrent_frame h hch]; rfl

theorem links_strmRestart_in (s : State) : links (strmRestart true s) = (s.strm.si, s.strm.so, 32) := rfl

theorem links_strmRestart_out (s : State) : links (strmRestart false s) = links s := links_dropCurrent s

theorem links_noteStarve (s : State) : links (noteStarve s) = links s := by
  unfold noteStarve strmWait
  split
  · split <;> rfl
  · rfl

/-- A port that is not driven is DOWN in both directions. -/
theorem strmDir_out_undriven {s : State} (h : strmLive s = false) : (strmDir false s).strm.si = s.strm.si ∧ (strmDir false s).strm.so = .down := by
  have hlinks : links (strmDir false s) = (s.strm.si, .down, s.strm.crdOut) := by
    by_cases hdown : s.strm.so == .down
    · have hdown' : s.strm.so = .down := by simpa using hdown
      simp [strmDir, h, links, hdown']
    · have hbody : strmDir false s = setLink false .down (strmRestart false s) := by simp [strmDir, h, hdown]
      have hdrop := links_strmRestart_out s
      simp only [links, Prod.mk.injEq] at hdrop
      rw [hbody, links_setLink_out, hdrop.1, hdrop.2.2]
  simp only [links, Prod.mk.injEq] at hlinks
  exact ⟨hlinks.1, hlinks.2.1⟩

theorem strmDir_in_undriven {s : State} (h : strmLive s = false) : (strmDir true s).strm.si = .down ∧ (strmDir true s).strm.so = s.strm.so := by
  by_cases hdown : s.strm.si == .down
  · have hdown' : s.strm.si = .down := by simpa using hdown
    have hbody : strmDir true s = s := by simp [strmDir, h, hdown']
    rw [hbody]
    exact ⟨hdown', rfl⟩
  · have hbody : strmDir true s = setLink true .down (strmRestart true s) := by simp [strmDir, h, hdown]
    have hlinks := links_setLink_in .down (strmRestart true s)
    rw [← hbody] at hlinks
    simp only [links, Prod.mk.injEq] at hlinks
    exact ⟨hlinks.1, hlinks.2.1⟩

theorem fwRuns_congr {s t : State} (h : t.sys = s.sys) : fwRuns t = fwRuns s := by simp only [fwRuns, h]

theorem strmLive_stopped {s : State} (h : fwRuns s = false) : strmLive s = false := by simp only [strmLive, h, Bool.false_and]

theorem strmSettle_undriven {s : State} (h : fwRuns s = false) :
    (strmSettle s).strm.si = .down ∧ (strmSettle s).strm.so = .down ∧ (strmSettle s).strm.starved = none := by
  have hout : fwRuns (strmDir false s) = false := (fwRuns_congr (sys_strmDir false s)).trans h
  have hin : fwRuns (strmDir true (strmDir false s)) = false := (fwRuns_congr (sys_strmDir true _)).trans hout
  obtain ⟨-, hso⟩ := strmDir_out_undriven (strmLive_stopped h)
  obtain ⟨hsi, hkept⟩ := strmDir_in_undriven (strmLive_stopped hout)
  simp only [strmSettle, strmLive_stopped hin, Bool.false_eq_true, if_false]
  exact ⟨hsi, hkept.trans hso, rfl⟩

/-- SI of a live port enters TRAINING with its clock, and its credits begin anew. -/
theorem strmSettle_training {s : State} (hlive : strmLive s = true) (hclk : s.strm.siClk = true) (hdown : s.strm.si = .down) :
    (strmSettle s).strm.si = .training ∧ (strmSettle s).strm.crdOut = 32 := by
  have hout : strmDir false s = s := by simp [strmDir, hlive]
  have hin : strmDir true s = setLink true .training (strmRestart true s) := by simp [strmDir, hlive, hclk, hdown]
  have hlinks : links (strmSettle s) = (.training, s.strm.so, 32) := by
    simp only [strmSettle, hout, hin]
    split
    · rw [links_noteStarve, links_setLink_in]; rfl
    · exact (links_setLink_in .training (strmRestart true s)).trans rfl
  simp only [links, Prod.mk.injEq] at hlinks
  exact ⟨hlinks.1, hlinks.2.2⟩

section Clock

variable {inw present : Bool} {s t : State} (ht : t = if inw then s.onStrm fun t => { t with siClk := present } else s)

include ht

theorem clocked_strmLive : strmLive t = strmLive s := by
  subst ht
  cases inw <;> rfl

theorem clocked_dir : (if inw then t.strm.si else t.strm.so) = if inw then s.strm.si else s.strm.so := by
  subst ht
  cases inw <;> rfl

theorem streamClockChange_undriven (hlive : strmLive s = false) : streamClockChange inw present s = t := by
  simp only [streamClockChange, ← ht, clocked_strmLive ht, hlive, Bool.not_false, if_true]

theorem streamClockChange_lost (hlive : strmLive s = true) (hlost : present = false) :
    streamClockChange inw present s = strmSettle (setLink inw .down (strmRestart inw t)) := by
  subst hlost
  simp only [streamClockChange, ← ht, clocked_strmLive ht, hlive, Bool.not_true, Bool.not_false, Bool.false_eq_true, if_false, if_true]

theorem streamClockChange_found (hlive : strmLive s = true) (hfound : present = true) (hdown : (if inw then s.strm.si else s.strm.so) = .down) :
    streamClockChange inw present s = strmSettle (setLink inw .training (strmRestart inw t)) := by
  subst hfound
  simp only [streamClockChange, ← ht, clocked_strmLive ht, clocked_dir ht, hlive, hdown, beq_self_eq_true, Bool.not_true, Bool.false_eq_true,
    if_false, if_true]

theorem streamClockChange_kept (hlive : strmLive s = true) (hfound : present = true) (hup : (if inw then s.strm.si else s.strm.so) ≠ .down) :
    streamClockChange inw present s = t := by
  subst hfound
  have hup' : ((if inw then s.strm.si else s.strm.so) == .down) = false := by simpa using hup
  simp only [streamClockChange, ← ht, clocked_strmLive ht, clocked_dir ht, hlive, hup', Bool.not_true, Bool.false_eq_true, if_false]

end Clock

/-! Credits and sending (R418, R419, R424, R426). -/

theorem creditTransition_late {s : State} (hlive : strmLive s = true) (hlate : ∀ t, s.strm.crdAt = some t → t + 128 ≤ 10 * s.clk.c) :
    creditTransition s = s.onStrm fun t => { t with credits := min 32 (t.credits + 1), crdAt := some (10 * s.clk.c), starved := none } := by
  cases h : s.strm.crdAt with
  | none => simp only [creditTransition, hlive, h, Bool.and_self, if_true]
  | some t => simp only [creditTransition, hlive, h, hlate t h, decide_true, Bool.and_self, if_true]

theorem creditTransition_early {t : Nat} {s : State} (hlive : strmLive s = true) (h : s.strm.crdAt = some t) (hearly : 10 * s.clk.c < t + 128) :
    creditTransition s = s := by
  simp only [creditTransition, hlive, h, Nat.not_le.2 hearly, decide_false, Bool.and_false, Bool.false_eq_true, if_false]

theorem noteStarve_starts {s : State} (hpending : strmPending s = true) (hcredits : s.strm.credits = 0) (hstarved : s.strm.starved = none) :
    (noteStarve s).strm.starved = some s.clk.c := by
  simp [noteStarve, strmWait, hpending, hcredits, hstarved]

section Send

variable {f : SFrame} {s : State} (hlive : strmLive s = true) (hup : s.strm.so = .up) (hcredits : s.strm.credits ≠ 0)

include hlive hup hcredits

theorem streamFrameSend_starts (hcur : s.strm.cur = none) (hnext : (sendOrder s).findSome? (frameOn s) = some f) :
    streamFrameSend s = noteStarve (startFrame f s) := by
  have hcredits' : (s.strm.credits == 0) = false := by simpa using hcredits
  simp only [streamFrameSend, hlive, hup, hcredits', hcur, hnext, bne_self_eq_false, Bool.not_true, Bool.or_self, Bool.false_eq_true, if_false]

theorem streamFrameSend_continues (hcur : s.strm.cur = some f) (hleft : s.strm.curLeft ≠ 0) :
    streamFrameSend s = noteStarve (s.onStrm fun t => { t with curLeft := t.curLeft - 1, credits := t.credits - 1 }) := by
  have hcredits' : (s.strm.credits == 0) = false := by simpa using hcredits
  have hleft' : (s.strm.curLeft == 0) = false := by simpa using hleft
  simp only [streamFrameSend, hlive, hup, hcredits', hcur, hleft', bne_self_eq_false, Bool.not_true, Bool.or_self, Bool.false_eq_true, if_false]

end Send

theorem streamFrameEnd_message {f : SFrame} {s : State} (hcur : s.strm.cur = some f) (hleft : s.strm.curLeft = 0) (hch : f.ch = 60 ∨ f.ch = 61) :
    streamFrameEnd s = strmSettle (modMang (f.ch - 50) (fun m => { m with outFull := false, outSender := 0, outSession := 0 })
      (cntStrm 1 (s.onStrm fun t => { t with cur := none, cfg := t.cfgNext.getD t.cfg, cfgNext := none, lastFrame := sframeBytes f }))) := by
  have hmsg : (f.ch == 60 || f.ch == 61) = true := by simpa using hch
  have hev : (f.ch == 48) = false := by rw [beq_eq_false_iff_ne]; omega
  simp only [streamFrameEnd, hcur, hleft, hmsg, hev, bne_self_eq_false, Bool.false_eq_true, if_false, if_true]

theorem streamFrameEnd_events {f : SFrame} {s : State} (hcur : s.strm.cur = some f) (hleft : s.strm.curLeft = 0) (hch : f.ch = 48) :
    streamFrameEnd s = strmSettle (cntEvBy 5 f.param
      (cntStrm 1 (s.onStrm fun t => { t with cur := none, cfg := t.cfgNext.getD t.cfg, cfgNext := none, lastFrame := sframeBytes f }))) := by
  have hmsg : (f.ch == 60 || f.ch == 61) = false := by simp [hch]
  have hsentence : ¬(32 ≤ f.ch ∧ f.ch ≤ 47) := by omega
  have hev : (f.ch == 48) = true := by simpa using hch
  simp only [streamFrameEnd, hcur, hleft, hmsg, hsentence, hev, bne_self_eq_false, Bool.false_eq_true, if_false, if_true]

theorem strmApply_idle {s : State} (r : List Word) (h : s.strm.cur = none) :
    strmApply r s = strmSettle (s.onStrm fun t => { t with cfg := r, cfgNext := none }) := by
  simp only [strmApply, h, Bool.false_eq_true, if_false]

/-! Frames that arrive (R420, R421, R425). -/

/-- The note of a SEQ changes the port's own account and its counters alone. -/
theorem noteSeq_eq (f : SHdr) (s : State) : ∃ g : Ctrs → Ctrs, noteSeq f s
    = ((giveCredits f s).onStrm fun t => { t with rxSeq := (f.ch, (f.seq + 1) % 65536) :: t.rxSeq.filter fun x => x.1 != f.ch }).onCtr g := by
  unfold noteSeq
  simp only
  split
  · exact ⟨id, rfl⟩
  · exact ⟨fun c => { c with strm := bumpBy 4 1 c.strm }, rfl⟩

section NoteSeq

variable (f : SHdr) (s : State)

theorem noteSeq_sent : (noteSeq f s).sent = s.sent := by
  obtain ⟨g, hg⟩ := noteSeq_eq f s
  rw [hg]; rfl

theorem noteSeq_yard : (noteSeq f s).yard = s.yard := by
  obtain ⟨g, hg⟩ := noteSeq_eq f s
  rw [hg]; rfl

theorem noteSeq_host : (noteSeq f s).host = s.host := by
  obtain ⟨g, hg⟩ := noteSeq_eq f s
  rw [hg]; rfl

theorem noteSeq_sys : (noteSeq f s).sys = s.sys := by
  obtain ⟨g, hg⟩ := noteSeq_eq f s
  rw [hg]; rfl

theorem noteSeq_inaug : (noteSeq f s).inaug = s.inaug := by
  obtain ⟨g, hg⟩ := noteSeq_eq f s
  rw [hg]; rfl

theorem noteSeq_session : (noteSeq f s).strm.session = s.strm.session ∧ (noteSeq f s).strm.priv = s.strm.priv := by
  obtain ⟨g, hg⟩ := noteSeq_eq f s
  rw [hg]; exact ⟨rfl, rfl⟩

theorem noteSeq_rxSeq : (noteSeq f s).strm.rxSeq = (f.ch, (f.seq + 1) % 65536) :: s.strm.rxSeq.filter fun x => x.1 != f.ch := by
  obtain ⟨g, hg⟩ := noteSeq_eq f s
  rw [hg]; rfl

theorem mangOf_noteSeq (ch : Nat) : mangOf (noteSeq f s) ch = mangOf s ch := by simp only [mangOf, noteSeq_host]

theorem onTrain_noteSeq : onTrain (noteSeq f s) = onTrain s := by simp only [onTrain, noteSeq_sys]

theorem admitted_noteSeq : admitted (noteSeq f s) = admitted s := by simp only [admitted, noteSeq_inaug]

end NoteSeq

section Inbound

variable {f : SHdr} {p : List Byte} {s : State} (hlive : strmLive s = true) (hup : s.strm.si = .up)

include hlive hup

/-- A frame that passes the checks common to every channel is its own channel's. -/
theorem strmIn_accepts {own : Nat → Bool} {type minLen : Nat} {param0 : Bool} (hen : strmEnabled s f.ch = true) (hrsv : f.rsv = 0)
    (hlen : f.len = p.length) (hmax : f.len ≤ 16384) (hown : own f.ch = true) (hch : f.ch ≠ 63) (htype : f.type = type) (hmin : minLen ≤ f.len)
    (hparam : (param0 && f.param != 0) = false) (body : SHdr → List Byte → State → State) :
    strmIn own type minLen param0 body f p true s = body f p (noteSeq f s) := by
  have hch' : (f.ch == 63) = false := by simpa using hch
  have hlen' : (f.len != p.length) = false := by rw [hlen, bne_self_eq_false]
  simp only [strmIn, hlive, hup, hen, hrsv, hown, hch', htype, hlen', hparam, Nat.not_lt.2 hmin, Nat.not_lt.2 hmax, bne_self_eq_false, decide_false,
    Bool.not_true, Bool.and_false, Bool.false_and, Bool.or_self, Bool.false_eq_true, if_false]

/-- A frame whose CRC is wrong gives its credits back, and is refused. -/
theorem strmIn_crc {own : Nat → Bool} (hown : own f.ch = true) (type minLen : Nat) (param0 : Bool) (body : SHdr → List Byte → State → State) :
    strmIn own type minLen param0 body f p false s
      = strmStatus f.ch 0 0x0C 0 (raiseFirst 11801 118 (f.ch * 256 + 1) (cntStrm 2 (giveCredits f s))) := by
  simp only [strmIn, hlive, hup, hown, bne_self_eq_false, Bool.not_true, Bool.not_false, Bool.and_false, Bool.or_self, Bool.false_eq_true, if_false, if_true]

variable (hen : strmEnabled s f.ch = true) (hrsv : f.rsv = 0) (hlen : f.len = p.length) (hmax : f.len ≤ 16384)

include hen hrsv hlen hmax

theorem streamSubmit_items (hch : f.ch < 32) (htype : f.type = 1) (hparam : f.param = 0) (hitems : (parseItems p.length p).2 = true)
    (hpriv : strmOperate (noteSeq f s) = true) (htalker : tkEnable (s.sent.talkers.getD (16 + f.ch) []) = true) :
    streamSubmit f p true s = strmAccept (submitAll (16 + f.ch) (parseItems p.length p).1 (noteSeq f s)) := by
  refine (strmIn_accepts hlive hup hen hrsv hlen hmax (decide_eq_true hch) (by omega) htype (Nat.zero_le _) (by rw [hparam]; rfl) _).trans ?_
  simp only [hitems, hpriv, noteSeq_sent, htalker, Bool.not_true, Bool.false_eq_true, if_false]

theorem streamHostIn_sends (hlow : 52 ≤ f.ch) (hhigh : f.ch ≤ 55) (htype : f.type = 5) (hmin : 4 ≤ f.len) (hparam : f.param = 0) (hfit : p.length ≤ 1996)
    (hfrom : 52 ≤ natBits (le p 0 4) 29 24) (hto : natBits (le p 0 4) 29 24 ≤ 55) (h30 : natBit (le p 0 4) 30 = false)
    (hzero : natBits (le p 0 4) 23 14 = 0) (hpriv : strmOperate (noteSeq f s) = true) (htrain : onTrain s = true) (hadm : admitted s = true) :
    streamHostIn f p true s = strmAccept (trainSend (hostFrame (noteSeq f s) (le p 0 4) (p.drop 4)) (noteSeq f s)) := by
  have hown : (decide (52 ≤ f.ch) && decide (f.ch ≤ 55)) = true := by simp [hlow, hhigh]
  refine (strmIn_accepts hlive hup hen hrsv hlen hmax hown (by omega) htype hmin (by rw [hparam]; rfl) _).trans ?_
  simp only [Nat.not_lt.2 hfit, Nat.not_lt.2 hfrom, Nat.not_lt.2 hto, h30, hzero, hpriv, onTrain_noteSeq, admitted_noteSeq, htrain, hadm,
    bne_self_eq_false, decide_false, Bool.and_self, Bool.not_true, Bool.or_self, Bool.false_eq_true, if_false]

theorem streamYardIn_sends (hch : f.ch = 56) (htype : f.type = 6) (hmin : 14 ≤ f.len) (hparam : f.param ≤ 5) (hpriv : strmOperate (noteSeq f s) = true)
    (hlink : s.yard.link = true) : streamYardIn f p true s = strmAccept (rawSend f.param p (noteSeq f s)) := by
  refine (strmIn_accepts hlive hup hen hrsv hlen hmax (by rw [hch]; rfl) (by omega) htype hmin rfl _).trans ?_
  simp only [Nat.not_lt.2 hparam, hpriv, noteSeq_yard, hlink, Bool.not_true, Bool.false_eq_true, if_false]

theorem dmaWrite_pieces (hch : f.ch = 58) (htype : f.type = 7) (hmin : 5 ≤ f.len) (hparam : f.param = 0) (halign : le p 0 4 % 4 = 0) :
    dmaWrite f p true s = dmaWriteAll f (p.drop 4) (le p 0 4) (dmaPieces (le p 0 4) (p.length - 4)) (noteCuts (le p 0 4) (p.length - 4) (noteSeq f s)) := by
  refine (strmIn_accepts hlive hup hen hrsv hlen hmax (by rw [hch]; rfl) (by omega) htype hmin (by rw [hparam]; rfl) _).trans ?_
  simp only [halign, bne_self_eq_false, Bool.false_eq_true, if_false]

theorem dmaRead_data {d : List Byte} {u : State} (hch : f.ch = 59) (htype : f.type = 8) (height : p.length = 8) (hparam : f.param = 0)
    (halign : le p 0 4 % 4 = 0) (hwords : le p 4 4 % 4 = 0) (hlow : 4 ≤ le p 4 4) (hhigh : le p 4 4 ≤ 16384) (hfew : dmaReads (noteSeq f s) < 4)
    (hread : dmaReadAll (dmaPieces (le p 0 4) (le p 4 4)) [] (noteCuts (le p 0 4) (le p 4 4) (noteSeq f s)) = (.inl d, u)) :
    dmaRead f p true s = strmPush { ch := 59, seq := 0, param := f.seq, payload := d } (strmAccept (prefetch (le p 0 4 + le p 4 4) 2 u)) := by
  refine (strmIn_accepts hlive hup hen hrsv hlen hmax (by rw [hch]; rfl) (by omega) htype (by omega) (by rw [hparam]; rfl) _).trans ?_
  simp only [height, halign, hwords, Nat.not_lt.2 hlow, Nat.not_lt.2 hhigh, Nat.not_le.2 hfew, hread, bne_self_eq_false, decide_false, Bool.or_self,
    Bool.false_eq_true, if_false]

theorem streamMessageIn_own (hch : f.ch = 60 ∨ f.ch = 61) (htype : f.type = 9) (hmin : 4 ≤ f.len) (hwords : f.len % 4 = 0) (hfit : f.len ≤ 64)
    (hsome : f.param ≠ 0) (hown : f.param = s.strm.session) (hfree : (mangOf s (f.ch - 50)).inFull = false) :
    streamMessageIn f p true s = strmAccept (commitIn (f.ch - 50) 2 f.param s.strm.priv
      (modMang (f.ch - 50) (fun m => { m with inMsg := bytesWords p ++ m.inMsg.drop (bytesWords p).length }) (noteSeq f s))) := by
  obtain ⟨hsession, hpriv⟩ := noteSeq_session f s
  have hch' : (f.ch == 60 || f.ch == 61) = true := by simpa using hch
  have hown' : (f.param != 0 && f.param == (noteSeq f s).strm.session) = true := by rw [hsession, ← hown]; simpa using hsome
  rw [hlen] at hwords hfit
  refine (strmIn_accepts hlive hup hen hrsv hlen hmax hch' (by omega) htype hmin rfl _).trans ?_
  simp only [hwords, Nat.not_lt.2 hfit, hown', mangOf_noteSeq, hfree, hpriv, bne_self_eq_false, decide_false, Bool.not_true, Bool.false_and, Bool.or_self,
    Bool.false_eq_true, if_false, if_true]

end Inbound

/-! The stream session (R424). -/

/-- What the end of a session keeps of the host side and of the system. -/
def hostKept (s : State) : Nat × Nat × List Nat × Sys := (s.host.session, s.host.fwBell, s.host.dead, s.sys)

theorem hostKept_resetOut (chans : List Nat) (s : State) : hostKept (each chans resetOut s) = hostKept s :=
  each_keeps (g := hostKept) (f := resetOut) (fun _ _ => rfl) _ _

theorem hostKept_fenceIn (chans : List Nat) (s : State) : hostKept (each chans fenceIn s) = hostKept s := by
  refine each_keeps (fun ch t => ?_) _ _
  unfold fenceIn
  split <;> rfl

theorem hostKept_of_quiet {s t : State} (h : quiet t = quiet s) : hostKept t = hostKept s := by
  have e := congrArg hostKept h
  exact e

/-- The end of a stream session, whose messages have been cleared (R380, R424). -/
def sessionEnded (old : Nat) (s : State) : State :=
  ((s.onStrm fun t => { t with session := 0, priv := .observe, scope := 0, operKey := 0 }).onHost fun h =>
    { h with
      dead := if h.dead.contains old then h.dead else old :: h.dead
      locks := h.locks.map fun o => if o == 2 then 0 else o
      fwBell := h.fwBell ||| 2 ^ 31 }).onCmd fun q => { q with parcels := q.parcels.filter fun p => p.session != old }

theorem contains_noted (n : Nat) (l : List Nat) : (if l.contains n then l else n :: l).contains n = true := by
  by_cases h : l.contains n = true
  · rw [if_pos h, h]
  · rw [if_neg h, List.contains_cons, beq_self_eq_true, Bool.true_or]

theorem sessionEnded_strm (old : Nat) (s : State) : (sessionEnded old s).strm.session = 0 ∧ (sessionEnded old s).strm.priv = .observe := ⟨rfl, rfl⟩

theorem hostKept_sessionEnded (old : Nat) (s : State) : hostKept (sessionEnded old s)
    = (s.host.session, s.host.fwBell ||| 2 ^ 31, (if s.host.dead.contains old then s.host.dead else old :: s.host.dead), s.sys) := rfl

/-- The messages of the stream session's two channels are cleared. -/
def strmCleared (s : State) : State := each [10, 11] fenceIn (each [10, 11] resetOut s)

theorem hostKept_strmCleared (s : State) : hostKept (strmCleared s) = hostKept s := by rw [strmCleared, hostKept_fenceIn, hostKept_resetOut]

theorem quiet_streamSessionTimeout {s : State} (hsession : s.strm.session ≠ 0) (hdown : s.strm.si ≠ .up)
    (hlate : s.strm.siDownAt + 10000000000 ≤ s.clk.c) : quiet (streamSessionTimeout s) = quiet (sessionEnded s.strm.session (strmCleared s)) := by
  have hsession' : (s.strm.session == 0) = false := by simpa using hsession
  have hdown' : (s.strm.si == .up) = false := by simpa using hdown
  simp only [streamSessionTimeout, hsession', hdown', Nat.not_lt.2 hlate, decide_false, Bool.or_self, Bool.false_eq_true, if_false]
  rw [quiet_raise, quiet_dropEvent, quiet_dropEvent, quiet_operEnd, sessionEnded, strmCleared]

/-- What the stream session's privilege rests on. -/
def strmRights (s : State) : Nat × Priv := (s.strm.session, s.strm.priv)

theorem strmRights_of_quiet {s t : State} (h : quiet t = quiet s) : strmRights t = strmRights s := by
  have e := congrArg strmRights h
  exact e

theorem cmdStreamSet_applies {c : Ctx} {s : State} (hsize : wd c.words 2 = 16) (hparcel : parcelOk 1 c s = true) (hread : (parcelRead 1 c s).1 = true)
    (hcheck : strmCheck (bytesWords (parcelBytes 1 c s)) = none) :
    cmdStreamSet c s = replyOk c [] (strmApply (bytesWords (parcelBytes 1 c s)) (parcelRead 1 c s).2) := by
  simp only [cmdStreamSet, hsize, bne_self_eq_false, Bool.false_eq_true, if_false]
  rw [readParcel_ok hparcel hread]
  simp only [hcheck]

/-- Settles O54: the directions, the credits, the frames sent and received, the session, and the two commands. -/
theorem stream : Obligations.Stream := by
  unfold Obligations.Stream
  refine ⟨?_, ?_, ?_, ?_, ?_, ?_, ?_, ?_, ?_, ?_, ?_, ?_, ?_, ?_, ?_, ?_, ?_, ?_, ?_, ?_, ?_, ?_, ?_, ?_, ?_⟩
  · intro inw present s t ht
    exact ⟨fun hlive => next_eq (streamClockChange_undriven ht hlive), fun hlive hlost => next_eq (streamClockChange_lost ht hlive hlost),
      fun hlive hfound hdown => next_eq (streamClockChange_found ht hlive hfound hdown),
      fun hlive hfound hup => next_eq (streamClockChange_kept ht hlive hfound hup)⟩
  · exact fun s hstopped => strmSettle_undriven hstopped
  · exact fun s hlive hclk hdown => strmSettle_training hlive hclk hdown
  · intro inw s hlive htraining
    exact next_eq (by simp only [streamAligned, hlive, htraining, beq_self_eq_true, Bool.and_self, if_true])
  · intro inw s hlive hup
    have hup' : ((if inw then s.strm.si else s.strm.so) != .down) = true := by simpa using hup
    exact next_eq (by simp only [streamRestart, hlive, hup', Bool.and_self, if_true])
  · intro s hlive hup
    have hup' : (s.strm.si == .down) = false := by simpa using hup
    exact next_eq (by simp only [streamFramingError, hlive, hup', Bool.not_true, Bool.or_self, Bool.false_eq_true, if_false])
  · exact fun s hlive hlate => next_eq (creditTransition_late hlive hlate)
  · exact fun t s hlive h hearly => next_eq (creditTransition_early hlive h hearly)
  · intro t s hstarved hlive hcredits hlate
    exact next_eq (by simp only [creditTimeout, hstarved, hlive, hcredits, hlate, beq_self_eq_true, decide_true, Bool.and_self, if_true])
  · exact fun s hpending hcredits hstarved _ => noteStarve_starts hpending hcredits hstarved
  · exact fun f s hlive hup hcredits hcur hnext => next_eq (streamFrameSend_starts hlive hup hcredits hcur hnext)
  · exact fun f s hlive hup hcredits hcur hleft => next_eq (streamFrameSend_continues hlive hup hcredits hcur hleft)
  · exact fun f s hcur hleft hch => next_eq (streamFrameEnd_message hcur hleft hch)
  · exact fun f s hcur hleft hch => next_eq (streamFrameEnd_events hcur hleft hch)
  · intro f p s hp _
    subst hp
    exact ⟨rfl, dropCurrent_curLeft s⟩
  · exact fun f s hcur hch => dropCurrent_frame hcur hch
  · exact fun r s hcur => strmApply_idle r hcur
  · intro f p s hlive hup hen hrsv hlen hmax
    refine ⟨?_, ?_, ?_, ?_, ?_, ?_⟩
    · exact fun hch htype hparam hitems hpriv htalker =>
        next_eq (streamSubmit_items hlive hup hen hrsv hlen hmax hch htype hparam hitems hpriv htalker)
    · exact fun hlow hhigh htype hmin hparam hfit hfrom hto h30 hzero hpriv htrain hadm =>
        next_eq (streamHostIn_sends hlive hup hen hrsv hlen hmax hlow hhigh htype hmin hparam hfit hfrom hto h30 hzero hpriv htrain hadm)
    · exact fun hch htype hmin hparam hpriv hlink => next_eq (streamYardIn_sends hlive hup hen hrsv hlen hmax hch htype hmin hparam hpriv hlink)
    · exact fun hch htype hmin hparam halign => next_eq (dmaWrite_pieces hlive hup hen hrsv hlen hmax hch htype hmin hparam halign)
    · exact fun d u hch htype height hparam halign hwords hlow hhigh hfew hread =>
        next_eq (dmaRead_data hlive hup hen hrsv hlen hmax hch htype height hparam halign hwords hlow hhigh hfew hread)
    · exact fun hch htype hmin hwords hfit hsome hown hfree =>
        next_eq (streamMessageIn_own hlive hup hen hrsv hlen hmax hch htype hmin hwords hfit hsome hown hfree)
  · exact fun f p s hlive hup hch => next_eq (strmIn_crc hlive hup (decide_eq_true hch) _ _ _ _)
  · exact fun f s => rfl
  · exact fun s => ⟨rfl, rfl⟩
  · exact fun f s => noteSeq_rxSeq f s
  · intro s hsession hdown hlate
    have hquiet := quiet_streamSessionTimeout hsession hdown hlate
    have hrights := strmRights_of_quiet hquiet
    have hkept := (hostKept_of_quiet hquiet).trans (hostKept_sessionEnded _ _)
    have hcleared := hostKept_strmCleared s
    simp only [strmRights, sessionEnded_strm, Prod.mk.injEq] at hrights
    simp only [hostKept, Prod.mk.injEq] at hkept hcleared
    obtain ⟨hsession', hpriv⟩ := hrights
    obtain ⟨hhost, hbell, hdead, hsys⟩ := hkept
    obtain ⟨hhost', hbell', -, hsys'⟩ := hcleared
    refine ⟨_, next_eq rfl, hsession', hpriv, hhost.trans hhost', ?_, ?_, hsys.trans hsys'⟩
    · rw [hbell, hbell']
    · rw [hdead]
      exact contains_noted _ _
  · intro via s c t u hc ht hu hruns hsize hparcel hread hcheck
    subst hc ht hu
    exact next_eq ((firmware_runs hruns).trans (cmdStreamSet_applies hsize hparcel hread hcheck))
  · intro via s c t hc ht hruns
    subst hc ht
    refine next_eq ((firmware_runs hruns).trans ?_)
    simp only [cmdStreamStatus, takenBy_strm]

end Sys2Proof.Laws
end

section
/-!
Events of other cars, the recorder, the write-back and the patrol scrub.
-/

namespace Sys2Proof.Laws

open Sys2Proof Sys2Proof.Machine

/-! Events (R442 to R451). -/

theorem eventStreamFrameClose_late {s : State} (hsome : s.strm.evFrame ≠ []) (hlate : s.strm.evFirst + 1000 ≤ s.clk.c) :
    eventStreamFrameClose s = strmCloseEvents s := by
  have hsome' : s.strm.evFrame.isEmpty = false := by simpa using hsome
  simp only [eventStreamFrameClose, hsome', hlate, decide_true, Bool.or_true, Bool.not_false, Bool.and_self, if_true]

theorem eventFrameReceive_good {m : RxMsg} {s : State} (hfirst : firstMsg (fun m => m.hdr.ftype == ftEvent) s = some m)
    (hform : eventFrameOk m.payload = true) :
    eventFrameReceive s = each ((List.range (be m.payload 0 1)).map fun i => eventAt m.payload (4 + 24 * i)) remoteEvent (takenMsg m s) := by
  refine (withMsg_first hfirst _).trans ?_
  simp only [hform, Bool.not_true, Bool.false_eq_true, if_false]

theorem eventFrameReceive_malformed {m : RxMsg} {s : State} (hfirst : firstMsg (fun m => m.hdr.ftype == ftEvent) s = some m)
    (hform : eventFrameOk m.payload = false) : eventFrameReceive s = cntEv 9 (takenMsg m s) := by
  refine (withMsg_first hfirst _).trans ?_
  simp only [hform, Bool.not_false, if_true]

theorem recorderTake_entry {e : ColEntry} {r : List ColEntry} {s : State} (hruns : loftRuns s = true) (hentry : s.ev.collector = e :: r) :
    recorderTake s = placeLost (takeEntry e (s.onEv fun v => { v with collector := r })) := by
  simp only [recorderTake, hruns, hentry, Bool.not_true, Bool.false_eq_true, if_false]

/-- RECORDER_READ names the first record that it copied. -/
theorem cmdRecorderRead_records {c : Ctx} {s u : State} {y : Nat × List Byte} {l : List (Nat × List Byte)} (hparcel : parcelOk 4 c s = true)
    (hread : readRecords (max (wd64 c.words 1) (retained s).1) (min (wd c.words 3) (wd c.words 5 / 32 + 1)) s = (y :: l, u))
    (hparcel' : parcelOk 4 c u = true) (hfit : 0 < parcelFit 4 ((y :: l).map (·.2)) c) :
    cmdRecorderRead c s = replyOk c [y.1 % 2 ^ 32, y.1 / 2 ^ 32 % 2 ^ 32, parcelFit 4 ((y :: l).map (·.2)) c, (s.ev.recSeq - 1) % 2 ^ 32,
      (s.ev.recSeq - 1) / 2 ^ 32] (parcelPut 4 ((y :: l).map (·.2)) c u) := by
  have hfit' : (parcelFit 4 ((y :: l).map (·.2)) c == 0) = false := by rw [beq_eq_false_iff_ne]; omega
  simp only [cmdRecorderRead]
  rw [withParcel_ok hparcel]
  simp only [hread]
  rw [writeItems_ok hparcel' (.inr hfit)]
  simp only [hfit', Bool.false_eq_true, if_false]

theorem cmdRouteSet_sets {c : Ctx} {s : State} (hsource : wd c.words 1 ≤ 127) (hword : routeBad s.ev.dest (wd c.words 2) = false) :
    cmdRouteSet c s = replyOk c [] ((flushEvents s).onEv fun v => { v with routes := v.routes.set (wd c.words 1) (wordOf (wd c.words 2)) }) := by
  simp only [cmdRouteSet, Nat.not_lt.2 hsource, hword, Bool.false_eq_true, if_false]

/-! Write-back and scrub (R457 to R460, R467). -/

theorem hayloftWriteBack_next {cw : Nat} {r : List Nat} {s : State} (hruns : loftRuns s = true) (hbraced : s.sys.braced = false)
    (hfirst : s.loft.writeBack = cw :: r) :
    hayloftWriteBack s = s.onLoft fun l => { l with writeBack := r, damage := l.damage.filter fun d => !(d.1 == cw && d.2 == .one) } := by
  simp only [hayloftWriteBack, hruns, hbraced, hfirst, Bool.not_true, Bool.or_self, Bool.false_eq_true, if_false]

theorem passes_of_quiet {s t : State} (h : quiet t = quiet s) : t.loft.passes = s.loft.passes := by
  have e := congrArg (fun x : State => x.loft.passes) h
  exact e

/-- Where the scrub stands in its pass. -/
def scrubState (s : State) : Nat × Nat × Bool × Nat := (s.loft.scrubPos, s.loft.scrubAt, s.loft.overdue, s.loft.passes)

theorem scrubState_of_quiet {s t : State} (h : quiet t = quiet s) : scrubState t = scrubState s := by
  have e := congrArg scrubState h
  exact e

theorem suffer_passes (cw found : Nat) (l : LoftSt) : (suffer cw found l).passes = l.passes := by
  unfold suffer
  split <;> rfl

section Scrub

variable {found : Nat} {s : State} (hruns : loftRuns s = true) (hbraced : s.sys.braced = false)

include hruns hbraced

theorem scrubRead_next (hpos : s.loft.scrubPos + 1 < codewordCount) :
    scrubRead found s = (loftCheck (16 * s.loft.scrubPos) 16 256 (s.onLoft (suffer s.loft.scrubPos found))).2.onLoft fun l =>
      { l with scrubPos := s.loft.scrubPos + 1 } := by
  simp only [scrubRead, hruns, hbraced, hpos, scrubWord, Bool.not_true, Bool.or_self, Bool.false_eq_true, if_false, if_true]

/-- The last codeword ends the pass. -/
theorem scrubState_scrubRead_last (hpos : codewordCount ≤ s.loft.scrubPos + 1) :
    scrubState (scrubRead found s) = (0, s.clk.c, false, satAdd 1 s.loft.passes) := by
  have hpasses : (scrubWord s.loft.scrubPos (s.onLoft (suffer s.loft.scrubPos found))).loft.passes = s.loft.passes :=
    (passes_of_quiet (quiet_loftCheck _ _ _ _)).trans (suffer_passes _ _ _)
  simp only [scrubRead, hruns, hbraced, Nat.not_lt.2 hpos, hpasses, Bool.not_true, Bool.or_self, Bool.false_eq_true, if_false]
  exact (scrubState_of_quiet (quiet_raise _ _ _)).trans rfl

end Scrub

theorem scrubOverdue_late {s : State} (hruns : loftRuns s = true) (hfirst : s.loft.overdue = false)
    (hlate : s.loft.scrubAt + s.loft.scrubH * 4500000000000 ≤ s.clk.c) :
    scrubOverdue s = raise 106 (s.loft.passes % 2 ^ 24 * 256 + 2) (s.onLoft fun l => { l with overdue := true }) := by
  simp only [scrubOverdue, hruns, hfirst, hlate, Bool.not_false, decide_true, Bool.and_self, if_true]

theorem regionSize_takenBy (code : Nat) (via : Via) (s : State) (r : Nat) : regionSize (takenBy code via s) r = regionSize s r := by
  unfold regionSize
  rw [takenBy_loft]

/-- Settles O55: the stream and train frames of events, the recorder, the routes, the write-back and the scrub. -/
theorem eventsAndScrub : Obligations.EventsAndScrub := by
  unfold Obligations.EventsAndScrub
  refine ⟨?_, ?_, ?_, ?_, ?_, ?_, ?_, ?_, ?_, ?_, ?_, ?_⟩
  · exact fun s hsome hlate => next_eq (eventStreamFrameClose_late hsome hlate)
  · exact fun m s hfirst hform => next_eq (eventFrameReceive_good hfirst hform)
  · exact fun m s hfirst hform => next_eq (eventFrameReceive_malformed hfirst hform)
  · exact fun e n r s hruns hentry => next_eq (recorderTake_entry hruns hentry)
  · exact fun src n r s hruns hentry => next_eq (recorderTake_entry hruns hentry)
  · intro via s c t y l u hc ht hruns hparcel hread hparcel' hfit
    subst hc ht
    have hrec : (takenBy 0xA01 via s).ev.recSeq = s.ev.recSeq := by rw [takenBy_ev]
    rw [← hrec]
    exact next_eq ((firmware_runs hruns).trans (cmdRecorderRead_records hparcel hread hparcel' hfit))
  · intro via s c hc hruns hsource hword
    subst hc
    exact next_eq ((firmware_runs hruns).trans (cmdRouteSet_sets hsource (by rw [takenBy_ev, hword])))
  · exact fun cw r s hruns hbraced hfirst => next_eq (hayloftWriteBack_next hruns hbraced hfirst)
  · exact fun found s hruns hbraced hpos => next_eq (scrubRead_next hruns hbraced hpos)
  · intro found s hruns hbraced hpos
    have hstate := scrubState_scrubRead_last (found := found) hruns hbraced hpos
    simp only [scrubState, Prod.mk.injEq] at hstate
    exact ⟨_, next_eq rfl, hstate⟩
  · exact fun s hruns hfirst hlate => next_eq (scrubOverdue_late hruns hfirst hlate)
  · intro via s c hc hruns
    subst hc
    refine next_eq ((firmware_runs hruns).trans ?_)
    simp only [cmdHayloftStatus, takenBy_loft, takenBy_sys, regionSize_takenBy]

end Sys2Proof.Laws
end

section
/-!
Parcels, flash slots and the diagnostic commands.
-/

namespace Sys2Proof.Laws

open Sys2Proof Sys2Proof.Machine

/-! Reservations (R390). -/

theorem takenBy_parcels (code : Nat) (via : Via) (s : State) : (takenBy code via s).cmd.parcels = s.cmd.parcels := by
  unfold takenBy
  split
  · rfl
  · cases via <;> rfl

theorem regionBase_takenBy (code : Nat) (via : Via) (s : State) (r : Nat) : regionBase (takenBy code via s) r = regionBase s r := by
  induction r with
  | zero => rfl
  | succ r ih => rw [regionBase, regionBase, ih, regionSize_takenBy]

theorem parcelGaps_takenBy (code : Nat) (via : Via) (s : State) : parcelGaps (takenBy code via s) = parcelGaps s := by
  simp only [parcelGaps, takenBy_parcels, regionBase_takenBy]

/-- The places of all ranges are counted through. -/
theorem placeAt_some {n : Nat} {gaps : List (Nat × Nat)} : ∀ {k : Nat}, k < (gaps.map (placesIn n)).sum → ∃ a, placeAt n k gaps = some a := by
  induction gaps with
  | nil => intro k hk; simp at hk
  | cons g gaps ih =>
    intro k hk
    by_cases hhere : k < placesIn n g
    · exact ⟨_, if_pos hhere⟩
    · rw [List.map_cons, List.sum_cons] at hk
      obtain ⟨a, ha⟩ := ih (k := k - placesIn n g) (by omega)
      exact ⟨a, (if_neg hhere).trans ha⟩

theorem places_pos {n : Nat} {gaps : List (Nat × Nat)} (h : ∃ g ∈ gaps, n ≤ g.2) : 0 < (gaps.map (placesIn n)).sum := by
  obtain ⟨g, hg, hn⟩ := h
  have hplace : 0 < placesIn n g := by simp [placesIn, hn]
  exact Nat.lt_of_lt_of_le hplace (List.single_le_sum (fun _ _ => Nat.zero_le _) _ (List.mem_map_of_mem hg))

theorem cmdParcelAlloc_at {c : Ctx} {s : State} {a : Nat} (hsome : wd c.words 1 ≠ 0) (halign : wd c.words 1 % 64 = 0)
    (hplace : placeAt (wd c.words 1) (freeNat 32 s % ((parcelGaps s).map (placesIn (wd c.words 1))).sum) (parcelGaps s) = some a) :
    cmdParcelAlloc c s = replyOk c [a] ((tookFree s).onCmd fun q =>
      { q with parcels := { addr := a, len := wd c.words 1, session := sessKey s c } :: q.parcels }) := by
  have hsome' : (wd c.words 1 == 0) = false := by simpa using hsome
  simp only [cmdParcelAlloc, hsome', halign, hplace, bne_self_eq_false, Bool.or_self, Bool.false_eq_true, if_false]

section Free

variable {c : Ctx} {s : State}

theorem cmdParcelFree_own (h : s.cmd.parcels.any (fun p => p.addr == wd c.words 1 && p.session == sessKey s c) = true) :
    cmdParcelFree c s = replyOk c [] (s.onCmd fun q =>
      { q with parcels := q.parcels.filter fun p => !(p.addr == wd c.words 1 && p.session == sessKey s c) }) := by
  simp only [cmdParcelFree, h, if_true]

theorem cmdParcelFree_unknown (h : s.cmd.parcels.any (fun p => p.addr == wd c.words 1 && p.session == sessKey s c) = false) :
    cmdParcelFree c s = notFound c s := by
  simp only [cmdParcelFree, h, Bool.false_eq_true, if_false]

end Free

/-! Flash (R405, R466, R486). -/

theorem rsaWaiting_holdSerial (c : Ctx) (s : State) : rsaWaiting false (holdSerial c s) = rsaWaiting false s := rfl

/-- A serialised command that has room in the public unit begins to hold, and waits there. -/
theorem rsaPut_holding {job : RsaJob} {data : List Byte} {c : Ctx} {s : State} (h : rsaWaiting false s < 16) :
    rsaPut false job data c (if rsaWaiting false s < 16 then holdSerial c s else s)
      = rsaBegin ((holdSerial c s).onSec fun x => { x with rsaPub := x.rsaPub ++ [Job.mk c job data] }) := by
  rw [if_pos h]
  exact rsaPut_pub (by rw [rsaWaiting_holdSerial]; exact h)

theorem cmdSlotWrite_checks {c : Ctx} {s : State} (hslot : wd c.words 1 ≤ 3) (hparcel : parcelOk 2 c s = true) (hread : (parcelRead 2 c s).1 = true)
    (hfree : slotInUse (parcelRead 2 c s).2 (wd c.words 1) = false) (hdev : (parcelRead 2 c s).2.sys.dev ≠ .recovery ∨ wd c.words 1 < 2)
    (hgood : slotRefusal (parcelRead 2 c s).2 (wd c.words 1) (parcelBytes 2 c s) = none) (hroom : rsaWaiting false (parcelRead 2 c s).2 < 16) :
    cmdSlotWrite c s = rsaBegin ((holdSerial c (parcelRead 2 c s).2).onSec fun x =>
      { x with rsaPub := x.rsaPub ++ [Job.mk c .slotWrite (parcelBytes 2 c s)] }) := by
  have hdev' : ((parcelRead 2 c s).2.sys.dev == .recovery && decide (2 ≤ wd c.words 1)) = false := by
    obtain hother | himage := hdev
    · rw [beq_eq_false_iff_ne.2 hother, Bool.false_and]
    · rw [decide_eq_false (Nat.not_le.2 himage), Bool.and_false]
  simp only [cmdSlotWrite, Nat.not_lt.2 hslot, if_false]
  rw [readParcel_ok hparcel hread]
  simp only [hfree, hdev', hgood, Bool.or_self, Bool.false_eq_true, if_false]
  exact rsaPut_holding hroom

theorem slotOf_takenBy (code : Nat) (via : Via) (s : State) (n : Nat) : slotOf (takenBy code via s) n = slotOf s n := by
  simp only [slotOf, takenBy_flash]

theorem cmdSlotInfo_slot {c : Ctx} {s : State} (hslot : wd c.words 1 ≤ 3) :
    cmdSlotInfo c s = replyOk c ([b2n (slotOf s (wd c.words 1)).valid]
      ++ (if wd c.words 1 < 2 then [wd (slotOf s (wd c.words 1)).words 1, bits (slotOf s (wd c.words 1)).words 2 31 24]
          else [wd (slotOf s (wd c.words 1)).words 3, wd (slotOf s (wd c.words 1)).words 4])
      ++ nonceWords (slotMeas (wd c.words 1) (wordBytes (slotOf s (wd c.words 1)).words))) s := by
  simp only [cmdSlotInfo, Nat.not_lt.2 hslot, if_false]

section Flash

variable {o : FlashOp} {s : State} (hop : s.flash.op = some o) (hstarted : o.started = true)

include hop hstarted

theorem flashOperationDone_verified : flashOperationDone true s = drain 9 (flashOk o s) := by
  simp only [flashOperationDone, hop, hstarted, Bool.not_true, Bool.false_eq_true, if_false, if_true]

theorem flashOperationDone_retries (hretried : o.retried = false) :
    flashOperationDone false s = s.onFlash fun f => { f with op := some { o with retried := true, started := !s.sys.braced } } := by
  simp only [flashOperationDone, hop, hstarted, hretried, Bool.not_true, Bool.not_false, Bool.false_eq_true, if_false, if_true]

theorem flashOperationDone_fails (hretried : o.retried = true) : flashOperationDone false s = drain 9 (flashFailed o s) := by
  simp only [flashOperationDone, hop, hstarted, hretried, Bool.not_true, Bool.false_eq_true, if_false]

end Flash

theorem reserveSectorErase_starts {s : State} (hdev : s.sys.dev = .stopped) (hneeded : s.flash.reserve = false) (hidle : s.flash.op = none)
    (hbraced : s.sys.braced = false) : reserveSectorErase s
      = flashStart { erase := true, addr := 0xCC0000, retried := false, started := true, slot := 4, words := [], ctx := none } s := by
  simp only [reserveSectorErase, hdev, hneeded, hidle, hbraced, beq_self_eq_true, Bool.not_false, Option.isNone_none, Bool.and_self, if_true]

/-! Tests (R25, R39, R404). -/

theorem endOf_takenBy (code : Nat) (via : Via) (s : State) (endB : Bool) : endOf (takenBy code via s) endB = endOf s endB := by
  simp only [endOf, takenBy_ends]

section Tests

variable {c : Ctx} {s : State} (hword : wd c.words 1 ≤ 3)

include hword

theorem cmdLoopback_on (hdev : s.sys.dev = .test) (hon : natBit (wd c.words 1) 1 = true) :
    cmdLoopback c s = replyOk c [] (setBypass (natBit (wd c.words 1) 0) .low (setEnd (natBit (wd c.words 1) 0) .loopback s)) := by
  simp only [cmdLoopback, Nat.not_lt.2 hword, hdev, hon, bne_self_eq_false, Bool.false_eq_true, if_false, if_true]

theorem cmdLoopback_refused (hdev : s.sys.dev ≠ .test) : cmdLoopback c s = stateError c s := by
  have hdev' : (s.sys.dev != .test) = true := by simpa using hdev
  simp only [cmdLoopback, Nat.not_lt.2 hword, hdev', if_false, if_true]

variable (hdev : s.sys.dev = .test) (hend : (endOf s (natBit (wd c.words 1) 0)).st = .loopback)

include hdev hend

theorem cmdLanePrbs_start (hon : natBit (wd c.words 1) 1 = true) :
    cmdLanePrbs c s = replyOk c [0, 0, 0] (onEnd (natBit (wd c.words 1) 0) (fun e => { e with prbs := true }) s) := by
  simp only [cmdLanePrbs, Nat.not_lt.2 hword, hdev, hend, hon, bne_self_eq_false, Bool.or_self, Bool.false_eq_true, if_false, if_true]

/-- What the lane found is a free value. -/
theorem cmdLanePrbs_stop (hoff : natBit (wd c.words 1) 1 = false) (hrunning : (endOf s (natBit (wd c.words 1) 0)).prbs = true) :
    cmdLanePrbs c s = replyOk c [freeNat 96 s % 2 ^ 32, freeNat 96 s / 2 ^ 32 % 2 ^ 32, freeNat 96 s / 2 ^ 64]
      (tookFree (onEnd (natBit (wd c.words 1) 0) (fun e => { e with prbs := false }) s)) := by
  simp only [cmdLanePrbs, Nat.not_lt.2 hword, hdev, hend, hoff, hrunning, bne_self_eq_false, Bool.or_self, Bool.not_true, Bool.false_eq_true, if_false]

end Tests

/-- Settles O56: the reservations, the flash slots and their operations, and the tests. -/
theorem parcelsAndFlash : Obligations.ParcelsAndFlash := by
  unfold Obligations.ParcelsAndFlash
  refine ⟨?_, ?_, ?_, ?_, ?_, ?_, ?_, ?_, ?_, ?_, ?_, ?_, ?_, ?_⟩
  · intro via s c hc hruns hsome halign hroom
    subst hc
    obtain ⟨a, ha⟩ := placeAt_some (Nat.mod_lt (freeNat 32 (takenBy 0xB01 via s)) (places_pos hroom))
    refine ⟨_, a, ha, next_eq ((firmware_runs hruns).trans (cmdParcelAlloc_at hsome halign ?_))⟩
    rw [parcelGaps_takenBy]
    exact ha
  · intro via s c t hc ht hruns hown
    subst hc ht
    exact next_eq ((firmware_runs hruns).trans (cmdParcelFree_own hown))
  · intro via s c t hc ht hruns hunknown
    subst hc ht
    exact next_eq ((firmware_runs hruns).trans (cmdParcelFree_unknown hunknown))
  · intro via s c t u p hc ht hu hp hruns hslot hparcel hread hfree hdev hgood hroom
    subst hc ht hu hp
    exact next_eq ((firmware_runs hruns).trans (cmdSlotWrite_checks hslot hparcel hread hfree hdev hgood hroom))
  · intro via s c x hc hx hruns hslot
    subst hc hx
    refine next_eq ((firmware_runs hruns).trans ((cmdSlotInfo_slot hslot).trans ?_))
    rw [slotOf_takenBy]
  · exact fun o s hop hstarted => next_eq (flashOperationDone_verified hop hstarted)
  · exact fun o s hop hstarted hretried => next_eq (flashOperationDone_retries hop hstarted hretried)
  · exact fun o s hop hstarted hretried => next_eq (flashOperationDone_fails hop hstarted hretried)
  · exact fun s hdev hneeded hidle hbraced => next_eq (reserveSectorErase_starts hdev hneeded hidle hbraced)
  · intro via s c hc hruns
    subst hc
    refine next_eq ((firmware_runs hruns).trans ?_)
    simp only [cmdDiagRead, takenBy_sys]
  · intro via s c hc hruns hword hdev hon
    subst hc
    exact next_eq ((firmware_runs hruns).trans (cmdLoopback_on hword (by rw [takenBy_sys, hdev]) hon))
  · intro via s c hc hruns hword hdev
    subst hc
    exact next_eq ((firmware_runs hruns).trans (cmdLoopback_refused hword (by rwa [takenBy_sys])))
  · intro via s c b hc hb hruns hword hdev hend hon
    subst hc hb
    exact next_eq ((firmware_runs hruns).trans (cmdLanePrbs_start hword (by rw [takenBy_sys, hdev]) (by rw [endOf_takenBy, hend]) hon))
  · intro via s c b hc hb hruns hword hdev hend hoff hrunning
    subst hc hb
    exact ⟨_, _, _, next_eq ((firmware_runs hruns).trans
      (cmdLanePrbs_stop hword (by rw [takenBy_sys, hdev]) (by rw [endOf_takenBy, hend]) hoff (by rw [endOf_takenBy, hrunning])))⟩

end Sys2Proof.Laws
end

section
/-!
Device, session, train and plan commands.
-/

namespace Sys2Proof.Laws

open Sys2Proof Sys2Proof.Machine

/-! What taking a message leaves of the parts that these commands read. -/

theorem ringClosed_takenBy (code : Nat) (via : Via) (s : State) : ringClosed (takenBy code via s) = ringClosed s := by
  unfold takenBy
  split
  · rfl
  · cases via <;> rfl

theorem pLine_takenBy (code : Nat) (via : Via) (s : State) : pLine (takenBy code via s) = pLine s := by simp only [pLine, takenBy_rcp]

theorem topology_takenBy (code : Nat) (via : Via) (s : State) : topology (takenBy code via s) = topology s := by
  simp only [topology, pLine_takenBy, ringClosed_takenBy]

theorem endsByte_takenBy (code : Nat) (via : Via) (s : State) : endsByte (takenBy code via s) = endsByte s := by
  simp only [endsByte, coupled, pNoPresence, endOf, takenBy_ends, takenBy_rcp]

theorem planId_congr {s t : State} (h : t.plan = s.plan) : planId t = planId s := by simp only [planId, h]

theorem planLoaded_congr {s t : State} (h : t.plan = s.plan) : planLoaded t = planLoaded s := by simp only [planLoaded, h]

theorem markedWithoutMark_takenBy (code : Nat) (via : Via) (s : State) : markedWithoutMark (takenBy code via s) = markedWithoutMark s := by
  simp only [markedWithoutMark, chIsOut, chMode, chMarked, chMark, chRec_takenBy, markRec, takenBy_plan]

theorem startReady_takenBy (code : Nat) (via : Via) (s : State) : startReady (takenBy code via s) = startReady s := by
  simp only [startReady, takenBy_sys, takenBy_rcp, planLoaded_congr (takenBy_plan code via s)]

/-! Sessions (R392). -/

theorem cmdSessionOpen_host {c : Ctx} {m : Nat} {s : State} (hvia : c.via = .manger m) (hport : m < 10) (hnotify : wd c.words 1 ≤ 9)
    (hfree : s.host.session = 0) :
    cmdSessionOpen c s = replyOk { c with session := nextSession s } [nextSession s] (raise 112 (nextSession s * 65536 + 1) ((giveSession s).onHost fun h =>
      { h with session := nextSession s, priv := .observe, scope := 0, operKey := 0, notify := wd c.words 1 })) := by
  have hhost : onHostPort c = true := by simp [onHostPort, hvia, hport]
  have hnone : portSession c s = 0 := by simp [portSession, hvia, hport, hfree]
  simp only [cmdSessionOpen, hhost, Nat.not_lt.2 hnotify, hnone, hvia, hport, decide_false, Bool.and_false, Bool.not_true, Bool.false_and, Bool.or_self,
    bne_self_eq_false, Bool.false_eq_true, if_false, if_true]

theorem cmdSessionOpen_stream {c : Ctx} {m : Nat} {s : State} (hvia : c.via = .manger m) (hlow : 10 ≤ m) (hhigh : m < 12) (hzero : wd c.words 1 = 0)
    (hfree : s.strm.session = 0) :
    cmdSessionOpen c s = replyOk { c with session := nextSession s } [nextSession s] (raise 112 (nextSession s * 65536 + 1) ((giveSession s).onStrm fun x =>
      { x with session := nextSession s, priv := .observe, scope := 0, operKey := 0 })) := by
  have hother : onHostPort c = false := by simp [onHostPort, hvia, hlow]
  have hnone : portSession c s = 0 := by simp [portSession, hvia, Nat.not_lt.2 hlow, hhigh, hfree]
  simp only [cmdSessionOpen, hother, hzero, hnone, hvia, Nat.not_lt.2 hlow, hhigh, Bool.false_and, Bool.and_false, Bool.or_self, bne_self_eq_false,
    Bool.false_eq_true, if_false, if_true]

theorem cmdSessionClose_host {c : Ctx} {m : Nat} {s : State} (hvia : c.via = .manger m) (hport : m < 10) (hsome : c.session ≠ 0)
    (hown : s.host.session = c.session) :
    cmdSessionClose c s = replyOk c [] (raise 112 (c.session * 65536 + 2) (operEnd (operHeld s.host.priv s.host.operKey)
      (freeParcels c.session (s.onHost fun h => { h with session := 0, priv := .observe, scope := 0, operKey := 0 })))) := by
  have hown' : ownSession c s = true := by simp [ownSession, hvia, hport, hsome, hown]
  simp only [cmdSessionClose, hown', hvia, hport, Bool.not_true, Bool.false_eq_true, if_false, if_true]

/-! State transitions (R26). -/

theorem cmdStart_begins {c : Ctx} {s : State} (hready : startReady s = true) (hmarks : markedWithoutMark s = false) :
    cmdStart c s = replyOk c [] (startNow s) := by
  simp only [cmdStart, hready, hmarks, Bool.not_true, Bool.false_eq_true, if_false]

theorem cmdStart_unmarked {c : Ctx} {s : State} (hmarks : markedWithoutMark s = true) : cmdStart c s = badParam c 0 0 s := by
  simp only [cmdStart, hmarks, if_true]

theorem cmdStart_notReady {c : Ctx} {s : State} (hmarks : markedWithoutMark s = false) (hready : startReady s = false) : cmdStart c s = stateError c s := by
  simp only [cmdStart, hready, hmarks, Bool.not_false, Bool.false_eq_true, if_false, if_true]

theorem cmdTest_enters {c : Ctx} {s : State} (hdev : s.sys.dev = .stopped) : cmdTest c s = replyOk c [] (setDev .test (setRole .none 0 false s)) := by
  simp only [cmdTest, hdev, bne_self_eq_false, Bool.false_eq_true, if_false]

theorem cmdAdmissionRetry_asks {c : Ctx} {s : State} (hdev : s.sys.dev = .integrating) (hrole : s.inaug.role = .guest) :
    cmdAdmissionRetry c s = replyOk c [] (s.onInaug fun x => { x with retryAsked := true }) := by
  simp only [cmdAdmissionRetry, hdev, hrole, beq_self_eq_true, Bool.and_self, if_true]

/-! Plan and images (R184, R398). -/

theorem plan_parcelPut (i : Nat) (items : List (List Byte)) (c : Ctx) (s : State) : (parcelPut i items c s).plan = s.plan :=
  plan_of_quiet (quiet_loftWrite _ _ _ _)

theorem cmdPlanRead_loaded {c : Ctx} {s : State} (hloaded : planLoaded s = true) (hparcel : parcelOk 1 c s = true)
    (hfit : 0 < parcelFit 1 (wordBytes s.plan.hdr :: s.plan.entries.map wordBytes) c) :
    cmdPlanRead c s = replyOk c [bits s.plan.hdr 1 15 0, planId s] (parcelPut 1 (wordBytes s.plan.hdr :: s.plan.entries.map wordBytes) c s) := by
  simp only [cmdPlanRead, hloaded, Bool.not_true, Bool.false_eq_true, if_false]
  rw [writeItems_ok hparcel (.inr hfit), plan_parcelPut, planId_congr (plan_parcelPut _ _ _ _)]

theorem cmdMarkSet_sets {c : Ctx} {s : State} (hmark : wd c.words 1 ≤ 15) (hdev : s.sys.dev = .stopped) (hloaded : planLoaded s = true)
    (hcheck : markCheck s.plan.hdr ((c.words.drop 2).take 2) = none) :
    cmdMarkSet c s = replyOk c [] (s.onPlan fun p => { p with marks := p.marks.set (wd c.words 1) ((c.words.drop 2).take 2) }) := by
  simp only [cmdMarkSet, Nat.not_lt.2 hmark, hdev, hloaded, hcheck, bne_self_eq_false, Bool.not_true, Bool.or_self, Bool.false_eq_true, if_false, if_true]

theorem cmdBindingSet_sets {c : Ctx} {s : State} {n : Nat} {bs : List Word} (hn : n = le (parcelBytes 1 c s) 0 4)
    (hbs : bs = (bytesWords ((parcelBytes 1 c s).drop 4)).take n) (hparcel : parcelOk 1 c s = true) (hread : (parcelRead 1 c s).1 = true)
    (hmax : n ≤ 1024) (hlen : 4 + 4 * n ≤ (parcelBytes 1 c s).length) (hdev : (parcelRead 1 c s).2.sys.dev = .stopped)
    (hloaded : planLoaded (parcelRead 1 c s).2 = true) (hcheck : bindCheck (parcelRead 1 c s).2.plan.entries bs = none) :
    cmdBindingSet c s = replyOk c [] (setBinds bs (parcelRead 1 c s).2) := by
  have hmin : ¬ (parcelBytes 1 c s).length < 4 := by omega
  simp only [cmdBindingSet]
  rw [readParcel_ok hparcel hread]
  simp only [← hn, ← hbs, hmin, Nat.not_lt.2 hlen, Nat.not_lt.2 hmax, hmax, hdev, hloaded, hcheck, bne_self_eq_false, decide_true, decide_false,
    Bool.and_false, Bool.and_self, Bool.not_true, Bool.or_self, Bool.false_eq_true, if_false, if_true]

/-! Recipes and unknown commands (R392, R410). -/

theorem cmdRecipeActivate_checks {c : Ctx} {s : State} (hslot : wd c.words 1 ≤ 1) (hdev : s.sys.dev = .stopped) (hkat : s.sys.katFail = false)
    (hroom : rsaWaiting false s < 16) :
    cmdRecipeActivate c s = rsaBegin ((holdSerial c s).onSec fun x => { x with rsaPub := x.rsaPub ++ [Job.mk c .recipeActivate []] }) := by
  simp only [cmdRecipeActivate, Nat.not_lt.2 hslot, hdev, hkat, bne_self_eq_false, Bool.or_self, Bool.false_eq_true, if_false]
  exact rsaPut_holding hroom

theorem cmdRecipeActivate_broken {c : Ctx} {s : State} (hslot : wd c.words 1 ≤ 1) (hkat : s.sys.katFail = true) :
    cmdRecipeActivate c s = stateError c s := by
  simp only [cmdRecipeActivate, Nat.not_lt.2 hslot, hkat, Bool.or_true, if_false, if_true]

theorem ctxOf_words (s : State) (via : Via) (ws : List Word) : (ctxOf s via ws).words = ws := by
  cases via with
  | manger n =>
    simp only [ctxOf]
    split
    · split <;> rfl
    · split
      · split <;> rfl
      · rfl
  | yard k =>
    simp only [ctxOf]
    cases sessOf s k <;> rfl

theorem unknownCommandCode_refuses {via : Via} {ws : List Word} {s : State} (hmsgs : takesMsgs s = true) (hready : s.cmd.ready = none)
    (hturn : hasTurn s via = true) (hwaiting : waitingMsg s via = some ws) (hunknown : knownCodes.contains (msgCode ws) = false) :
    unknownCommandCode via s = reply (ctxOf s via ws) 2 (msgCode ws) [] (takeMsg via s) := by
  have hfirst : readyFirst s = false := by simp only [readyFirst, hready]
  simp only [unknownCommandCode, hmsgs, hready, Option.filter_none, hfirst, hturn, hwaiting, hunknown, badCode, ctxOf_words, Bool.not_true, Bool.or_self,
    Bool.false_eq_true, if_false]

/-- Settles O57: the device, session, train and plan commands, and a code that no command has. -/
theorem deviceCommands : Obligations.DeviceCommands := by
  unfold Obligations.DeviceCommands
  refine ⟨?_, ?_, ?_, ?_, ?_, ?_, ?_, ?_, ?_, ?_, ?_, ?_, ?_, ?_, ?_, ?_, ?_, ?_, ?_, ?_, ?_, ?_, ?_⟩
  · intro via s c t hc ht hruns
    subst hc ht
    refine next_eq ((firmware_runs hruns).trans ?_)
    simp only [cmdDeviceId, takenBy_sys]
  · exact fun s => rfl
  · intro via s c t hc ht hruns
    subst hc ht
    refine next_eq ((firmware_runs hruns).trans ?_)
    simp only [cmdDeviceStatus, takenBy_rcp, takenBy_sec, planId_congr (takenBy_plan 0x002 via s)]
  · intro m s c t n hc ht hn hruns hvia hport hnotify hfree
    subst hc ht hn
    exact next_eq ((firmware_runs hruns).trans (cmdSessionOpen_host hvia hport hnotify hfree))
  · intro m s c t n hc ht hn hruns hvia hlow hhigh hzero hfree
    subst hc ht hn
    exact next_eq ((firmware_runs hruns).trans (cmdSessionOpen_stream hvia hlow hhigh hzero (by rw [takenBy_strm, hfree])))
  · intro m s c t hc ht hruns hvia hport hsome hown
    subst hc ht
    exact next_eq ((firmware_runs hruns).trans (cmdSessionClose_host hvia hport hsome hown))
  · intro via s c hc hruns hready hmarks
    subst hc
    exact next_eq ((firmware_runs hruns).trans (cmdStart_begins (by rw [startReady_takenBy, hready]) (by rw [markedWithoutMark_takenBy, hmarks])))
  · intro via s c hc hruns hmarks
    subst hc
    exact next_eq ((firmware_runs hruns).trans (cmdStart_unmarked (by rw [markedWithoutMark_takenBy, hmarks])))
  · intro via s c hc hruns hmarks hready
    subst hc
    exact next_eq ((firmware_runs hruns).trans (cmdStart_notReady (by rw [markedWithoutMark_takenBy, hmarks]) (by rw [startReady_takenBy, hready])))
  · intro via s c hc hruns hdev
    subst hc
    exact next_eq ((firmware_runs hruns).trans (cmdTest_enters (by rw [takenBy_sys, hdev])))
  · intro via s c hc hruns
    subst hc
    refine next_eq ((firmware_runs hruns).trans ?_)
    simp only [cmdTrainStatus, takenBy_inaug, takenBy_sec, topology_takenBy]
  · intro via s c t l hc ht hl hruns hparcel hfit
    subst hc ht hl
    refine next_eq ((firmware_runs hruns).trans ?_)
    simp only [cmdRosterRead, takenBy_inaug]
    exact writeItems_ok hparcel hfit
  · intro via s c t l hc ht hl hruns hparcel hfit
    subst hc ht hl
    refine next_eq ((firmware_runs hruns).trans ?_)
    rw [cmdSourceRead, takenBy_lane]
    exact writeItems_ok hparcel hfit
  · intro via s c hc hruns
    subst hc
    refine next_eq ((firmware_runs hruns).trans ?_)
    simp only [cmdCouplerStatus, endsByte_takenBy, takenBy_ends]
  · intro via s c hc hruns hdev hrole
    subst hc
    exact next_eq ((firmware_runs hruns).trans (cmdAdmissionRetry_asks (by rw [takenBy_sys, hdev]) (by rw [takenBy_inaug, hrole])))
  · intro via s c t l hc ht hl hruns hloaded hparcel hfit
    subst hc ht hl
    have hplan := takenBy_plan 0x301 via s
    refine next_eq ((firmware_runs hruns).trans ((cmdPlanRead_loaded ?_ hparcel ?_).trans ?_))
    · rw [planLoaded_congr hplan, hloaded]
    · rw [hplan]
      exact hfit
    · rw [hplan, planId_congr hplan]
  · intro via s c t l hc ht hl hruns hparcel hfit
    subst hc ht hl
    refine next_eq ((firmware_runs hruns).trans ?_)
    rw [cmdImageDirectory, takenBy_plan]
    exact writeItems_ok hparcel hfit
  · intro via s c hc hruns hmark hdev hloaded hcheck
    subst hc
    have hplan := takenBy_plan 0x303 via s
    exact next_eq ((firmware_runs hruns).trans
      (cmdMarkSet_sets hmark (by rw [takenBy_sys, hdev]) (by rw [planLoaded_congr hplan, hloaded]) (by rw [hplan, hcheck])))
  · intro via s c t u p n bs hc ht hu hp hn hbs hruns hparcel hread hmax hlen hdev hloaded hcheck
    subst hc ht hu hp
    exact next_eq ((firmware_runs hruns).trans (cmdBindingSet_sets hn hbs hparcel hread hmax hlen hdev hloaded hcheck))
  · intro via s c t l hc ht hl hruns hparcel hfit
    subst hc ht hl
    refine next_eq ((firmware_runs hruns).trans ?_)
    rw [cmdCouplingRead, takenBy_plan]
    exact writeItems_ok hparcel (.inr hfit)
  · intro via s c t hc ht hruns hslot hdev hkat hroom
    subst hc ht
    exact next_eq ((firmware_runs hruns).trans (cmdRecipeActivate_checks hslot (by rw [takenBy_sys, hdev]) (by rw [takenBy_sys, hkat]) hroom))
  · intro via s c t hc ht hruns hslot hkat
    subst hc ht
    exact next_eq ((firmware_runs hruns).trans (cmdRecipeActivate_broken hslot (by rw [takenBy_sys, hkat])))
  · exact fun via ws s hmsgs hready hturn hwaiting hunknown => next_eq (unknownCommandCode_refuses hmsgs hready hturn hwaiting hunknown)

end Sys2Proof.Laws
end
